-- ==== Sys2Proof/Word.lean ====
section
/-! DEFINITION. The word types of the Z20 registers, scalar unit and memories (R7, R8), and the type of a
sparse store. Only types stand here; every operation over them is in Machine/. -/

namespace Sys2Proof

/-- A 32-bit register or scalar word (R13, R59). -/
abbrev Word := BitVec 32

/-- A byte of a memory. -/
abbrev Byte := BitVec 8

/-- A sparse store: keys strictly rising, and no entry equal to the store's default. -/
abbrev Store (α : Type) := List (Nat × α)

end Sys2Proof
end

