-- ==== Sys2Proof/Syntax.lean ====
section
/-! DEFINITION. The syntax of the block's commands: `Instr` has one constructor for every row of the opcode table, with
the row's operands. A thread's, an array's or an engine's command names the core, thread, stream or engine that takes
the step and finds the rest in the machine's own state; a command that reaches the block through a register names the
master and finds its arguments in the registers; an event that the block only measures or receives (a temperature, a
lock, a flit, a peer's report) carries what was measured or received as operands (log 9). -/

namespace Sys2Proof

/-- The two control masters (R441). -/
inductive Master where
  | pcie | mgt
  deriving DecidableEq, Repr

/-- The queues whose guarded commands reach a write point (R131). -/
inductive CmdUnit where
  | load | stream | fls
  deriving DecidableEq, Repr

/-- What pier 0 learns of one device of the partition (R31, R212). -/
structure PierReport where
  dev : Nat
  missing : Bool
  running : Bool
  s : Nat
  digest : Nat
  strict : Bool
  deriving DecidableEq, Repr

/-- A half-slot as it arrives on the data lines (R261): its 30 code words with the wrong bits they have, the half-slot check and the
framing word. -/
structure HalfSlot where
  /-- Half-slot number within the sender's frame. -/
  h : Nat
  /-- How far past the tick its first bit arrives, in 1/16 tick. -/
  sub : Nat
  words : List (BitVec 1056)
  check : Word
  framing : Word
  /-- Class of the buffer credit that was spent for each flit, 0 for an S-class flit (R231; log 38). -/
  cls : List (Fin 3)
  deriving DecidableEq, Repr

/-- The header of a flit that arrives, and the class of the buffer credit that was spent for it, 0 for an S-class flit (R221, R231;
log 38). -/
structure FlitHead where
  bits : BitVec 128
  cls : Fin 3
  deriving DecidableEq, Repr

/-- The two copies of an alarm word as they arrive on line 31, each with its CRC-8 (R234). -/
structure AlarmCopies where
  word : BitVec 64
  crc : BitVec 8
  again : BitVec 64
  crcAgain : BitVec 8
  deriving DecidableEq, Repr

/-- A frame received on the management segment (R435, R436). -/
structure Frame where
  fcsOk : Bool
  dst : Nat
  src : Nat
  etype : Nat
  /-- Bytes from VER on. -/
  bytes : List Byte
  deriving DecidableEq, Repr

/-- One block compared or voted on: its engine, group, slot, bank and block; the peer's copy, and the buddy copy, each as
data and sidecar bytes (R361, R362). -/
structure VoteItem where
  engine : Nat
  group : Nat
  slot : Nat
  bank : Nat
  block : Nat
  data : List Byte
  side : List Byte
  buddyData : List Byte
  buddySide : List Byte
  deriving DecidableEq, Repr


/-- The commands of the block: one constructor per row of the opcode table. -/
inductive Instr where
  /-- ALU (R124): A thread executes a scalar register-register operation selected by FN and writes its result and flags. -/
  | alu (c : Fin 256) (t : Fin 16)
  /-- ALUI (R124): A thread executes a scalar register-immediate operation selected by FN and writes its result and flags. -/
  | alui (c : Fin 256) (t : Fin 16)
  /-- LUI (R123): A thread loads IMM20 shifted left by 12 into a general register. -/
  | lui (c : Fin 256) (t : Fin 16)
  /-- LDW (R123): A thread loads a 32-bit word from core memory into a general register. -/
  | ldw (c : Fin 256) (t : Fin 16)
  /-- STW (R123): A thread stores a general register to a 32-bit word of core memory. -/
  | stw (c : Fin 256) (t : Fin 16)
  /-- BR (R125): A thread branches relative to PC when COND holds on its flags. -/
  | br (c : Fin 256) (t : Fin 16)
  /-- BSUM (R133): A thread waits for its earlier chains, then branches on a bit of SUM0. -/
  | bsum (c : Fin 256) (t : Fin 16)
  /-- JAL (R123): A thread jumps relative to PC and writes PC + 4 to RD. -/
  | jal (c : Fin 256) (t : Fin 16)
  /-- JALR (R123): A thread jumps to a register address plus an offset and writes PC + 4 to RD. -/
  | jalr (c : Fin 256) (t : Fin 16)
  /-- MFS (R133): A thread waits for its earlier chains, then copies half of a summary register into a general register. -/
  | mfs (c : Fin 256) (t : Fin 16)
  /-- MFSYS (R126): A thread reads the system value that SEL selects into a general register. -/
  | mfsys (c : Fin 256) (t : Fin 16)
  /-- GSET (R129): A thread sets a guard TRUE or FALSE from COND on its flags. -/
  | gset (c : Fin 256) (t : Fin 16)
  /-- GBIND (R129): A thread binds a guard to a SUM0 bit of its most recently issued chain, making the guard PENDING or resolving it at once. -/
  | gbind (c : Fin 256) (t : Fin 16)
  /-- KEY_ARRIVE (R409): A thread adds 1 to a keystone's VALUE and receives its PHASE. -/
  | keyArrive (c : Fin 256) (t : Fin 16)
  /-- KEY_WAIT (R409): A thread waits until a keystone's PHASE changes or its VALUE reaches the operand. -/
  | keyWait (c : Fin 256) (t : Fin 16)
  /-- KEY_ARRIVE_WAIT (R409): A thread arrives on a keystone and then waits on it. -/
  | keyArriveWait (c : Fin 256) (t : Fin 16)
  /-- KEY_ADD (R409): A thread adds the operand to a keystone's VALUE, saturating. -/
  | keyAdd (c : Fin 256) (t : Fin 16)
  /-- KEY_READ (R409): A thread reads a keystone's VALUE or PHASE. -/
  | keyRead (c : Fin 256) (t : Fin 16)
  /-- KEY_ACQUIRE (R409): A thread waits until a keystone holds enough units, then takes them. -/
  | keyAcquire (c : Fin 256) (t : Fin 16)
  /-- KEY_RELEASE (R409): A thread returns units to a keystone's VALUE. -/
  | keyRelease (c : Fin 256) (t : Fin 16)
  /-- WAITT (R128): A thread waits until the span tick reaches a register value plus IMM16. -/
  | waitt (c : Fin 256) (t : Fin 16)
  /-- IMX (R130): A thread issues an array command block, with or without a guard, into the array's queue. -/
  | imx (c : Fin 256) (t : Fin 16)
  /-- IFS (R130): A thread issues a Flowstone chain command, with or without a guard, into the chain queue. -/
  | ifs (c : Fin 256) (t : Fin 16)
  /-- IDMA (R128): A thread hands a DMA descriptor to a stream queue of the core's DMA engine. -/
  | idma (c : Fin 256) (t : Fin 16)
  /-- ENDS (R119): A thread ends its span and enters DONE. -/
  | ends (c : Fin 256) (t : Fin 16)
  /-- NOP (R122): A thread executes an instruction with no effect. -/
  | nop (c : Fin 256) (t : Fin 16)
  /-- WAIT_RETEST (R120): A thread in WAIT whose condition now holds executes its held instruction at its issue opportunity. -/
  | waitRetest (c : Fin 256) (t : Fin 16)
  /-- LOAD (R67): An array LOAD starts at the head of the load queue and fills a stationary buffer with a tile. -/
  | load (c : Fin 256)
  /-- STREAM (R65): An array STREAM starts and passes N weight columns through a buffer into accumulator slots. -/
  | stream (c : Fin 256)
  /-- CLAIM (R68): An array CLAIM takes an accumulator bank from Flowstone once no earlier chain still has a pending access to it. -/
  | claim (c : Fin 256)
  /-- RELEASE (R68): An array RELEASE returns an accumulator bank to Flowstone after the last write of earlier streams. -/
  | release (c : Fin 256)
  /-- LOAD_DONE (R65): An array LOAD completes, and its buffer holds the new tile. -/
  | loadDone (c : Fin 256)
  /-- STREAM_DONE (R65): An array STREAM signals completion one core cycle after its last entry is written. -/
  | streamDone (c : Fin 256)
  /-- WRITE_POINT (R131): A guarded command reaches its first write, and a binding still PENDING there raises a schedule fault. -/
  | writePoint (c : Fin 256) (u : CmdUnit)
  /-- RUN (R106): A Flowstone RUN chain starts and passes its blocks through its stages to the output stage. -/
  | run (c : Fin 256)
  /-- LDTAB (R99): A Flowstone LDTAB starts copying a table image into a lookup table. -/
  | ldtab (c : Fin 256)
  /-- LDTAB_DONE (R99): An LDTAB completes, verifies the table CRC and marks the table valid. -/
  | ldtabDone (c : Fin 256)
  /-- CHAIN_DONE (R104): A chain completes and writes the issuing thread's summary registers. -/
  | chainDone (c : Fin 256)
  /-- COPY (R167): A DMA COPY descriptor moves blocks between core, device and capacity memory, with optional rescale. -/
  | copy (c : Fin 256) (st : Fin 32)
  /-- GATHER (R171): A DMA GATHER reads blocks at the addresses of an index list into contiguous core memory. -/
  | gather (c : Fin 256) (st : Fin 32)
  /-- SCATTER (R171): A DMA SCATTER writes contiguous core memory blocks to the addresses of an index list. -/
  | scatter (c : Fin 256) (st : Fin 32)
  /-- INGEST (R173): A DMA INGEST turns RAW blocks into blocks of a named format and exponent. -/
  | ingest (c : Fin 256) (st : Fin 32)
  /-- SEND (R175): A DMA SEND moves blocks to another core's staging address over the mesh or the Viaduct. -/
  | send (c : Fin 256) (st : Fin 32)
  /-- TRANSPOSE (R174): A DMA TRANSPOSE writes 64 blocks that are the transpose of 64 source rows. -/
  | transpose (c : Fin 256) (st : Fin 32)
  /-- WALK (R147): A WALK descriptor starts a tile walk of a loop descriptor table on its stream after the start checks. -/
  | walk (c : Fin 256) (st : Fin 32)
  /-- DESCRIPTOR_DONE (R168): A descriptor completes when its last block is written or handed on, and arrives on its keystone if KEY_EN is set. -/
  | descriptorDone (c : Fin 256) (st : Fin 32)
  /-- MESH_DELIVERY (R175): A SEND's block reaches the destination core over the mesh and is written there. -/
  | meshDelivery (c : Fin 256) (st : Fin 32)
  /-- WALK_STEP (R148): A tile walker step checks its operand windows and then hands a transfer or templates to its unit. -/
  | walkStep (c : Fin 256) (st : Fin 32)
  /-- EMIT_COMMAND (R151): An EMIT walk places one patched command into its unit's queue at an issue opportunity of its thread. -/
  | emitCommand (c : Fin 256) (st : Fin 32)
  /-- WALK_DONE (R152): A walk completes and reports completion on its stream. -/
  | walkDone (c : Fin 256) (st : Fin 32)
  /-- SCH_LOAD (R185): SCH_CMD LOAD starts the loader on a staged image and enters LOADING. -/
  | schLoad (m : Master)
  /-- IMAGE_LOAD_DONE (R186): The loader finishes its checks and either writes the image and enters LOADED or returns to IDLE with SCH_LOADERR. -/
  | imageLoadDone
  /-- SCH_ARM (R30): SCH_CMD ARM accepts or refuses a start tick S and enters ARMED. -/
  | schArm (m : Master)
  /-- SCH_DISARM (R30): SCH_CMD DISARM returns an ARMED device to LOADED before tick S. -/
  | schDisarm (m : Master)
  /-- SCH_UNLOAD (R212): SCH_CMD UNLOAD returns to IDLE, or acts as STOP while RUNNING or PARKED. -/
  | schUnload (m : Master)
  /-- SCH_PARK (R29): SCH_CMD PARK requests a park, honoured at the next pier. -/
  | schPark (m : Master)
  /-- SCH_RESUME (R30): SCH_CMD RESUME accepts a restart tick for a PARKED device and enters ARMED. -/
  | schResume (m : Master)
  /-- SCH_STOP (R29): SCH_CMD STOP takes a running, parked or rewinding job to STOPPED. -/
  | schStop (m : Master)
  /-- START_TICK (R29): The fabric tick reaches S, and an ARMED device enters RUNNING in pier 0. -/
  | startTick
  /-- PIER0_SEAL (R31): Pier 0 ends, sealing if every device runs from the same S with the same digest. -/
  | pier0Seal (reports : List PierReport)
  /-- SPAN_START (R187): A span begins, setting thread states and loading its slot, refresh and wake entries. -/
  | spanStart
  /-- SPAN_END (R138): The span's work ends, pier copies are captured and incomplete work raises schedule faults. -/
  | spanEnd
  /-- PIER_SEAL (R345): A pier frame ends, and the pier seals on every device that holds no REWIND or schedule STOP for its span. -/
  | pierSeal
  /-- GATE (R203): A wake comparator GATE entry stops a core's clocks at its slot if the core is idle. -/
  | gate (c : Fin 256)
  /-- WAKE (R202): A wake comparator fires 64 ticks before its slot and starts the core's clocks. -/
  | wake (c : Fin 256)
  /-- REFRESH_WINDOW (R296): A compiled refresh window opens and the controller refreshes the channel group's banks. -/
  | refreshWindow (n : Fin 8) (g : Fin 8)
  /-- VF_CHANGE (R455): The V/F sequencer changes the point in a pier frame, ordering voltage and frequency. -/
  | vfChange (inBand : Bool)
  /-- TICK_EXCHANGE (R193): A child completes an alignment exchange with its parent and corrects its tick. -/
  | tickExchange (t1 : Nat) (t2 : Nat) (t3 : Nat) (t4 : Nat) (retx : Bool)
  /-- TICK_HOLDOVER (R197): No kept exchange for 2 frames puts a device in HOLDOVER and switches it to its backup parent. -/
  | tickHoldover
  /-- TICK_LOST (R197): HOLDOVER reaching HOLD_MAX enters LOST, withdrawing a running device. -/
  | tickLost
  /-- TCK_REPARENT (R215): A write to TCK_CFG PARENT or BACKUP re-parents the device at once. -/
  | tckReparent (m : Master) (v : Word)
  /-- FLIT_RECEIVE (R222): A verified flit arriving on a physical port is filtered, delivered, routed or dropped. -/
  | flitReceive (p : Fin 20) (head : FlitHead) (body : List Byte)
  /-- SLOT_TRANSMIT (R223): At each slot an output port sends the flits of its slot-table entry and spare A-class flits. -/
  | slotTransmit (p : Fin 20)
  /-- REORDER_TIMEOUT (R233): An A-class sequence gap open for REORDER_US raises a hardware fault. -/
  | reorderTimeout (src : Nat) (vc : Fin 8)
  /-- ALARM_RECEIVE (R235): A distinct alarm word arrives on line 31 and is acted on and flooded onward. -/
  | alarmReceive (p : Fin 20) (w : AlarmCopies)
  /-- REWIND_RAISE (R350): The seal unit floods a REWIND word proposing a rewind tick for a hardware fault. -/
  | rewindRaise
  /-- RESTORE_DONE (R352): Restore of retained ranges and update-unit writes completes. -/
  | restoreDone (ok : Bool)
  /-- REWIND_TICK (R352): The agreed rewind tick arrives, the epoch advances and the replayed span starts. -/
  | rewindTick
  /-- PATCH_APPLY (R237): VDT_PATCH_CMD APPLY starts checking a staged patch. -/
  | patchApply (m : Master)
  /-- PATCH_CHECKED (R238): A patch check ends with the patch pending or refused. -/
  | patchChecked
  /-- PATCH_ABORT (R237): VDT_PATCH_CMD ABORT removes a pending patch. -/
  | patchAbort (m : Master)
  /-- HALF_SLOT_RECEIVE (R263): A port receives a half-slot, decodes its code words and verifies its half-slot check. -/
  | halfSlotReceive (p : Fin 20) (h : HalfSlot)
  /-- HALF_SLOT_RETRANSMIT (R268): A NACKed half-slot is sent again in the first suitable later half-slot. -/
  | halfSlotRetransmit (p : Fin 20)
  /-- PORT_LEAVE_OFF (R270): A port whose comb is LOCKED and PWR_OFF clear leaves OFF and begins its ring search. -/
  | portLeaveOff (p : Fin 20)
  /-- RINGS_LOCKED (R270): A ring bank completes its search and locks. -/
  | ringsLocked (p : Fin 20) (rx : Bool) (found : Bool)
  /-- TRAIN_DONE (R270): TRAIN completes alignment and weighting and the port enters IDENT. -/
  | trainDone (p : Fin 20)
  /-- PORT_FAIL_TIMEOUT (R270): A port not UP 50 ms after leaving OFF, or in RELOCK too long, enters FAIL. -/
  | portFailTimeout (p : Fin 20)
  /-- RING_LOOP_UPDATE (R271): Every 1,024 ticks the ring loop updates heater requests through the compensation matrix. -/
  | ringLoopUpdate (p : Fin 20) (rx : Bool) (u : List Int)
  /-- RING_LOCK_LOST (R271): A ring loses lock and moves an UP port to RELOCK. -/
  | ringLockLost (p : Fin 20) (rx : Bool) (ring : Fin 32)
  /-- TRS_RELOCK (R269): TRS_PCFG RELOCK restarts a port from LOCK. -/
  | trsRelock (m : Master) (e : Fin 4)
  /-- TRS_CAL (R273): TRS_PCFG CAL starts heater calibration of a port's banks, or is refused in IDENT or UP. -/
  | trsCal (m : Master) (e : Fin 4)
  /-- CAL_DONE (R273): Calibration stores K and M and restarts the port from LOCK. -/
  | calDone (p : Fin 20) (ktx : List Int) (krx : List Int)
  /-- MATRIX_PARITY (R274): A parity error in M freezes the bank's heaters; one in K moves the port to RELOCK. -/
  | matrixParity (p : Fin 20) (rx : Bool) (inK : Bool)
  /-- MATRIX_RECOMPUTED (R274): The engine recomputes M from K and resumes heater updates. -/
  | matrixRecomputed (p : Fin 20) (rx : Bool)
  /-- COMB_LOCKED (R277): An enabled comb reaches LOCKED. -/
  | combLocked (k : Fin 2)
  /-- COMB_LOSS (R278): An engine declares its comb lost and starts a failover to the other comb. -/
  | combLoss (k : Fin 2) (failed : Bool)
  /-- FAILOVER_DONE (R278): A comb failover completes with the affected ports UP in single-comb mode. -/
  | failoverDone
  /-- FAILOVER_TIMEOUT (R278): A port not UP 1 ms after a comb loss enters FAIL. -/
  | failoverTimeout
  /-- CMB_PAIRED (R279): CMB_CMD PAIRED returns the feeds to paired mode, or is refused. -/
  | cmbPaired (m : Master)
  /-- CMB_SINGLE_K0 (R279): CMB_CMD SINGLE_K0 feeds every engine from K0, or is refused. -/
  | cmbSingleK0 (m : Master)
  /-- CMB_SINGLE_K1 (R279): CMB_CMD SINGLE_K1 feeds every engine from K1, or is refused. -/
  | cmbSingleK1 (m : Master)
  /-- HBM_INIT (R290): HBM_CMD INIT lays out the stacks and sidecars and zeroes device memory. -/
  | hbmInit (m : Master) (n : Fin 8)
  /-- HBM_TRAIN (R298): HBM_CMD TRAIN retrains a stack's interface in self-refresh. -/
  | hbmTrain (m : Master) (n : Fin 8)
  /-- HBM_ROW_SOFT (R298): HBM_CMD ROW_SOFT applies a soft row repair, keeping the row's contents. -/
  | hbmRowSoft (m : Master) (n : Fin 8)
  /-- HBM_ROW_HARD (R298): HBM_CMD ROW_HARD applies a permanent row repair, keeping the row's contents. -/
  | hbmRowHard (m : Master) (n : Fin 8)
  /-- HBM_LANE (R298): HBM_CMD LANE remaps a DQ lane and retrains the group. -/
  | hbmLane (m : Master) (n : Fin 8)
  /-- HBM_CMD_DONE (R298): An HBM command completes. -/
  | hbmCmdDone (n : Fin 8) (ok : Bool)
  /-- SUMP_CLOSE (R292): A Sump entry closes 64 ticks after its first store and is merged into its line. -/
  | sumpClose (c : Fin 256) (line : Nat)
  /-- GAL_INIT (R303): GAL_CMD INIT brings the Gallery into service. -/
  | galInit (m : Master)
  /-- GAL_RETIRE (R302): GAL_CMD RETIRE starts retiring a Gallery channel and migrating its stripes. -/
  | galRetire (m : Master)
  /-- GAL_ABORT (R306): GAL_CMD ABORT ends a retirement in progress. -/
  | galAbort (m : Master)
  /-- GAL_TRAIN (R306): GAL_CMD TRAIN retrains the Gallery. -/
  | galTrain (m : Master)
  /-- MIGRATION_DONE (R302): Retirement migration finishes and the retirement becomes pending or switches. -/
  | migrationDone
  /-- GAL_REFRESH (R301): A Gallery channel's refresh window opens in its frame offset. -/
  | galRefresh (ch : Fin 32)
  /-- CHANNEL_FAILED (R302): A Gallery channel that stops answering is marked FAILED. -/
  | channelFailed (ch : Fin 32)
  /-- BAR2_WRITE (R424): A host write to the HBM aperture is permitted or denied and writes RAW granules. -/
  | bar2Write (off : Nat) (data : List Byte)
  /-- BAR2_READ (R422): A host read of the HBM aperture returns data bytes, zeros or poison. -/
  | bar2Read (off : Nat) (len : Nat)
  /-- HOST_WRITE_DRAIN (R423): Under STRICT, gathered host writes and waiting reads reach HBM in a pier frame. -/
  | hostWriteDrain
  /-- REGISTER_WRITE (R9): A write to a register field without a row of its own follows its access code. -/
  | registerWrite (m : Master) (off : Nat) (len : Nat) (v : Nat)
  /-- SWEEP_START (R321): An update group's sweep begins at its start span. -/
  | sweepStart (g : Fin 1024)
  /-- BLOCK_START (R321): An update engine begins the reads of the next block of its share. -/
  | blockStart (e : Fin 8)
  /-- UPD_LD (R318): An update engine loads a slot block into a wide register after its checks. -/
  | updLd (e : Fin 8) (late : Bool)
  /-- UPD_ST (R319): An update engine stores a wide register to a slot under its policy and rounding. -/
  | updSt (e : Fin 8)
  /-- UPD_ADD (R318): An update engine adds two wide registers. -/
  | updAdd (e : Fin 8)
  /-- UPD_SUB (R318): An update engine subtracts two wide registers. -/
  | updSub (e : Fin 8)
  /-- UPD_MUL (R318): An update engine multiplies two wide registers under RND. -/
  | updMul (e : Fin 8)
  /-- UPD_MULK (R318): An update engine multiplies a wide register by a constant. -/
  | updMulk (e : Fin 8)
  /-- UPD_ADDK (R318): An update engine adds a constant to a wide register. -/
  | updAddk (e : Fin 8)
  /-- UPD_SHR (R318): An update engine shifts a wide register right under RND. -/
  | updShr (e : Fin 8)
  /-- UPD_SHL (R318): An update engine shifts a wide register left. -/
  | updShl (e : Fin 8)
  /-- UPD_MIN (R318): An update engine takes the lane minimum of two wide registers. -/
  | updMin (e : Fin 8)
  /-- UPD_MAX (R318): An update engine takes the lane maximum of two wide registers. -/
  | updMax (e : Fin 8)
  /-- UPD_ABS (R318): An update engine takes the absolute value of a wide register. -/
  | updAbs (e : Fin 8)
  /-- UPD_NEG (R318): An update engine negates a wide register. -/
  | updNeg (e : Fin 8)
  /-- UPD_CMPGT (R318): An update engine compares two wide registers and sets the predicates. -/
  | updCmpgt (e : Fin 8)
  /-- UPD_SEL (R318): An update engine selects lanes of two wide registers by predicate. -/
  | updSel (e : Fin 8)
  /-- UPD_LUT (R318): An update engine interpolates a wide register through a group table. -/
  | updLut (e : Fin 8)
  /-- UPD_CLIP (R318): An update engine clamps a wide register to plus or minus a constant. -/
  | updClip (e : Fin 8)
  /-- UPD_END (R318): An update program ends for its block. -/
  | updEnd (e : Fin 8)
  /-- BLOCK_COMMIT (R325): An updated block appends Seep records, writes its journal record and outputs, and sets its version bit. -/
  | blockCommit (e : Fin 8)
  /-- JOURNAL_REPLAY (R327): After a warm reset each engine reapplies valid journal records of the current sweep. -/
  | journalReplay (e : Fin 8)
  /-- SEEP_SEND (R332): Released Seep records leave on the export spur port in spare positions. -/
  | seepSend
  /-- SEEP_ACK (R332): A storage acknowledgement advances SEEP_ACK and frees ring records. -/
  | seepAck (n : Nat)
  /-- SEEP_RESEND (R332): SEEP_ACK unchanged for RETX_US makes the Seep resend from SEEP_ACK. -/
  | seepResend
  /-- SEEP_GAP (R333): When the ring falls below half, the Seep releases a GAP record and clears GAP. -/
  | seepGap
  /-- SKIP_ROUND (R357): A round of the step pier's skip exchange sends and merges skip vectors in seal flits. -/
  | skipRound (rx : List (Nat × Nat))
  /-- CLOSE_ROUND (R400): A round of the close exchange sends and merges close lists in close flits. -/
  | closeRound (rx : List (Nat × List Nat))
  /-- REPLICA_DIGEST_SEND (R360): At a replica pier each device sends its digests along Y and compares those from Y−. -/
  | replicaDigestSend (peer : Option (List Nat))
  /-- VOTE_WINDOWS (R361): Window digests of mismatching engines are exchanged in a pier frame. -/
  | voteWindows (peer : List (Nat × Nat × Nat))
  /-- VOTE_BLOCKS (R361): Sidecar CRCs of blocks in mismatching windows are compared in a pier frame. -/
  | voteBlocks (peer : List VoteItem)
  /-- VOTE_WRITE (R362): The vote takes the majority of the three copies and writes it, or raises STOP. -/
  | voteWrite (copies : List VoteItem)
  /-- PIE_STRESS_GO (R365): PIE_STRESS_CMD GO arms a stress test for the next ARM, or is refused. -/
  | pieStressGo (m : Master)
  /-- BUDDY_SEND (R372): In each pier frame a device sends its pending pier record to its Y+ neighbour. -/
  | buddySend
  /-- STATE_SEND (R378): The mailbox command STATE_SEND sends a transfer list's state stream on one or two ports. -/
  | stateSend
  /-- STATE_RECV (R378): The mailbox command STATE_RECV accepts one state stream addressed to the device. -/
  | stateRecv
  /-- STATE_ACK (R376): A state stream acknowledgement reports the next byte the receiver expects. -/
  | stateAck (n : Nat)
  /-- STATE_RESEND (R376): 200 µs without progress makes the sender resend from the acknowledged byte. -/
  | stateResend
  /-- ADOPT (R385): The mailbox command ADOPT installs a sealed or received pier record. -/
  | adopt
  /-- SELF_RESTORE (R387): The mailbox command SELF_RESTORE applies the carve-out logs and adopts the device's own sealed record. -/
  | selfRestore (ok : Bool)
  /-- PROBATION (R389): The mailbox command PROBATION makes the next step piers replica piers for the device. -/
  | probation
  /-- STATE_STATUS (R378): The mailbox command STATE_STATUS returns the last status and buddy state. -/
  | stateStatus
  /-- NEIGHBOUR_DARK (R381): Every port to a neighbour leaving UP while running raises a delayed REWIND. -/
  | neighbourDark (nbr : Nat)
  /-- NEIGHBOUR_WITHDRAW (R381): Ports still dark after 1 ms make the device raise WITHDRAW for the neighbour. -/
  | neighbourWithdraw (nbr : Nat)
  /-- CTX_CLOSE (R405): CTX_CMD CLOSE starts teardown at once with NOW, or at the named pier. -/
  | ctxClose (m : Master)
  /-- CTX_PARK (R415): CTX_CMD PARK takes an OPEN context to PARKED. -/
  | ctxPark (m : Master)
  /-- CTX_UNPARK (R407): CTX_CMD UNPARK returns a PARKED context to OPEN. -/
  | ctxUnpark (m : Master)
  /-- CTX_SET_QUOTA (R398): CTX_CMD SET_QUOTA sets a context's ceiling and may mark it OVER. -/
  | ctxSetQuota (m : Master)
  /-- CTX_GRANT (R415): CTX_CMD GRANT grants free pages to a context. -/
  | ctxGrant (m : Master)
  /-- CTX_RETURN (R415): CTX_CMD RETURN sends a context's pages to the zeroing engine. -/
  | ctxReturn (m : Master)
  /-- CTX_GRANT_KEY (R415): CTX_CMD GRANT_KEY configures an unused keystone for a context. -/
  | ctxGrantKey (m : Master)
  /-- CTX_RETURN_KEY (R415): CTX_CMD RETURN_KEY makes a keystone unused. -/
  | ctxReturnKey (m : Master)
  /-- ZERO_PAGE (R404): The page-zeroing engine writes zeros and ZEROED sidecars over the next queued page. -/
  | zeroPage
  /-- QUARANTINE_END (R403): A closing generation's quarantine ends, and the ID becomes FREE once zeroing is done. -/
  | quarantineEnd (id : Fin 1024)
  /-- HIF_MBX_DB (R430): A doorbell write accepts or refuses a mailbox 0 request. -/
  | hifMbxDb (m : Master) (seq : BitVec 16)
  /-- HIF_MBX_ACK (R432): An ACK write returns a DONE mailbox 0 to IDLE, or is refused. -/
  | hifMbxAck (m : Master) (seq : BitVec 16)
  /-- MBX_DONE (R432): A mailbox command completes and its response is held. -/
  | mbxDone
  /-- SHAPE (R429): The mailbox command SHAPE returns the shape descriptor. -/
  | shape
  /-- ECHO (R429): The mailbox command ECHO returns its argument words. -/
  | echo
  /-- KEY_ROTATE (R440): The mailbox command KEY_ROTATE derives a new key for a management key slot. -/
  | keyRotate
  /-- MGT_READ (R436): An authenticated READ frame reads registers and returns them in a RESPONSE. -/
  | mgtRead (f : Frame)
  /-- MGT_WRITE (R436): An authenticated WRITE frame writes registers as management. -/
  | mgtWrite (f : Frame)
  /-- MBX (R436): An authenticated MBX frame writes a request and rings mailbox 1. -/
  | mbx (f : Frame)
  /-- MBX_ACK (R436): An authenticated MBX_ACK frame acknowledges mailbox 1. -/
  | mbxAck (f : Frame)
  /-- MBX_POLL (R436): An authenticated MBX_POLL frame returns mailbox 1 status and any held response. -/
  | mbxPoll (f : Frame)
  /-- NOTIFY (R439): A NOTIFY frame reports a risen interrupt line to the controller, at least 10 ms apart. -/
  | notify (b : Fin 32)
  /-- LOCK_CLAIM (R441): A CLAIM write to a page's LOCK takes a free page for the writer. -/
  | lockClaim (m : Master) (page : Nat)
  /-- LOCK_RELEASE (R441): A RELEASE write to a page's LOCK frees a page held by the writer. -/
  | lockRelease (m : Master) (page : Nat)
  /-- GEN_BULK_CLAIM (R480): GEN_BULK CLAIM takes every page of a set at once, or none. -/
  | genBulkClaim (m : Master) (v : Word)
  /-- GEN_BULK_RELEASE (R480): GEN_BULK RELEASE frees every page of a set that the writer owns. -/
  | genBulkRelease (m : Master) (v : Word)
  /-- SEM_HB (R442): A write to SEM_HB renews the writer's lease. -/
  | semHb (m : Master)
  /-- SEM_FORCE (R442): A write to SEM_FORCE releases one or all locks of a master. -/
  | semForce (m : Master) (v : Word)
  /-- LEASE_EXPIRY (R442): A lease not renewed in its period releases every lock of its master. -/
  | leaseExpiry (m : Master)
  /-- D3HOT_ENTRY (R426): The host puts the function in D3hot and BAR decoding stops. -/
  | d3hotEntry
  /-- D0_RESUME (R428): A resume begins from D3hot or D3cold and answers any outstanding wake request. -/
  | d0Resume
  /-- PME_REPEAT (R427): An outstanding wake request repeats PM_PME as the standard requires. -/
  | pmeRepeat
  /-- CONVENTIONAL_RESET (R425): A PCIe Conventional Reset with main power present takes a warm reset. -/
  | conventionalReset
  /-- HOT_RESET (R425): A Secondary Bus Reset or Hot Reset takes a warm reset. -/
  | hotReset
  /-- FUNCTION_LEVEL_RESET (R425): A Function Level Reset takes a warm reset. -/
  | functionLevelReset
  /-- MRST (R500): MRST# held low performs a cold reset. -/
  | mrst
  /-- AUX_POWER_UP (R501): Auxiliary power comes into range and the always-on domain starts. -/
  | auxPowerUp
  /-- AUX_POWER_LOSS (R501): Auxiliary power leaves range, cutting the main rails and clearing Z12_RETAIN. -/
  | auxPowerLoss
  /-- MAIN_POWER_UP (R501): Main power comes into range, the rails rise and a cold reset is performed. -/
  | mainPowerUp
  /-- MAIN_POWER_LOSS (R501): P54V below 44 V for 50 µs cuts every main rail. -/
  | mainPowerLoss
  /-- RST_CORE (R459): RST_CMD CORE resets one logical core. -/
  | rstCore (m : Master)
  /-- RST_DIE (R459): RST_CMD DIE resets one compute die. -/
  | rstDie (m : Master)
  /-- RST_WARM (R459): RST_CMD WARM takes a warm reset, withdrawing a running device first. -/
  | rstWarm (m : Master)
  /-- RST_COLD (R459): RST_CMD COLD takes a cold reset. -/
  | rstCold (m : Master)
  /-- RST_SPARE (R462): RST_CMD SPARE maps a logical core to a spare physical core. -/
  | rstSpare (m : Master)
  /-- WARM_RECOVERY_DONE (R466): Warm recovery completes and every page answers with the job LOADED. -/
  | warmRecoveryDone
  /-- RESET_ESCALATION (R465): A reset that does not complete in time escalates to the next domain. -/
  | resetEscalation
  /-- PROGRESS_EXPIRY (R134): A thread's progress counter reaches its window and raises a hardware or schedule fault. -/
  | progressExpiry (c : Fin 256) (t : Fin 16)
  /-- CORE_WATCHDOG (R464): A core's keystone watchdog expires and is handled as a progress expiry. -/
  | coreWatchdog (c : Fin 256)
  /-- PARTITION_WATCHDOG (R464): No seal for WD_PART ms makes the device raise STOP. -/
  | partitionWatchdog
  /-- FIRMWARE_WATCHDOG (R464): An unrenewed firmware watchdog restarts firmware from ROM. -/
  | firmwareWatchdog
  /-- QUAL_WINDOW (R449): A qualification window ends and REF, XTAL and RC are qualified or disqualified. -/
  | qualWindow (refx : Nat) (xrc : Nat) (refrc : Nat)
  /-- PLL_UNLOCK (R451): A tick or core PLL loses lock, a hardware fault while a job runs. -/
  | pllUnlock (pll : Fin 9)
  /-- POWER_ALERT (R458): Input power or die temperature exceeds its limit and an alert is raised. -/
  | powerAlert (watts : Nat) (tmax : Nat)
  /-- GOVERNOR_STEP (R457): The governor lowers or raises the V/F point by one at its interval. -/
  | governorStep
  /-- TRIP (R458): A temperature or power trip writes the dump and cuts the main rails. -/
  | trip (watts : Nat) (tmax : Nat)
  /-- RAIL_FAULT (R502): A rail out of band for 10 µs is logged and handled as a trip. -/
  | railFault (r : Fin 9) (mv : Nat)
  /-- TRACE_DRAIN (R484): The trace buffer drains into the trace ring. -/
  | traceDrain
  /-- TRC_SNAP (R489): TRC_SNAP SNAP requests a counter snapshot. -/
  | trcSnap (m : Master)
  /-- SNAPSHOT_LATCH (R489): Every counter is latched and turned into COUNTER records. -/
  | snapshotLatch
  /-- ENTER_TEST (R493): TST_CMD ENTER_TEST sets the test phase. -/
  | enterTest (m : Master)
  /-- LEAVE_TEST (R493): TST_CMD LEAVE_TEST returns the phase to start-up. -/
  | leaveTest (m : Master)
  /-- LBIST (R490): TST_CMD LBIST starts the logic self-test of a die. -/
  | lbist (m : Master)
  /-- MBIST_DIE (R490): TST_CMD MBIST starts the memory self-test of a die. -/
  | mbistDie (m : Master)
  /-- MBIST_DEVICE (R490): TST_CMD MBIST device starts the memory self-test of the device blocks. -/
  | mbistDevice (m : Master)
  /-- HBM_TEST (R490): TST_CMD HBM_TEST starts a march test of one stack. -/
  | hbmTest (m : Master)
  /-- TEST_DONE (R491): A self-test ends passed or failed and records failing cores. -/
  | testDone (fails : Nat)
  /-- BYPASS (R494): The TAP instruction BYPASS is selected. -/
  | bypass
  /-- IDCODE (R494): The TAP instruction IDCODE returns the boundary-scan IDCODE. -/
  | idcode
  /-- SAMPLE_PRELOAD (R495): The TAP instruction SAMPLE/PRELOAD observes the edge pins. -/
  | samplePreload (pins : Nat) (drv : Nat)
  /-- EXTEST (R495): The TAP instruction EXTEST drives the pins from the boundary register in IDLE. -/
  | extest
  /-- EXTEST_PULSE (R495): The TAP instruction EXTEST_PULSE drives the AC-coupled pins in IDLE. -/
  | extestPulse
  /-- EXTEST_TRAIN (R495): The TAP instruction EXTEST_TRAIN drives the AC-coupled pins in IDLE. -/
  | extestTrain
  /-- TEST_LOGIC_RESET (R495): Test-Logic-Reset ends scan, performing a cold reset if EXTEST was in effect. -/
  | testLogicReset
  /-- CNT_CLR (R89): CTL CNT_CLR clears the page's counters. -/
  | cntClr (m : Master) (page : Nat)
  /-- LOG_REL (R89): CTL LOG_REL clears the page's error log and re-arms it. -/
  | logRel (m : Master) (page : Nat)
  /-- CORE_LOG_REL (R140): CTL LOG_REL of the CORE page removes the head record of the fault queue. -/
  | coreLogRel (m : Master) (c : Fin 256)
  /-- INT_SET (R476): A write of 1 to INT_SET sets the same bit of INT_STAT. -/
  | intSet (m : Master) (page : Nat) (v : Word)
  /-- REGISTER_READ (R471): A register read that has behaviour of its own: a read of an empty page is logged in GEN, a misaligned access is logged in HIF, and a 32-bit read of TCK_NOW_LO captures _HI. -/
  | registerRead (m : Master) (off : Nat) (len : Nat)
  /-- LIGHT_FROM_PEER (R270): Light from the peer arrives at a port whose transmit rings are locked, and the receive rings begin their search, taking the port from DARK to LOCK. -/
  | lightFromPeer (p : Fin 20)
  /-- HALF_SLOT_ALIGNMENT (R270): In TRAIN the receiver finds code word alignment and the half-slot boundary, and framing words begin to run from the next frame. -/
  | halfSlotAlignment (p : Fin 20)
  /-- HBM_HOT (R296): An HBM stack crosses 85 °C, setting or clearing HBM STAT.HOT and raising INT_STAT.HOT. -/
  | hbmHot (n : Fin 8) (temp : Nat)
  /-- REFRESH_OUTSIDE_WINDOWS (R297): The HBM controller or Gallery bridge issues a refresh outside the compiled windows, either in idle cycles without compiled windows or added above 85 °C, counting XREF and logging once per span under STRICT. -/
  | refreshOutsideWindows (gallery : Bool) (n : Fin 32)
  /-- GAL_CMD_DONE (R306): A Gallery INIT or TRAIN command completes, bringing the Gallery into service or retrained, and raises CMD_DONE. -/
  | galCmdDone
  /-- HBM_TRAINING_DONE (R283): The stacks' own interface training after power-up completes, and a stack reporting another height or density is left out of service. -/
  | hbmTrainingDone (good : Nat)
  /-- RESET_DONE (R459): A core or die reset completes and sets RST INT_STAT.RESET_DONE, ending the wait that escalation would otherwise break. -/
  | resetDone (die : Bool) (target : Nat)
  /-- MRST_RELEASE (R500): MRST# returns high and the device leaves the cold reset it held while the pin was low. -/
  | mrstRelease
  /-- ALERT_END (R458): The power or temperature alert condition clears, so STAT.ALERT falls and ALERT# is released. -/
  | alertEnd
  /-- MGT_LINK_CHANGE (R444): The management PHY link goes up or down, changing MGT STAT.LINK and raising LINK_CHANGE. -/
  | mgtLinkChange (up : Bool)
  /-- FOREIGN_FRAME (R435): A frame on the management segment that fails FCS, destination or EtherType, or carries a reserved TYPE, is discarded and counted or logged. -/
  | foreignFrame (f : Frame)
  deriving DecidableEq, Repr

end Sys2Proof
end

