-- ==== Sys2Proof/Config.lean ====
section
/-! DEFINITION. What one part fixes, and the free values of the model: opaque functions that nothing in Lean can
evaluate, for values the spec leaves open (log 6). A step applies one to the counter `State.freeCtr` and advances it. -/

namespace Sys2Proof.Config

/-- Highest core clock of a speed bin in MHz: bin 0 is the ZY20-A12-L, bin 1 the ZY20-A10-L (R4, R16). -/
def fmaxMhz (bin : Nat) : Nat := if bin = 1 then 1000 else 1250

/-- Thermal design power of a bin in W (R4). -/
def tdpW (bin : Nat) : Nat := if bin = 1 then 1100 else 1300

/-- Multiples of 31.25 MHz of the V/F points of a bin (R454). -/
def vfM (bin : Nat) : List Nat := if bin = 1 then [8, 12, 16, 20, 24, 28, 30, 32] else [8, 16, 20, 24, 28, 32, 36, 40]

/-- Where in its band of ±30 mV the voltage of a point is fused, by bin and point (R454; log 4). -/
opaque vfTrim : Nat → Nat → Nat

/-- Nominal voltages of a bin's points in mV (R454). -/
def vfMv (bin : Nat) : List Nat :=
  if bin = 1 then [580, 600, 620, 650, 680, 710, 725, 740] else [580, 620, 650, 680, 710, 740, 780, 820]

/-- The fused voltage of a point in mV: within 30 mV of the nominal one (R454). -/
def fusedMv (bin point : Nat) : Nat := (vfMv bin).getD point 0 + vfTrim bin point % 61 - 30

/-- Silicon stepping (R482; log 4). -/
def stepping : Nat := 1

/-- A free value: data bytes the spec leaves open. -/
opaque freeByte : Nat → BitVec 8

/-- A free value: a word the spec leaves open. -/
opaque freeWord : Nat → BitVec 32

/-- The 32 check bits of a cell: the spec names a shortened BCH code and not its generator (R262; log 44). -/
opaque bchCheck : BitVec 1024 → BitVec 32

/-- A coefficient of K whose row measured nothing on the diagonal, which no factor brings to 16,384 (R273; log 43). -/
opaque calFree : Nat → Int → Int

/-- Bank and row of a stripe within its pseudo-channel: the fixed map of the controller, which the spec does not give (R285; log 46). -/
opaque hbmBank : Nat → Nat
opaque hbmRow : Nat → Nat

/-- Ticks within which an access to a line finishes (R296; log 46). -/
opaque accessTicks : Nat

/-- The bridge channel that holds a line of capacity sidecars (R299; log 46). -/
opaque galSideChan : Nat → Nat

/-- Spare resources that a repair of an OP finds at a place of a stack as manufactured: stack, OP and place (log 45). -/
opaque spares : Nat → Nat → Nat → Nat

/-- Progress in percent of a migration after some nanoseconds (R302, R306; log 46). -/
opaque migrated : Nat → Nat

end Sys2Proof.Config
end

