-- ==== Sys2Proof/Machine/Store.lean ====
section
/-! DEFINITION. Operations over sparse stores and lists: read, write, erase, and the canonical form that makes
equal stores equal data. -/

namespace Sys2Proof.Machine

open Sys2Proof

/-- What key `k` reads as: its entry, or the default `d` where none is listed. -/
def Store.get {α : Type} (d : α) : Store α → Nat → α
  | [], _ => d
  | (j, v) :: m, k => if j = k then v else Store.get d m k

/-- The store without any entry for `k`. -/
def Store.erase {α : Type} : Store α → Nat → Store α
  | [], _ => []
  | (j, v) :: m, k => if j = k then Store.erase m k else (j, v) :: Store.erase m k

/-- The store with `v` listed at `k`, in rising order of keys. -/
def Store.insert {α : Type} : Store α → Nat → α → Store α
  | [], k, v => [(k, v)]
  | (j, w) :: m, k, v =>
    if j = k then (k, v) :: m
    else if k < j then (k, v) :: (j, w) :: m
    else (j, w) :: Store.insert m k v

/-- Writing `v` at `k`; writing the default removes the entry, so the form stays canonical. -/
def Store.set {α : Type} [DecidableEq α] (d : α) (m : Store α) (k : Nat) (v : α) : Store α :=
  if v = d then Store.erase m k else Store.insert m k v

/-- The entry at `k`, if one is listed. -/
def Store.find {α : Type} : Store α → Nat → Option α
  | [], _ => none
  | (j, v) :: m, k => if j = k then some v else Store.find m k

/-- Every listed entry changed by `f`. -/
def Store.mapVals {α : Type} (f : Nat → α → α) : Store α → Store α
  | [] => []
  | (j, v) :: m => (j, f j v) :: Store.mapVals f m

/-- Every key is above `lo` (or there is no bound) and keys rise strictly. -/
def Store.rising {α : Type} : Option Nat → Store α → Bool
  | _, [] => true
  | lo, (j, _) :: m =>
    (match lo with
     | none => true
     | some l => decide (l < j)) && Store.rising (some j) m

/-- The canonical form: keys strictly rising and no entry equal to the default. -/
def Store.wf {α : Type} [DecidableEq α] (d : α) (m : Store α) : Bool :=
  Store.rising none m && m.all (fun p => decide (p.2 ≠ d))

/-- The canonical form of a memory: byte addresses strictly rising, no entry equal to the 0 that an unlisted byte reads as. -/
abbrev Memory.wf (m : Store Byte) : Bool := Store.wf 0#8 m

/-- Writing a run of values from key `k` on. -/
def Store.setRun {α : Type} [DecidableEq α] (d : α) : Store α → Nat → List α → Store α
  | m, _, [] => m
  | m, k, v :: vs => Store.setRun d (Store.set d m k v) (k + 1) vs

/-- Reading `n` values from key `k` on. -/
def Store.getRun {α : Type} (d : α) (m : Store α) : Nat → Nat → List α
  | _, 0 => []
  | k, n + 1 => Store.get d m k :: Store.getRun d m (k + 1) n

/-- Removing every entry whose key lies from `lo` to `lo + n - 1`. -/
def Store.clearRange {α : Type} (m : Store α) (lo n : Nat) : Store α :=
  m.filter (fun p => !(decide (lo ≤ p.1) && decide (p.1 < lo + n)))

/-- The list with element `i` changed by `f` (unchanged where there is none). -/
def modAt {α : Type} (f : α → α) : List α → Nat → List α
  | [], _ => []
  | a :: l, 0 => f a :: l
  | a :: l, n + 1 => a :: modAt f l n

/-- The numbers 0 to n − 1 in rising order. -/
def upTo (n : Nat) : List Nat := List.range n

/-- `f` applied `n` times, from 0, to an accumulator. -/
def iterate {α : Type} (f : Nat → α → α) : Nat → Nat → α → α
  | _, 0, a => a
  | i, n + 1, a => iterate f (i + 1) n (f i a)

/-- The first index below the list's length at which `p` holds. -/
def firstIdx {α : Type} (p : α → Bool) : List α → Nat → Option Nat
  | [], _ => none
  | a :: l, i => if p a then some i else firstIdx p l (i + 1)

end Sys2Proof.Machine
end

