-- ==== Sys2Proof/Machine/Bits.lean ====
section
/-! DEFINITION. Bit-field, byte-order and sign helpers over naturals (R7, R8). A register or a memory word is held
as a natural below its range while its fields are taken apart; `Word` only where a register is stored. -/

namespace Sys2Proof.Machine

open Sys2Proof

/-- Bits [lo + n − 1 : lo] of `v`. -/
def fld (v lo n : Nat) : Nat := (v / 2 ^ lo) % 2 ^ n

/-- Bit `i` of `v`. -/
def bitAt (v i : Nat) : Bool := (v / 2 ^ i) % 2 == 1

/-- `v` with bits [lo + n − 1 : lo] replaced by `x`. -/
def setFld (v lo n x : Nat) : Nat :=
  v - fld v lo n * 2 ^ lo + (x % 2 ^ n) * 2 ^ lo

/-- `x` placed at bit `lo`. -/
def at_ (x lo : Nat) : Nat := x * 2 ^ lo

/-- 1 for true, 0 for false. -/
def b2n (b : Bool) : Nat := if b then 1 else 0

/-- The two's-complement value of the low `n` bits of `v`. -/
def sext (n v : Nat) : Int :=
  let m := v % 2 ^ n
  if m < 2 ^ (n - 1) then (m : Int) else (m : Int) - (2 ^ n : Nat)

/-- The low `n` bits of an integer, as a natural (two's complement). -/
def toBits (n : Nat) (v : Int) : Nat := (v % ((2 ^ n : Nat) : Int)).toNat

/-- Little-endian bytes of a natural (R8). -/
def leBytes : Nat → Nat → List Byte
  | 0, _ => []
  | n + 1, v => BitVec.ofNat 8 v :: leBytes n (v / 256)

/-- The natural that little-endian bytes spell (R8). -/
def leNat : List Byte → Nat
  | [] => 0
  | b :: bs => b.toNat + 256 * leNat bs

/-- The number in `n` bytes from byte `o` of a record (R8). -/
def leAt (b : List Byte) (o n : Nat) : Nat := leNat ((b.drop o).take n)

/-- The `n` records of `size` bytes from byte `o` on, each as a number. -/
def leRecs (b : List Byte) (o size n : Nat) : List Nat := (upTo n).map (fun i => leAt b (o + size * i) size)

/-- Ceiling of a quotient. -/
def ceilDiv (a b : Nat) : Nat := (a + b - 1) / b

/-- The bits of `v` from 0 to n − 1 that are set, in rising order. -/
def setBits (n v : Nat) : List Nat := (upTo n).filter (fun i => bitAt v i)

/-- Number of bits set in the low `n` bits of `v`. -/
def popCount (n v : Nat) : Nat := (setBits n v).length

/-- `v` with bit `i` set. -/
def setBit (v i : Nat) : Nat := if bitAt v i then v else v + 2 ^ i

/-- `v` with bit `i` cleared. -/
def clrBit (v i : Nat) : Nat := if bitAt v i then v - 2 ^ i else v

/-- Saturation of a natural at a bound (a counter that stops, R141). -/
def satAt (bound v : Nat) : Nat := if v < bound then v else bound

end Sys2Proof.Machine
end

