-- ==== Sys2Proof/Machine/Operands.lean ====
section
/-! DEFINITION. The fields of a control core instruction word (R122, R123, R127) and which words are instructions. -/

namespace Sys2Proof.Machine

/-- Major opcode, bits [31:27]. -/
def insOpc (w : Nat) : Nat := fld w 27 5
/-- RD or RS of most instructions, bits [26:22]; RA of WAITT. -/
def insRd (w : Nat) : Nat := fld w 22 5
/-- RA, bits [21:17]. -/
def insRa (w : Nat) : Nat := fld w 17 5
/-- RB of ALU and FN of ALUI, bits [16:12]. -/
def insRb (w : Nat) : Nat := fld w 12 5
/-- FN of ALU, bits [4:0]. -/
def insFn (w : Nat) : Nat := fld w 0 5
/-- IMM12, bits [11:0]. -/
def insImm12 (w : Nat) : Nat := fld w 0 12
/-- The signed 17-bit byte offset of LDW, STW and JALR. -/
def insOff17 (w : Nat) : Int := sext 17 w
/-- The signed 22-bit instruction offset of BR, BSUM and JAL. -/
def insOff22 (w : Nat) : Int := sext 22 w
/-- The signed 18-bit offset of IMX, IFS and IDMA, in 16-byte units. -/
def insOff18 (w : Nat) : Int := sext 18 w

/-- IMM12 as ALUI uses it with FN: sign-extended for ADD, SUB, MUL, MULHS, DIV, REM, MIN, MAX and CMP (R124). -/
def insImm (fn w : Nat) : BitVec 32 :=
  if fn = 0x00 ∨ fn = 0x01 ∨ fn = 0x08 ∨ fn = 0x09 ∨ fn = 0x0B ∨ fn = 0x0C ∨ fn = 0x10 ∨ fn = 0x11 ∨ fn = 0x14 then
    BitVec.ofInt 32 (sext 12 w)
  else BitVec.ofNat 32 (insImm12 w)

/-- An address sum, formed in 32 bits (R123). -/
def addr32 (base : Nat) (off : Int) : Nat := toBits 32 ((base : Int) + off)

/-- Whether OPC names an instruction (R122). -/
def opcKnown (opc : Nat) : Bool := decide (1 ≤ opc) && decide (opc ≤ 0x14)

/-- Whether every field of the word is one the spec defines: FN, SEL, KFN, BIT in range, GD not 0, reserved bits 0
(R123, R124, R126, R127, R135 cause 0x4). -/
def insLegal (w : Nat) : Bool :=
  match insOpc w with
  | 0x01 => fld w 5 7 == 0 && decide (insFn w ≤ 0x15) && (insFn w != 0x0F || insRb w == 0)
  | 0x02 => decide (insRb w ≤ 0x15) && (insRb w != 0x0F || insImm12 w == 0)
  | 0x03 => fld w 20 2 == 0
  | 0x04 => true
  | 0x05 => true
  | 0x06 => !bitAt w 22
  | 0x07 => decide (fld w 23 3 ≤ 5) && !bitAt w 22
  | 0x08 => true
  | 0x09 => true
  | 0x0A => fld w 0 19 == 0
  | 0x0B => fld w 4 18 == 0 && decide (fld w 0 4 ≤ 8)
  | 0x0C => fld w 24 3 != 0 && fld w 0 20 == 0
  | 0x0D => fld w 24 3 != 0 && decide (fld w 20 3 ≤ 5) && fld w 0 20 == 0
  | 0x0E => fld w 24 3 != 7
  | 0x0F => fld w 16 6 == 0
  | 0x10 => true
  | 0x11 => true
  | 0x12 => fld w 23 4 == 0
  | 0x13 => fld w 0 27 == 0
  | 0x14 => fld w 0 27 == 0
  | _ => false

/-- The words of thread state that an instruction reads besides the PC and the word that holds flags, guards and state: its registers,
and for BSUM and MFS the half of a summary register (R117, R123). -/
def insReads (w : Nat) : List Nat :=
  match insOpc w with
  | 0x01 => [insRa w, insRb w]
  | 0x02 => [insRa w]
  | 0x04 => [insRa w]
  | 0x05 => [insRd w, insRa w]
  | 0x07 => [34]
  | 0x09 => [insRa w]
  | 0x0A => [34 + 2 * fld w 20 2 + fld w 19 1]
  | 0x0E => [fld w 19 5]
  | 0x0F => [insRd w]
  | 0x10 => [fld w 18 5]
  | 0x11 => [fld w 18 5]
  | 0x12 => [fld w 18 5]
  | _ => []

/-- Die of a logical core (R474). -/
def dieOf (c : Nat) : Nat := c % 16 / 8 + 2 * (c / 128)

/-- Ticks that `n` core cycles take at multiple `m` of 31.25 MHz (R447). -/
def ticksAt (m n : Nat) : Nat := ceilDiv (n * 32) m

/-- Ticks of `n` core cycles at a V/F point of a speed bin (R202, R454). -/
def cyclesTicks (bin n point : Nat) : Nat := ticksAt ((Config.vfM bin).getD point 8) n

end Sys2Proof.Machine
end

