-- ==== Sys2Proof/Machine/RegTable.lean ====
section
/-! DEFINITION. The register table (R9, R471 to R476 and the register tables of every chapter): for each block type the
registers that have a reset value other than 0, a field software may write, or a W1C field. A register that is not
listed has reset value 0 and no writable field. Fields of access SC and WO are not stored; the operations they start
are in Machine/RegIO.lean. -/

namespace Sys2Proof.Machine

/-- One register: page offset, reset value, mask of its RW LK fields, mask of its W1C fields. -/
structure RegRow where
  off : Nat
  reset : Nat
  lk : Nat
  w1c : Nat
  deriving DecidableEq, Repr

/-- Registers of the GEN page. -/
def rowsGEN : List RegRow := [
  ⟨0x4, 0x1D100003, 0x0, 0x0⟩, ⟨0x10, 0x0, 0x0, 0xF⟩, ⟨0x14, 0x0, 0xF, 0x0⟩, ⟨0x40, 0x1E5C5A20, 0x0, 0x0⟩,
  ⟨0x44, 0x101, 0x0, 0x0⟩, ⟨0x58, 0x3FFFFFFE, 0x0, 0x0⟩]

/-- Registers of the MD page. -/
def rowsMD : List RegRow := [
  ⟨0x4, 0x400401, 0x0, 0x0⟩, ⟨0x10, 0x0, 0x0, 0x7⟩, ⟨0x14, 0x0, 0x7, 0x0⟩, ⟨0x40, 0x0, 0x1, 0x0⟩,
  ⟨0x48, 0x0, 0x0, 0x80000000⟩, ⟨0x4C, 0x0, 0x3FFF, 0x0⟩]

/-- Registers of the CLK page. -/
def rowsCLK : List RegRow := [
  ⟨0x4, 0x3080001, 0x0, 0x0⟩, ⟨0x10, 0x0, 0x0, 0x1F⟩, ⟨0x14, 0x0, 0x1F, 0x0⟩, ⟨0x40, 0x3, 0x3, 0x0⟩,
  ⟨0x50, 0x0, 0xFF, 0x0⟩]

/-- Registers of the PWR page. -/
def rowsPWR : List RegRow := [
  ⟨0x4, 0x8090001, 0x0, 0x0⟩, ⟨0x10, 0x0, 0x0, 0x3F⟩, ⟨0x14, 0x0, 0x3F, 0x0⟩,
  ⟨0x40, 0x5145F00, 0xFFFFFF01, 0x0⟩, ⟨0x44, 0x0, 0x7, 0x0⟩, ⟨0x50, 0x0, 0xF, 0x0⟩]

/-- Registers of the RST page. -/
def rowsRST : List RegRow := [
  ⟨0x4, 0x4080001, 0x0, 0x0⟩, ⟨0x10, 0x0, 0x0, 0x3F⟩, ⟨0x14, 0x0, 0x3F, 0x0⟩, ⟨0x40, 0x0, 0xFF07, 0x0⟩,
  ⟨0x44, 0x800A0032, 0x80FFFFFF, 0x0⟩]

/-- Registers of the HIF page. -/
def rowsHIF : List RegRow := [
  ⟨0x4, 0x20401007, 0x0, 0x0⟩, ⟨0x10, 0x0, 0x0, 0x3F⟩, ⟨0x14, 0x0, 0x3F, 0x0⟩, ⟨0x40, 0x3, 0x3, 0x0⟩,
  ⟨0x44, 0x0, 0x3FF01FF, 0x0⟩, ⟨0x48, 0x0, 0x1F, 0x0⟩, ⟨0x50, 0x0, 0x0, 0x80000000⟩, ⟨0x54, 0x0, 0x7E, 0x0⟩]

/-- Registers of the MGT page. -/
def rowsMGT : List RegRow := [
  ⟨0x4, 0x4FF1001, 0x0, 0x0⟩, ⟨0x10, 0x0, 0x0, 0x3F⟩, ⟨0x14, 0x0, 0x3F, 0x0⟩,
  ⟨0x40, 0x88B50101, 0xFFFF0F01, 0x0⟩, ⟨0x44, 0x20080080, 0xFFFFFFFF, 0x0⟩, ⟨0x48, 0x0, 0xFFFFFFFF, 0x0⟩,
  ⟨0x4C, 0x0, 0xFFFFFFFF, 0x0⟩, ⟨0x50, 0x0, 0xFFFFFFFF, 0x0⟩, ⟨0x5C, 0x0, 0x3, 0x0⟩]

/-- Registers of the CORE page. -/
def rowsCORE : List RegRow := [
  ⟨0x4, 0x10207801, 0x0, 0x0⟩, ⟨0x10, 0x0, 0x0, 0x3F⟩, ⟨0x14, 0x0, 0x3F, 0x0⟩, ⟨0x40, 0x1, 0x1, 0x0⟩,
  ⟨0x50, 0x0, 0xF, 0x0⟩]

/-- Registers of the MXA page. -/
def rowsMXA : List RegRow := [
  ⟨0x4, 0x100407F, 0x0, 0x0⟩, ⟨0x10, 0x0, 0x0, 0x3F⟩, ⟨0x14, 0x0, 0x3F, 0x0⟩, ⟨0x40, 0x3, 0x3, 0x0⟩]

/-- Registers of the FLS page. -/
def rowsFLS : List RegRow := [
  ⟨0x4, 0x4088800F, 0x0, 0x0⟩, ⟨0x10, 0x0, 0x0, 0x7F⟩, ⟨0x14, 0x0, 0x7F, 0x0⟩, ⟨0x40, 0x3, 0x3, 0x0⟩]

/-- Registers of the DMA page. -/
def rowsDMA : List RegRow := [
  ⟨0x4, 0x2040010F, 0x0, 0x0⟩, ⟨0x10, 0x0, 0x0, 0x3F⟩, ⟨0x14, 0x0, 0x3F, 0x0⟩, ⟨0x40, 0x1, 0x1, 0x0⟩,
  ⟨0x4C, 0x0, 0x1F, 0x0⟩]

/-- Registers of the TIL page. -/
def rowsTIL : List RegRow := [
  ⟨0x4, 0x620A007, 0x0, 0x0⟩, ⟨0x10, 0x0, 0x0, 0xF⟩, ⟨0x14, 0x0, 0xF, 0x0⟩, ⟨0x40, 0x1, 0x1, 0x0⟩]

/-- Registers of the SCH page. -/
def rowsSCH : List RegRow := [
  ⟨0x4, 0x2000F011, 0x0, 0x0⟩, ⟨0x10, 0x0, 0x0, 0x3F⟩, ⟨0x14, 0x0, 0x3F, 0x0⟩, ⟨0x40, 0x0, 0xF, 0x0⟩,
  ⟨0x48, 0x0, 0xFFFFFFFF, 0x0⟩, ⟨0x4C, 0x0, 0xFFFFFFFF, 0x0⟩, ⟨0x50, 0x0, 0xFFFFFFFF, 0x0⟩]

/-- Registers of the TCK page. -/
def rowsTCK : List RegRow := [
  ⟨0x4, 0x80100001, 0x0, 0x0⟩, ⟨0x10, 0x0, 0x0, 0x3F⟩, ⟨0x14, 0x0, 0x3F, 0x0⟩, ⟨0x48, 0x3FF, 0xFFF, 0x0⟩,
  ⟨0x80, 0x0, 0xFFFF, 0x0⟩, ⟨0x84, 0x0, 0xFFFF, 0x0⟩, ⟨0x88, 0x0, 0xFFFF, 0x0⟩, ⟨0x8C, 0x0, 0xFFFF, 0x0⟩,
  ⟨0x90, 0x0, 0xFFFF, 0x0⟩, ⟨0x94, 0x0, 0xFFFF, 0x0⟩, ⟨0x98, 0x0, 0xFFFF, 0x0⟩, ⟨0x9C, 0x0, 0xFFFF, 0x0⟩,
  ⟨0xA0, 0x0, 0xFFFF, 0x0⟩, ⟨0xA4, 0x0, 0xFFFF, 0x0⟩, ⟨0xA8, 0x0, 0xFFFF, 0x0⟩, ⟨0xAC, 0x0, 0xFFFF, 0x0⟩,
  ⟨0xB0, 0x0, 0xFFFF, 0x0⟩, ⟨0xB4, 0x0, 0xFFFF, 0x0⟩, ⟨0xB8, 0x0, 0xFFFF, 0x0⟩, ⟨0xBC, 0x0, 0xFFFF, 0x0⟩]

/-- Registers of the VDT page. -/
def rowsVDT : List RegRow := [
  ⟨0x4, 0x80029003, 0x0, 0x0⟩, ⟨0x10, 0x0, 0x0, 0x7F⟩, ⟨0x14, 0x0, 0x7F, 0x0⟩, ⟨0x40, 0x6401, 0xFF01, 0x0⟩,
  ⟨0x44, 0x0, 0xFFFFFFFF, 0x0⟩, ⟨0x48, 0x0, 0x3F3F3F3F, 0x0⟩, ⟨0x4C, 0x1010101, 0x7F7F7F7F, 0x0⟩,
  ⟨0x54, 0x0, 0x3, 0x0⟩, ⟨0x58, 0x0, 0xFFFFFFFF, 0x0⟩, ⟨0x5C, 0x0, 0xFFFFFFFF, 0x0⟩,
  ⟨0x60, 0x0, 0xFFFFFFFF, 0x0⟩, ⟨0x64, 0x0, 0xFFFF, 0x0⟩, ⟨0x6C, 0x0, 0x1F, 0x0⟩]

/-- Registers of the COL page. -/
def rowsCOL : List RegRow := [
  ⟨0x4, 0x8400001, 0x0, 0x0⟩, ⟨0x10, 0x0, 0x0, 0x3⟩, ⟨0x14, 0x0, 0x3, 0x0⟩, ⟨0x40, 0x1, 0x1, 0x0⟩,
  ⟨0x44, 0x0, 0x7, 0x0⟩]

/-- Registers of the TRS page. -/
def rowsTRS : List RegRow := [
  ⟨0x4, 0x20056407, 0x0, 0x0⟩, ⟨0x10, 0x0, 0x0, 0x7F⟩, ⟨0x14, 0x0, 0x7F, 0x0⟩, ⟨0x40, 0x1, 0x1, 0x0⟩,
  ⟨0x44, 0x0, 0x7, 0x0⟩, ⟨0x58, 0x0, 0x3F, 0x0⟩, ⟨0x60, 0x0, 0x1F3F, 0x0⟩]

/-- Registers of the CMB page. -/
def rowsCMB : List RegRow := [
  ⟨0x4, 0x20640201, 0x0, 0x0⟩, ⟨0x10, 0x0, 0x0, 0xF⟩, ⟨0x14, 0x0, 0xF, 0x0⟩, ⟨0x40, 0x1, 0x1, 0x0⟩,
  ⟨0x44, 0x0, 0x3, 0x0⟩]

/-- Registers of the HBM page. -/
def rowsHBM : List RegRow := [
  ⟨0x4, 0x20240803, 0x0, 0x0⟩, ⟨0x10, 0x0, 0x0, 0x7F⟩, ⟨0x14, 0x0, 0x7F, 0x0⟩, ⟨0x40, 0x1, 0x1, 0x0⟩,
  ⟨0x44, 0x20, 0x7F, 0x0⟩, ⟨0x48, 0x0, 0x1FFF, 0x0⟩, ⟨0x50, 0x0, 0xF, 0x0⟩, ⟨0x54, 0x0, 0xFFFFFFFF, 0x0⟩]

/-- Registers of the SMP page. -/
def rowsSMP : List RegRow := [
  ⟨0x4, 0x80004008, 0x0, 0x0⟩, ⟨0x10, 0x0, 0x0, 0x1F⟩, ⟨0x14, 0x0, 0x1F, 0x0⟩, ⟨0x40, 0x1, 0x1, 0x0⟩,
  ⟨0x44, 0x0, 0xFF, 0x0⟩]

/-- Registers of the GAL page. -/
def rowsGAL : List RegRow := [
  ⟨0x4, 0x20100801, 0x0, 0x0⟩, ⟨0x10, 0x0, 0x0, 0x7F⟩, ⟨0x14, 0x0, 0x7F, 0x0⟩, ⟨0x40, 0x0, 0x1FF, 0x0⟩,
  ⟨0x48, 0x0, 0xFFFFFFFF, 0x0⟩, ⟨0x4C, 0x0, 0xFFFF, 0x0⟩, ⟨0x54, 0x0, 0x1F, 0x0⟩]

/-- Registers of the UPD page. -/
def rowsUPD : List RegRow := [
  ⟨0x4, 0x40100405, 0x0, 0x0⟩, ⟨0x10, 0x0, 0x0, 0x7F⟩, ⟨0x14, 0x0, 0x7F, 0x0⟩, ⟨0x40, 0x3, 0x3, 0x0⟩,
  ⟨0x54, 0x0, 0xFF, 0x0⟩, ⟨0x5C, 0x0, 0xFFFF, 0x0⟩]

/-- Registers of the PIE page. -/
def rowsPIE : List RegRow := [
  ⟨0x4, 0xF04C00F, 0x0, 0x0⟩, ⟨0x10, 0x0, 0x0, 0x1FF⟩, ⟨0x14, 0x0, 0x1FF, 0x0⟩,
  ⟨0x40, 0x10040803, 0xFFFFFF0F, 0x0⟩, ⟨0x44, 0x400, 0xFFFF, 0x0⟩, ⟨0x5C, 0x0, 0xFF, 0x0⟩,
  ⟨0x64, 0x0, 0x0, 0x3F⟩, ⟨0x6C, 0x0, 0xFF0FF0, 0x0⟩, ⟨0x78, 0x0, 0xFFFFFFFF, 0x0⟩,
  ⟨0x7C, 0x0, 0xFFFFFFFF, 0x0⟩]

/-- Registers of the KEY page. -/
def rowsKEY : List RegRow := [
  ⟨0x4, 0x40000401, 0x0, 0x0⟩, ⟨0x10, 0x0, 0x0, 0xF⟩, ⟨0x14, 0x0, 0xF, 0x0⟩, ⟨0x40, 0x0, 0x3FFF, 0x0⟩]

/-- Registers of the CTX page. -/
def rowsCTX : List RegRow := [
  ⟨0x4, 0x4001800, 0x0, 0x0⟩, ⟨0x10, 0x0, 0x0, 0x3F⟩, ⟨0x14, 0x0, 0x3F, 0x0⟩, ⟨0x40, 0x0, 0xF, 0x0⟩,
  ⟨0x44, 0x0, 0xFFFFFFFF, 0x0⟩, ⟨0x48, 0x0, 0xFFFFFFFF, 0x0⟩, ⟨0x4C, 0x0, 0xFFFFFFFF, 0x0⟩,
  ⟨0x50, 0x0, 0xFFFFFFFF, 0x0⟩, ⟨0x58, 0x0, 0xFFFFFFFF, 0x0⟩, ⟨0x5C, 0x0, 0xFFFF, 0x0⟩,
  ⟨0x60, 0x0, 0x3FF, 0x0⟩]

/-- Registers of the SEEP page. -/
def rowsSEEP : List RegRow := [
  ⟨0x4, 0xFFF000, 0x0, 0x0⟩, ⟨0x10, 0x0, 0x0, 0xF⟩, ⟨0x14, 0x0, 0xF, 0x0⟩, ⟨0x40, 0xC800, 0xFFFFFF31, 0x0⟩,
  ⟨0x44, 0x0, 0xFFF, 0x0⟩, ⟨0x48, 0x0, 0xFFFFFFFF, 0x0⟩, ⟨0x4C, 0x0, 0xFFFFFFFF, 0x0⟩]

/-- Registers of the SEM page. -/
def rowsSEM : List RegRow := [
  ⟨0x4, 0x10000000, 0x0, 0x0⟩, ⟨0x10, 0x0, 0x0, 0xF⟩, ⟨0x14, 0x0, 0xF, 0x0⟩]

/-- Registers of the TRC page. -/
def rowsTRC : List RegRow := [
  ⟨0x4, 0xB204001, 0x0, 0x0⟩, ⟨0x10, 0x0, 0x0, 0xF⟩, ⟨0x14, 0x0, 0xF, 0x0⟩,
  ⟨0x40, 0x8000000, 0xFFFFF807, 0x0⟩, ⟨0x44, 0x0, 0xFFFFFFFF, 0x0⟩, ⟨0x48, 0xFF0000, 0xFF00FF, 0x0⟩,
  ⟨0x4C, 0x0, 0xFFF, 0x0⟩, ⟨0x50, 0x0, 0xFFFFFFFF, 0x0⟩, ⟨0x54, 0x0, 0xFFFFFFFF, 0x0⟩,
  ⟨0x58, 0x0, 0xFFFFFFFF, 0x0⟩, ⟨0x5C, 0x0, 0xFFFFFFFF, 0x0⟩, ⟨0x60, 0x0, 0xFFFFFFFF, 0x0⟩,
  ⟨0x64, 0x0, 0xFFFFFFFF, 0x0⟩, ⟨0x6C, 0x0, 0xFFFFFFFF, 0x0⟩]

/-- Registers of the TST page. -/
def rowsTST : List RegRow := [
  ⟨0x4, 0x1F, 0x0, 0x0⟩, ⟨0x10, 0x0, 0x0, 0xF⟩, ⟨0x14, 0x0, 0xF, 0x0⟩, ⟨0x40, 0x0, 0xF0F, 0x0⟩,
  ⟨0x48, 0x0, 0x3, 0x0⟩, ⟨0x58, 0x15A209C7, 0x0, 0x0⟩]

/-- The registers of a block type (R472). -/
def regRows : Nat → List RegRow
  | 1 => rowsGEN
  | 2 => rowsMD
  | 3 => rowsCLK
  | 4 => rowsPWR
  | 5 => rowsRST
  | 6 => rowsHIF
  | 7 => rowsMGT
  | 8 => rowsCORE
  | 9 => rowsMXA
  | 10 => rowsFLS
  | 11 => rowsDMA
  | 12 => rowsTIL
  | 13 => rowsSCH
  | 14 => rowsTCK
  | 15 => rowsVDT
  | 16 => rowsCOL
  | 17 => rowsTRS
  | 18 => rowsCMB
  | 19 => rowsHBM
  | 20 => rowsSMP
  | 21 => rowsGAL
  | 22 => rowsUPD
  | 23 => rowsPIE
  | 24 => rowsKEY
  | 25 => rowsCTX
  | 26 => rowsSEEP
  | 27 => rowsSEM
  | 28 => rowsTRC
  | 29 => rowsTST
  | _ => []

/-- The row of a register, if it is listed. -/
def findRow : List RegRow → Nat → Option RegRow
  | [], _ => none
  | r :: rs, o => if r.off = o then some r else findRow rs o

/-- The row of the register at a page offset of a block type; the empty row where none is listed. -/
def regRow (ty o : Nat) : RegRow := (findRow (regRows ty) o).getD ⟨o, 0, 0, 0⟩

/-- The block type of a device-region page by the page index (R473); 0 for an empty page. -/
def devPageType (p : Nat) : Nat :=
  if p ≤ 6 then p + 1
  else if p = 0x7 then 0x1B else if p = 0x8 then 0xD else if p = 0x9 then 0xE
  else if p = 0xA then 0xF else if p = 0xB then 0x10 else if p = 0xC then 0x12
  else if p = 0xD then 0x14 else if p = 0xE then 0x15 else if p = 0xF then 0x17
  else if p = 0x10 then 0x18 else if p = 0x11 then 0x19 else if p = 0x12 then 0x1A
  else if p = 0x13 then 0x1C else if p = 0x14 then 0x1D
  else if 0x20 ≤ p ∧ p ≤ 0x23 then 0x11
  else if 0x28 ≤ p ∧ p ≤ 0x2F then 0x13
  else if 0x30 ≤ p ∧ p ≤ 0x37 then 0x16
  else 0

/-- The block type that the page index gives a page, all cores being present (R473, R474). -/
def pageType (p : Nat) : Nat :=
  if p < 0x80 then devPageType p
  else if p < 0x1080 ∧ (p - 0x80) % 16 < 5 then 8 + (p - 0x80) % 16
  else 0

/-- The reset value of the register at a BAR0 offset. -/
def regReset (off : Nat) : Nat := (regRow (pageType (off / 0x1000)) (off % 0x1000)).reset

end Sys2Proof.Machine
end

