-- ==== Sys2Proof/Machine/Crc.lean ====
section
/-! DEFINITION. The checks and generators the spec names: CRC-32C (R42), the address term of the transit check (R43),
CRC-64 of the digest (R103), CRC-8 of half-slot words, Philox-4×32 with 10 rounds (R54, R55), SHA-256 and HMAC-SHA-256
of the management frames. All over naturals and bytes, by structural recursion. -/

namespace Sys2Proof.Machine

open Sys2Proof

/-- One reflected CRC step per bit, `n` bits. -/
def crcReflBits (poly : Nat) : Nat → Nat → Nat
  | 0, c => c
  | n + 1, c => crcReflBits poly n (if c % 2 = 1 then (c / 2) ^^^ poly else c / 2)

/-- A reflected CRC over bytes, without initial or final XOR. -/
def crcRefl (poly : Nat) : Nat → List Byte → Nat
  | c, [] => c
  | c, b :: bs => crcRefl poly (crcReflBits poly 8 (c ^^^ b.toNat)) bs

/-- The reflected form of the polynomial 0x1EDC_6F41 of CRC-32C. -/
def crc32cPoly : Nat := 0x82F63B78

/-- CRC-32C of a message (R42): reflected, initial value and final XOR 0xFFFF_FFFF. -/
def crc32c (m : List Byte) : Nat := crcRefl crc32cPoly 0xFFFFFFFF m ^^^ 0xFFFFFFFF

/-- A(addr) of R43: the CRC-32C of the eight address bytes with initial value 0 and no final XOR. -/
def crcAddr (addr : Nat) : Nat := crcRefl crc32cPoly 0 (leBytes 8 addr)

/-- One non-reflected CRC step per bit, `n` bits, of a register `w` bits wide. -/
def crcFwdBits (w poly : Nat) : Nat → Nat → Nat
  | 0, c => c
  | n + 1, c =>
    crcFwdBits w poly n
      (if bitAt c (w - 1) then ((c * 2) % 2 ^ w) ^^^ poly else (c * 2) % 2 ^ w)

/-- A non-reflected CRC over bytes from the register value `c`. -/
def crcFwd (w poly : Nat) : Nat → List Byte → Nat
  | c, [] => c
  | c, b :: bs => crcFwd w poly (crcFwdBits w poly 8 (c ^^^ (b.toNat * 2 ^ (w - 8)))) bs

/-- The CRC-64 of the digests (R103): polynomial 0x42F0_E1EB_A9EA_3693, not reflected. -/
def crc64 (c : Nat) (m : List Byte) : Nat := crcFwd 64 0x42F0E1EBA9EA3693 c m

/-- A CRC-8 with polynomial 0x07, not reflected, from 0. -/
def crc8 (m : List Byte) : Nat := crcFwd 8 0x07 0 m

/-! Philox-4×32-10 with the multipliers and round constants of its original publication (R54; PRESUMED: the
publication's constants, log 20). -/

/-- One Philox round. -/
def philoxRound (k0 k1 : Nat) (c : Nat × Nat × Nat × Nat) : Nat × Nat × Nat × Nat :=
  let p0 := 0xD2511F53 * c.1
  let p1 := 0xCD9E8D57 * c.2.2.1
  ((p1 / 2 ^ 32) ^^^ c.2.1 ^^^ k0, p1 % 2 ^ 32, (p0 / 2 ^ 32) ^^^ c.2.2.2 ^^^ k1, p0 % 2 ^ 32)

/-- `n` Philox rounds, the key bumped after each. -/
def philoxRounds : Nat → Nat → Nat → Nat × Nat × Nat × Nat → Nat × Nat × Nat × Nat
  | 0, _, _, c => c
  | n + 1, k0, k1, c =>
    philoxRounds n ((k0 + 0x9E3779B9) % 2 ^ 32) ((k1 + 0xBB67AE85) % 2 ^ 32) (philoxRound k0 k1 c)

/-- The generator of R54: four words from the 64-bit job seed and a counter. -/
def philox (seed : Nat) (c : Nat × Nat × Nat × Nat) : Nat × Nat × Nat × Nat :=
  philoxRounds 10 (seed % 2 ^ 32) (seed / 2 ^ 32 % 2 ^ 32) c

/-- The word for element `j` of block `b` (R55): stream ID, span sequence number and use ordinal as the table gives. -/
def genWord (seed stream span use b j : Nat) : Nat :=
  let o := philox seed
    ((b * 16 + j / 4) % 2 ^ 32, stream % 2 ^ 32, span % 2 ^ 32,
      (span / 2 ^ 32 % 2 ^ 16) * 2 ^ 16 + use % 2 ^ 16)
  match j % 4 with
  | 0 => o.1
  | 1 => o.2.1
  | 2 => o.2.2.1
  | _ => o.2.2.2

/-! SHA-256 and HMAC-SHA-256 (published standards; the spec names them for the management frames). -/

/-- The largest number below `r + 2^n` whose `k`-th power does not pass `x`, found bit by bit from `r`. -/
def rootBits (k x : Nat) : Nat → Nat → Nat
  | 0, r => r
  | n + 1, r => rootBits k x n (if (r + 2 ^ n) ^ k ≤ x then r + 2 ^ n else r)

/-- The first 32 bits of the fractional part of the `k`-th root of a number below 2^9. -/
def rootFraction (k p : Nat) : Nat := rootBits k (p * 2 ^ (32 * k)) 37 0 % 2 ^ 32

/-- The primes below `n`. -/
def primesBelow (n : Nat) : List Nat :=
  (upTo n).filter (fun p => decide (2 ≤ p) && (upTo p).all (fun d => decide (d < 2) || p % d != 0))

/-- Round constants of SHA-256: from the cube roots of the first 64 primes. -/
def shaRoundConstants : List Nat := (primesBelow 312).map (rootFraction 3)

/-- Initial hash value of SHA-256: from the square roots of the first eight primes. -/
def shaStart : List Nat := (primesBelow 20).map (rootFraction 2)

/-- Right rotation of a 32-bit word. -/
def rotr32 (v n : Nat) : Nat := (v / 2 ^ n) ^^^ ((v * 2 ^ (32 - n)) % 2 ^ 32)

/-- Message schedule of SHA-256: the window of the last 16 words, newest first, `n` more words. -/
def shaSched : Nat → List Nat → List Nat → List Nat
  | 0, _, acc => acc
  | n + 1, w, acc =>
    let g := fun i => w.getD i 0
    let s0 := rotr32 (g 14) 7 ^^^ rotr32 (g 14) 18 ^^^ (g 14 / 2 ^ 3)
    let s1 := rotr32 (g 1) 17 ^^^ rotr32 (g 1) 19 ^^^ (g 1 / 2 ^ 10)
    let v := (g 15 + s0 + g 6 + s1) % 2 ^ 32
    shaSched n (v :: w.take 15) (acc ++ [v])

/-- One round of SHA-256 on the eight working words. -/
def shaRound (h : List Nat) (k w : Nat) : List Nat :=
  let g := fun i => h.getD i 0
  let e := g 4
  let a := g 0
  let s1 := rotr32 e 6 ^^^ rotr32 e 11 ^^^ rotr32 e 25
  let ch := (e &&& g 5) ^^^ ((2 ^ 32 - 1 - e) &&& g 6)
  let t1 := g 7 + s1 + ch + k + w
  let s0 := rotr32 a 2 ^^^ rotr32 a 13 ^^^ rotr32 a 22
  let mj := (a &&& g 1) ^^^ (a &&& g 2) ^^^ (g 1 &&& g 2)
  [(t1 + s0 + mj) % 2 ^ 32, a, g 1, g 2, (g 3 + t1) % 2 ^ 32, e, g 5, g 6]

/-- The rounds over paired constants and words. -/
def shaRounds : List Nat → List Nat → List Nat → List Nat
  | k :: ks, w :: ws, h => shaRounds ks ws (shaRound h k w)
  | _, _, h => h

/-- The big-endian 32-bit words of bytes. -/
def beWords : List Byte → List Nat
  | a :: b :: c :: d :: bs =>
    (a.toNat * 2 ^ 24 + b.toNat * 2 ^ 16 + c.toNat * 2 ^ 8 + d.toNat) :: beWords bs
  | _ => []

/-- Big-endian bytes of a natural. -/
def beBytes (n v : Nat) : List Byte := (leBytes n v).reverse

/-- SHA-256 of a list of 16-word blocks, by a bound on their number. -/
def shaBlocks : Nat → List Nat → List Nat → List Nat
  | 0, _, h => h
  | n + 1, ws, h =>
    let b := ws.take 16
    let sch := shaSched 48 b.reverse b
    let r := shaRounds shaRoundConstants sch h
    shaBlocks n (ws.drop 16) (List.zipWith (fun x y => (x + y) % 2 ^ 32) h r)

/-- SHA-256 of a message. -/
def sha256 (m : List Byte) : List Byte :=
  let l := m.length
  let pad := (119 - l % 64) % 64
  let full := m ++ [0x80#8] ++ List.replicate pad 0#8 ++ beBytes 8 (l * 8)
  (shaBlocks (full.length / 64) (beWords full) shaStart).flatMap (beBytes 4)

/-- HMAC-SHA-256 with a key of at most 64 bytes. -/
def hmacSha256 (key m : List Byte) : List Byte :=
  let k := key ++ List.replicate (64 - key.length) 0#8
  sha256 (k.map (· ^^^ 0x5C#8) ++ sha256 (k.map (· ^^^ 0x36#8) ++ m))

end Sys2Proof.Machine
end

