-- ==== Sys2Proof/Machine/Numeric.lean ====
section
/-! DEFINITION. Integer formats, blocks, sidecars, the choice of the output exponent, rounding, aligned adds and the
clamps of tensor arithmetic (R37 to R58). Stored integers and wide values are `Int`: the spec computes them exactly
and narrows at stated points. -/

namespace Sys2Proof.Machine

open Sys2Proof

/-- The eight formats (R37). -/
inductive Fmt where
  | s4 | s8 | s12 | s16 | s24 | s32 | s48 | u8
  deriving DecidableEq, Repr

/-- The format a code names (R37). -/
def Fmt.ofCode : Nat → Option Fmt
  | 0 => some .s4 | 1 => some .s8 | 2 => some .s12 | 3 => some .s16
  | 4 => some .s24 | 5 => some .s32 | 6 => some .s48 | 7 => some .u8
  | _ => none

/-- The code of a format (R37). -/
def Fmt.code : Fmt → Nat
  | .s4 => 0 | .s8 => 1 | .s12 => 2 | .s16 => 3 | .s24 => 4 | .s32 => 5 | .s48 => 6 | .u8 => 7

/-- The width of one element in bits (R37). -/
def Fmt.bits : Fmt → Nat
  | .s4 => 4 | .s8 => 8 | .s12 => 12 | .s16 => 16 | .s24 => 24 | .s32 => 32 | .s48 => 48 | .u8 => 8

/-- Whether the format is signed (R37). -/
def Fmt.signed : Fmt → Bool
  | .u8 => false
  | _ => true

/-- Bytes per block of 64 elements (R37). -/
def Fmt.bytes (f : Fmt) : Nat := 8 * f.bits

/-- MIN of the format. -/
def Fmt.min (f : Fmt) : Int := if f.signed then -((2 ^ (f.bits - 1) : Nat) : Int) else 0

/-- MAX of the format. -/
def Fmt.max (f : Fmt) : Int :=
  if f.signed then ((2 ^ (f.bits - 1) : Nat) : Int) - 1 else ((2 ^ f.bits : Nat) : Int) - 1

/-- FMT of a ZEROED sidecar (R45). -/
def fmtZeroed : Nat := 0xF

/-- FMT of a RAW sidecar (R45). -/
def fmtRaw : Nat := 0xE

/-- Element `i` of a block's bytes taken as one little-endian number (R38). -/
def elemOf (f : Fmt) (n i : Nat) : Int :=
  let m := n / 2 ^ (f.bits * i) % 2 ^ f.bits
  if f.signed then sext f.bits m else (m : Int)

/-- The 64 elements of a stored block (R38). -/
def unpackBlock (f : Fmt) (bs : List Byte) : List Int :=
  let n := leNat bs
  (upTo 64).map (elemOf f n)

/-- The number a block's elements pack to, element 0 lowest (R38). -/
def packNat (f : Fmt) : List Int → Nat
  | [] => 0
  | m :: ms => toBits f.bits m + 2 ^ f.bits * packNat f ms

/-- The bytes of a block (R38). -/
def packBlock (f : Fmt) (ms : List Int) : List Byte := leBytes f.bytes (packNat f ms)

/-- A sidecar (R41): EXP as s8, FMT code, SAT, SR, ZERO, TAG, CRC. -/
structure Sidecar where
  exp : Int := -128
  fmt : Nat := 0xF
  sat : Bool := false
  sr : Bool := false
  zero : Bool := true
  tag : Nat := 0
  crc : Nat := 0
  deriving DecidableEq, Repr

/-- Sidecar bytes 0 to 3 (R41). -/
def Sidecar.head (c : Sidecar) : List Byte :=
  [BitVec.ofNat 8 (toBits 8 c.exp),
   BitVec.ofNat 8 (c.fmt % 16 + 16 * b2n c.sat + 32 * b2n c.sr + 64 * b2n c.zero)] ++ leBytes 2 c.tag

/-- The eight sidecar bytes (R41). -/
def Sidecar.bytes (c : Sidecar) : List Byte := c.head ++ leBytes 4 c.crc

/-- The sidecar eight bytes spell; the reserved bit of byte 1 is not kept (R41). -/
def Sidecar.ofBytes (bs : List Byte) : Sidecar :=
  let b0 := (bs.getD 0 0#8).toNat
  let b1 := (bs.getD 1 0#8).toNat
  { exp := sext 8 b0, fmt := b1 % 16, sat := bitAt b1 4, sr := bitAt b1 5, zero := bitAt b1 6
    tag := leNat ((bs.drop 2).take 2), crc := leNat ((bs.drop 4).take 4) }

/-- The stored CRC of a block at a check address (R42). -/
def storedCrc (bs : List Byte) (c : Sidecar) (addr : Nat) : Nat :=
  crc32c (bs ++ c.head ++ leBytes 8 addr)

/-- The transit check: the same message with eight zero bytes for the address (R43). -/
def transitCrc (bs : List Byte) (c : Sidecar) : Nat := storedCrc bs c 0

/-- The check between the stored form at `addr` and the transit form, either way (R43). -/
def flipCrc (crc addr : Nat) : Nat := crc ^^^ crcAddr addr

/-- EXP_POLICY (R47). -/
inductive Policy where
  | keep | fixed | auto | autoFloor
  deriving DecidableEq, Repr

/-- The policy of a 2-bit field (R47). -/
def Policy.ofBits : Nat → Policy
  | 0 => .keep
  | 1 => .fixed
  | 2 => .auto
  | _ => .autoFloor

/-- Floor of v / 2^k. -/
def floorShr (v : Int) (k : Nat) : Int := v / ((2 ^ k : Nat) : Int)

/-- Ceiling of v / 2^k. -/
def ceilShr (v : Int) (k : Nat) : Int := -((-v) / ((2 ^ k : Nat) : Int))

/-- Clamp to a closed range. -/
def clampI (lo hi v : Int) : Int := if v < lo then lo else if hi < v then hi else v

/-- Whether shift `k` clamps no element under the AUTO test (R48). -/
def autoFits (f : Fmt) (vs : List Int) (k : Nat) : Bool :=
  vs.all (fun v => (!f.signed || decide (f.min ≤ floorShr v k)) && decide (ceilShr v k ≤ f.max))

/-- The smallest shift from `k` on that clamps no element; no s48 value needs more than 48 (R48). -/
def autoShift (f : Fmt) (vs : List Int) : Nat → Nat → Nat
  | 0, k => k
  | n + 1, k => if autoFits f vs k then k else autoShift f vs n (k + 1)

/-- The exponent a policy picks, before the clamp to s8 (R48). -/
def pickExp (vs : List Int) (eIn : Int) (f : Fmt) (p : Policy) (eFix floor : Int) : Int :=
  let none0 := vs.all (fun v => decide (v = 0)) || (!f.signed && vs.all (fun v => decide (v ≤ 0)))
  let auto := if none0 then -128 else eIn + (autoShift f vs 49 0 : Nat)
  match p with
  | .keep => eIn
  | .fixed => eFix
  | .auto => auto
  | .autoFloor => if auto < floor then floor else auto

/-- choose of R48: the output exponent; the shift is the output exponent less the input's. -/
def chooseExp (vs : List Int) (eIn : Int) (f : Fmt) (p : Policy) (eFix floor : Int) : Int :=
  clampI (-128) 127 (pickExp vs eIn f p eFix floor)

/-- round of R51: `sr` none is round half to even, `some u` stochastic with generator word `u`. -/
def roundShift (sr : Option Nat) (v s : Int) : Int :=
  if s ≤ 0 then v * ((2 ^ (-s).toNat : Nat) : Int)
  else
    let n := s.toNat
    let d : Int := ((2 ^ n : Nat) : Int)
    let q := v / d
    let r := v % d
    match sr with
    | none =>
      let h : Int := ((2 ^ (n - 1) : Nat) : Int)
      if r > h ∨ (r = h ∧ q % 2 = 1) then q + 1 else q
    | some u =>
      let t : Int := if n ≤ 32 then ((u / 2 ^ (32 - n) : Nat) : Int) else ((u * 2 ^ (n - 32) : Nat) : Int)
      if r + t ≥ d then q + 1 else q

/-- Range of s48 (R37). -/
def s48Min : Int := Fmt.min .s48
/-- Range of s48 (R37). -/
def s48Max : Int := Fmt.max .s48

/-- Clamp to s48 (R58). -/
def sat48 (v : Int) : Int := clampI s48Min s48Max v

/-- Clamp to a format's range (R49). -/
def satFmt (f : Fmt) (v : Int) : Int := clampI f.min f.max v

/-- Clamp a working exponent to s16 (R40). -/
def sat16 (e : Int) : Int := clampI (-32768) 32767 e

/-- 64 wide values with their working exponent and lane SAT flags (R40, R58). -/
structure Wide where
  v : List Int := List.replicate 64 0
  e : Int := -256
  sat : List Bool := List.replicate 64 false
  deriving DecidableEq, Repr

/-- The result of an output rescale: stored elements, exponent, lane flags, shift. -/
structure OutBlock where
  m : List Int
  e : Int
  sat : List Bool
  shift : Int
  deriving DecidableEq, Repr

/-- R48 and R49 on one block; `gen j` is the generator word of element j, used when `sr`. -/
def rescale (w : Wide) (f : Fmt) (p : Policy) (eFix floor : Int) (sr : Bool) (gen : Nat → Nat) : OutBlock :=
  let e := chooseExp w.v w.e f p eFix floor
  let s := e - w.e
  let rs := (upTo 64).map (fun j =>
    roundShift (if sr then some (gen j) else none) (w.v.getD j 0) s)
  { m := rs.map (satFmt f), e := e, shift := s
    sat := (upTo 64).map (fun j =>
      w.sat.getD j false || decide (satFmt f (rs.getD j 0) ≠ rs.getD j 0)) }

/-- The sidecar of a rescaled block, with a transit check; `satSrc` is a source block's SAT bit (R50). -/
def OutBlock.sidecar (o : OutBlock) (f : Fmt) (sr satSrc : Bool) (tag : Nat) : Sidecar :=
  let c : Sidecar :=
    { exp := o.e, fmt := f.code, sat := satSrc || o.sat.any id, sr := sr && decide (o.shift > 0)
      zero := o.m.all (fun v => decide (v = 0)), tag := tag, crc := 0 }
  { c with crc := transitCrc (packBlock f o.m) c }

/-- The guard of an aligned add for an operand of width `w` (R52). -/
def alignGuard (w : Nat) : Nat := if 47 - w < 16 then 47 - w else 16

/-- align_add of R52 under a rounding; answers the sum before sat48 and its exponent. -/
def alignAddRaw (sr : Option Nat) (x ex : Int) (wx : Nat) (y ey : Int) (wy : Nat) : Int × Int :=
  let sw : Bool := decide (ex < ey)
  let x1 := if sw then y else x
  let e1 := if sw then ey else ex
  let w1 := if sw then wy else wx
  let y1 := if sw then x else y
  let e2 := if sw then ex else ey
  let g : Int := (alignGuard w1 : Nat)
  let ez := if e2 < e1 - g then e1 - g else e2
  (x1 * ((2 ^ (e1 - ez).toNat : Nat) : Int) + roundShift sr y1 (ez - e2), ez)

/-- align_add of R52: the clamped sum, its exponent, and whether it clamped. -/
def alignAdd (sr : Option Nat) (x ex : Int) (wx : Nat) (y ey : Int) (wy : Nat) : Int × Int × Bool :=
  let r := alignAddRaw sr x ex wx y ey wy
  (sat48 r.1, r.2, decide (sat48 r.1 ≠ r.1))

/-- The ZEROED sidecar of a block of `bs` at a check address (R45). -/
def zeroedSidecar (bs : List Byte) (addr : Nat) : Sidecar :=
  let c : Sidecar := {}
  { c with crc := storedCrc bs c addr }

end Sys2Proof.Machine
end

