-- ==== Sys2Proof/Machine/StCore.lean ====
section
/-! DEFINITION. The state of one logical core as plain data: threads (R117), the matrix array (R63, R67, R75), Flowstone
(R92, R99, R107), the DMA engine and tile walker (R142, R165), core memory (R160), its undo log (R339) and its fault
queue (R137). Every field's default is its value at reset. -/

namespace Sys2Proof.Machine

open Sys2Proof

/-- Thread states (R118), in order of their codes. -/
inductive TState where
  | inactive | ready | wait | done | faulted
  deriving DecidableEq, Repr

/-- The code of a thread state (R118). -/
def TState.code : TState → Nat
  | .inactive => 0 | .ready => 1 | .wait => 2 | .done => 3 | .faulted => 4

/-- A guard (R117, R129): resolved, or PENDING on bit `bit` of the SUM0 of the chain with serial number `chain`. -/
inductive Guard where
  | ff
  | tt
  | pending (chain bit : Nat) (sense : Bool)
  deriving DecidableEq, Repr

/-- The condition flags (R59). -/
structure Flags where
  n : Bool := false
  z : Bool := false
  c : Bool := false
  v : Bool := false
  dz : Bool := false
  deriving DecidableEq, Repr

/-- The binding a command takes at issue (R130): resolved, or waiting on a chain with GINV `inv`. -/
inductive Binding where
  | resolved (b : Bool)
  | pending (chain bit : Nat) (sense inv : Bool)
  deriving DecidableEq, Repr

/-- The part of a thread's state that a pier copy and a rewind point hold (R117, R138). `started` records that the
thread's first active span has begun (R119). -/
structure ThreadArch where
  st : TState := .inactive
  /-- G1 to G31; G0 is never listed. -/
  g : Store Word := []
  pc : Nat := 0
  fl : Flags := {}
  /-- Q1 to Q7. -/
  q : Store Guard := []
  started : Bool := false
  deriving DecidableEq, Repr

/-- The instruction a thread in WAIT holds (R120), with what its first attempt left. -/
structure Held where
  word : Nat
  /-- CORE_TWAIT.REASON (R140). -/
  reason : Nat
  /-- The keystone waited on, for reason 0x5. -/
  key : Nat := 0
  /-- For ARRIVE_WAIT: the PHASE before the arrival, once it has been made (R409). -/
  phase : Option Nat := none
  /-- The result of a keystone operation, once it is known, and the tick at which it returns (R410, R411). -/
  res : Option (Nat × Nat) := none
  deriving DecidableEq, Repr

/-- One hardware thread. -/
structure Thread where
  a : ThreadArch := {}
  sum0 : Nat := 0
  sum1 : Nat := 0
  sum2 : Nat := 0
  sum3 : Nat := 0
  digest : Nat := 0
  held : Option Held := none
  /-- High half captured with the last SEL 0x5 read (R126). -/
  tickHi : Nat := 0
  /-- The context the span assigns (R26), if any: ID and generation. -/
  ctx : Option (Nat × Nat) := none
  /-- CORE_PWIN (R134). -/
  pwin : Nat := 0
  /-- CORE_PCNT (R134). -/
  pcnt : Nat := 0
  /-- Span sequence number of the last progress expiry, and its tick (R134). -/
  expired : Option Nat := none
  expiredAt : Option Nat := none
  /-- The most recently issued IFS of the span: its chain's serial number (R129). -/
  lastIfs : Option Nat := none
  /-- Whether that chain has ended, and the SUM0 it wrote, if it wrote one (R129). -/
  lastSum : Option (Option Nat) := none
  pierCopy : Option ThreadArch := none
  rewind : Option ThreadArch := none
  /-- The context under which it became FAULTED (R119, R136). -/
  home : Option Nat := none
  /-- Its context has ended: it is INACTIVE for the rest of the job (R119, R136). -/
  ended : Bool := false
  /-- Wrong bits in its 32-bit words of state (R117): word number to 1 or 2. Words 1 to 31 are G1 to G31, 32 the PC, 33 flags, guards
  and thread state, 34 to 41 the summaries, low half first, 42 and 43 the digest (log 59). -/
  ecc : Store Nat := []
  /-- The queues that a walk put a command into at the thread's present issue opportunity: bit 0 array loads, bit 1 array streams,
  bit 2 chains (R151). -/
  emitted : Nat := 0
  deriving DecidableEq, Repr

/-- Fault classes (R34). -/
inductive FClass where
  | hw | ctx | sched
  deriving DecidableEq, Repr

/-- CLASS codes of the error logs. -/
def FClass.code : FClass → Nat
  | .hw => 1 | .ctx => 2 | .sched => 3

/-- A record of the core's fault queue (R137, R140). -/
structure FaultRec where
  cls : FClass
  unit : Nat
  cause : Nat
  thread : Nat
  ctx : Nat
  gen : Nat
  pc : Nat
  addr : Nat
  tick : Nat
  span : Nat
  deriving DecidableEq, Repr

/-- Who issued a command, and under which binding (R66, R95, R121, R130). -/
structure Issue where
  addr : Nat
  thread : Nat
  pc : Nat
  ctx : Nat
  gen : Nat
  bind : Binding
  /-- Emitted by a tile walk rather than issued by an instruction (R151). -/
  emitted : Bool := false
  deriving DecidableEq, Repr

/-- Who reads core memory, as the record of an uncorrectable word names it (R137, R161): the thread with its context and PC, and the
command's address; for a DMA transfer also the fields STREAM and KIND of ERR_LOG0 and the element number (R179). -/
structure Reader where
  thread : Nat := 0
  ctx : Nat := 0
  gen : Nat := 0
  pc : Nat := 0
  addr : Nat := 0
  pos : Nat := 0
  elem : Nat := 0
  deriving DecidableEq, Repr

/-- The issuer of a command as a reader of core memory. -/
def Issue.reader (i : Issue) : Reader := { thread := i.thread, ctx := i.ctx, gen := i.gen, pc := i.pc, addr := i.addr }

/-- An array command: the 128-bit block as read at issue, its place among the core's array commands, and the number of
chains the core had issued before it (R67, R94). -/
structure ArrCmd where
  word : Nat
  iss : Issue
  serial : Nat := 0
  after : Nat := 0
  deriving DecidableEq, Repr

/-- A tile in a buffer (R63): 128 columns of elements and of block exponents. -/
structure Tile where
  fmt : Fmt
  cols : List (List Int)
  exps : List (List Int)
  /-- The residues mod 31 stored beside the cells: of every digit of every element, by column (R82). -/
  res : List (List (List Nat))
  deriving DecidableEq, Repr

/-- One accumulator entry (R75), cleared by default. -/
structure AccEntry where
  v : Int := 0
  e : Int := -256
  sat : Bool := false
  deriving DecidableEq, Repr

/-- A lookup table (R99). -/
structure Table where
  xBase : Int
  segExp : Int
  yExp : Int
  y : List Int
  dy : List Int
  deriving DecidableEq, Repr

/-- A write a guarded command holds back until its binding resolves (R131). -/
inductive Wr where
  | mem (addr : Nat) (bytes : List Byte)
  /-- An accumulator entry: index, MODE of R74, and what the MODE combines with the entry. -/
  | acc (idx mode : Nat) (e : AccEntry)
  | vreg (r : Nat) (w : Wide)
  | tile (buf : Nat) (t : Option Tile)
  | table (n : Nat) (t : Table)
  | own (bank : Nat) (array : Bool)
  deriving DecidableEq, Repr

/-- A context fault held with a PENDING binding (R509): cause and record fields. -/
structure HeldFault where
  cause : Nat
  log1 : Nat
  log2 : Nat
  log0 : Nat
  deriving DecidableEq, Repr

/-- A command that has started and not yet signalled completion. -/
structure ArrRun where
  cmd : ArrCmd
  held : List Wr := []
  /-- The tile a LOAD puts into its buffer when it completes. -/
  tile : Option Tile := none
  fault : Option HeldFault := none
  /-- Stopped at a block by a context fault (R84, R509). -/
  stopped : Bool := false
  /-- The binding was FALSE or missed its write point, so the writes are withheld (R87, R131). -/
  squashed : Bool := false
  /-- Its write point has passed. -/
  pastWrite : Bool := false
  /-- Passes per column, and the columns that have entered (R71). -/
  per : Nat := 0
  cols : Nat := 0
  /-- The core cycle from its start at which its first write falls due (R65). -/
  due : Nat := 0
  /-- The entries that it combines with have been read (R93). -/
  read : Bool := false
  deriving DecidableEq, Repr

/-- The matrix array (R63, R67, R68, R75, R80). -/
structure ArrayState where
  loadQ : List ArrCmd := []
  streamQ : List ArrCmd := []
  /-- The head of the queue failed its check and the queue is stalled (R69). -/
  loadStall : Bool := false
  streamStall : Bool := false
  runs : List ArrRun := []
  buf0 : Option Tile := none
  buf1 : Option Tile := none
  /-- Bit b set: bank Ab owned by the array (R68). -/
  own : Nat := 0
  frozen : Bool := false
  /-- Commands issued to the array in the span. -/
  issued : Nat := 0
  /-- Entry bank × 32,768 + row × 256 + slot (R75). -/
  acc : Store AccEntry := []
  /-- Wrong bits in accumulator entries, by the same number: 1, or 2 where they cannot be corrected (R93). -/
  accEcc : Store Nat := []
  deriving DecidableEq, Repr

/-- A chain command: header, stage words, serial number in the core's issue order (R95, R96). -/
structure ChainCmd where
  head : Nat
  stages : List Nat
  serial : Nat
  iss : Issue
  deriving DecidableEq, Repr

/-- What a chain leaves when it completes (R102 to R104). -/
structure ChainSum where
  sum0 : Nat
  sum1 : Nat
  sum3 : Nat
  /-- With DIG_EN: DIG_ACC and the bytes that extend the digest. -/
  digest : Option (Bool × List Byte)
  /-- The captured maximum, handed to the tensor's history: tensor, magnitude, exponent. -/
  amax : Option (Nat × Int × Int)
  absurd : Bool
  deriving DecidableEq, Repr

/-- Writes of a block of chain `serial` that are made `after` core cycles after the entry of the last block (R106). -/
structure DueWrite where
  after : Nat
  serial : Nat
  writes : List Wr
  deriving DecidableEq, Repr

/-- An error that a chain meets: its core cycle from the chain's first entry, which orders errors, and its place; or a word of core
memory that cannot be corrected, by its address (R111, R114, R161). -/
structure FlsErr where
  time : Nat
  block : Nat
  stage : Nat := 0
  out : Bool := false
  lane : Nat := 0
  cls : FClass
  cause : Nat
  word : Option Nat := none
  deriving DecidableEq, Repr

/-- What a chain carries from block to block. -/
structure ChainAcc where
  /-- V registers as the chain's own WB stages left them (R511). -/
  shadow : Store Wide := []
  /-- Writes formed and not yet made, this chain's and, under PIPE, those of the chains before it (R106, R107). -/
  due : List DueWrite := []
  /-- Writes to vector registers of the last core cycles: how many before the last entry, the register, and what it held (R511). -/
  past : List (Nat × Nat × Wide) := []
  /-- Errors met. -/
  errs : List FlsErr := []
  amax : Nat × Int := (0, -256)
  sat : Bool := false
  rng : Bool := false
  pAny : Bool := false
  pAll : Bool := true
  zero : Bool := true
  emin : Int := 127
  emax : Int := -128
  blocks : Nat := 0
  last : Int × Int := (0, -256)
  bytes : List Byte := []
  sats : Nat := 0
  rngs : Nat := 0
  /-- The context failure that stopped the chain. -/
  stop : Option FlsErr := none
  deriving DecidableEq, Repr

/-- What a chain reads once, at its start: V registers, the vector source, the use ordinals of its consumers (R95, R105,
R511). -/
structure ChainEnv where
  cmd : ChainCmd
  v0 : Store Wide
  ords : List (Nat × Nat)
  /-- Whether its writes are made, unless a binding still PENDING withholds them. -/
  live : Bool
  /-- Core cycles from the entry of the last block before it to that of its first (R107). -/
  lead : Nat
  /-- Whether a context failure stops it. -/
  heed : Bool
  deriving DecidableEq, Repr

/-- A chain that has started and not completed. -/
structure ChainRun where
  cmd : ChainCmd
  /-- Started with a PENDING binding: the blocks that entered by its write point, whose writes wait for the binding; the later ones
  are still to come (R131). -/
  todo : Option (ChainEnv × ChainAcc) := none
  sum : Option ChainSum := none
  /-- For an LDTAB: what it leaves in its table; none where the image's CRC fails. -/
  table : Option Table := none
  /-- Output blocks with any SAT, and blocks with any RNG lane flag. -/
  sats : Nat := 0
  rngs : Nat := 0
  fault : Option HeldFault := none
  stopped : Bool := false
  squashed : Bool := false
  pastWrite : Bool := false
  deriving DecidableEq, Repr

/-- Flowstone (R92, R99, R107). -/
structure FlsState where
  queue : List ChainCmd := []
  stall : Bool := false
  runs : List ChainRun := []
  /-- V0 to V15, cleared by default. -/
  v : Store Wide := []
  /-- The valid tables. -/
  tables : Store Table := []
  /-- Use ordinals per stream ID in the span (R55, R105). -/
  uses : Store Nat := []
  /-- Writes of started chains that are still to be made, in the order of their core cycles: the core cycles from the entry of
  the last block into stage 0, the chain, the writes (R106, R107). -/
  due : List DueWrite := []
  /-- Writes to vector registers of the core cycles before that entry: how many before, the register, what it held (R511). -/
  past : List (Nat × Nat × Wide) := []
  /-- Wrong bits in lanes of the vector registers: register × 64 + lane to 1 or 2 (R93). -/
  vEcc : Store Nat := []
  /-- Table entries whose parity bit is wrong: table × 256 + segment (R99). -/
  tabPar : List Nat := []
  deriving DecidableEq, Repr

/-- A block on its way through the DMA engine: data bytes and sidecar bytes. -/
structure Moved where
  data : List Byte
  side : List Byte
  deriving DecidableEq, Repr

/-- A DMA descriptor: the 256-bit descriptor as read at issue (R166). -/
structure Desc where
  word : Nat
  addr : Nat
  thread : Nat
  pc : Nat
  ctx : Nat
  gen : Nat
  /-- Place in the core's order of issue. -/
  serial : Nat
  /-- Blocks moved (DMA_SSTAT.DONE). -/
  done : Nat := 0
  /-- All of its blocks have been moved or handed on; DESCRIPTOR_DONE is due. -/
  moved : Bool := false
  /-- It failed its head check and stays at the head (R167). -/
  stalled : Bool := false
  /-- Its first block has been served: its start checks have passed (R176). -/
  started : Bool := false
  /-- Use ordinal of its stream ID, under RESCALE with SR (R170). -/
  ord : Nat := 0
  /-- Bytes of a SEND to another device that do not yet fill a flit (R221). -/
  part : List Byte := []
  /-- Rows that a TRANSPOSE has read (R174). -/
  rows : List Moved := []
  deriving DecidableEq, Repr

/-- A walk (R142, R147): table and templates as read at its start. -/
structure Walk where
  table : List Byte
  templates : List Byte
  idx : List Nat
  desc : Desc
  /-- The walk's step s (R148). -/
  step : Nat := 0
  /-- Commands of the current EMIT step still to be emitted, with their template addresses (R151). -/
  pend : List (List Byte × Nat) := []
  /-- Blocks of the current MOVE step still to be moved (R149). -/
  left : Nat := 0
  /-- Stopped by a fault (R153). -/
  stopped : Bool := false
  deriving DecidableEq, Repr

/-- The DMA engine and the tile walker (R142, R165). -/
structure DmaState where
  /-- Stream s: its descriptors, head first. -/
  streams : Store (List Desc) := []
  /-- The stream served last; a span begins with stream 0 (R165; log 60). -/
  lastServed : Nat := 31
  walks : Store Walk := []
  uses : Store Nat := []
  issued : Nat := 0
  deriving DecidableEq, Repr

/-- A device memory record of a core's undo log (R340), or of an update engine's area (R341). -/
structure DevRec where
  addr : Nat
  capacity : Bool := false
  data : List Byte
  side : List Byte
  /-- Commit tick (R291). -/
  tick : Nat
  /-- Precedence among equal commit ticks (R291), later applied last. -/
  order : Nat
  deriving DecidableEq, Repr

/-- A core's undo log (R339, R340, R342). -/
structure UndoLog where
  /-- Line address and old contents. -/
  lines : List (Nat × List Byte) := []
  devs : List DevRec := []
  ovf : Bool := false
  maxLines : Nat := 0
  maxDev : Nat := 0
  deriving DecidableEq, Repr

/-- One logical core. -/
structure Core where
  threads : Store Thread := []
  faultQ : List FaultRec := []
  dropped : Nat := 0
  /-- The core's clocks run (R201). -/
  clocked : Bool := true
  /-- The first core cycle of a core that its wake comparator has woken and that is not yet clocked (R202). -/
  wakeAt : Option Nat := none
  /-- Core memory, 8 MiB of bytes (R160). -/
  mem : Store Byte := []
  /-- Wrong bits in 64-bit words of core memory: word number to 1 or 2 (R161). -/
  ecc : Store Nat := []
  arr : ArrayState := {}
  fls : FlsState := {}
  dma : DmaState := {}
  undo : UndoLog := {}
  /-- Serial number of the next chain. -/
  chains : Nat := 0
  /-- Bindings that were PENDING at their commands' write points and have not resolved since (R131, R132). -/
  missed : List Binding := []
  /-- Ticks in which user work ran on the core, the array was frozen, the head chain waited for a bank, and DMA could meet bank
  conflicts, since the counters of their core cycles were last brought up to date (R80, R94, R162; log 7). -/
  runTicks : Nat := 0
  frozenTicks : Nat := 0
  waitTicks : Nat := 0
  bankTicks : Nat := 0
  /-- Keystone watchdog count in ticks (R464). -/
  wd : Nat := 0
  /-- The core holds its reset since (R459), if it is in reset. -/
  inReset : Bool := false
  deriving DecidableEq, Repr

end Sys2Proof.Machine
end

