-- ==== Sys2Proof/Machine/StSched.lean ====
section
/-! DEFINITION. The state of the schedule machinery and the fabric tick as plain data: the held image by sections
(R182, R183, R188, R190, R199, R201, R314, R337, R396, R408), the sequencer (R28, R187, R207), the tick and its
alignment (R189, R193, R194), the seal unit and its exchanges (R345 to R365), contexts and keystones (R393, R408). -/

namespace Sys2Proof.Machine

open Sys2Proof

/-- Job states (R28), in order of their codes. -/
inductive Job where
  | idle | loading | loaded | armed | running | rewinding | parked | stopped
  deriving DecidableEq, Repr

/-- The code of a job state (R28). -/
def Job.code : Job → Nat
  | .idle => 0 | .loading => 1 | .loaded => 2 | .armed => 3
  | .running => 4 | .rewinding => 5 | .parked => 6 | .stopped => 7

/-- Phases (R207), in order of their codes. -/
inductive Phase where
  | startUp | normal | test | recovery
  deriving DecidableEq, Repr

/-- The code of a phase (R212). -/
def Phase.code : Phase → Nat
  | .startUp => 0 | .normal => 1 | .test => 2 | .recovery => 3

/-- A CODE piece (R183, R184). -/
structure CodePiece where
  core : Nat
  kind : Nat
  addr : Nat
  bytes : List Byte
  deriving DecidableEq, Repr

/-- A span descriptor (R188). -/
structure SpanDesc where
  frames : Nat
  vfNext : Nat
  vfKeep : Bool
  replica : Bool
  assign : Nat
  retain : Nat
  slotBase : Nat
  refSet : Nat
  wakeFirst : Nat
  wakeCount : Nat
  deriving DecidableEq, Repr

/-- A retained range (R338). -/
structure Range where
  base : Nat
  lines : Nat
  space : Nat
  core : Nat
  all : Bool
  deriving DecidableEq, Repr

/-- The RETAIN section (R337). -/
structure Retain where
  flood : Nat := 0
  restore : Nat := 0
  roundSlots : Nat := 4
  dmemKib : Nat := 0
  udoBase : Nat := 0
  udoKib : Nat := 0
  lists : List (Nat × Nat) := []
  ranges : List Range := []
  deriving DecidableEq, Repr

/-- A context record of the CONTEXTS section (R396). -/
structure CtxRec where
  id : Nat
  grace : Nat
  devQ : Nat
  capQ : Nat
  keyQ : Nat
  deriving DecidableEq, Repr

/-- A grant record of the CONTEXTS section (R396). -/
structure GrantRec where
  first : Nat
  count : Nat
  ctx : Nat
  space : Nat
  w : Bool
  shared : Bool
  core : Nat
  all : Bool
  deriving DecidableEq, Repr

/-- An update program instruction word is kept as the image holds it; a slot record and a group record of the UPDATE
section (R314 to R317) likewise, taken apart by the update unit's own operations. -/
structure UpdGroup where
  raw : List Byte
  deriving DecidableEq, Repr

/-- The UPDATE section (R314). -/
structure UpdSection where
  header : List Byte := []
  progs : List (List Nat) := []
  tables : List (List Byte) := []
  groups : List UpdGroup := []
  deriving DecidableEq, Repr

/-- A held image, taken apart by section (R182, R183). -/
structure Image where
  strict : Bool := false
  digest : Nat := 0
  seed : Nat := 0
  devId : Nat := 0
  /-- w, x, y, z. -/
  coord : List Nat := [0, 0, 0, 0]
  /-- n_W, n_X, n_Y, n_Z. -/
  extent : List Nat := [1, 1, 1, 1]
  fmax : Nat := 0
  undoKib : Nat := 0
  repeat_ : Nat := 0
  vfStart : Nat := 0
  code : List CodePiece := []
  /-- ASSIGN maps: global thread to context ID, 0 by default. -/
  assign : List (Store Nat) := []
  /-- THREADS records: global thread to entry PC and progress window. -/
  threads : Store (Nat × Nat) := []
  spans : List SpanDesc := []
  /-- Port to slot-table entries, as 64-bit words (R190, R191). -/
  slots : Store (List Nat) := []
  /-- Refresh sets of 64-bit entries (R199). -/
  refresh : List (List Nat) := []
  /-- Wake entries as 32-bit words (R201). -/
  wake : List Nat := []
  /-- ROUTES header bytes and entries as words (R229). -/
  routesHead : List Byte := []
  routes : List Nat := []
  retain : Retain := {}
  ctxs : List CtxRec := []
  grants : List GrantRec := []
  zeroDevKib : Nat := 0
  zeroCapKib : Nat := 0
  /-- Keystone configuration entries as 64-bit words (R408). -/
  keys : List Nat := []
  update : UpdSection := {}
  /-- STEP_DESC of the UPDATE or AMAX section; none without steps (R307). -/
  stepDesc : Option Nat := none
  /-- AMAX records (R308). -/
  amax : List (List Byte) := []
  deriving DecidableEq, Repr

/-- Where the sequencer stands (R187, R345). -/
inductive Place where
  | none
  | pier0
  | span
  | pier
  deriving DecidableEq, Repr

/-- The sequencer and the loader (R28, R30, R187, R207, R212). -/
structure SchState where
  job : Job := .idle
  image : Option Image := none
  /-- A load in progress: image address and length (R185). -/
  load : Option (Nat × Nat) := none
  loadErr : Nat := 0
  p0Err : Nat := 0
  refuse : Nat := 0
  /-- Start tick S (R30). -/
  start : Nat := 0
  /-- The first frame after S is a resume frame, not pier 0 (R33). -/
  resume : Bool := false
  parkReq : Bool := false
  phase : Phase := .startUp
  /-- Span sequence number of the current or last span (R55). -/
  seq : Nat := 0
  place : Place := .none
  /-- First tick of the current span, or of pier 0 or a resume frame. -/
  first : Nat := 0
  /-- Pier 0 of the job has sealed. -/
  p0Sealed : Bool := false
  /-- Schedule STOP words held: span sequence number mod 256 (R510). -/
  stops : List Nat := []
  /-- Wake entry number the comparators have reached, per core. -/
  wakeIdx : Store Nat := []
  /-- ADOPT has installed a pier record since the image was loaded (R385). -/
  adopted : Bool := false
  deriving DecidableEq, Repr

/-- Alignment states (R194), in order of their codes. -/
inductive Align where
  | free | acquiring | aligned | holdover | root | lost
  deriving DecidableEq, Repr

/-- The code of an alignment state (R194). -/
def Align.code : Align → Nat
  | .free => 0 | .acquiring => 1 | .aligned => 2 | .holdover => 3 | .root => 4 | .lost => 5

/-- The fabric tick's alignment (R189, R193 to R197, R214). -/
structure TckState where
  state : Align := .free
  usingBackup : Bool := false
  /-- Offsets a and delays d of the last 16 kept exchanges, newest first, in 1/16 tick. -/
  hist : List (Int × Int) := []
  good : Nat := 0
  depth : Nat := 0xFF
  /-- Filtered offset and delay in ps, and rate in parts per 10⁹. -/
  offset : Int := 0
  delay : Nat := 0
  rate : Int := 0
  /-- Tick at which HOLDOVER began. -/
  holdSince : Nat := 0
  /-- Tick of the last kept exchange. -/
  lastKept : Nat := 0
  /-- Slews made so far, in units of 62.5 ps by which they have moved the time scale, and the frame of the last one (R195). -/
  slewed : Int := 0
  slewFrame : Option Nat := none
  /-- High half of TCK_NOW captured by a 32-bit read of the low half, per master. -/
  capHi : Store Nat := []
  deriving DecidableEq, Repr

/-- Context states (R393), in order of their codes. -/
inductive CtxSt where
  | free | open_ | parked | closing
  deriving DecidableEq, Repr

/-- The code of a context state (R393). -/
def CtxSt.code : CtxSt → Nat
  | .free => 0 | .open_ => 1 | .parked => 2 | .closing => 3

/-- One context ID (R393, R394, R397, R398, R406). -/
structure Ctx where
  st : CtxSt := .free
  /-- Current or last generation. -/
  gen : Nat := 63
  overQ : Bool := false
  overPiers : Nat := 0
  grace : Nat := 0
  devQ : Nat := 0
  capQ : Nat := 0
  keyQ : Nat := 0
  devUse : Nat := 0
  capUse : Nat := 0
  keyUse : Nat := 0
  tdFlits : Nat := 0
  tdBlocks : Nat := 0
  /-- Tick at which the quarantine ends (R403). -/
  quarEnd : Nat := 0
  /-- The quarantine has ended; the ID becomes FREE once its pages are zeroed. -/
  quarOver : Bool := false
  deriving DecidableEq, Repr

/-- The owner of a page or unit (R395). -/
structure Grant where
  ctx : Nat
  w : Bool
  shared : Bool
  deriving DecidableEq, Repr

/-- A keystone (R408, R413). -/
structure Keystone where
  /-- Configuration entry; KIND 0 is unused. -/
  cfg : Nat := 0
  value : Nat := 0
  phase : Nat := 0
  sealedValue : Nat := 0
  sealedPhase : Nat := 0
  /-- The pier copy, taken as the span's work ends (R369). -/
  pierValue : Nat := 0
  pierPhase : Nat := 0
  first : Nat := 0x7FFF
  last : Nat := 0x7FFF
  /-- Span of the first and last arrival shown. -/
  arrSpan : Nat := 0
  src : Nat := 0
  late : Nat := 0
  deriving DecidableEq, Repr

/-- A pending CTX_CMD (R415, R416). -/
structure CtxCmd where
  op : Nat
  arg0 : Nat
  arg1 : Nat
  arg2 : Nat
  arg3 : Nat
  seq : Nat
  deriving DecidableEq, Repr

/-- Contexts, grants, zeroing and the close exchange (R393 to R417). -/
structure CtxState where
  ctxs : Store Ctx := []
  /-- Granted device pages, capacity pages, and core memory units (core × 128 + unit). -/
  devPages : Store Grant := []
  capPages : Store Grant := []
  units : Store Grant := []
  /-- Pages awaiting zeroing: (capacity, page, last owner), in queue order. -/
  zeroQ : List (Bool × Nat × Nat) := []
  refuse : Nat := 0
  cmd : Option CtxCmd := none
  keys : Store Keystone := []
  /-- Pending entries of the close exchange: ID to ACTION (1 END, 2 PARK), and their pier copy (R399). -/
  entries : Store Nat := []
  entriesCopy : Store Nat := []
  /-- The list merged in the exchange's rounds (R400). -/
  merged : Store Nat := []
  /-- KiB zeroed in the current pier frame, device and capacity (R404). -/
  zeroed : Nat × Nat := (0, 0)
  /-- The device page and the capacity page being zeroed, with the KiB done. -/
  zeroDev : Option (Nat × Nat) := none
  zeroCap : Option (Nat × Nat) := none
  deriving DecidableEq, Repr

/-- A REWIND word held (R349): origin device, proposed tick, span mod 256. -/
structure RewindWord where
  origin : Nat
  tick : Nat
  span : Nat
  deriving DecidableEq, Repr

/-- A block under a vote: engine, group, slot, bank and block. -/
structure VoteBlock where
  engine : Nat
  group : Nat
  slot : Nat
  bank : Nat
  block : Nat
  deriving DecidableEq, Repr

/-- A running vote (R361). -/
structure Vote where
  /-- Peer device ID and whether this device is the y of the pair. -/
  peer : Nat
  isY : Bool
  /-- Engines that mismatched. -/
  engines : Nat
  /-- 1 windows to be exchanged, 2 blocks to be compared, 3 the differing blocks to be voted on. -/
  stage : Nat
  /-- Span whose pier did the last stage's work. -/
  pier : Nat
  /-- Mismatching windows, engine and number, and differing blocks. -/
  windows : List (Nat × Nat)
  blocks : List VoteBlock
  /-- Blocks of the mismatching windows still to be compared. -/
  todo : List VoteBlock := []
  deriving DecidableEq, Repr

/-- A hardware fault handed to the seal unit (R348): its tick, whether its word always names the next span (R456), a tick
before which its proposal may not lie (R350, R381), and whether it may propose while a rewind is agreed (R350). -/
structure Raise where
  tick : Nat
  next : Bool := false
  floor : Nat := 0
  second : Bool := false
  deriving DecidableEq, Repr

/-- What one pier counts toward the limits of R363: rewinds raised, lateness events, corrections. -/
structure WinCount where
  pier : Nat
  rewinds : Nat := 0
  late : Nat := 0
  corr : Nat := 0
  deriving DecidableEq, Repr

/-- The seal unit, rewinds, votes, suspects and stress tests (R345 to R367). -/
structure PieState where
  /-- Hardware faults detected and not yet raised. -/
  raises : List Raise := []
  /-- Raises held to the agreed tick (R351, R355). -/
  deferred : List Raise := []
  words : List RewindWord := []
  /-- The agreed rewind tick R, if any. -/
  agreed : Option Nat := none
  /-- Restore of retained ranges has ended for this rewind (R352). -/
  restored : Bool := false
  /-- The rewind drops to the span the words name: the span to replay. -/
  target : Nat := 0
  replays : Nat := 0
  lastRtick : Nat := 0
  lastRec : Nat := 0
  withdraw : Option Nat := none
  /-- Rounds of the skip exchange done in the span, what the seal flits of the present round have brought (physical port and
  vector), and whether a missing flit has been a fault in this exchange (R357). -/
  round : Nat := 0
  seenPorts : List (Nat × Nat) := []
  roundFault : Bool := false
  /-- The same for the close exchange (R400). -/
  closeRound : Nat := 0
  closeSeen : List (Nat × List Nat) := []
  closeFault : Bool := false
  /-- Replica digests first received intact from Y− in the pier, whether those from Y+ have come, and whether the comparison is
  made (R360). -/
  peerDigests : Option (List Nat) := none
  yPlusSeen : Bool := false
  compared : Bool := false
  /-- Running votes: at most one as y of a pair and one as y − 1 (R360). -/
  votes : List Vote := []
  /-- PIE_VOTE as the last vote left it. -/
  voteLast : Nat := 0
  /-- Piers sealed, and what the piers of the counting window have counted (R363). -/
  winPiers : Nat := 0
  win : List WinCount := []
  /-- The corrections counters' sum at the last seal (R363). -/
  corrBase : Nat := 0
  /-- Stress test: STATE, steps applied, failed piers, piers, temperature extremes. -/
  stress : Nat := 0
  stressCmd : Nat := 0
  stressFails : Nat := 0
  stressTemp : Nat := 0
  deriving DecidableEq, Repr

end Sys2Proof.Machine
end

