-- ==== Sys2Proof/Machine/StFabric.lean ====
section
/-! DEFINITION. The state of the Viaduct (R218 to R244), the collective monitor, the optical engines and combs (R260 to
R282), the memory system (R283 to R306), the update unit with its amax store and the Seep (R307 to R335), as plain
data. -/

namespace Sys2Proof.Machine

open Sys2Proof

/-- A flit (R220, R221): the 128-bit header and the body bytes. -/
structure Flit where
  head : Nat
  body : List Byte
  deriving DecidableEq, Repr

/-- A flit held in a FIFO, with the tick at which it becomes eligible (R223) and the tick of its first transmission's arrival,
which keeps its place under retry (R268). -/
structure QFlit where
  flit : Flit
  eligible : Nat
  came : Nat
  deriving DecidableEq, Repr

/-- An A-class flit in an input port's buffer: its buffer class 0 adaptive, 1 escape before and 2 after the wrap
(R231). -/
structure AFlit where
  flit : Flit
  port : Nat
  cls : Nat
  eligible : Nat
  deriving DecidableEq, Repr

/-- Per logical port: VDT_PMAP (R218, R244). -/
structure PMap where
  mode : Nat
  phys : Nat
  deriving DecidableEq, Repr

/-- Per physical port: configuration, peer identity and counters of the fabric (R219, R244, R267). -/
structure VPort where
  retire : Bool := false
  nbr : Nat := 0
  peerPart : Nat := 0
  peerId : Nat := 0
  peerLport : Nat := 0
  /-- A-class buffers in use by frame number: the largest number, and the number summed over the frame's ticks, up to tick
  `occAt`. Frames older than the last 64 are dropped. -/
  occAt : Nat := 0
  occLog : Store (Nat × Nat) := []
  /-- Smallest pass-through slack of the input port (VDT_SLACK). -/
  slack : Nat := 0xFFFF
  /-- S-class FIFO, head first (R225). -/
  fifo : List QFlit := []
  /-- Transfer flits of this device waiting for spare positions on this port (R230). -/
  xfer : List Flit := []
  /-- First tick of the next slot the port may transmit in. -/
  nextSlot : Nat := 0
  deriving DecidableEq, Repr

/-- A staged patch that has been checked (R236, R237). -/
structure Patch where
  records : List Nat
  seq : Nat
  deriving DecidableEq, Repr

/-- A remembered alarm word (R235). -/
structure AlarmMem where
  word : Nat
  tick : Nat
  deriving DecidableEq, Repr

/-- The flits of a SEND delivered so far: source, context tag, core, address of its first byte, and the address at which its next flit
continues (R257, R259). -/
structure ColRun where
  src : Nat
  tag : Nat
  core : Nat
  start : Nat
  next : Nat
  deriving DecidableEq, Repr

/-- The Viaduct (R216 to R245). -/
structure VdtState where
  pmap : Store PMap := []
  /-- Logical ports that a patch has remapped to a physical port other than their reset mapping (R232). -/
  patched : List Nat := []
  ports : Store VPort := []
  /-- Routing table: DEST_ID to its 64-bit entry (R228). -/
  routes : Store Nat := []
  /-- Slot tables: logical port to entries (R190, R191). -/
  slots : Store (List Nat) := []
  epoch : Nat := 0
  alarms : List AlarmMem := []
  /-- Patch being checked: address and SEQ. -/
  checking : Option (Nat × Nat) := none
  patch : Option Patch := none
  patchState : Nat := 0
  patchRec : Nat := 0
  patchCheck : Nat := 0
  abuf : List AFlit := []
  /-- Expected A-class SEQ per source × 8 + VC, and flits held out of order, each with the port it came on (R233). -/
  expect : Store Nat := []
  reorder : List (Nat × Flit) := []
  /-- Tick at which the gap of source × 8 + VC opened. -/
  gapSince : Store Nat := []
  /-- Next A-class SEQ per destination × 8 + VC (R233). -/
  sent : Store Nat := []
  spray : Store Nat := []
  /-- Credits: port × 24 + VC × 3 + class to the credits used (R231). -/
  credit : Store Nat := []
  /-- A-class VC of each core × 32 + stream in the span, plus 1 (R230). -/
  streamVc : Store Nat := []
  /-- Flits of local SENDs waiting to be transmitted, by core × 32 + stream (R224), each with the blocks that end in it. -/
  inject : Store (List (Flit × Nat)) := []
  /-- Slot errors in the span, and the span whose first run had one (R225). -/
  slotErr : Bool := false
  slotErrSpan : Option Nat := none
  allow : Nat := 0
  /-- SENDs whose delivery has begun (R257, R259). -/
  runs : List ColRun := []
  deriving DecidableEq, Repr

/-- Port states (R269), in order of their codes. -/
inductive PortSt where
  | off | dark | lock | train | ident | up | relock | cal | fail
  deriving DecidableEq, Repr

/-- The code of a port state (R269). -/
def PortSt.code : PortSt → Nat
  | .off => 0 | .dark => 1 | .lock => 2 | .train => 3 | .ident => 4 | .up => 5 | .relock => 6 | .cal => 7 | .fail => 8

/-- One bank of 32 rings (R271, R272). -/
structure Bank where
  /-- Bit i set: ring i locked. -/
  locked : Nat := 0
  /-- Requests u, heater drives h, weights w. -/
  u : Store Int := []
  h : Store Nat := []
  w : Store Nat := []
  /-- Coefficients row × 9 + diagonal; identity by default. -/
  m : Store Int := []
  k : Store Int := []
  frozen : Bool := false
  /-- Tick of the last parity error in M. -/
  parityAt : Option Nat := none
  deriving DecidableEq, Repr

/-- An alignment exchange as its words gave it, in 1/16 tick; `bad` says that a framing word failed or that a retransmission fell in
one of its frames (R193, R267). -/
structure Exchange where
  t1 : Nat
  t2 : Nat
  t3 : Nat
  t4 : Nat
  bad : Bool
  deriving DecidableEq, Repr

/-- One optical port (R263 to R275). -/
structure OptPort where
  st : PortSt := .off
  pwrOff : Bool := false
  weightEn : Bool := false
  reach : Nat := 0
  tx : Bank := {}
  rx : Bank := {}
  /-- RXPWR that the peer reports for the lines it receives, as bytes. -/
  peerPwr : Store Nat := []
  /-- Received power and margin of each line as last measured, as bytes (R281). -/
  rxPwr : Store Nat := []
  margin : Store Nat := []
  /-- TRAIN has found the half-slot boundary, and the frame in which it did: framing words run from the next one (R270). -/
  aligned : Bool := false
  alignedAt : Nat := 0
  /-- A fresh calibration follows a parity error in K (R274). -/
  recal : Bool := false
  /-- Frame in which the weights were last recomputed (R275). -/
  weightFrame : Option Nat := none
  /-- Tick at which the port left OFF, whether it has reached UP since, and tick at which RELOCK began. -/
  leftOff : Nat := 0
  wasUp : Bool := false
  relockAt : Nat := 0
  /-- The state that a comb loss or a feed change took the port from into RELOCK (R269, R278). -/
  combFrom : Option PortSt := none
  /-- Tick of the comb loss that took the port from UP, until it is UP again or fails (R269, R278). -/
  lossAt : Option Nat := none
  /-- The peer's light has come (R270). -/
  lit : Bool := false
  /-- In TRAIN: the words of the present frame's power report that have come, and the frames with a whole report (R270). -/
  reportMask : Nat := 0
  reports : List Nat := []
  /-- The last half-slots sent, by number mod 512, under retry: flits by position in the slot (R268). -/
  sentHalf : List (Nat × List (Nat × Flit)) := []
  /-- Half-slots that the peer has NACKed, and those of them that go out again in the next half-slots with room. -/
  nacked : List Nat := []
  resend : List Nat := []
  /-- Half-slots that failed here, with tries, and those whose NACK is still to be sent. -/
  failed : List (Nat × Nat) := []
  nackDue : List Nat := []
  /-- Control words received: word number to content. -/
  words : Store Nat := []
  /-- Control word 0 of the present frame, the last pair of words 0 and 1 with its frame, and the consecutive frames in which it was
  received (R267). -/
  idWord0 : Option Nat := none
  idWords : Nat × Nat := (0, 0)
  idFrame : Nat := 0
  idFrames : Nat := 0
  /-- Credit word totals last received, and buffers freed here since the link came UP: VC × 3 + class (R265). -/
  credits : Store Nat := []
  freed : Store Nat := []
  /-- The combination of VC and class that the next credit word carries (R265). -/
  turn : Nat := 0
  /-- Departures of the last probes, newest first; arrival of the probe to be answered; t2 and t3 of the reply that the present frame
  carries; arrival of the reply whose words are due; a whole exchange; frames with a retransmission (R267). -/
  probes : List Nat := []
  probed : Option Nat := none
  replies : Option (Nat × Nat) := none
  replyAt : Option Nat := none
  exch : Option Exchange := none
  retxFrames : List Nat := []
  cwCnt : Nat := 0
  corrCnt : Nat := 0
  uncorrCnt : Nat := 0
  chkCnt : Nat := 0
  frmCnt : Nat := 0
  retryCnt : Nat := 0
  relockCnt : Nat := 0
  hsatCnt : Nat := 0
  deriving DecidableEq, Repr

/-- Comb states (R282), in order of their codes. -/
inductive CombSt where
  | off | warming | locked | failed
  deriving DecidableEq, Repr

/-- The code of a comb state (R282). -/
def CombSt.code : CombSt → Nat
  | .off => 0 | .warming => 1 | .locked => 2 | .failed => 3

/-- A comb failover or mode change that runs (R278, R279). -/
structure Failover where
  /-- The feed that each of its engines is to have, coded as in CMB_FEED. -/
  feeds : Nat
  engines : Nat
  since : Nat
  /-- Mode to be in at its end (R282). -/
  mode : Nat
  loss : Bool
  deriving DecidableEq, Repr

/-- The optical ports and combs. -/
structure OptState where
  ports : Store OptPort := []
  k0 : CombSt := .off
  k1 : CombSt := .off
  mode : Nat := 0
  /-- Feed of each engine, two bits each (CMB_FEED). -/
  feed : Nat := 0
  /-- Bit k set: comb k has been declared lost and has not been LOCKED since (R279). -/
  lost : Nat := 0
  /-- TEMP, PUMP and LINEPWR of each comb as last measured, as bits [31:8] of CMB_K0 and CMB_K1 (R282). -/
  meas0 : Nat := 0
  meas1 : Nat := 0
  failover : Option Failover := none
  /-- A mode that CMB_CMD has asked for and that waits for its combs, or for the change that runs (R279). -/
  waiting : Option Nat := none
  deriving DecidableEq, Repr

/-- One HBM stack (R283, R298, R304). -/
structure Stack where
  inService : Bool := false
  trained : Bool := false
  /-- It reported another height or density at training. -/
  odd : Bool := false
  hot : Bool := false
  temp : Nat := 0
  /-- A test has lost its contents since the last INIT (R490, R492). -/
  lost : Bool := false
  /-- The command running: OP and the repair location it was given, if any. -/
  cmd : Option (Nat × Nat) := none
  /-- Rows repaired (soft) and (hard), lanes remapped: HBM_RADDR values. -/
  soft : List Nat := []
  hard : List Nat := []
  lanes : List Nat := []
  /-- Span in which an added refresh was last logged (R296). -/
  xrefSpan : Option Nat := none
  deriving DecidableEq, Repr

/-- An open Sump entry (R292, R293). -/
structure SumpEntry where
  core : Nat
  /-- Line number: physical offset div 64. -/
  line : Nat
  mask : Nat
  tick : Nat
  stack : Nat
  group : Nat
  /-- What the entry's bytes replaced, for a rewind that discards it (R295): the 64 bytes of a line of data, or the eight slots of a line
  of sidecars as the store lists them. -/
  old : List Byte := []
  sides : List (Option (List Byte)) := []
  /-- Upset words of the entry, by number: 1 a wrong bit, 2 more (R292; log 56). -/
  ecc : Store Nat := []
  deriving DecidableEq, Repr

/-- Gallery channel (R299, R302). -/
structure GalChan where
  /-- 0 in service, 1 migrating, 2 retired, 3 failed. -/
  st : Nat := 0
  temp : Nat := 0
  deriving DecidableEq, Repr

/-- A retirement in progress (R302). -/
structure Retire where
  chan : Nat
  seq : Nat
  migrated : Bool
  /-- When the migration began, in nanoseconds of the always-on domain. -/
  since : Nat
  deriving DecidableEq, Repr

/-- A block store of the current tick, for the precedence of R291: space, first byte, bytes, sidecar slot, and the rank of
its writer (0 for the host, 1 + the core's number, 257 + the engine's for the update unit); with what it replaced, bytes and
sidecar, as the stores of lower rank leave it. -/
structure RecentStore where
  capacity : Bool
  lo : Nat
  n : Nat
  slot : Nat
  rank : Nat
  old : List Byte := []
  oldSide : List Byte := []
  deriving DecidableEq, Repr

/-- Device and capacity memory, their sidecars, and what controls them (R283 to R306). -/
structure MemState where
  /-- Device memory and capacity memory, bytes; 0 where nothing is listed. -/
  dev : Store Byte := []
  cap : Store Byte := []
  /-- Sidecar slots: granule number of device memory (its slot number in the sidecar region) and of capacity memory.
  An absent slot is ZEROED with a valid CRC (R45, R290). -/
  devSide : Store (List Byte) := []
  capSide : Store (List Byte) := []
  /-- Wrong symbols of each 64-byte line, by position and bits: device memory and its sidecar region by physical line, capacity memory,
  and the capacity sidecars by slot div 8 (R286, R300; log 56). -/
  devBad : Store (Store Nat) := []
  capBad : Store (Store Nat) := []
  capSideBad : Store (Store Nat) := []
  stack : Store Stack := []
  /-- INIT has completed since cold reset (R290). -/
  initDone : Bool := false
  /-- Granule codes configured (HBM_GDATA) and laid out by the last INIT; 0b01 by default. -/
  granCfg : Store Nat := []
  gran : Store Nat := []
  /-- The stacks, SIDECAR_GIB and granule codes of the INIT that runs (R290). -/
  initPlan : Option (Nat × Nat × Store Nat) := none
  /-- Refreshes issued to each stack × 8 + group, which place the rotation through the banks (R296). -/
  refPtr : Store Nat := []
  /-- SIDECAR_GIB, in-service stack mask of the shape descriptor. -/
  sidecarGib : Nat := 32
  stackMask : Nat := 0xFF
  sump : List SumpEntry := []
  /-- Stores whose commit tick is `recentTick` (R291). -/
  recentTick : Nat := 0
  recent : List RecentStore := []
  /-- Loads whose stamp is `loadTick`, each with rank 0 (R291). -/
  loadTick : Nat := 0
  loads : List RecentStore := []
  /-- Relaxed mode in effect (R293). -/
  relaxed : Bool := false
  sumpMax : Store Nat := []
  /-- A slice overflow has been a fault in this span (R293). -/
  sumpOvf : Bool := false
  /-- Gallery in service; the mask of channels; channel states. -/
  galUp : Bool := false
  galMask : Nat := 0xFFFFFFFF
  chans : Store GalChan := []
  galCmd : Option Nat := none
  galXrefSpan : Option Nat := none
  retire : Option Retire := none
  retState : Nat := 0
  retRefuse : Nat := 0
  retChan : Nat := 0
  /-- GB stripes placed by the bridge's channel table after retirements: channels retired, in order (R302). -/
  retired : List Nat := []
  deriving DecidableEq, Repr

/-- One tracked tensor (R308, R309). -/
structure Amax where
  /-- Entries 0 to 15, newest first: magnitude and exponent. -/
  hist : List (Nat × Int) := []
  cur : Nat × Int := (0, -256)
  /-- The accumulator at the last sealed pier. -/
  curCopy : Nat × Int := (0, -256)
  floor : Int := -128
  valid : Nat := 0
  fmt : Nat := 0
  drop : Nat := 0
  depth : Nat := 1
  skipAll : Bool := false
  ctx : Nat := 0
  deriving DecidableEq, Repr

/-- The position of a sweep in an engine's share (R316, R321). -/
structure UpdPos where
  /-- A sweep runs: group and step. -/
  active : Bool := false
  group : Nat := 0
  step : Nat := 0
  startSpan : Nat := 0
  /-- Next bank and block of the share, and blocks of the share begun. -/
  bank : Nat := 0
  block : Nat := 0
  done : Nat := 0
  /-- Journal ring pointers (R325). -/
  head : Nat := 0
  applied : Nat := 0
  /-- Replica and window digests (R359). -/
  digest : Nat := 0
  windows : List Nat := []
  /-- Bytes that each window's digest covers. -/
  winBytes : List Nat := []
  commits : Nat := 0
  /-- The window digests of the period that the last replica pier ended (R361). -/
  lastWindows : List Nat := []
  /-- The voted blocks of each commit since the last replica pier, the latest first, and those of the period it ended (R359, R361). -/
  log : List (List VoteBlock) := []
  lastLog : List (List VoteBlock) := []
  /-- Banks whose remaining blocks are withheld after a context fault (R323). -/
  faulted : List Nat := []
  /-- Ticks by which late operands have delayed the sweep's blocks (R322). -/
  delay : Nat := 0
  deriving DecidableEq, Repr

/-- A slot block as an engine has read it (R323): its bytes, and the cause of the first check that failed, if any (0x3
hardware, 0x5 and 0x6 context). -/
structure UpdIn where
  data : List Byte := []
  side : List Byte := []
  bad : Nat := 0
  deriving DecidableEq, Repr

/-- The block an engine carries (R321, R325). -/
structure UpdBlock where
  bank : Nat
  block : Nat
  ordinal : Nat
  /-- The slots it has read. -/
  ins : Store UpdIn := []
  pc : Nat := 0
  uses : Nat := 0
  /-- Outputs formed by ST, by slot: data and sidecar with the stored CRC. -/
  outs : Store (List Byte × List Byte) := []
  /-- Tick at which its program begins, LEAD ticks after its reads, and tick at which END executed (R321). -/
  runs : Nat := 0
  endAt : Nat := 0
  deriving DecidableEq, Repr

/-- One update engine (R318 to R328). -/
structure UpdEngine where
  u : Store Wide := []
  /-- Predicates per register: 64 lanes. -/
  p : Store (List Bool) := []
  /-- The block whose program is next or runs, those being read that follow it, and those whose commits are due (R325). -/
  cur : Option UpdBlock := none
  ahead : List UpdBlock := []
  tail : List UpdBlock := []
  pos : UpdPos := {}
  copy : UpdPos := {}
  /-- Undo area: records of outputs, version words and journal slots of the span (R341). -/
  undo : List DevRec := []
  /-- Old contents of capacity memory outputs of an abandoned run, read in place of capacity memory (R341). -/
  subst : List DevRec := []
  /-- Journal records are still to be replayed after a warm reset (R327). -/
  jreplay : Bool := false
  deriving DecidableEq, Repr

/-- A Seep record (R331) with its commit tick, engine and slot for the order of release (R330). A record that found the ring
full is held with no bytes, so that the number it would have taken is known to be lost (R333; log 30). -/
structure SeepRec where
  bytes : List Byte
  seq : Nat
  tick : Nat
  engine : Nat
  slot : Nat
  deriving DecidableEq, Repr

/-- The update unit, the amax store and the Seep (R307 to R335). -/
structure TrainState where
  step : Nat := 0
  stepCopy : Nat := 0
  amax : Store Amax := []
  /-- What a warm reset keeps of the amax store for SELF_RESTORE and ADOPT (R311, R376, R508). -/
  keptAmax : Store Amax := []
  /-- Local skip vector (1,024 bits) and its pier copy; agreed vectors, newest first (R312). -/
  skip : Nat := 0
  skipCopy : Nat := 0
  skipAcc : Nat := 0
  agreed : List Nat := []
  engines : Store UpdEngine := []
  /-- Released records still in the ring, held records, lost numbers (R330, R333). -/
  seepRing : List SeepRec := []
  seepHeld : List SeepRec := []
  seepSeq : Nat := 0
  seepAck : Nat := 0
  /-- Bytes of the ring sent since the last acknowledgement or resend, and the stream position of the ring's first byte
  (R332). -/
  seepNext : Nat := 0
  seepPos : Nat := 0
  seepGap : Bool := false
  seepLost : Option (Nat × Nat) := none
  seepLastAck : Nat := 0
  seepEn : Bool := false
  deriving DecidableEq, Repr

/-- What the collective monitor holds for one group (R257 to R259): blocks delivered and sent, smallest slack, deliveries
measured, deliveries below the allowance. -/
structure ColGroup where
  rx : Nat := 0
  tx : Nat := 0
  slack : Nat := 0xFFFF
  dlv : Nat := 0
  late : Nat := 0
  deriving DecidableEq, Repr

/-- A delivery that awaits a wait on its keystone (R257). -/
structure ColPend where
  key : Nat
  group : Nat
  core : Nat
  tick : Nat
  deriving DecidableEq, Repr

end Sys2Proof.Machine
end

