-- ==== Sys2Proof/Machine/StHost.lean ====
section
/-! DEFINITION. The state of the host and management interfaces (R419 to R445), clocks, power and resets (R446 to R470),
the buddy store and state mover (R369 to R389), trace and test (R484 to R497) and the page locks (R441, R479), as
plain data; and the alphabet of what the block sends on its ports. -/

namespace Sys2Proof.Machine

open Sys2Proof

/-- Mailbox states (R443), in order of their codes. -/
inductive MbxSt where
  | idle | queued | running | done
  deriving DecidableEq, Repr

/-- The code of a mailbox state (R443). -/
def MbxSt.code : MbxSt → Nat
  | .idle => 0 | .queued => 1 | .running => 2 | .done => 3

/-- A mailbox (R429 to R432): 0 of PCIe, 1 of the management port. -/
structure Mailbox where
  st : MbxSt := .idle
  last : Nat := 0
  status : Nat := 0
  refuse : Nat := 0
  /-- Request words accepted, and response words held. -/
  req : List Nat := []
  rsp : List Nat := []
  /-- KSLOT of the frame that rang mailbox 1 (R440), and what the MGT log keeps of it: KSLOT and RSEQ, and the source MAC (R444). -/
  kslot : Nat := 0
  pos : Nat := 0
  who : Nat := 0
  /-- Tick at which the command was accepted, plus 1 (R431). -/
  since : Nat := 0
  deriving DecidableEq, Repr

/-- A key slot of the management port (R435 to R438). -/
structure KeySlot where
  key : List Byte := List.replicate 32 0#8
  rxFloor : Nat := 0
  txCtr : Nat := 0
  rxResv : Nat := 0
  txResv : Nat := 0
  lastRseq : Option Nat := none
  cached : List Byte := []
  deriving DecidableEq, Repr

/-- An MSI-X table entry, four words (R420). -/
structure MsixEntry where
  lo : Nat := 0
  hi : Nat := 0
  data : Nat := 0
  ctl : Nat := 1
  deriving DecidableEq, Repr

/-- A lock operation: a LOCK register written, or a bulk command (R441, R480). -/
inductive LockOp where
  | page (key v : Nat)
  | bulk (v : Nat)
  deriving DecidableEq, Repr

/-- The lock operations that PCIe has made in the present management-die cycle, and PCIe's pages and semaphores, the claims, GEN_BULK_STATP
and the GEN log as they stood before the first of them (R481). -/
structure LockCycle where
  tick : Nat
  pcie : List Nat
  claims : Store Nat
  stat : Nat
  log : List Nat
  ops : List LockOp
  deriving DecidableEq, Repr

/-- The host and management interfaces (R419 to R445). -/
structure HostState where
  mbx0 : Mailbox := {}
  mbx1 : Mailbox := {}
  /-- Commands accepted and waiting or running, in order: mailbox number (R431). -/
  engineQ : List Nat := []
  slots : Store KeySlot := []
  notifyAt : Store Nat := []
  /-- Bit b set: a rise of line b that a NOTIFY frame has still to report (R439). -/
  notifyDue : Nat := 0
  /-- The MSI-X table (R421). -/
  msix : Store MsixEntry := []
  pba : Nat := 0
  /-- Block type to MASK and VECTOR of HIF_VMAP. -/
  vmap : Store Nat := []
  /-- Lines at 1, one bit per block type (R421). -/
  lines : Nat := 0
  d3hot : Bool := false
  /-- The PCIe link is in L1, as it is in D3hot alone (R419). -/
  l1 : Bool := false
  pmeStatus : Bool := false
  /-- A wake request is outstanding (R427). -/
  wakeOut : Bool := false
  /-- A resume has begun (R428). -/
  resuming : Bool := false
  /-- Host writes gathered and reads waiting (R423): device memory offset, bytes; offset, length. -/
  wbuf : List (Nat × List Byte) := []
  rwait : List (Nat × Nat) := []
  /-- Page owners: 1 PCIe, 2 management; general semaphores at 0x4000 + n (R441, R479). -/
  locks : Store Nat := []
  /-- Tick of the last claim of a page that was granted, plus 1 (R441, R481). -/
  claims : Store Nat := []
  lockCycle : Option LockCycle := none
  /-- Tick of PCIe's last write of SEM_CFG, plus 1 (R477). -/
  semCfgAt : Nat := 0
  /-- Ticks of the masters' last heartbeats (R442). -/
  hbPcie : Nat := 0
  hbMgt : Nat := 0
  linkUp : Bool := false
  /-- PLCA beacons are present (R444). -/
  plca : Bool := false
  /-- The negotiated PCIe link: bits [19:9] of HIF STAT (R443). -/
  pcieLink : Nat := 0
  mac : Nat := 0
  /-- Device serial number (R482). -/
  serial : Nat := 0
  nodeId : Nat := 31
  deriving DecidableEq, Repr

/-- Qualification of the clock sources (R448, R449). -/
structure ClkState where
  refQ : Bool := false
  xtalQ : Bool := false
  rcQ : Bool := false
  /-- RC has been disqualified and has not qualified since. -/
  rcOut : Bool := false
  /-- Consecutive passing windows: REF by its own condition, XTAL, RC. -/
  refPass : Nat := 0
  xtalPass : Nat := 0
  rcPass : Nat := 0
  /-- Selected source: 0 REF, 1 XTAL, 3 none (CLK STAT.SRC). -/
  src : Nat := 3
  qRefx : Nat := 0
  qXrc : Nat := 0
  qRefrc : Nat := 0
  tickLock : Bool := false
  coreLock : Nat := 0
  /-- Which of a die's two core PLLs drives it, and whether the other one is locked: a bit per die (R447). -/
  corePll : Nat := 0
  standbyLock : Nat := 0
  deriving DecidableEq, Repr

/-- V/F sequencer, governor and protection (R454 to R458, R501, R502). -/
structure PwrState where
  point : Nat := 0
  /-- Point the image set for the span. -/
  imagePoint : Nat := 0
  /-- Point switched to in the current pier frame, until its seal (R204). -/
  due : Option Nat := none
  /-- A raise not switched, to repeat at the rewind tick (R456). -/
  failed : Option Nat := none
  mainOk : Bool := true
  auxOk : Bool := true
  /-- An alert condition holds (R458). -/
  alert : Bool := false
  /-- A trip has cut the main rails, which have not come up since (R458). -/
  tripped : Bool := false
  stress : Bool := false
  /-- Tick of the governor's last change (R458). -/
  govAt : Nat := 0
  /-- What is measured: hottest compute die in °C, module input power in W and energy in mJ, and PWR_RAIL by rail (R469; log 49). -/
  tmax : Nat := 0
  watts : Nat := 0
  energy : Nat := 0
  rails : Store Nat := []
  deriving DecidableEq, Repr

/-- Reset domains (R459). -/
inductive Dom where
  | core | die | warm | cold
  deriving DecidableEq, Repr

/-- A reset that has begun and not completed. -/
structure ResetRun where
  dom : Dom
  target : Nat
  since : Nat
  deriving DecidableEq, Repr

/-- Resets, watchdogs and the crash dump (R459 to R470). -/
structure RstState where
  runs : List ResetRun := []
  phase : Nat := 0
  last : Nat := 0
  refuse : Nat := 0
  /-- Pages of the management die's first group, and every page, answer (R466, R478). -/
  firstAnswer : Bool := true
  allAnswer : Bool := true
  /-- Time of a cold reset after which the interfaces come up (R478). -/
  coldAt : Option Nat := none
  /-- Ticks of the partition watchdog. -/
  wdPart : Nat := 0
  /-- Ticks of the latest firmware watchdog expiries, newest first. -/
  fwExp : List Nat := []
  fwRun : Bool := true
  /-- Firmware version, MAJOR and MINOR (R467). -/
  fw : Nat := 0
  /-- Crash dump words, if held: type, records, bytes. -/
  dump : Option (List Byte) := none
  dumpType : Nat := 0
  dumpRecs : Nat := 0
  /-- Physical core that serves a logical core, where not its own (R462): die-local number. -/
  coreMap : Store Nat := []
  /-- Spares used per die, two bits each (RST_SPARE). -/
  spares : Nat := 0
  /-- Logical cores without a working physical core (R18). -/
  absent : List Nat := []
  mrstLow : Bool := false
  /-- Core watchdog: span of the last hardware-fault expiry per core (R464). -/
  coreWdSpan : Store Nat := []
  deriving DecidableEq, Repr

/-- The buddy store and the state mover (R371 to R379, R389). -/
structure BuddyState where
  ownPending : Option (List Byte) := none
  ownSealed : Option (List Byte) := none
  /-- Pending buddy record: bytes received by offset. -/
  buddyPending : Store Byte := []
  buddyGot : Nat := 0
  buddySealed : Option (List Byte) := none
  /-- The buddy's amax histories: tensor to 16 entries (magnitude, exponent). -/
  buddyHist : Store (List (Nat × Int)) := []
  behind : Bool := false
  /-- Stream sent: bytes, ports, DEST_ID, acknowledged byte, next byte to send, resends, tick of last progress. -/
  tx : Option (List Byte) := none
  txPorts : List Nat := []
  txDest : Nat := 0
  txAck : Nat := 0
  txNext : Nat := 0
  txTries : Nat := 0
  txTick : Nat := 0
  /-- Status, entry and item at which a source check ended the stream (R377). -/
  txFail : Option (Nat × Nat × Nat) := none
  /-- Stream received (R376, R377): a STATE_RECV waits; bytes taken in order, those not yet processed, the CRC register over
  the processed ones, flits out of order by position, and the stream's length once its LAST flit has come. -/
  rxOn : Bool := false
  rxPos : Nat := 0
  rxBuf : List Byte := []
  rxCrc : Nat := 0xFFFFFFFF
  rxLate : Store (List Byte) := []
  rxEnd : Option Nat := none
  /-- Entries begun; the present entry (0 none), its items to come, and the next item's number. -/
  rxIndex : Nat := 0
  rxEntry : Nat := 0
  rxLeft : Nat := 0
  rxItem : Nat := 0
  /-- Port and device the stream comes from, the acknowledgement last returned and its tick (R376). -/
  rxPeer : Option (Nat × Nat) := none
  rxAck : Option Flit := none
  rxAckTick : Nat := 0
  /-- The received pier record with its histories, if any (R385). -/
  received : Option (List Byte) := none
  lastStatus : Nat := 0
  moved : Nat := 0
  probation : Nat := 0
  /-- Tick at which every port to a neighbour left UP, by device ID (R381). -/
  dark : Store Nat := []
  deriving DecidableEq, Repr

/-- Trace and self-test (R484 to R497). -/
structure TraceState where
  buf : List (List Byte) := []
  wr : Nat := 0
  dropped : Nat := 0
  firstDrop : Nat := 0
  full : Bool := false
  snap : Bool := false
  /-- Records drained in the current pier frame. -/
  drained : Nat := 0
  /-- TST_RESULT fields and failing physical cores per die. -/
  tstState : Nat := 0
  tstRefuse : Nat := 0
  tstOp : Nat := 0
  /-- Running test: OP and TARGET. -/
  test : Option (Nat × Nat) := none
  fails : Store Nat := []
  /-- TAP instruction (0 BYPASS, 1 IDCODE, 2 SAMPLE/PRELOAD, 3 EXTEST, 4 EXTEST_PULSE, 5 EXTEST_TRAIN), boundary register, EXTEST in effect (R494, R495). -/
  tap : Nat := 1
  boundary : Nat := 0
  extest : Bool := false
  deriving DecidableEq, Repr

/-- What the block sends on its ports, newest last (log 8). -/
inductive Out where
  /-- An alarm word on line 31 of a physical port, with its CRC-8: sent twice back to back, from a tick on (R234, R235). -/
  | alarm (port tick word crc : Nat)
  /-- A flit in a position of a slot on a physical port, at a tick (R223). -/
  | flit (port tick pos : Nat) (f : Flit)
  /-- A management frame (R436): destination MAC and bytes from VER on. -/
  | frame (mac : Nat) (bytes : List Byte)
  /-- An MSI-X message: vector, and the address and data of its table entry (R419, R421). -/
  | msix (vector addr data : Nat)
  /-- A PM_PME message (R427). -/
  | pme
  /-- WAKE# driven low (true) or released (R427, R428). -/
  | wake (low : Bool)
  /-- ALERT# driven low (true) or released (R458, R500). -/
  | alert (low : Bool)
  /-- A vote's content toward the peer on a physical port, in context-0 flits whose layout the spec does not give (R361, R362; log 37):
  an engine's window digests, sidecar CRCs of blocks, or a block with its sidecar. -/
  | voteWindows (port engine : Nat) (digests : List Nat)
  | voteCrcs (port : Nat) (crcs : List (VoteBlock × Nat))
  | voteBlock (port : Nat) (b : VoteBlock) (data side : List Byte)
  /-- Data of a register read by a master (R9). -/
  | readData (master off value : Nat)
  /-- Completion of an aperture read (R422): bytes, or none where it is poisoned. -/
  | b2Data (off : Nat) (bytes : Option (List Byte))
  /-- A half-slot on a physical port, from a tick on: what data lines 0 to 30 carry, bit b of a line at bit time b (R261). -/
  | halfSlot (port tick : Nat) (lines : List Nat)
  /-- A port's transmit rings lock and light leaves on its fibre, or it goes dark (R270). -/
  | light (port : Nat) (on : Bool)
  /-- The clock observation output drives a selection divided by 2^DIV from its next low phase on, or stays low (none) (R452). -/
  | clkObs (drive : Option (Nat × Nat))
  /-- Data shifted out of the test access port (R494). -/
  | scan (value : Nat)
  deriving DecidableEq, Repr

end Sys2Proof.Machine
end

