-- ==== Sys2Proof/Machine/State.lean ====
section
/-! DEFINITION. The state of the block: everything the spec gives the Z20, the queue of waiting commands (first in, first
out), and what the model adds (`out`, `freeCtr`). `State.reset` is the machine after the cold reset that main power
performs (R459, R460, R501), every field at its default; where the spec gives no value the assumption log names it. -/

namespace Sys2Proof.Machine

/-- Why a step can stop with a fault. No command of this block stops the machine: the faults the spec names are
handled by rewinding, by stopping threads or by stopping the partition, which are all next states. -/
inductive Fault where
  /-- Raised by no command: kept so that the type has an element. Safe, since nothing answers it. -/
  | none
  deriving DecidableEq, Repr

/-- Why a step can answer with a refusal. The refusals the spec names are codes in registers, which are next states. -/
inductive Refusal where
  /-- Raised by an arm of `exec` whose command has no meaning yet, by mnemonic. Safe: nothing is proved about it. -/
  | notModelled (mnemonic : String)
  deriving DecidableEq, Repr

/-- One block of a SEND in flight on the mesh (R175). -/
structure MeshMsg where
  src : Nat
  stream : Nat
  dst : Nat
  addr : Nat
  bytes : List Byte
  /-- On the last block, the keystone to ARRIVE on (R168). -/
  key : Option Nat
  ctx : Nat
  gen : Nat
  deriving DecidableEq, Repr

/-- The state of the block. -/
structure State where
  /-- Fabric tick (R189), below 2^64, and its fraction in 1/16 tick. -/
  tick : Nat := 0
  frac : Nat := 0
  /-- Registers by BAR0 offset that differ from their reset value (R9, R471). -/
  regs : Store Word := []
  /-- The logical cores; one that is not listed stands at reset. -/
  cores : Store Core := []
  /-- Mesh messages in flight, oldest first (R175). -/
  mesh : List MeshMsg := []
  sch : SchState := {}
  tck : TckState := {}
  ctx : CtxState := {}
  pie : PieState := {}
  vdt : VdtState := {}
  colGroups : Store ColGroup := []
  colPend : List ColPend := []
  opt : OptState := {}
  mem : MemState := {}
  train : TrainState := {}
  host : HostState := {}
  clk : ClkState := {}
  pwr : PwrState := {}
  rst : RstState := {}
  buddy : BuddyState := {}
  trace : TraceState := {}
  /-- Speed bin, a fuse: 0 the ZY20-A12-L, 1 the ZY20-A10-L (R4, R16; log 4). -/
  bin : Nat := 0
  /-- Shape descriptor change count (R17), and PORT_MASK as the descriptor holds it (R219). -/
  descGen : Nat := 0
  portMask : Nat := 0
  /-- Nanoseconds for which the always-on domain has run: a tick each, or a cycle of RC of 1,000 without main power (R453). -/
  aon : Nat := 0
  /-- W1C bits that hardware has set in the last cycles, as (time in `aon`, BAR0 offset × 32 + bit): a clear in the same cycle leaves
  them set (R12). -/
  setNow : List (Nat × Nat) := []
  /-- Upsets still to show themselves in checked or duplicated logic: page of the unit to the place of the error (log 56). -/
  slips : Store Nat := []
  /-- Commands waiting, first in, first out. The queue is the model's (log 1). -/
  pending : List Instr := []
  /-- What the block has sent, newest last. The model's own (log 8). -/
  out : List Out := []
  /-- Counter of the free values drawn. The model's own (log 6). -/
  freeCtr : Nat := 0
  deriving DecidableEq, Repr

/-- The block right after reset, with nothing waiting. -/
def State.reset : State := {}

end Sys2Proof.Machine
end

