-- ==== Sys2Proof/Machine/Ops.lean ====
section
/-! DEFINITION. The named operations every command uses: registers (R9, R471), counters (R141), interrupt lines (R421),
error logs (R476), cores and threads, alarm words (R234, R235), the three fault classes (R34 to R36, R510), and core
memory with its grants, its error code and its undo log (R160, R161, R339, R342, R395). -/

namespace Sys2Proof.Machine

open Sys2Proof

/-- Pages of the device region (R473). -/
def pgGEN : Nat := 0
def pgMD : Nat := 1
def pgCLK : Nat := 2
def pgPWR : Nat := 3
def pgRST : Nat := 4
def pgHIF : Nat := 5
def pgMGT : Nat := 6
def pgSEM : Nat := 7
def pgSCH : Nat := 8
def pgTCK : Nat := 9
def pgVDT : Nat := 0xA
def pgCOL : Nat := 0xB
def pgCMB : Nat := 0xC
def pgSMP : Nat := 0xD
def pgGAL : Nat := 0xE
def pgPIE : Nat := 0xF
def pgKEY : Nat := 0x10
def pgCTX : Nat := 0x11
def pgSEEP : Nat := 0x12
def pgTRC : Nat := 0x13
def pgTST : Nat := 0x14
/-- TRS page of optical engine `e`. -/
def pgTRS (e : Nat) : Nat := 0x20 + e
/-- HBM page of stack `n`. -/
def pgHBM (n : Nat) : Nat := 0x28 + n
/-- UPD page of update engine `e`. -/
def pgUPD (e : Nat) : Nat := 0x30 + e
/-- Pages of logical core `c` (R474). -/
def pgCORE (c : Nat) : Nat := 0x80 + 16 * c
def pgMXA (c : Nat) : Nat := 0x81 + 16 * c
def pgFLS (c : Nat) : Nat := 0x82 + 16 * c
def pgDMA (c : Nat) : Nat := 0x83 + 16 * c
def pgTIL (c : Nat) : Nat := 0x84 + 16 * c

/-- BAR0 offset of a register. -/
def regAt (page o : Nat) : Nat := page * 0x1000 + o

/-- Largest 32-bit number. -/
def max32 : Nat := 2 ^ 32 - 1

/-! Registers and counters. -/

/-- The stored value of the register at a BAR0 offset. -/
def State.rd (s : State) (off : Nat) : Nat :=
  match Store.find s.regs off with
  | some v => v.toNat
  | none => regReset off

/-- The register at a BAR0 offset stored. -/
def State.wr (s : State) (off v : Nat) : State :=
  { s with regs := Store.set (BitVec.ofNat 32 (regReset off)) s.regs off (BitVec.ofNat 32 v) }

/-- A register of a page. -/
def State.reg (s : State) (page o : Nat) : Nat := s.rd (regAt page o)

/-- A register of a page stored. -/
def State.setReg (s : State) (page o v : Nat) : State := s.wr (regAt page o) v

/-- A 64-bit value in two registers (R8). -/
def State.reg64 (s : State) (page o : Nat) : Nat := s.reg page o + s.reg page (o + 4) * 2 ^ 32

/-- A 64-bit value stored in two registers. -/
def State.setReg64 (s : State) (page o v : Nat) : State :=
  (s.setReg page o (v % 2 ^ 32)).setReg page (o + 4) (v / 2 ^ 32 % 2 ^ 32)

/-- A 32-bit counter that stops at its largest value (R91, R141). -/
def State.cnt (s : State) (page o n : Nat) : State := s.setReg page o (satAt max32 (s.reg page o + n))

/-- A 64-bit counter that wraps (R91, R141). -/
def State.cnt64 (s : State) (page o n : Nat) : State := s.setReg64 page o ((s.reg64 page o + n) % 2 ^ 64)

/-- Something sent on a port. -/
def State.emit (s : State) (o : Out) : State := { s with out := s.out ++ [o] }

/-- A free value (log 6), and the state with the next one due. -/
def State.free (s : State) : Word × State := (Config.freeWord s.freeCtr, { s with freeCtr := s.freeCtr + 1 })

/-! Interrupts. -/

/-- Whether the interrupt line of a block type is at 1 (R421). -/
def State.lineUp (s : State) (ty : Nat) : Bool :=
  s.regs.any (fun p => p.1 % 0x1000 == 0x10 && pageType (p.1 / 0x1000) == ty
    && (p.2.toNat &&& s.rd (p.1 + 4)) != 0)

/-- The message of a vector (R419, R421). -/
def State.message (s : State) (v : Nat) : Out :=
  let e : MsixEntry := Store.get {} s.host.msix v
  .msix v (e.lo + e.hi * 2 ^ 32) e.data

/-- The MSI-X message of a line that rises, unless HIF_VMAP or the table masks it (R421). In D3hot and without main power it stays
pending, for the Z20 masters no message then (R426, R428; log 53). -/
def State.sendVector (s : State) (ty : Nat) : State :=
  let vm := Store.get 0x20 s.host.vmap ty
  if bitAt vm 5 then s
  else
    let v := vm % 32
    if bitAt (Store.get {} s.host.msix v).ctl 0 || s.host.d3hot || !s.pwr.mainOk then { s with host := { s.host with pba := setBit s.host.pba v } }
    else s.emit (s.message v)

/-- The line of a block type brought up to date; a rise sends a vector and makes a NOTIFY due (R421, R439). -/
def State.refreshLine (s : State) (ty : Nat) : State :=
  let up := s.lineUp ty
  let was := bitAt s.host.lines ty
  if up && !was then
    let due := if bitAt (s.reg pgMGT 0x50) ty then setBit s.host.notifyDue ty else s.host.notifyDue
    ({ s with host := { s.host with lines := setBit s.host.lines ty, notifyDue := due } }).sendVector ty
  else if !up && was then { s with host := { s.host with lines := clrBit s.host.lines ty } }
  else s

/-- A W1C bit that hardware sets now is remembered for as long as a cycle can last: a core cycle, or one of RC (R12). -/
def State.markSet (s : State) (page o bit : Nat) : State :=
  let key := regAt page o * 32 + bit
  { s with setNow := (s.aon, key) :: s.setNow.filter (fun p => decide (s.aon ≤ p.1 + 1000) && p.2 != key) }

/-- The multiple of 31.25 MHz at which the cores run: that of the point, and FSTEP more under a stress test (R365, R454, R457). -/
def State.coreM (s : State) : Nat :=
  (Config.vfM s.bin).getD s.pwr.point 8 + (if s.pwr.stress then fld s.pie.stressCmd 8 4 else 0)

/-- Whether a time falls in the present cycle of a page's clock: the tick, for a core's page the core cycle, and without main power the
cycle of RC (R12, R453; log 7). -/
def State.sameCycle (s : State) (page t : Nat) : Bool :=
  let m := s.coreM
  let back := s.aon - t
  if !s.pwr.mainOk then t / 1000 == s.aon / 1000
  else t == s.aon || (decide (0x80 ≤ page) && decide (back ≤ s.tick) && (s.tick - back) * m / 32 == s.tick * m / 32)

/-- The bits of a 1 written to a W1C register that clear: all but those that hardware has set in the same cycle (R12). -/
def State.clears (s : State) (page o v : Nat) : Nat :=
  s.setNow.foldl (fun m p =>
    if p.2 / 32 = regAt page o ∧ s.sameCycle page p.1 = true then clrBit m (p.2 % 32) else m) v

/-- A bit of a page's INT_STAT set, and no more. -/
def State.raiseInt (s : State) (page bit : Nat) : State :=
  ((s.markSet page 0x10 bit).setReg page 0x10 (setBit (s.reg page 0x10) bit)).refreshLine (pageType page)

/-- A wake reason arises in D3hot or D3cold (R427, R428): it is kept in HIF_WAKE if it is enabled, and signals wake unless a
request is outstanding, a resume has begun, or REASONS held it already. -/
def State.wakeReason (s : State) (r : Nat) : State :=
  if !((s.host.d3hot || !s.pwr.mainOk) && bitAt (s.reg pgHIF 0x54) r) then s
  else
    let w := s.reg pgHIF 0x50
    let w1 := setBit (if bitAt w 31 then w else r * 2 ^ 8 + 2 ^ 31) r
    let s1 := ((s.markSet pgHIF 0x50 31).setReg pgHIF 0x50 w1).raiseInt pgHIF 0
    if s1.host.wakeOut || s1.host.resuming || bitAt w r then s1
    else
      let s2 := { s1 with host := { s1.host with pmeStatus := true, wakeOut := true } }
      if s2.pwr.mainOk then (s2.cnt pgHIF 0x78 1).emit .pme else s2.emit (.wake true)

/-- A bit of a page's INT_STAT set (R476); some of them are wake reasons (R427). -/
def State.setInt (s : State) (page bit : Nat) : State :=
  let s1 := s.raiseInt page bit
  if page = pgSCH ∧ bit = 0 then s1.wakeReason 2
  else if page = pgCTX ∧ bit = 4 then s1.wakeReason 4
  else if page = pgPWR ∧ bit = 3 then s1.wakeReason 5
  else s1

/-- A record whose CLASS is hardware is a wake reason (R427). -/
def State.wakeHw (s : State) (l0 : Nat) : State := if fld l0 28 3 = 1 then s.wakeReason 3 else s

/-- The bit of INT_STAT that is LOG_OVF, by block type. -/
def ovfBit : Nat → Nat
  | 0x1 => 3 | 0x2 => 2 | 0x3 => 4 | 0x4 => 5 | 0x5 => 5 | 0x6 => 5 | 0x7 => 5 | 0x9 => 5 | 0xA => 6
  | 0xB => 5 | 0xC => 3 | 0xD => 5 | 0xE => 5 | 0xF => 6 | 0x10 => 1 | 0x11 => 6 | 0x12 => 3 | 0x13 => 6
  | 0x14 => 4 | 0x15 => 6 | 0x16 => 6 | 0x17 => 8 | 0x18 => 3 | 0x19 => 5 | 0x1A => 3 | 0x1B => 3
  | 0x1C => 3 | 0x1D => 3 | _ => 5

/-- A record of a page's error log and no more: ERR_LOG0 below VALID, ERR_LOG1 and ERR_LOG2; the tick and the span follow
(R476). -/
def State.logRaw (s : State) (page l0 l1 l2 : Nat) : State :=
  if bitAt (s.reg page 0x20) 31 then s.setInt page (ovfBit (pageType page))
  else
    (((((s.setReg page 0x20 (l0 % 2 ^ 31 + 2 ^ 31)).setReg page 0x24 (l1 % 2 ^ 32)).setReg page 0x28
      (l2 % 2 ^ 32)).setReg64 page 0x2C s.tick).setReg64 page 0x34 (s.sch.seq % 2 ^ 48)).wakeHw l0

/-! The trace buffer (R484 to R487). -/

/-- SOURCE of a page: its core, or 0x100 and the block type (R486). -/
def traceSource (page : Nat) : Nat := if page < 0x80 then 0x100 + pageType page else (page - 0x80) / 16

/-- Whether a record is produced (R485). A record that names no context is not, under CTX_EN (log 50). -/
def State.traces (s : State) (ty src : Nat) (ctx : Option Nat) : Bool :=
  let cfg := s.reg pgTRC 0x40
  let start := s.reg64 pgTRC 0x58
  let stop := s.reg64 pgTRC 0x60
  bitAt cfg 0 && (ty == 0xA || ty == 0xB ||
    (decide (start ≤ s.tick) && (stop == 0 || decide (s.tick < stop)) && bitAt (s.reg pgTRC 0x44) ty &&
      (decide (256 ≤ src) || (decide (fld (s.reg pgTRC 0x48) 0 8 ≤ src) && decide (src ≤ fld (s.reg pgTRC 0x48) 16 8))) &&
      (!bitAt cfg 2 || ctx == some (fld cfg 11 10))))

/-- Records the trace buffer holds (R484, R486). -/
def traceRoom : Nat := 32768

/-- A trace record (R486). -/
def State.traceRec (s : State) (ty src : Nat) (payload : List Byte) : List Byte :=
  [BitVec.ofNat 8 ty, BitVec.ofNat 8 (s.vdt.epoch % 4 + b2n (s.sch.job == .rewinding) * 4)] ++ leBytes 2 src ++
    leBytes 8 s.tick ++ leBytes 4 s.sch.seq ++ (payload ++ List.replicate 16 0#8).take 16

/-- A record put after those of its tick that SOURCE and then TYPE put before it (R485); `l` holds the newest first. LOST and
COUNTER records are passed by none (R484, R489; log 50). -/
def traceInsert (r : List Byte) : List (List Byte) → List (List Byte)
  | [] => [r]
  | x :: l =>
    let key := fun (b : List Byte) => leAt b 2 2 * 256 + leAt b 0 1
    if leAt x 4 8 = leAt r 4 8 ∧ leAt x 0 1 ≠ 0xA ∧ leAt x 0 1 ≠ 0xB ∧ key r < key x then x :: traceInsert r l else r :: x :: l

/-- A record put into the trace buffer; one that finds it full is dropped and counted (R484). -/
def State.trcPut (s : State) (ty src : Nat) (payload : List Byte) : State :=
  if s.trace.buf.length < traceRoom then
    { s with trace := { s.trace with buf := (traceInsert (s.traceRec ty src payload) s.trace.buf.reverse).reverse } }
  else
    let first := if s.trace.dropped = 0 then s.tick else s.trace.firstDrop
    ((({ s with trace := { s.trace with dropped := satAt max32 (s.trace.dropped + 1), firstDrop := first } }).cnt pgTRC 0x80 1).setInt
      pgTRC 0).logRaw pgTRC (1 * 2 ^ 24) 0 0

/-- A record that R485 produces. -/
def State.trc (s : State) (ty src : Nat) (ctx : Option Nat) (payload : List Byte) : State :=
  if s.traces ty src ctx then s.trcPut ty src payload else s

/-- The FAULT record of a fault record: its ERR_LOG0 with VALID, and its ERR_LOG1 (R487). -/
def State.trcFault (s : State) (src : Nat) (ctx : Option Nat) (l0 l1 : Nat) : State :=
  if fld l0 28 3 = 0 then s else s.trc 5 src ctx (leBytes 4 (l0 % 2 ^ 31 + 2 ^ 31) ++ leBytes 4 l1)

/-- A record of a page's error log; one of a fault is traced (R476, R487). -/
def State.logErr (s : State) (page l0 l1 l2 : Nat) : State :=
  let s1 := s.logRaw page l0 l1 l2
  if bitAt (s.reg page 0x20) 31 then s1 else s1.trcFault (traceSource page) none l0 l1

/-- A record of a DMA page's error log: its ERR_LOG3 and ERR_LOG4 hold the failing address, and the tick and the span follow
(R179). -/
def State.dmaLog (s : State) (page l0 l1 elem addr : Nat) : State :=
  if bitAt (s.reg page 0x20) 31 then s.setInt page 5
  else
    (((((((s.setReg page 0x20 (l0 % 2 ^ 31 + 2 ^ 31)).setReg page 0x24 (l1 % 2 ^ 32)).setReg page 0x28
      (elem % 2 ^ 16)).setReg64 page 0x2C addr).setReg64 page 0x34 s.tick).setReg page 0x3C (s.sch.seq % 2 ^ 32)).wakeHw l0).trcFault
      (traceSource page) none l0 l1

/-- The highest point that the governor may set: the one that the image set (R457), which a switch in the present pier frame has changed. -/
def PwrState.ceiling (p : PwrState) : Nat := p.due.getD p.imagePoint

/-! Ownership of pages (R441, R479). -/

/-- OWNER's code of a master. -/
def masterCode : Master → Nat
  | .pcie => 1
  | .mgt => 2

/-- Whether a time has passed since a cold reset (R478). -/
def State.coldSince (s : State) (n : Nat) : Bool :=
  match s.rst.coldAt with
  | some t => decide (t + n ≤ s.aon)
  | none => false

/-- Whether the first pages answer: after a cold reset once PCIe, or without main power the management port, is up; 100 ms after a
warm reset (R466, R478; log 53). -/
def State.firstUp (s : State) : Bool :=
  s.rst.firstAnswer || s.coldSince (if s.pwr.mainOk then 100000000 else 200000000) || s.rst.runs.any (fun r => r.dom == .warm && decide (r.since + 100000000 ≤ s.tick))

/-- Whether every page answers: after a cold reset 250 ms later (R478; log 53). -/
def State.allUp (s : State) : Bool := s.rst.allAnswer || (s.pwr.mainOk && s.coldSince 250000000)

/-- Whether a page answers (R425, R466, R478): the management die's first group before the rest. -/
def State.answers (s : State) (page : Nat) : Bool :=
  if page = pgHIF ∨ page = pgMGT ∨ page = pgSEM ∨ page = pgGEN ∨ page = pgRST ∨ page = pgMD then s.firstUp
  else s.allUp

/-- A record of an access in the GEN page (R482). -/
def State.genLog (s : State) (cause : Nat) (m : Master) (write : Bool) (off : Nat) : State :=
  (s.logErr pgGEN (cause * 2 ^ 24 + masterCode m * 2 ^ 22 + b2n write * 2 ^ 21) (off % 2 ^ 26) 0).setInt pgGEN 2

/-- Whether a master's accesses reach the register window: PCIe's do with main power and BAR decoding on (R426). -/
def State.reaches (s : State) (m : Master) : Bool := m == .mgt || (s.pwr.mainOk && !s.host.d3hot)

/-- A write to an LK field: it takes effect for the page's owner alone; another master's is discarded and logged with cause
0x2, and one to a page that does not answer is discarded (R9, R478, R479). -/
def State.lk (s : State) (m : Master) (page o : Nat) (k : State → State) : State :=
  if !s.reaches m || !s.answers page then s
  else if Store.get 0 s.host.locks page = masterCode m then k s
  else s.genLog 2 m true (regAt page o)

/-! Cores and threads. -/

/-- The upset that a page's checked or duplicated logic meets next, if there is one: its place, and the state once it has shown
itself (log 56). -/
def State.takeSlip (s : State) (page : Nat) : Option Nat × State :=
  match Store.find s.slips page with
  | none => (none, s)
  | some d => (some d, { s with slips := Store.erase s.slips page })

/-- A logical core. -/
def State.core (s : State) (c : Nat) : Core := Store.get {} s.cores c

/-- A logical core replaced. -/
def State.setCore (s : State) (c : Nat) (k : Core) : State := { s with cores := Store.set {} s.cores c k }

/-- A logical core changed. -/
def State.modCore (s : State) (c : Nat) (f : Core → Core) : State := s.setCore c (f (s.core c))

/-- A thread of a core. -/
def Core.thread (k : Core) (t : Nat) : Thread := Store.get {} k.threads t

/-- A thread of a core replaced. -/
def Core.setThread (k : Core) (t : Nat) (x : Thread) : Core := { k with threads := Store.set {} k.threads t x }

/-- A thread. -/
def State.thread (s : State) (c t : Nat) : Thread := (s.core c).thread t

/-- A thread replaced. -/
def State.setThread (s : State) (c t : Nat) (x : Thread) : State := s.modCore c (fun k => k.setThread t x)

/-- A thread's context ID and generation; context 0 where the span assigns none. -/
def Thread.tag (x : Thread) : Nat × Nat := x.ctx.getD (0, 0)

/-! The schedule: what span runs. -/

/-- The held image, or an empty one. -/
def State.img (s : State) : Image := s.sch.image.getD {}

/-- The span descriptor that a span sequence number selects (R187). -/
def Image.spanDesc (m : Image) (seq : Nat) : Option SpanDesc := m.spans[(seq - 1) % m.spans.length]?

/-- The index of the current span's descriptor; 0 before the first span and without an image (R187, R212). -/
def State.descIndex (s : State) : Nat := if s.sch.seq = 0 ∨ s.img.spans = [] then 0 else (s.sch.seq - 1) % s.img.spans.length

/-- The descriptor of the current span. -/
def State.curDesc (s : State) : Option SpanDesc := s.img.spanDesc s.sch.seq

/-- Frames of the current span. -/
def State.curFrames (s : State) : Nat := (s.curDesc.map (·.frames)).getD 0

/-- First tick of the pier frame that ends the current span; pier 0 and a resume frame begin at `first`. -/
def State.pierFirst (s : State) : Nat :=
  match s.sch.place with
  | .span => s.sch.first + 2048 * s.curFrames
  | .pier => s.sch.first + 2048 * s.curFrames
  | _ => s.sch.first

/-- Whether the present tick lies in a pier frame of the running job, pier 0's among them (R187, R275): with a
quiet tail the work of a span ends before it (R345). -/
def State.inPierFrame (s : State) : Bool :=
  s.sch.job == .running && s.sch.place != .span && decide (s.pierFirst ≤ s.tick) && decide (s.tick < s.pierFirst + 2048)

/-- FLOOD_TICKS of the held image (R337). -/
def State.flood (s : State) : Nat := s.img.retain.flood

/-- Ticks of the quiet tail (R345). -/
def State.quiet (s : State) : Nat := if s.flood ≤ 1920 then 0 else ceilDiv (s.flood - 1920) 32 * 32

/-- The raise deadline of the current span (R345). -/
def State.deadline (s : State) : Nat := s.pierFirst + 1984 - s.flood

/-- The span a fault detected now counts against: the current one up to its raise deadline, the next one after it, and
the one that follows pier 0 or a resume frame (R345, R510). -/
def State.faultSpan (s : State) : Nat :=
  match s.sch.place with
  | .span => s.sch.seq
  | .pier => if s.tick ≤ s.deadline then s.sch.seq else s.sch.seq + 1
  | _ => s.sch.seq + 1

/-- Whether user work runs: the job is RUNNING inside a span. -/
def State.inSpan (s : State) : Bool := s.sch.job == .running && s.sch.place == .span

/-- Whether writes to retained ranges are logged: from a span's start to its pier's seal (R339, R340). -/
def State.logs (s : State) : Bool := s.sch.job == .running && (s.sch.place == .span || s.sch.place == .pier)

/-- A record of the PIE log (R366): class, cause, the position fields, and the device it concerns. -/
def State.pieErr (s : State) (cls cause pos dev : Nat) : State :=
  s.logErr pgPIE (cls * 2 ^ 28 + cause * 2 ^ 24 + pos) (dev % 2 ^ 16) 0

/-! Ports and alarm words. -/

/-- VDT_PMAP of a logical port (R218, R244). -/
def State.pmap (s : State) (l : Nat) : PMap :=
  (Store.find s.vdt.pmap l).getD ⟨if l < 16 then 1 else 0, l⟩

/-- The logical port that names a physical port, unless it is OFF. -/
def State.lport (s : State) (p : Nat) : Option Nat :=
  (upTo 20).find? (fun l => (s.pmap l).mode != 0 && (s.pmap l).phys == p)

/-- Fabric side of a physical port. -/
def State.vport (s : State) (p : Nat) : VPort := Store.get {} s.vdt.ports p

/-- Fabric side of a physical port replaced. -/
def State.setVport (s : State) (p : Nat) (v : VPort) : State :=
  { s with vdt := { s.vdt with ports := Store.set {} s.vdt.ports p v } }

/-- An optical port. -/
def State.oport (s : State) (p : Nat) : OptPort := Store.get {} s.opt.ports p

/-- An optical port replaced. -/
def State.setOport (s : State) (p : Nat) (o : OptPort) : State :=
  { s with opt := { s.opt with ports := Store.set {} s.opt.ports p o } }

/-- Whether a port's link is up (R269). -/
def State.linkUp (s : State) (p : Nat) : Bool := (s.oport p).st == .up

/-- The mirror of a logical torus port: same axis and lane, opposite direction (R219). -/
def mirror (l : Nat) : Nat := l ^^^ 2

/-- This device's ID and partition (R244). -/
def State.devId (s : State) : Nat := s.reg pgVDT 0x44 % 2 ^ 16
def State.partId (s : State) : Nat := s.reg pgVDT 0x44 / 2 ^ 16

/-- Whether a logical port carries anything: one of an axis of extent 1 does not (R217). -/
def State.axisLive (s : State) (l : Nat) : Bool := decide (16 ≤ l) || fld (s.reg pgVDT 0x4C) (8 * (l / 4)) 7 != 1

/-- Whether a physical port is in partition (R217, R219). -/
def State.inPart (s : State) (p : Nat) : Bool :=
  match s.lport p with
  | none => false
  | some l =>
    let v := s.vport p
    (s.pmap l).mode == 1 && s.axisLive l && s.linkUp p && v.peerPart == s.partId && v.peerId == v.nbr && v.peerLport == mirror l

/-- Whether a physical port carries a logical spur port in EXPORT mode and its link is up (R218). -/
def State.isExport (s : State) (p : Nat) : Bool :=
  match s.lport p with
  | none => false
  | some l => (s.pmap l).mode == 2 && decide (16 ≤ l) && s.linkUp p

/-- PARENT and BACKUP of TCK_CFG; 31, and every reserved value, names no port (R214). -/
def tckParent (cfg : Nat) : Nat := fld cfg 0 5
def tckBackup (cfg : Nat) : Nat := fld cfg 5 5

/-- The logical port that exchanges run on, if one is configured (R192). -/
def State.tckPort (s : State) : Option Nat :=
  let p := if s.tck.usingBackup then tckBackup (s.reg pgTCK 0x48) else tckParent (s.reg pgTCK 0x48)
  if p < 16 then some p else none

/-- An alarm word (R234). -/
def alarmWord (type origin arg : Nat) : Nat := type + origin * 2 ^ 4 + arg % 2 ^ 32 * 2 ^ 32

/-- Alarm words remembered for 100 µs, the last 16 of them (R235). -/
def State.knowsAlarm (s : State) (w : Nat) : Bool :=
  s.vdt.alarms.any (fun a => a.word == w && decide (s.tick ≤ a.tick + 100000))

/-- TYPE and then ORIGIN of an alarm word: the order of words of one tick (R235). -/
def alarmRank (w : Nat) : Nat := fld w 0 4 * 2 ^ 16 + fld w 4 16

/-- An alarm word put on a port's line at a tick, ahead of the words of that tick which it precedes, with its CRC-8 (R234, R235). -/
def alarmInto (l : List Out) (p t w : Nat) : List Out :=
  let e : Out := .alarm p t w (crc8 (leBytes 8 w))
  let later := fun (o : Out) => match o with
    | .alarm q u v _ => q == p && u == t && decide (alarmRank w < alarmRank v)
    | _ => false
  match firstIdx later l 0 with
  | some i => l.take i ++ e :: l.drop i
  | none => l ++ [e]

/-- An alarm word sent on a port (R234, R235). -/
def State.sendAlarm (s : State) (p w : Nat) : State := { s with out := alarmInto s.out p s.tick w }

/-- An alarm word remembered and sent on every physical port in partition except `skip` (R235). -/
def State.floodAlarm (s : State) (w : Nat) (skip : Option Nat) : State :=
  let s0 : State := { s with vdt := { s.vdt with alarms := (⟨w, s.tick⟩ :: s.vdt.alarms).take 16 } }
  let s1 := s0.trc 9 (traceSource pgVDT) none (leBytes 8 w)
  ((upTo 20).filter (fun p => s.inPart p && skip != some p)).foldl (fun a p => a.sendAlarm p w) s1

/-- An alarm word of this device raised: sent once (R235). -/
def State.raiseAlarm (s : State) (w : Nat) : State := if s.knowsAlarm w then s else s.floodAlarm w none

/-! The three fault classes. -/

/-- Events counted for the present pier (R363). -/
def PieState.count (p : PieState) (rewinds late corr : Nat) : PieState :=
  let fresh : WinCount := ⟨p.winPiers, rewinds, late, corr⟩
  if rewinds + late + corr = 0 then p
  else match p.win with
    | [] => { p with win := [fresh] }
    | w :: rest =>
      if w.pier = p.winPiers then { p with win := ⟨w.pier, w.rewinds + rewinds, w.late + late, w.corr + corr⟩ :: rest }
      else { p with win := fresh :: p.win }

/-- A hardware fault handed to the seal unit, which raises within 32 ticks, by REWIND_RAISE (R348). Outside a job there is
nothing to rewind. -/
def State.raiseWith (s : State) (r : Raise) : State :=
  match s.sch.job with
  | .running => { s with pie := { s.pie with raises := s.pie.raises ++ [r] } }
  | .rewinding => { s with pie := { s.pie with raises := s.pie.raises ++ [r] } }
  | _ => s

/-- A hardware fault detected (R34, R348). -/
def State.raiseHw (s : State) : State := s.raiseWith { tick := s.tick }

/-- Whether the device holds STOP words for a pier to come: its job runs, or is parked with a span to follow (R29, R510). -/
def State.holdsStops (s : State) : Bool :=
  s.sch.job == .running || s.sch.job == .parked || (s.sch.job == .armed && s.sch.resume)

/-- A STOP word for span `n`, mod 256, held (R510). -/
def State.holdStop (s : State) (n : Nat) : State :=
  if s.sch.stops.contains n then s else { s with sch := { s.sch with stops := s.sch.stops ++ [n] } }

/-- A schedule fault: a STOP word with ARG bit 8 set is held and flooded (R510). -/
def State.raiseSched (s : State) : State :=
  if s.holdsStops then
    let n := s.faultSpan % 256
    (s.holdStop n).raiseAlarm (alarmWord 3 s.devId (0x100 + n))
  else s

/-- A thread FAULTED, under the context that the span assigns it (R119, R136). -/
def Thread.faulted (x : Thread) : Thread := { x with a := { x.a with st := .faulted }, held := none, home := x.ctx.map (·.1) }

/-- A thread of a context that faulted: FAULTED at its next issue opportunity, unless the span leaves it INACTIVE (R136). -/
def Thread.faultCtx (id : Nat) (x : Thread) : Thread :=
  if x.ctx.map (·.1) == some id && x.a.st != .inactive && x.a.st != .faulted then x.faulted else x

/-- A context fault on this device: its threads stop and an END entry is pending (R34, R136, R399). -/
def State.raiseCtx (s : State) (id : Nat) : State :=
  let s1 := { s with
    cores := Store.mapVals (fun _ k => { k with threads := Store.mapVals (fun _ x => x.faultCtx id) k.threads }) s.cores }
  if id = 0 then s1 else { s1 with ctx := { s1.ctx with entries := Store.set 0 s1.ctx.entries id 1 } }

/-- The effect of a fault of a class, beyond its records. -/
def State.raiseClass (s : State) (cls : FClass) (ctx : Nat) : State :=
  match cls with
  | .hw => s.raiseHw
  | .ctx => s.raiseCtx ctx
  | .sched => s.raiseSched

/-- ERR_LOG0 of a record of a core's fault queue (R140). -/
def FaultRec.log0 (r : FaultRec) : Nat :=
  2 ^ 31 + r.cls.code * 2 ^ 28 + r.unit * 2 ^ 25 + r.cause * 2 ^ 20 + r.thread * 2 ^ 16 + r.gen * 2 ^ 10 + r.ctx

/-- A record put into a core's fault queue, or dropped and counted where it is full (R137); it is traced (R487). DESIGN CHOICE
(log 59): the class bit of INT_STAT is set for a dropped record too (R140). -/
def State.pushRec (s : State) (c : Nat) (r : FaultRec) : State :=
  let bit := match r.cls with | .hw => 0 | .ctx => 1 | .sched => 2
  let k := s.core c
  let s1 :=
    if k.faultQ.length < 8 then (s.setCore c { k with faultQ := k.faultQ ++ [r] }).trcFault c (some r.ctx) (FaultRec.log0 r) r.pc
    else (s.setCore c { k with dropped := satAt 0xFFFF (k.dropped + 1) }).setInt (pgCORE c) 5
  (s1.setInt (pgCORE c) bit).wakeHw (r.cls.code * 2 ^ 28)

/-- A fault of a core's unit, with its record (R137) and its class's effect (R34). Unit 0 control core, 1 MXA, 2 FLS,
3 DMA. -/
def State.coreFault (s : State) (c : Nat) (cls : FClass) (unit cause thread ctx gen pc addr : Nat) : State :=
  (s.pushRec c ⟨cls, unit, cause, thread, ctx, gen, pc, addr, s.tick, s.sch.seq⟩).raiseClass cls ctx

/-- CMD_START (type 1) or CMD_DONE (type 2) of a command of a core's unit: 1 MXA, 2 FLS, 3 DMA, 4 TIL (R487). -/
def State.trcCmd (s : State) (ty c unit thread ctx gen addr : Nat) (squashed : Bool) : State :=
  s.trc ty c (some ctx) ([BitVec.ofNat 8 unit, BitVec.ofNat 8 thread] ++ leBytes 2 (ctx + gen * 2 ^ 10) ++ leBytes 4 addr ++
    [BitVec.ofNat 8 (b2n squashed)])

/-! Core memory. -/

/-- Size of core memory (R160). -/
def coreBytes : Nat := 8 * 2 ^ 20

/-- First byte of the undo-log carve-out (R160). -/
def State.carve (s : State) : Nat := coreBytes - s.img.undoKib * 1024

/-- Whether `n` bytes from `a` on lie in core memory below the carve-out. -/
def State.cmIn (s : State) (a n : Nat) : Bool := decide (a + n ≤ s.carve)

/-- Whether a context may read or write `n` bytes from `a` on of a core's memory (R395): every 64 KiB unit touched. -/
def State.cmOk (s : State) (c ctx a n : Nat) (write : Bool) : Bool :=
  ctx == 0 ||
  (upTo ((a + n - 1) / 65536 + 1 - a / 65536)).all (fun i =>
    match Store.find s.ctx.units (c * 128 + a / 65536 + i) with
    | none => false
    | some g => if write then g.ctx == ctx && g.w else g.ctx == ctx || g.shared)

/-- Whether a SEND may stage `n` bytes at `a` on a core: every unit owned with W (R395). -/
def State.stageOk (s : State) (c ctx a n : Nat) : Bool := s.cmOk c ctx a n true

/-- Bytes of core memory as they stand. -/
def State.cmBytes (s : State) (c a n : Nat) : List Byte := Store.getRun 0#8 (s.core c).mem a n

/-- A 32-bit word of core memory. -/
def State.cmWord (s : State) (c a : Nat) : Nat := leNat (s.cmBytes c a 4)

/-- The words of a read of `n` bytes from `a` on: each with one wrong bit is corrected and counted, and those with two are
answered by their addresses (R161). -/
def State.cmCorrect (s : State) (c a n : Nat) : State × List Nat :=
  let hit := (s.core c).ecc.filter (fun p => decide (a / 8 ≤ p.1) && decide (p.1 ≤ (a + n - 1) / 8) && decide (0 < n))
  let ones := (hit.filter (fun p => p.2 == 1)).length
  (if ones = 0 then s else s.cnt (pgDMA c) 0x6C ones, (hit.filter (fun p => p.2 != 1)).map (fun p => p.1 * 8))

/-- A core memory word at `b` that cannot be corrected: a hardware fault that the DMA page records with cause 0x4, for the reader
`w` (R137, R161). -/
def State.cmFault (s : State) (c : Nat) (w : Reader) (b : Nat) : State :=
  ((s.dmaLog (pgDMA c) (1 * 2 ^ 28 + 4 * 2 ^ 24 + w.pos) (w.thread * 2 ^ 28 + w.addr % 2 ^ 23) w.elem b).setInt (pgDMA c)
    1).coreFault c .hw 3 4 w.thread w.ctx w.gen w.pc w.addr

/-- The faults of the words at `bs`, in order. -/
def State.cmFaults (s : State) (c : Nat) (w : Reader) (bs : List Nat) : State := bs.foldl (fun a b => a.cmFault c w b) s

/-- What reading `n` bytes from `a` on does to the machine: wrong bits are corrected and counted, and every word that cannot be
corrected is a hardware fault (R161). The bytes read are the corrected ones. -/
def State.cmTouch (s : State) (c a n : Nat) (w : Reader) : State :=
  let r := s.cmCorrect c a n
  r.1.cmFaults c w r.2

/-- A read of `n` bytes from `a` on together with what follows in its core cycle: the records of what follows enter the fault queue
before those of the words that cannot be corrected, the DMA page's being the last of a core cycle (R137). -/
def State.cmRead (s : State) (c a n : Nat) (w : Reader) (k : State → State) : State :=
  let r := s.cmCorrect c a n
  (k r.1).cmFaults c w r.2

/-- Whether a byte of a core's memory lies in a range the current span retains (R336, R337). -/
def State.retainedCore (s : State) (c a : Nat) : Bool :=
  match s.curDesc with
  | none => false
  | some d =>
    match s.img.retain.lists[d.retain]? with
    | none => false
    | some (first, count) =>
      ((s.img.retain.ranges.drop first).take count).any (fun r =>
        r.space == 1 && (r.all || r.core == c) && decide (r.base ≤ a) && decide (a < r.base + 64 * r.lines))

/-- Line records a core's carve-out holds (R339). -/
def State.lineRoom (s : State) : Nat := (s.img.undoKib - s.img.retain.dmemKib) * 1024 / 72

/-- Bytes stored with no logging; the words written lose their wrong bits (R161). -/
def Core.poke (k : Core) (a : Nat) (bs : List Byte) : Core :=
  { k with mem := Store.setRun 0#8 k.mem a bs
           ecc := if bs.isEmpty then k.ecc else Store.clearRange k.ecc (a / 8) ((a + bs.length - 1) / 8 + 1 - a / 8) }

/-- Bytes that lie in one 64-byte line stored: a retained line is logged at its first write in the span, and where the
line area is full the write is discarded and a schedule fault is recorded (R339, R342). -/
def State.cmPutLine (s : State) (c a : Nat) (bs : List Byte) : State :=
  let k := s.core c
  let line := a / 64
  if !(s.logs && s.retainedCore c (line * 64)) then s.setCore c (k.poke a bs)
  else if k.undo.ovf then s
  else if k.undo.lines.any (fun r => r.1 == line) then s.setCore c (k.poke a bs)
  else if k.undo.lines.length < s.lineRoom then
    let u := { k.undo with lines := k.undo.lines ++ [(line, Store.getRun 0#8 k.mem (line * 64) 64)] }
    s.setCore c { k.poke a bs with
      undo := { u with maxLines := if u.maxLines < u.lines.length then u.lines.length else u.maxLines } }
  else
    ((s.setCore c { k with undo := { k.undo with ovf := true } }).pieErr 3 4 c s.devId).raiseSched

/-- Bytes stored line by line; `n` bounds the lines. -/
def State.cmPutLines : Nat → State → Nat → Nat → List Byte → State
  | 0, s, _, _, _ => s
  | n + 1, s, c, a, bs =>
    let m := 64 - a % 64
    if bs.length ≤ m then s.cmPutLine c a bs
    else State.cmPutLines n (s.cmPutLine c a (bs.take m)) c (a + m) (bs.drop m)

/-- Bytes stored in a core's memory (R162, R339). -/
def State.cmPut (s : State) (c a : Nat) (bs : List Byte) : State :=
  if bs.isEmpty then s else State.cmPutLines (bs.length / 64 + 2) s c a bs

/-- A 32-bit word stored in a core's memory. -/
def State.cmPutWord (s : State) (c a v : Nat) : State := s.cmPut c a (leBytes 4 v)

end Sys2Proof.Machine
end

