-- ==== Sys2Proof/Machine/Keys.lean ====
section
/-! DEFINITION. Keystones (R408 to R413): their configuration, changes of VALUE, arrivals and their lateness, and the
threads that wait on them. -/

namespace Sys2Proof.Machine

open Sys2Proof

/-- KIND: 0 unused, 1 BARRIER, 2 COUNTER, 3 SEMAPHORE (R408). -/
def Keystone.kind (k : Keystone) : Nat := fld k.cfg 14 2
/-- The owning context (R408). -/
def Keystone.owner (k : Keystone) : Nat := fld k.cfg 16 10
/-- REMOTE (R408). -/
def Keystone.remote (k : Keystone) : Bool := bitAt k.cfg 26
/-- DL_EN (R408). -/
def Keystone.dlEn (k : Keystone) : Bool := bitAt k.cfg 27
/-- DEADLINE (R408). -/
def Keystone.deadline (k : Keystone) : Nat := fld k.cfg 28 15
/-- TARGET (R408). -/
def Keystone.target (k : Keystone) : Nat := fld k.cfg 43 21

/-- A keystone. -/
def State.key (s : State) (k : Nat) : Keystone := Store.get {} s.ctx.keys k

/-- A keystone replaced. -/
def State.setKey (s : State) (k : Nat) (x : Keystone) : State :=
  { s with ctx := { s.ctx with keys := Store.set {} s.ctx.keys k x } }

/-- Ticks since the span's first tick (R126). -/
def State.spanTick (s : State) : Nat := s.tick - s.sch.first

/-- A change of VALUE: additions saturate, and a BARRIER at its TARGET completes once (R409). -/
def Keystone.change (k : Keystone) (v : Nat) : Keystone :=
  let w := satAt max32 v
  if k.kind = 1 ∧ k.target ≤ w then { k with value := w - k.target, phase := (k.phase + 1) % 65536 }
  else { k with value := w }

/-- Whether the condition of a WAIT with operand `a` holds (R409). -/
def Keystone.ready (k : Keystone) (a : Nat) : Bool :=
  if k.kind = 1 then k.phase != a % 65536 else decide (a ≤ k.value)

/-- Units an ACQUIRE or RELEASE moves (R409). -/
def keyUnits (a : Nat) : Nat := if a = 0 then 1 else a

/-- KFN, RA, RD and KEY of a KEY word (R123). -/
def keyFn (w : Nat) : Nat := fld w 24 3
def keyRa (w : Nat) : Nat := fld w 19 5
def keyRd (w : Nat) : Nat := fld w 14 5
def keyNo (w : Nat) : Nat := fld w 0 14

/-- A general register as a natural; G0 reads 0 (R117). -/
def Thread.gr (x : Thread) (r : Nat) : Nat := (Store.get 0#32 x.a.g r).toNat

/-- What a waiting KEY instruction does when its keystone stands as `k`: the keystone and the result, where the
condition holds (R409). -/
def keyTry (x : Thread) (h : Held) (k : Keystone) : Option (Keystone × Nat) :=
  let a := x.gr (keyRa h.word)
  match keyFn h.word with
  | 1 => if k.ready a then some (k, k.value) else none
  | 2 =>
    let p := h.phase.getD 0
    if k.ready (if k.kind = 1 then p else a) then some (k, p) else none
  | 5 =>
    let n := keyUnits a
    if n ≤ k.value then
      let k1 := k.change (k.value - n)
      some (k1, k1.value)
    else none
  | _ => none

/-- The threads of the device that wait on keystone `key`, in ascending global number (R411). -/
def State.keyWaiters (s : State) (key : Nat) : List (Nat × Nat) :=
  s.cores.flatMap (fun p => (p.2.threads.filter (fun q =>
    match q.2.held with
    | some h => q.2.a.st == .wait && h.reason == 5 && h.key == key && h.res == none
    | none => false)).map (fun q => (p.1, q.1)))

/-- Die seams between core `c`'s die and the die of keystone `key`, from 0 to 2 (R408, R410). -/
def keySeams (c key : Nat) : Nat :=
  let d := dieOf c
  let h := key / 4096
  b2n (d % 2 != h % 2) + b2n (d / 2 != h / 2)

/-- The tick `n` passages between core `c` and keystone `key` from now, of 4 + 6D core cycles each (R410). -/
def State.keyBack (s : State) (c key n : Nat) : Nat := s.tick + ticksAt s.coreM (n * (4 + 6 * keySeams c key))

/-- One waiting thread tried: where its condition holds its result is held for it until it returns (R410). -/
def State.keyWakeOne (s : State) (key : Nat) (ct : Nat × Nat) : State :=
  let x := s.thread ct.1 ct.2
  match x.held with
  | none => s
  | some h =>
    match keyTry x h (s.key key) with
    | none => s
    | some (k, r) => (s.setKey key k).setThread ct.1 ct.2 { x with held := some { h with res := some (r, s.keyBack ct.1 key 1) } }

/-- After a change, waiting ACQUIREs are granted in ascending global thread number while VALUE suffices, and waits whose
condition holds end (R410, R411). A waiter that VALUE does not suffice for holds back no later one (DEDUCED, log 15). Where a grant
completes a BARRIER, the waits of lower threads are tried again. -/
def State.keyWake (s : State) (key : Nat) : State :=
  let pass := fun (z : State) => (z.keyWaiters key).foldl (fun a ct => a.keyWakeOne key ct) z
  let s1 := pass s
  if (s1.key key).phase = (s.key key).phase then s1 else pass s1

/-- The telemetry of an arrival from `src`, and its lateness event where it is later than its deadline (R364, R413). -/
def State.keyArrival (s : State) (key : Nat) (src : Option Nat) : State :=
  let k := s.key key
  let t := s.spanTick
  let k1 := if k.arrSpan = s.sch.seq ∧ k.first ≠ 0x7FFF then { k with last := t }
    else { k with first := t, last := t, arrSpan := s.sch.seq }
  let k2 := match src with
    | some d => { k1 with src := d }
    | none => k1
  if k.dlEn && decide (k.deadline < t) then
    let s1 := s.setKey key { k2 with late := satAt max32 (k2.late + 1) }
    let s2 := ((s1.cnt pgKEY 0x68 1).setInt pgKEY 1).cnt pgPIE 0x98 1
    let s3 := s2.logErr pgKEY (2 * 2 ^ 24 + key * 2 ^ 10 + k.owner) (src.getD s.devId) (t % 2 ^ 15)
    if s.img.strict then { s3 with pie := s3.pie.count 0 1 0 } else s3
  else s.setKey key k2

/-- A change of VALUE of a keystone, with what it wakes. -/
def State.keySet (s : State) (key v : Nat) : State := (s.setKey key ((s.key key).change v)).keyWake key

/-- A keystone operation counted (R418). -/
def State.keyCount (s : State) : State := s.cnt64 pgKEY 0x60 1

/-- ARRIVE by a thread, a DMA completion or a SEND of device `src` (R409), with its KEY_ARRIVE record (R487). -/
def State.keyArrive (s : State) (key : Nat) (src : Option Nat) : State :=
  let s1 := (s.keyCount).keyArrival key src
  let k := s1.key key
  let k1 := k.change (k.value + 1)
  (s1.trc 4 (traceSource pgKEY) (some k.owner) (leBytes 2 key ++ leBytes 2 (src.getD s.devId) ++ leBytes 4 k1.value ++
    leBytes 2 k1.phase ++ [BitVec.ofNat 8 (b2n (k.dlEn && decide (k.deadline < s.spanTick)))])).keySet key (k.value + 1)

/-- An arrival of a SEND from device `src` under a context: refused where the keystone takes no remote arrivals or has
another owner, which is a context fault here (R412). -/
def State.keyRemote (s : State) (key ctx src : Nat) : State :=
  let k := s.key key
  if k.kind ≠ 0 ∧ k.remote = true ∧ k.owner = ctx then s.keyArrive key (some src)
  else
    ((((s.cnt pgKEY 0x6C 1).setInt pgKEY 0).setInt pgKEY 2).logErr pgKEY
      (2 * 2 ^ 28 + 1 * 2 ^ 24 + key * 2 ^ 10 + ctx) src (s.spanTick % 2 ^ 15)).raiseCtx ctx

end Sys2Proof.Machine
end

