-- ==== Sys2Proof/Machine/Amax.lean ====
section
/-! DEFINITION. Steps, the amax histories and their floors, the local skip vector and its cutoff (R307 to R313, R357,
R359). -/

namespace Sys2Proof.Machine

open Sys2Proof

/-- Whether m1 × 2^e1 > m2 × 2^e2, exactly (R102, R309). -/
def expGt (m1 : Nat) (e1 : Int) (m2 : Nat) (e2 : Int) : Bool :=
  if e2 ≤ e1 then decide (m2 < m1 * 2 ^ (e1 - e2).toNat) else decide (m2 * 2 ^ (e2 - e1).toNat < m1)

/-- Whether the pier that ends the current span is a step pier (R307). -/
def State.isStepSpan (s : State) : Bool :=
  match s.img.stepDesc with
  | some d => (s.sch.seq - 1) % s.img.spans.length == d
  | none => false

/-- The diameter of the partition (VDT_EXTENT; chapter 1). -/
def State.diameter (s : State) : Nat :=
  let x := s.reg pgVDT 0x4C
  fld x 0 7 / 2 + fld x 8 7 / 2 + fld x 16 7 / 2 + fld x 24 7 / 2

/-- NR and ROUND of the exchanges (R357). -/
def State.rounds (s : State) : Nat := s.diameter + 2
def State.roundTicks (s : State) : Nat := 32 * s.img.retain.roundSlots

/-- E, the last slot boundary at or before the raise deadline, and the cutoff C (R357). -/
def State.roundsEnd (s : State) : Nat := s.deadline / 32 * 32
def State.cutoff (s : State) : Nat := s.roundsEnd - s.rounds * s.roundTicks

/-- A bit of the local skip vector set; at or after the cutoff of its step it is a schedule fault and stays clear (R312,
R359). -/
def State.setSkip (s : State) (b : Nat) : State :=
  if s.isStepSpan && decide (s.cutoff ≤ s.tick) then
    (s.pieErr 3 6 0 s.devId).raiseSched
  else { s with train := { s.train with skip := setBit s.train.skip b } }

/-- A hand-off of a chain's maximum to a tensor's accumulator (R102, R309). -/
def State.amaxHand (s : State) (t m : Nat) (e : Int) : State :=
  match Store.find s.train.amax t with
  | none => s.cnt (pgUPD 0) 0x88 1
  | some a =>
    if expGt m e a.cur.1 a.cur.2 then
      { s with train := { s.train with amax := Store.insert s.train.amax t { a with cur := (m, e) } } }
    else s

/-- The skip bit of an ABSURD chain (R312). -/
def State.absurd (s : State) (t ctx : Nat) : State :=
  match Store.find s.train.amax t with
  | none => s.setSkip 0
  | some a => if a.skipAll then s.setSkip 0 else s.setSkip ctx

/-- The scale floor of a tensor; −128 without a record (R309). -/
def State.amaxFloor (s : State) (t : Nat) : Int :=
  match Store.find s.train.amax t with
  | none => -128
  | some a => a.floor

/-- The smallest k with ceil(m / 2^k) ≤ the format's MAX; `n` bounds the search (R310). -/
def fitShift (mx : Int) (m : Nat) : Nat → Int → Int
  | 0, k => k
  | n + 1, k =>
    let up : Int := if k ≤ 0 then (m : Int) * 2 ^ (-k).toNat else ceilShr (m : Int) k.toNat
    if up ≤ mx then k else fitShift mx m n (k + 1)

/-- The largest of a list of magnitudes and exponents; the earlier of equals (R310). -/
def largest (l : List (Nat × Int)) : Nat × Int :=
  l.foldl (fun a b => if expGt b.1 b.2 a.1 a.2 then b else a) (0, -256)

/-- `advance` of R310. -/
def Amax.advance (a : Amax) : Amax :=
  let hist := (a.cur :: a.hist).take 16
  let valid := if a.valid < 16 then a.valid + 1 else 16
  let p := largest (hist.take (if a.depth < valid then a.depth else valid))
  let f := (Fmt.ofCode a.fmt).getD .s8
  let floor : Int :=
    if p.1 = 0 then -128
    else clampI (-128) 127 (p.2 + fitShift f.max p.1 128 (-64) - (a.drop : Nat))
  { a with hist := hist, cur := (0, -256), valid := valid, floor := floor }

/-- Whether context `c` is skipped under an agreed vector (R313). -/
def skipped (v c : Nat) : Bool := bitAt v 0 || bitAt v c

/-- The amax histories at the seal of a step pier with the agreed vector (R310, R313). -/
def State.advanceAmax (s : State) (v : Nat) : State :=
  { s with train := { s.train with
    amax := Store.mapVals (fun _ a => if skipped v a.ctx then { a with cur := (0, -256) } else a.advance) s.train.amax } }

end Sys2Proof.Machine
end

