-- ==== Sys2Proof/Machine/Symbol.lean ====
section
/-! DEFINITION. The symbol code of HBM and Gallery lines (R286, R300): 64 data and 8 check symbols over GF(2^8), the decoder with a
correction radius, and what a decoded line differs by from the line that was stored. The code is linear, so all of this depends on
the wrong symbols of a line alone. -/

namespace Sys2Proof.Machine

open Sys2Proof

/-! The field: polynomial 0x11D. -/

/-- A field element times α. -/
def gfDouble (a : Nat) : Nat := if a < 128 then 2 * a else (2 * a) % 256 ^^^ 0x1D

/-- The product of two field elements. -/
def gfMul (a b : Nat) : Nat :=
  ((upTo 8).foldl (fun (p : Nat × Nat) i => (if bitAt b i then p.1 ^^^ p.2 else p.1, gfDouble p.2)) (0, a)).1

/-- A power of a field element. -/
def gfPow (a : Nat) : Nat → Nat
  | 0 => 1
  | n + 1 => gfMul a (gfPow a n)

/-- The inverse of a field element that is not 0. -/
def gfInv (a : Nat) : Nat := gfPow a 254

/-- The locator of symbol `i`: α^i (log 64). -/
def symLoc (i : Nat) : Nat := gfPow 2 i

/-- The sum of a list of field elements. -/
def gfSum (l : List Nat) : Nat := l.foldl (· ^^^ ·) 0

/-- A polynomial, lowest coefficient first, times (u + v x). -/
def gfStep (u v : Nat) (p : List Nat) : List Nat :=
  List.zipWith (· ^^^ ·) (p.map (gfMul u) ++ [0]) (0 :: p.map (gfMul v))

/-! Wrong symbols: position 0 to 71 to the bits that are wrong. -/

/-- The syndromes of a line, at the generator's roots α^0 to α^7. -/
def syndromes (e : Store Nat) : List Nat := (upTo 8).map (fun j => gfSum (e.map (fun p => gfMul p.2 (symLoc (p.1 * j)))))

/-- Every set of `k` positions below `n`. -/
def choose : Nat → Nat → List (List Nat)
  | 0, _ => [[]]
  | _ + 1, 0 => []
  | k + 1, n + 1 => (choose k n).map (· ++ [n]) ++ choose (k + 1) n

/-- Whether wrong symbols at some positions alone can give the syndromes: they obey the recurrence of the positions' locators. -/
def locatesAll (s : List Nat) (ps : List Nat) : Bool :=
  let poly := ps.foldl (fun p i => gfStep 1 (symLoc i) p) [1]
  (upTo (8 - ps.length)).all (fun j =>
    gfSum ((upTo (ps.length + 1)).map (fun i => gfMul (poly.getD i 0) (s.getD (j + ps.length - i) 0))) == 0)

/-- The bits that are wrong at position `i` of such a set. -/
def symValue (s : List Nat) (ps : List Nat) (i : Nat) : Nat :=
  let poly := (ps.filter (fun m => m != i)).foldl (fun p m => gfStep (symLoc m) 1 p) [1]
  let top := gfSum ((upTo ps.length).map (fun j => gfMul (poly.getD j 0) (s.getD j 0)))
  let bottom := gfSum ((upTo ps.length).map (fun j => gfMul (poly.getD j 0) (gfPow (symLoc i) j)))
  gfMul top (gfInv bottom)

/-- What the decoder takes for the wrong symbols of a line: those of the code word within its radius, if there is one. Wrong symbols no
more than the radius are found as they are, the code's distance being 9. -/
def rsDecode (radius : Nat) (e : Store Nat) : Option (Store Nat) :=
  if e.length ≤ radius then some e
  else
    let s := syndromes e
    ((upTo (radius + 1)).findSome? (fun k => (choose k 72).find? (locatesAll s))).map (fun ps => ps.map (fun i => (i, symValue s ps i)))

/-- Two sets of wrong symbols together. -/
def symXor (e f : Store Nat) : Store Nat := f.foldl (fun m p => Store.set 0 m p.1 (Store.get 0 m p.1 ^^^ p.2)) e

/-- What stays wrong in a line that the decoder gives out: nothing, but where it took another code word for the line's own. -/
def misread (radius : Nat) (e : Store Nat) : Store Nat :=
  match rsDecode radius e with
  | some f => symXor e f
  | none => []

/-- The bits of a line's 64 bytes that wrong symbols make wrong: lane `i` of beat `b` carries bit 64 b + i (R286; log 64). -/
def lineBits (e : Store Nat) : List Byte :=
  (upTo 64).map (fun k => BitVec.ofNat 8 ((upTo 8).foldr (fun t a =>
    b2n (bitAt (Store.get 0 e ((8 * k + t) % 64)) ((8 * k + t) / 64)) + 2 * a) 0))

end Sys2Proof.Machine
end

