-- ==== Sys2Proof/Machine/ArrayOps.lean ====
section
/-! DEFINITION. The matrix array (R63 to R88): fields and checks of its commands, blocks of core memory and their transit
checks, delivered columns, the column bottom, the accumulator file, and the writes that a guarded command holds back
until its binding resolves (R87, R131, R509). -/

namespace Sys2Proof.Machine

open Sys2Proof

/-! Fields of an array command block (R66). -/
def arrOp (w : Nat) : Nat := fld w 0 4
def arrBuf (w : Nat) : Nat := fld w 4 1
def arrFmtX (w : Nat) : Nat := fld w 5 2
def arrFmtW (w : Nat) : Nat := fld w 7 2
def arrTrans (w : Nat) : Nat := fld w 9 2
def arrMode (w : Nat) : Nat := fld w 11 2
def arrBank (w : Nat) : Nat := fld w 13 2
def arrSlot (w : Nat) : Nat := fld w 16 8
def arrN (w : Nat) : Nat := fld w 24 9
def arrSrc (w : Nat) : Nat := fld w 64 23
def arrStride (w : Nat) : Nat := fld w 96 16

/-- The formats of FMT_X and FMT_W (R66). -/
def arrFmt : Nat → Fmt
  | 0 => .s4
  | 1 => .s8
  | 2 => .s16
  | _ => .s32

/-- Digits of 8 bits per element (R70). -/
def arrDigits : Fmt → Nat
  | .s16 => 2
  | .s32 => 4
  | _ => 1

/-- The combine width w of a pair, in either order; none where the array does not accept it (R70). -/
def pairWidth : Fmt → Fmt → Option Nat
  | .s4, .s4 => some 31
  | .s8, .s8 => some 31
  | .s8, .s16 => some 31
  | .s16, .s8 => some 31
  | .s16, .s16 => some 37
  | .s8, .s32 => some 45
  | .s32, .s8 => some 45
  | .s16, .s32 => some 48
  | .s32, .s16 => some 48
  | .s32, .s32 => some 48
  | _, _ => none

/-- The passes of a pair as digit pairs, in ascending i + j and then ascending i (R71). -/
def arrPasses (dx dw : Nat) : List (Nat × Nat) :=
  (upTo (dx + dw - 1)).flatMap (fun t =>
    ((upTo dx).filter (fun i => decide (i ≤ t) && decide (t - i < dw))).map (fun i => (i, t - i)))

/-- Blocks per column (R66). -/
def colBlocks (f : Fmt) : Nat := if f = .s4 then 4 else 2

/-- Bytes of a block with its sidecar in core memory (R163). -/
def Fmt.coreBytes (f : Fmt) : Nat := f.bytes + 8

/-- Bits of a command that its OP uses (R66). -/
def arrUsed (op : Nat) : List (Nat × Nat) :=
  match op with
  | 1 => [(0, 4), (4, 1), (5, 2), (9, 2), (64, 23), (96, 16)]
  | 2 => [(0, 4), (4, 1), (5, 2), (7, 2), (9, 2), (11, 2), (13, 2), (16, 8), (24, 9), (64, 23), (96, 16)]
  | _ => [(0, 4), (13, 2)]

/-- A word with the bits of the listed fields set to 0. -/
def clearFields (w : Nat) (fs : List (Nat × Nat)) : Nat := fs.foldl (fun a f => setFld a f.1 f.2 0) w

/-- The weight format as the pair sees it: WIDEN delivers S16 (R79), and the pair runs as FMT_X × S16 whatever FMT_X is (DESIGN CHOICE,
log 57). -/
def arrFmtWEff (w : Nat) : Fmt := if arrTrans w = 2 then .s16 else arrFmt (arrFmtW w)

/-- The checks of R69 that a command's own fields decide: the cause, or none. Of several that fail, the first in the order below
is the one reported: the spec gives no order (DESIGN CHOICE, log 57). -/
def arrFieldCheck (w : Nat) : Option Nat :=
  let op := arrOp w
  let fx := arrFmt (arrFmtX w)
  if op = 0 ∨ 4 < op ∨ arrTrans w = 3 ∨ (op = 2 ∧ arrMode w = 3) then some 6
  else if clearFields w (arrUsed op) ≠ 0 then some 6
  else if 3 ≤ op then none
  else if op = 2 ∧ pairWidth fx (arrFmt (arrFmtW w)) = none then some 6
  else if op = 2 ∧ (arrN w = 0 ∨ 256 < arrN w ∨ (fx = .s4 ∧ 128 < arrN w)) then some 6
  else if arrBuf w = 1 ∧ fx = .s32 then some 0xB
  else if arrTrans w = 2 ∧ (if op = 2 then arrFmt (arrFmtW w) else fx) ≠ .s8 then some 0xB
  else if op = 2 ∧ 256 < arrSlot w + arrN w then some 8
  else if arrSrc w % 8 ≠ 0 ∨ arrStride w % 8 ≠ 0 then some 7
  else none

/-- The format of the blocks a LOAD or STREAM reads. -/
def arrSrcFmt (w : Nat) : Fmt := if arrOp w = 1 then arrFmt (arrFmtX w) else arrFmt (arrFmtW w)

/-- Columns a LOAD or STREAM takes. -/
def arrCols (w : Nat) : Nat := if arrOp w = 1 then 128 else arrN w

/-- Rows of a source under TRANSPOSE: one for each element of a delivered column (R78; log 17). -/
def transRows (f : Fmt) : Nat := if f = .s4 then 256 else 128

/-- Bytes between chunks of 128 columns under TRANSPOSE: 128 × the element size (R78). -/
def transChunk (f : Fmt) : Nat := 128 * f.bits / 8

/-- One past the last byte a LOAD or STREAM reads (R66, R78). -/
def arrEnd (w : Nat) : Nat :=
  let f := arrSrcFmt w
  if arrTrans w = 0 then arrSrc w + (arrCols w - 1) * arrStride w + colBlocks f * f.coreBytes
  else
    let n := arrCols w
    let c := (n - 1) / 128
    arrSrc w + (transRows f - 1) * arrStride w + c * transChunk f + ceilDiv (n - 128 * c) 64 * f.coreBytes

/-- A buffer's tile. -/
def ArrayState.buf (a : ArrayState) (b : Nat) : Option Tile := if b = 0 then a.buf0 else a.buf1

/-- The array commands that are queued as a LOAD of buffer `b` or run as one, issued before `n` (R67). An S32 command
names both buffers. A LOAD stopped while its binding is PENDING holds back no later STREAM: until the binding resolves the
buffer keeps what it held (R84, R509; DESIGN CHOICE, log 57). -/
def ArrayState.loadAhead (a : ArrayState) (b n : Nat) (both : Bool) : Bool :=
  let hit := fun (q : ArrCmd) =>
    arrOp q.word == 1 && decide (q.serial < n) &&
      (both || arrBuf q.word == b || arrFmt (arrFmtX q.word) == .s32)
  a.loadQ.any hit || a.runs.any (fun r => hit r.cmd && !r.stopped)

/-- The check of a STREAM's buffer: cause 0x9 (R69). With a LOAD of the buffer still ahead of it (`queued`) the check is
left to the STREAM's start, whatever the buffer holds now (DEDUCED, log 18). -/
def ArrayState.tileCheck (a : ArrayState) (w : Nat) (queued : Bool) : Option Nat :=
  if queued then none
  else match a.buf (arrBuf w) with
  | some t => if t.fmt = arrFmt (arrFmtX w) then none else some 9
  | none => some 9

/-- The check of a command at the head of its queue (R69). -/
def State.arrHeadCause (s : State) (c : Nat) (q : ArrCmd) : Option Nat :=
  match arrFieldCheck q.word with
  | some e => some e
  | none =>
    if arrOp q.word = 1 ∨ arrOp q.word = 2 then
      if s.carve < arrEnd q.word then some 7
      else if arrOp q.word = 2 then
        let a := (s.core c).arr
        a.tileCheck q.word (a.loadAhead (arrBuf q.word) q.serial (arrFmt (arrFmtX q.word) == .s32))
      else none
    else none

/-- The bit of INT_STAT of an MXA fault (R89). -/
def mxaBit (cls : FClass) (cause : Nat) : Nat :=
  match cls with
  | .sched => 4
  | .ctx => 3
  | .hw => if cause = 1 then 0 else if cause = 2 then 1 else 2

/-- A fault of the array: the MXA log, the core's fault queue and the class's effect (R84, R89, R137). `pos` holds PASS
to COLUMN of ERR_LOG0. -/
def State.arrFault (s : State) (c : Nat) (q : ArrCmd) (cls : FClass) (cause pos wcol : Nat) : State :=
  ((s.logErr (pgMXA c) (cls.code * 2 ^ 28 + cause * 2 ^ 24 + pos) (q.iss.thread * 2 ^ 28 + q.iss.addr % 2 ^ 23)
    wcol).setInt (pgMXA c) (mxaBit cls cause)).coreFault c cls 1 cause q.iss.thread q.iss.ctx q.iss.gen q.iss.pc q.iss.addr

/-- CMD_START or CMD_DONE of an array command (R487). -/
def State.trcArr (s : State) (ty c : Nat) (q : ArrCmd) (squashed : Bool) : State :=
  s.trcCmd ty c 1 q.iss.thread q.iss.ctx q.iss.gen q.iss.addr squashed

/-- A schedule fault of a command: its record names the buffer the command uses (R69, R89). -/
def State.arrSched (s : State) (c : Nat) (q : ArrCmd) (cause : Nat) : State := s.arrFault c q .sched cause (arrBuf q.word * 2 ^ 16) 0

/-- The head of the load queue checked as it reaches the head (R69). -/
def State.checkLoadHead (s : State) (c : Nat) : State :=
  let k := s.core c
  match k.arr.loadQ with
  | [] => s
  | q :: _ =>
    if k.arr.loadStall then s
    else match s.arrHeadCause c q with
      | none => s
      | some e => (s.setCore c { k with arr := { k.arr with loadStall := true } }).arrSched c q e

/-- The head of the stream queue checked as it reaches the head (R69). -/
def State.checkStreamHead (s : State) (c : Nat) : State :=
  let k := s.core c
  match k.arr.streamQ with
  | [] => s
  | q :: _ =>
    if k.arr.streamStall then s
    else match s.arrHeadCause c q with
      | none => s
      | some e => (s.setCore c { k with arr := { k.arr with streamStall := true } }).arrSched c q e

/-- Depths of the array's queues (R67). -/
def loadDepth : Nat := 2
def streamDepth : Nat := 4

/-- Whether the queue that an OP enters is full: LOAD the load queue, every other OP the stream queue (R67; log 16). -/
def ArrayState.full (a : ArrayState) (w : Nat) : Bool :=
  if arrOp w = 1 then decide (loadDepth ≤ a.loadQ.length) else decide (streamDepth ≤ a.streamQ.length)

/-- Whether the queue that command block `w` would enter is stalled (R69, R136). -/
def ArrayState.stalls (a : ArrayState) (w : Nat) : Bool := if arrOp w = 1 then a.loadStall else a.streamStall

/-- An array command put into its queue, and checked where it stands at the head (R67, R69). -/
def State.pushArray (s : State) (c : Nat) (w : Nat) (iss : Issue) : State :=
  let k := s.core c
  let q : ArrCmd := ⟨w, iss, k.arr.issued, k.chains⟩
  let a := { k.arr with issued := k.arr.issued + 1 }
  if arrOp w = 1 then
    let s1 := s.setCore c { k with arr := { a with loadQ := a.loadQ ++ [q] } }
    if a.loadQ.isEmpty then s1.checkLoadHead c else s1
  else
    let s1 := s.setCore c { k with arr := { a with streamQ := a.streamQ ++ [q] } }
    if a.streamQ.isEmpty then s1.checkStreamHead c else s1

/-! Blocks of core memory (R163) and columns. -/

/-- A block as read: elements, exponent, and what its checks find: 0, or the cause of R89 (R83). -/
structure RdBlock where
  m : List Int
  e : Int
  bad : Nat
  deriving DecidableEq, Repr

/-- The checks of R83 in order on a block's data and sidecar bytes: 0x3, 0x4, 0x5, or 0. -/
def coreBlockCheck (f : Fmt) (data side : List Byte) : Nat :=
  let sc := Sidecar.ofBytes side
  if crc32c (data ++ side.take 4 ++ leBytes 8 0) ≠ sc.crc then 3
  else if 8 ≤ sc.fmt then 4
  else if sc.fmt ≠ f.code then 5
  else 0

/-- A block of core memory. -/
def State.coreBlock (s : State) (c : Nat) (f : Fmt) (a : Nat) : RdBlock :=
  let data := s.cmBytes c a f.bytes
  let side := s.cmBytes c (a + f.bytes) 8
  ⟨unpackBlock f data, (Sidecar.ofBytes side).exp, coreBlockCheck f data side⟩

/-- A run of `n` blocks from `a` on. -/
def State.coreRun (s : State) (c : Nat) (f : Fmt) (a n : Nat) : List RdBlock :=
  (upTo n).map (fun i => s.coreBlock c f (a + i * f.coreBytes))

/-- A column as the array takes it, with its blocks' failures: (segment, cause). -/
structure RdCol where
  m : List Int
  exps : List Int
  bad : List (Nat × Nat)
  deriving DecidableEq, Repr

/-- Column `i` read without TRANSPOSE (R66). -/
def State.plainCol (s : State) (c w i : Nat) : RdCol :=
  let f := arrSrcFmt w
  let bs := s.coreRun c f (arrSrc w + i * arrStride w) (colBlocks f)
  ⟨bs.flatMap (·.m), bs.map (·.e),
   ((upTo bs.length).filterMap (fun j => match bs[j]? with
      | some b => if b.bad = 0 then none else some (if f = .s4 then j else 2 * j, b.bad)
      | none => none))⟩

/-- The block of source row `k` that holds element `i` of the row (R78). -/
def State.transBlock (s : State) (c w k i : Nat) : RdBlock :=
  let f := arrSrcFmt w
  s.coreBlock c f (arrSrc w + k * arrStride w + i / 128 * transChunk f + i % 128 / 64 * f.coreBytes)

/-- Greatest and least of a non-empty list. -/
def maxI (l : List Int) : Int := l.foldl (fun a b => if a < b then b else a) (l.headD 0)
def minI (l : List Int) : Int := l.foldl (fun a b => if b < a then b else a) (l.headD 0)

/-- One delivered 64-element segment: its elements at one exponent under ROUND or WIDEN (R79). -/
def deliver (widen : Bool) (ms es : List Int) : List Int × Int :=
  let e := if widen then (let a := maxI es - 8; let b := minI es; if a < b then b else a) else maxI es
  (List.zipWith (fun m x => roundShift none m (e - x)) ms es, e)

/-- Column `i` delivered under TRANSPOSE: element k is element `i` of source row k (R78, R79). The checks of its blocks are those
of the chunk. -/
def State.transCol (s : State) (c w i : Nat) : RdCol :=
  let f := arrSrcFmt w
  let rows := (upTo (transRows f)).map (fun k => s.transBlock c w k i)
  let segs := (upTo (transRows f / 64)).map (fun q =>
    let bs := (rows.drop (64 * q)).take 64
    deliver (arrTrans w == 2) (bs.map (fun b => b.m.getD (i % 64) 0)) (bs.map (·.e)))
  ⟨segs.flatMap (·.1), segs.map (·.2), []⟩

/-- Column `i` of a LOAD or STREAM. -/
def State.arrCol (s : State) (c w i : Nat) : RdCol :=
  if arrTrans w = 0 then s.plainCol c w i else s.transCol c w i

/-! The column bottom (R71, R73, R74). -/

/-- Digit `i` of `n` of an element: the top digit is signed, the others are not (R70). -/
def arrDigit (n i : Nat) (v : Int) : Int :=
  if i + 1 = n then v / ((2 ^ (8 * i) : Nat) : Int) else v / ((2 ^ (8 * i) : Nat) : Int) % 256

/-- The residues mod 31 of an element's digits (R82). -/
def digitResidues (n : Nat) (v : Int) : List Nat := (upTo n).map (fun i => (arrDigit n i v % 31).toNat)

/-- The tile a LOAD forms of its columns, each digit's residue stored beside its cell (R63, R82). -/
def tileOf (f : Fmt) (cols : List RdCol) : Tile :=
  ⟨f, cols.map (·.m), cols.map (·.exps), cols.map (fun c => c.m.map (digitResidues (arrDigits f)))⟩

/-- Sum of products of two lists. -/
def dot (xs ws : List Int) : Int := (List.zipWith (· * ·) xs ws).foldl (· + ·) 0

/-- The passes' sum of one segment, saturating pass by pass; with whether it clamped (R73). -/
def segSum (dx dw : Nat) (xs ws : List Int) : Int × Bool :=
  (arrPasses dx dw).foldl (fun a p =>
    let v := a.1 + dot (xs.map (arrDigit dx p.1)) (ws.map (arrDigit dw p.2)) * ((2 ^ (8 * (p.1 + p.2)) : Nat) : Int)
    (sat48 v, a.2 || decide (sat48 v ≠ v))) (0, false)

/-- col and e_col of one array column, with whether any step clamped (R73). -/
def columnBottom (fx fw : Fmt) (x xe w we : List Int) : AccEntry :=
  let n := x.length / 4
  let seg := fun q => segSum (arrDigits fx) (arrDigits fw) ((x.drop (n * q)).take n) ((w.drop (n * q)).take n)
  let e := fun q => xe.getD q 0 + we.getD q 0
  let p0 := seg 0
  let p1 := seg 1
  let p2 := seg 2
  let p3 := seg 3
  let cl := p0.2 || p1.2 || p2.2 || p3.2
  if fx = .s4 then
    let a := alignAdd none p0.1 (e 0) 31 p1.1 (e 1) 31
    let b := alignAdd none p2.1 (e 2) 31 p3.1 (e 3) 31
    let r := alignAdd none a.1 a.2.1 48 b.1 b.2.1 48
    ⟨r.1, r.2.1, cl || a.2.2 || b.2.2 || r.2.2⟩
  else
    let wd := (pairWidth fx fw).getD 48
    let lo := p0.1 + p1.1
    let hi := p2.1 + p3.1
    let r := alignAdd none (sat48 lo) (e 0) wd (sat48 hi) (e 1) wd
    ⟨r.1, r.2.1, cl || decide (sat48 lo ≠ lo) || decide (sat48 hi ≠ hi) || r.2.2⟩

/-- Whether the residue chain of pass (i, j) over one segment agrees with the segment's sum (R82): `res` are the residues
stored with the stationary digits, and the feeder's are those of the weight digits. -/
def residueAgrees (dx dw : Nat) (p : Nat × Nat) (xs : List Int) (res : List (List Nat)) (ws : List Int) : Bool :=
  let chain := (List.zipWith (fun (r : List Nat) w => r.getD p.1 0 * (arrDigit dw p.2 w % 31).toNat) res ws).foldl (· + ·) 0
  chain % 31 == (dot (xs.map (arrDigit dx p.1)) (ws.map (arrDigit dw p.2)) % 31).toNat

/-- The (array column, segment, pass number) at which weight column `col` meets a residue that disagrees (R82). -/
def residueFaults (tile : Tile) (fw : Fmt) (col : RdCol) : List (Nat × Nat × Nat) :=
  let dx := arrDigits tile.fmt
  let dw := arrDigits fw
  let ps := arrPasses dx dw
  let n := col.m.length / 4
  (upTo 128).flatMap (fun m => (upTo 4).flatMap (fun q =>
    let part := fun (l : List Int) => (l.drop (n * q)).take n
    (upTo ps.length).filterMap (fun k =>
      if residueAgrees dx dw (ps.getD k (0, 0)) (part (tile.cols.getD m [])) (((tile.res.getD m []).drop (n * q)).take n) (part col.m)
      then none else some (m, q, k))))

/-- An accumulator entry after a write by MODE (R74); 3 is a write of Flowstone, which replaces the entry (R101). -/
def accCombine (mode : Nat) (old col : AccEntry) : AccEntry :=
  if mode = 0 ∨ 3 ≤ mode then col
  else
    let v := if mode = 2 then -col.v else col.v
    let r := alignAdd none old.v old.e 48 (sat48 v) col.e 48
    ⟨r.1, r.2.1, old.sat || col.sat || decide (sat48 v ≠ v) || r.2.2⟩

/-- Whether a write by MODE clamps, and so sets SAT (R74, R91). -/
def accClamps (mode : Nat) (old col : AccEntry) : Bool :=
  (accCombine mode { old with sat := false } col).sat

/-- Index of entry (row, slot) of a bank. -/
def accIdx (bank row slot : Nat) : Nat := bank * 32768 + row * 256 + slot

/-! Writes held back (R131). -/

/-- A tile put into its buffer: an S32 tile fills both, and a narrower one ends an S32 tile (R63). -/
def ArrayState.putTile (a : ArrayState) (b : Nat) (t : Option Tile) : ArrayState :=
  let ends : Bool := match a.buf0 with
    | some o => o.fmt == .s32
    | none => false
  let a1 := if ends then { a with buf0 := none, buf1 := none } else a
  match t with
  | some u => if u.fmt = .s32 then { a1 with buf0 := t, buf1 := none }
    else if b = 0 then { a1 with buf0 := t } else { a1 with buf1 := t }
  | none => if b = 0 then { a1 with buf0 := none } else { a1 with buf1 := none }

/-- An S32 tile ended by the start of a narrower LOAD (R63). -/
def ArrayState.endS32 (a : ArrayState) : ArrayState :=
  match a.buf0 with
  | some o => if o.fmt = .s32 then { a with buf0 := none } else a
  | none => a

/-- Ownership of a bank (R68). -/
def ArrayState.owns (a : ArrayState) (bank : Nat) : Bool := bitAt a.own bank

/-- A write performed. -/
def State.applyWr (s : State) (c : Nat) (w : Wr) : State :=
  match w with
  | .mem a bs => s.cmPut c a bs
  | .acc i mode e =>
    let k := s.core c
    let old := Store.get {} k.arr.acc i
    let s1 := s.setCore c { k with arr := { k.arr with acc := Store.set {} k.arr.acc i (accCombine mode old e)
                                                       accEcc := Store.erase k.arr.accEcc i } }
    if mode < 3 && accClamps mode old e then s1.cnt (pgMXA c) 0x64 1 else s1
  | .vreg r v => s.modCore c (fun k => { k with fls := { k.fls with
      v := Store.set {} k.fls.v r v, vEcc := Store.clearRange k.fls.vEcc (r * 64) 64 } })
  | .tile b t => s.modCore c (fun k => { k with arr := k.arr.putTile b t })
  | .table n t => s.modCore c (fun k => { k with fls := { k.fls with
      tables := Store.insert k.fls.tables n t, tabPar := k.fls.tabPar.filter (fun p => p / 256 != n) } })
  | .own b up => s.modCore c (fun k =>
      { k with arr := { k.arr with own := if up then setBit k.arr.own b else clrBit k.arr.own b } })

/-- Writes performed in order. -/
def State.applyWrs (s : State) (c : Nat) (ws : List Wr) : State := ws.foldl (fun a w => a.applyWr c w) s

/-- An error the array meets (R82 to R84, R89): its core cycle from the command's start, which orders errors, its place, and its
cause; or a word of core memory that cannot be corrected, by its address (R161). Cause 0x5 is of class context and every other one
hardware. -/
structure ArrErr where
  time : Nat
  col : Nat
  seg : Nat
  operand : Nat
  pass : Nat
  wcol : Nat
  cause : Nat
  word : Option Nat := none
  deriving DecidableEq, Repr

/-- Whether an error is recorded before another: the earlier one, and of one core cycle the one with the lowest array column, then
the lowest segment, then the stationary operand before the weight (R84); words of core memory come last (R137). -/
def ArrErr.before (a b : ArrErr) : Bool :=
  let key := fun (e : ArrErr) => (((e.time * 2 + b2n e.word.isSome) * 128 + e.col % 128) * 4 + e.seg) * 2 + e.operand
  decide (key a < key b)

/-- An error put in its place among others. -/
def errInsert (e : ArrErr) : List ArrErr → List ArrErr
  | [] => [e]
  | x :: l => if e.before x then e :: x :: l else x :: errInsert e l

/-- Position fields of MXA ERR_LOG0: PASS, SEGMENT, OPERAND, BUF, COLUMN (R89). -/
def ArrErr.pos (e : ArrErr) (w : Nat) : Nat :=
  e.pass * 2 ^ 20 + e.seg * 2 ^ 18 + e.operand * 2 ^ 17 + arrBuf w * 2 ^ 16 + e.col % 256 * 2 ^ 8

/-- Errors raised in the order in which they are recorded; residue and duplicate mismatches are counted too (R82, R84, R91). -/
def State.raiseArrErrs (s : State) (c : Nat) (q : ArrCmd) (es : List ArrErr) : State :=
  (es.foldl (fun l e => errInsert e l) []).foldl (fun a e =>
    match e.word with
    | some b => a.cmFault c q.iss.reader b
    | none =>
      let a1 := if e.cause = 1 then a.cnt (pgMXA c) 0x68 1 else if e.cause = 2 then a.cnt (pgMXA c) 0x6C 1 else a
      a1.arrFault c q (if e.cause = 5 then .ctx else .hw) e.cause (e.pos q.word) e.wcol) s

/-- What the reads of accumulator entries by a STREAM of `per` passes a column find under ACCUMULATE and SUBTRACT: a single wrong bit
is corrected and counted, and an entry with more is a hardware fault with cause 0xC that names the STREAM, the array column and the
weight column (R93). An entry is read in the core cycle of its write (R65). -/
def State.accErrs (s : State) (c : Nat) (q : ArrCmd) (per : Nat) (ws : List Wr) : State × List ArrErr :=
  ws.foldl (fun p w => match w with
    | .acc i mode _ =>
      if mode = 1 ∨ mode = 2 then
        match Store.find (s.core c).arr.accEcc i with
        | none => p
        | some n =>
          let m := i % 32768 / 256
          let col := i % 256 - arrSlot q.word
          if n = 1 then (p.1.cnt (pgFLS c) 0x68 1, p.2)
          else (p.1, p.2 ++ [{ time := col * per + per + 135 + m, col := m, seg := 0, operand := 0, pass := 0, wcol := col, cause := 0xC }])
      else p
    | _ => p) (s, [])

/-- The entries that a running command's held writes combine with are read, unless they have been or the bank is not the array's
(R68, R93). -/
def State.accReads (s : State) (c : Nat) (r : ArrRun) : State :=
  if r.read || !bitAt (s.core c).arr.own (arrBank r.cmd.word) then s
  else
    let p := s.accErrs c r.cmd r.per r.held
    p.1.raiseArrErrs c r.cmd p.2

/-- Whether a running array command's writes may be made now: its binding is TRUE, and a STREAM's bank is the array's
(R80, R131). -/
def ArrayState.mayWrite (a : ArrayState) (r : ArrRun) : Bool :=
  decide (r.cmd.iss.bind = .resolved true) && (arrOp r.cmd.word != 2 || a.owns (arrBank r.cmd.word))

/-- What LOADs do to the buffers as they start or are stopped, made as soon as their bindings are TRUE (R63, R84). -/
def State.flushLoads (s : State) (c : Nat) : State :=
  let k := s.core c
  let go := fun (r : ArrRun) => arrOp r.cmd.word == 1 && decide (r.cmd.iss.bind = .resolved true)
  let s1 := s.setCore c { k with arr := { k.arr with runs := k.arr.runs.map (fun r => if go r then { r with held := [] } else r) } }
  s1.applyWrs c ((k.arr.runs.filter go).flatMap (·.held))

/-- Whether a running command is a STREAM with writes to make. -/
def ArrRun.writes (r : ArrRun) : Bool := arrOp r.cmd.word == 2 && !r.held.isEmpty

/-- Held writes of the running STREAMs made in order, up to the first whose writes must still wait; `n` bounds the commands. -/
def State.flushArr : Nat → State → Nat → State
  | 0, s, _ => s
  | n + 1, s, c =>
    let k := s.core c
    match firstIdx ArrRun.writes k.arr.runs 0 with
    | none => s.setCore c { k with arr := { k.arr with frozen := false } }
    | some i =>
      match k.arr.runs[i]? with
      | none => s
      | some r =>
        if k.arr.mayWrite r then
          let s1 := s.setCore c { k with arr := { k.arr with runs := modAt (fun q => { q with held := [] }) k.arr.runs i } }
          State.flushArr n ((s1.accReads c r).applyWrs c r.held) c
        else s

/-- Core cycles for which runs feed weight columns (R71). -/
def feedCycles (l : List ArrRun) : Nat := l.foldl (fun n r => n + r.cols * r.per) 0

/-- Whether the array is frozen: a write falls due for a bank it does not own (R80). It falls due at the STREAM's write point, or at
the latest once what has been fed since its start takes as long. For a STREAM whose writes are withheld none falls due (DESIGN
CHOICE, log 57). -/
def ArrayState.waitsBank (a : ArrayState) : Bool :=
  (upTo a.runs.length).any (fun i => match a.runs[i]? with
    | some r => r.writes && decide (r.cmd.iss.bind = .resolved true) && !a.owns (arrBank r.cmd.word) &&
        (r.pastWrite || decide (r.due ≤ feedCycles (a.runs.drop i)))
    | none => false)

/-- Held writes made as far as they may be, stopped commands with nothing left to write removed, and the freeze brought
up to date. -/
def State.settleArr (s : State) (c : Nat) : State :=
  ((s.flushLoads c).flushArr ((s.core c).arr.runs.length + 1) c).modCore c (fun k =>
    { k with arr := { k.arr with
      runs := k.arr.runs.filter (fun r => !(r.stopped && r.held.isEmpty && r.fault == none))
      frozen := k.arr.waitsBank } })

end Sys2Proof.Machine
end

