-- ==== Sys2Proof/Machine/Stages.lean ====
section
/-! DEFINITION. The stage functions of a Flowstone chain (R96 to R100, R102), lookup tables (R99), and the wide block
arithmetic that the update unit shares (R318). -/

namespace Sys2Proof.Machine

open Sys2Proof

/-- A block inside a chain: wide values, P and RNG per lane. -/
structure FBlk where
  w : Wide
  /-- The width that R52 counts the block with: its format's where it has just been read from core memory, 48 otherwise (R96). -/
  width : Nat := 48
  p : List Bool := List.replicate 64 false
  rng : List Bool := List.replicate 64 false
  deriving DecidableEq, Repr

/-- Lane-wise OR. -/
def orLanes (a b : List Bool) : List Bool := List.zipWith (· || ·) a b

/-- Lanes that a clamp changed. -/
def clampLanes (vs : List Int) : List Bool := vs.map (fun v => decide (sat48 v ≠ v))

/-- Exact lane values at an exponent that may leave s16, brought into range: at the top the lanes are clamped, at the
bottom they are rounded under RNE (R97). -/
def Wide.fit (vs : List Int) (e : Int) (sat : List Bool) : Wide :=
  if 32767 < e then
    let ws := vs.map (fun v => v * ((2 ^ (e - 32767).toNat : Nat) : Int))
    ⟨ws.map sat48, 32767, orLanes sat (clampLanes ws)⟩
  else if e < -32768 then ⟨vs.map (fun v => roundShift none v (-32768 - e)), -32768, sat⟩
  else ⟨vs, e, sat⟩

/-- Clamped lanes: their values and SAT flags ORed into `sat`. -/
def Wide.clamped (vs : List Int) (e : Int) (sat : List Bool) : Wide :=
  Wide.fit (vs.map sat48) e (orLanes sat (clampLanes vs))

/-- Two operands at the common exponent of R52, lane by lane, with that exponent. -/
def alignLanes (x : List Int) (ex : Int) (wx : Nat) (y : List Int) (ey : Int) (wy : Nat) :
    List Int × List Int × Int :=
  let up : Bool := decide (ex < ey)
  let g : Int := (alignGuard (if up then wy else wx) : Nat)
  let hi := if up then ey else ex
  let lo := if up then ex else ey
  let ez := if lo < hi - g then hi - g else lo
  let bring := fun (v e : Int) => roundShift none v (ez - e)
  (x.map (fun v => bring v ex), y.map (fun v => bring v ey), ez)

/-- Sum of adjacent pairs, each saturating; with whether any clamped (R98). -/
def addPairs : List Int → List Int × Bool
  | a :: b :: rest =>
    let r := addPairs rest
    (sat48 (a + b) :: r.1, decide (sat48 (a + b) ≠ a + b) || r.2)
  | [a] => ([a], false)
  | [] => ([], false)

/-- The fixed tree of REDSUM: `n` levels (R98). -/
def sumTree : Nat → List Int → Int × Bool
  | 0, l => (l.headD 0, false)
  | n + 1, l =>
    let r := addPairs l
    let q := sumTree n r.1
    (q.1, r.2 || q.2)

/-- Parsing of a table image (R99). -/
def Table.ofBytes (bs : List Byte) : Table :=
  let w := fun o => sext 32 (leNat ((bs.drop o).take 4))
  { xBase := w 0, segExp := sext 16 (leNat ((bs.drop 4).take 2)), yExp := sext 16 (leNat ((bs.drop 6).take 2))
    y := (upTo 256).map (fun i => w (16 + 8 * i)), dy := (upTo 256).map (fun i => w (20 + 8 * i)) }

/-- Whether a table image's CRC is right (R99). -/
def tableCrcOk (bs : List Byte) : Bool :=
  crc32c (bs.take 12 ++ (bs.drop 16).take 2048) == leNat ((bs.drop 12).take 4)

/-- lut of R100 on one lane: value and RNG. -/
def lutLane (t : Table) (a ea : Int) : Int × Bool :=
  let d := ea - (t.segExp - 8)
  let x := if 0 ≤ d then a * ((2 ^ d.toNat : Nat) : Int) else floorShr a (-d).toNat
  let p := x - t.xBase
  let at' := fun (i : Nat) (f : Int) => t.y.getD i 0 * 256 + t.dy.getD i 0 * f
  if p < 0 then (at' 0 0, true)
  else if 65536 ≤ p then (at' 255 256, true)
  else (at' (p / 256).toNat (p % 256), false)

/-- The smallest shift at which no lane's floor or ceiling leaves S48 (R97, R48). -/
def mulShift (vs : List Int) : Nat := autoShift .s48 vs 64 0

/-- MUL of two wide blocks; `gen` gives the generator words under SR (R97). Where the exponent falls below −32,768 the product rounded
by k under the stage's RND is rounded again under RNE (DESIGN CHOICE, log 58). -/
def wideMul (a b : Wide) (gen : Option (Nat → Nat)) : Wide :=
  let vs := List.zipWith (· * ·) a.v b.v
  let k := mulShift vs
  let rs := (upTo 64).map (fun j => roundShift (gen.map (fun g => g j)) (vs.getD j 0) (k : Nat))
  Wide.fit rs (a.e + b.e + (k : Nat)) (orLanes a.sat b.sat)

/-- ADD of two wide blocks with their widths (R52, R97). -/
def wideAdd (a : Wide) (wa : Nat) (b : Wide) (wb : Nat) : Wide :=
  let r := alignLanes a.v a.e wa b.v b.e wb
  Wide.clamped (List.zipWith (· + ·) r.1 r.2.1) r.2.2 (orLanes a.sat b.sat)

/-- Negation of every lane; MIN clamps to MAX (R58). -/
def wideNeg (a : Wide) : Wide := Wide.clamped (a.v.map (fun v => -v)) a.e a.sat

/-- Absolute value of every lane; MIN clamps to MAX (R58). -/
def wideAbs (a : Wide) : Wide := Wide.clamped (a.v.map (fun v => if v < 0 then -v else v)) a.e a.sat

/-- SUB: an add of the negated operand, whose clamp counts (R97). -/
def wideSub (a : Wide) (wa : Nat) (b : Wide) (wb : Nat) : Wide := wideAdd a wa (wideNeg b) wb

/-- SHL by `n`: exact, clamped to S48 (R58). -/
def wideShl (a : Wide) (n : Nat) : Wide :=
  Wide.clamped (a.v.map (fun v => if v = 0 then 0 else v * ((2 ^ (if n < 64 then n else 64) : Nat) : Int))) a.e a.sat

/-- SHR by `n` under a rounding (R51). -/
def wideShr (a : Wide) (n : Nat) (gen : Option (Nat → Nat)) : Wide :=
  { a with v := (upTo 64).map (fun j => roundShift (gen.map (fun g => g j)) (a.v.getD j 0) (n : Nat)) }

/-- A choice between aligned lanes (MIN, MAX, SEL). -/
def widePick (a : Wide) (wa : Nat) (b : Wide) (wb : Nat) (pick : Nat → Int → Int → Int) : Wide :=
  let r := alignLanes a.v a.e wa b.v b.e wb
  Wide.clamped ((upTo 64).map (fun j => pick j (r.1.getD j 0) (r.2.1.getD j 0))) r.2.2 (orLanes a.sat b.sat)

/-- Whether a × 2^ea > b × 2^eb, exactly. -/
def intExpGt (a ea b eb : Int) : Bool :=
  if eb ≤ ea then decide (b < a * ((2 ^ (ea - eb).toNat : Nat) : Int))
  else decide (b * ((2 ^ (eb - ea).toNat : Nat) : Int) < a)

/-- CMPGT: P per lane (R97). -/
def wideGt (a b : Wide) : List Bool := List.zipWith (fun x y => intExpGt x a.e y b.e) a.v b.v

/-- LUT of every lane: the block and the RNG flags (R100). -/
def wideLut (t : Table) (a : Wide) : Wide × List Bool :=
  let rs := a.v.map (fun v => lutLane t v a.e)
  (Wide.fit (rs.map (·.1)) (t.yExp - 8) a.sat, rs.map (·.2))

/-! Fields of a stage word (R96). -/
def stOp (w : Nat) : Nat := fld w 0 4
def stBsrc (w : Nat) : Nat := fld w 4 2
def stBreg (w : Nat) : Nat := fld w 6 4
def stRnd (w : Nat) : Bool := bitAt w 10
def stWb (w : Nat) : Bool := bitAt w 11
def stTable (w : Nat) : Nat := fld w 12 3
def stImmExp (w : Nat) : Int := sext 8 (fld w 16 8)
def stImm (w : Nat) : Nat := fld w 24 24

/-- Whether a stage's function takes operand B (R97). -/
def stUsesB (op : Nat) : Bool :=
  op == 1 || op == 2 || op == 3 || op == 6 || op == 7 || op == 0xA || op == 0xB

/-- Whether a stage draws generator words (R105). -/
def stDraws (w : Nat) : Bool := stOp w == 0xD || (stRnd w && (stOp w == 3 || stOp w == 5))

/-- An immediate operand (R96). -/
def immBlock (imm : Int) (e : Int) : Wide := ⟨List.replicate 64 imm, e, List.replicate 64 false⟩

/-- The function of a stage (R97): A, operand B with its width, the generator words, and the table. -/
def stageBlock (w : Nat) (a : FBlk) (b : Wide) (wb : Nat) (gen : Nat → Nat) (t : Option Table) : FBlk :=
  let g : Option (Nat → Nat) := if stRnd w then some gen else none
  let x := a.w
  match stOp w with
  | 0x1 => { a with w := wideAdd x a.width b wb }
  | 0x2 => { a with w := wideSub x a.width b wb }
  | 0x3 => { a with w := wideMul x b g }
  | 0x4 => { a with w := wideShl x (stImm w) }
  | 0x5 => { a with w := wideShr x (stImm w) g }
  | 0x6 => { a with w := widePick x a.width b wb (fun _ p q => if q < p then q else p) }
  | 0x7 => { a with w := widePick x a.width b wb (fun _ p q => if p < q then q else p) }
  | 0x8 => { a with w := wideAbs x }
  | 0x9 => { a with w := wideNeg x }
  | 0xA => { a with p := wideGt x b }
  | 0xB => { a with w := widePick x a.width b wb (fun j p q => if a.p.getD j false then p else q) }
  | 0xC =>
    match t with
    | some t => let r := wideLut t x; { a with w := r.1, rng := orLanes a.rng r.2 }
    | none => a
  | 0xD => { a with w := { x with v := (upTo 64).map (fun j => if gen j < stImm w * 256 then 0 else x.v.getD j 0) } }
  | 0xE =>
    let r := sumTree 6 x.v
    { a with w := { x with v := List.replicate 64 r.1, sat := if r.2 then List.replicate 64 true else x.sat } }
  | 0xF => { a with w := { x with v := List.replicate 64 (x.v.foldl (fun p q => if p < q then q else p) (x.v.headD 0)) } }
  | _ => a

/-- One stage: what leaves it is a wide block (R96, R97). -/
def runStage (w : Nat) (a : FBlk) (b : Wide) (wb : Nat) (gen : Nat → Nat) (t : Option Table) : FBlk :=
  { stageBlock w a b wb gen t with width := 48 }

/-- The segment of a table that a lane looks up (R100). -/
def lutSegment (t : Table) (a ea : Int) : Nat :=
  let d := ea - (t.segExp - 8)
  let p := (if 0 ≤ d then a * ((2 ^ d.toNat : Nat) : Int) else floorShr a (-d).toNat) - t.xBase
  if p < 0 then 0 else if 65536 ≤ p then 255 else (p / 256).toNat

/-- Whether a stage adds or multiplies, and so is checked by residue (R110). -/
def stResidue (op : Nat) : Bool := op == 1 || op == 2 || op == 3 || op == 4 || op == 0xE

end Sys2Proof.Machine
end

