-- ==== Sys2Proof/Machine/FlsCheck.lean ====
section
/-! DEFINITION. The fields and checks of Flowstone's commands (R95, R96, R105, R108), its faults (R111, R114), and its pending
accesses to banks (R94). -/

namespace Sys2Proof.Machine

open Sys2Proof

/-! Fields of a chain command header (R95). -/
def fhOp (h : Nat) : Nat := fld h 0 4
def fhNstg (h : Nat) : Nat := fld h 4 3
def fhIsrc (h : Nat) : Nat := fld h 7 2
def fhOdst (h : Nat) : Nat := fld h 9 2
def fhNowr (h : Nat) : Bool := bitAt h 11
def fhIbank (h : Nat) : Nat := fld h 12 2
def fhObank (h : Nat) : Nat := fld h 14 2
def fhPolicy (h : Nat) : Policy := Policy.ofBits (fld h 16 2)
def fhRnd (h : Nat) : Bool := bitAt h 18
def fhIfmt (h : Nat) : Nat := fld h 19 4
def fhOfmt (h : Nat) : Nat := fld h 23 4
def fhFix (h : Nat) : Int := sext 8 (fld h 27 8)
def fhAmaxEn (h : Nat) : Bool := bitAt h 35
def fhAbsEn (h : Nat) : Bool := bitAt h 36
def fhAbsExp (h : Nat) : Int := sext 8 (fld h 37 8)
def fhTensor (h : Nat) : Nat := fld h 45 12
def fhDigEn (h : Nat) : Bool := bitAt h 57
def fhDigAcc (h : Nat) : Bool := bitAt h 58
def fhBstream (h : Nat) : Bool := bitAt h 59
def fhPipe (h : Nat) : Bool := bitAt h 60
def fhSrc (h : Nat) : Nat := fld h 64 23
def fhDst (h : Nat) : Nat := fld h 96 23
def fhSrcb (h : Nat) : Nat := fld h 128 23
def fhCount (h : Nat) : Nat := fld h 160 16
def fhStream (h : Nat) : Nat := fld h 192 32

/-- Whether ISRC or ODST names a bank. -/
def isBank (k : Nat) : Bool := k == 1 || k == 2

/-- Whether a chain names a bank as source or destination (R94, R95). -/
def chainNames (head bank : Nat) : Bool :=
  fhOp head == 1 && ((isBank (fhIsrc head) && fhIbank head == bank) || (isBank (fhOdst head) && fhObank head == bank))

/-- Whether some of a list of writes goes to a bank. -/
def writesBank (bank : Nat) (ws : List Wr) : Bool :=
  ws.any (fun w => match w with
    | .acc i _ _ => i / 32768 == bank
    | _ => false)

/-- Whether a chain issued before chain `n` still has a pending access to a bank: it is queued and names it, or it has started, which
reads all of its source, and has a write to the bank still to make; one whose later blocks are still to come names it too (R94). -/
def FlsState.pendingAccess (f : FlsState) (bank n : Nat) : Bool :=
  f.queue.any (fun q => decide (q.serial < n) && chainNames q.head bank) ||
  f.runs.any (fun r => decide (r.cmd.serial < n) && (match r.todo with
    | some p => if r.stopped then p.2.due.any (fun w => writesBank bank w.writes) else chainNames r.cmd.head bank
    | none => false)) ||
  f.due.any (fun w => decide (w.serial < n) && writesBank bank w.writes)

/-- Fields of a header that a command uses (R95): every other field must be 0. `draws`: some consumer of random words. An LDTAB does
not use PIPE (DESIGN CHOICE, log 58). -/
def chainUsed (h : Nat) (draws : Bool) : List (Nat × Nat) :=
  let on := fun (b : Bool) (f : List (Nat × Nat)) => if b then f else []
  if fhOp h = 2 then [(0, 4), (64, 23), (96, 23)]
  else
    [(0, 4), (4, 3), (7, 2), (9, 2), (11, 1), (160, 16), (64, 23), (96, 23), (60, 1), (35, 1), (36, 1), (57, 1), (59, 1)]
    ++ on (isBank (fhIsrc h)) [(12, 2)]
    ++ on (isBank (fhOdst h)) [(14, 2)]
    ++ on (fhIsrc h == 0 || fhBstream h) [(19, 4)]
    ++ on (fhOdst h == 0) ([(16, 2), (18, 1), (23, 4)] ++ on (fhPolicy h == .fixed) [(27, 8)])
    ++ on (fhAbsEn h) [(37, 8)]
    ++ on (fhAmaxEn h || fhAbsEn h || (fhOdst h == 0 && fhPolicy h == .autoFloor)) [(45, 12)]
    ++ on (fhDigEn h) [(58, 1)]
    ++ on (fhBstream h) [(128, 23)]
    ++ on draws [(192, 32)]

/-- Fields of a stage word that its function uses (R96). -/
def stageUsed (w : Nat) : List (Nat × Nat) :=
  let op := stOp w
  let on := fun (b : Bool) (f : List (Nat × Nat)) => if b then f else []
  [(0, 4), (11, 1)]
  ++ on (stUsesB op) ([(4, 2)] ++ (match stBsrc w with
    | 0 => [(6, 4)]
    | 1 => [(16, 8), (24, 24)]
    | _ => []))
  ++ on (stWb w) [(6, 4)]
  ++ on (op == 4 || op == 5 || op == 0xD) [(24, 24)]
  ++ on (op == 3 || op == 5) [(10, 1)]
  ++ on (op == 0xC) [(12, 3)]

/-- The consumers of random words in order: stage numbers, and 8 for the output stage (R105). -/
def chainConsumers (h : Nat) (st : List Nat) : List Nat :=
  (upTo st.length).filter (fun k => stDraws (st.getD k 0)) ++ (if fhOdst h = 0 ∧ fhRnd h = true then [8] else [])

/-- Whether a stage word breaks R108. -/
def stageBad (h w : Nat) : Bool :=
  clearFields w (stageUsed w) != 0 ||
  (stUsesB (stOp w) && (stBsrc w == 3 || (stBsrc w == 2 && !fhBstream h)))

/-- The checks of R108 that a chain command's own fields decide: the CAUSE of FLS, and what fails: 0 the encoding, 1 a
format code, 2 an extent. A vector register number above 15 in SRC or DST is cause 0x8 (DESIGN CHOICE, log 58). -/
def chainFieldCheck (h : Nat) (st : List Nat) : Option (Nat × Nat) :=
  let draws := !(chainConsumers h st).isEmpty
  let badFmt := fun (f : Nat) => Fmt.ofCode f == none
  if fhOp h ≠ 1 ∧ fhOp h ≠ 2 then some (8, 0)
  else if fhOp h = 2 then
    if clearFields h (chainUsed h false) ≠ 0 ∨ 7 < fhDst h then some (8, 0) else none
  else if clearFields h (chainUsed h draws) ≠ 0 ∨ fhCount h = 0 ∨ (fhDigEn h = true ∧ fhOdst h ≠ 0) then some (8, 0)
  else if (fhIsrc h = 3 ∧ 15 < fhSrc h) ∨ (fhOdst h = 3 ∧ 15 < fhDst h) then some (8, 0)
  else if st.any (stageBad h) then some (8, 0)
  else if ((fhIsrc h == 0 || fhBstream h) && badFmt (fhIfmt h)) || (fhOdst h == 0 && badFmt (fhOfmt h)) then some (8, 1)
  else if (isBank (fhIsrc h) && decide (512 < fhSrc h + fhCount h)) ||
      (isBank (fhOdst h) && decide (512 < fhDst h + fhCount h)) then some (9, 2)
  else none

/-- The format a code names; S4 where it names none. -/
def fmtOf (code : Nat) : Fmt := (Fmt.ofCode code).getD .s4

/-- Whether `n` bytes from `a` on are in core memory below the carve-out, with `a` a multiple of 8 (R108, R163). -/
def State.blockPlace (s : State) (a n : Nat) : Bool := a % 8 == 0 && s.cmIn a n

/-- Bytes of a table image (R99). -/
def tableBytes : Nat := 2064

/-- A chain command's core memory extents are usable (R108 cause 0x9). -/
def State.chainPlaces (s : State) (h : Nat) : Bool :=
  if fhOp h = 2 then s.blockPlace (fhSrc h) tableBytes
  else
    let ext := fun (a f : Nat) => s.blockPlace a (fhCount h * (fmtOf f).coreBytes)
    (fhIsrc h != 0 || ext (fhSrc h) (fhIfmt h)) && (!fhBstream h || ext (fhSrcb h) (fhIfmt h)) &&
      (fhOdst h != 0 || ext (fhDst h) (fhOfmt h))

/-- Whether every LUT stage names a valid table, or one with an LDTAB for it ahead of chain `serial`; `ahead` false asks for
valid tables only (R108). -/
def FlsState.tablesOk (f : FlsState) (st : List Nat) (serial : Nat) (ahead : Bool) : Bool :=
  st.all (fun w => stOp w != 0xC || (Store.find f.tables (stTable w)).isSome ||
    (ahead &&
      let hit := fun (q : ChainCmd) => decide (q.serial < serial) && fhOp q.head == 2 && fhDst q.head == stTable w
      f.queue.any hit || f.runs.any (fun r => hit r.cmd)))

/-- The check of a command at the head of the chain queue (R108): the CAUSE, or none. DESIGN CHOICE (log 58): where several fail
together the first of 0x8, 0x9, 0xA and 0xB is reported. -/
def State.chainHeadCause (s : State) (c : Nat) (q : ChainCmd) : Option Nat :=
  let f := (s.core c).fls
  match chainFieldCheck q.head q.stages with
  | some e => some e.1
  | none =>
    if !s.chainPlaces q.head then some 9
    else if fhOp q.head = 2 then none
    else if !f.tablesOk q.stages q.serial true then some 0xA
    else
      let n := (chainConsumers q.head q.stages).length
      if n ≠ 0 ∧ 65536 < Store.get 0 f.uses (fhStream q.head) + n then some 0xB else none

/-- The bit of INT_STAT of an FLS fault (R114). -/
def flsBit (cls : FClass) (cause : Nat) : Nat :=
  match cls with
  | .sched => 5
  | .ctx => 4
  | .hw => if cause = 1 then 0 else if cause = 2 then 1 else if cause = 5 then 2 else 3

/-- A fault of Flowstone at a place of a chain: the FLS log, the core's fault queue and the class's effect (R111, R114, R137). `pos`
holds STAGE, OUTPUT and LANE of ERR_LOG0. -/
def State.flsFaultAt (s : State) (c : Nat) (q : ChainCmd) (cls : FClass) (cause block pos : Nat) : State :=
  ((s.logErr (pgFLS c) (cls.code * 2 ^ 28 + cause * 2 ^ 24 + pos) (q.iss.thread * 2 ^ 28 + q.iss.addr % 2 ^ 23)
    (block % 2 ^ 16)).setInt (pgFLS c) (flsBit cls cause)).coreFault c cls 2 cause q.iss.thread q.iss.ctx q.iss.gen q.iss.pc q.iss.addr

/-- A fault of Flowstone with no place inside a chain. -/
def State.flsFault (s : State) (c : Nat) (q : ChainCmd) (cls : FClass) (cause block : Nat) : State :=
  s.flsFaultAt c q cls cause block 0

/-- The chain queue stalled by a fault of its head (R108). -/
def State.flsStall (s : State) (c : Nat) (q : ChainCmd) (cause : Nat) : State :=
  (s.modCore c (fun k => { k with fls := { k.fls with stall := true } })).flsFault c q .sched cause 0

/-- The head of the chain queue checked as it reaches the head (R108). -/
def State.checkChainHead (s : State) (c : Nat) : State :=
  let f := (s.core c).fls
  match f.queue with
  | [] => s
  | q :: _ =>
    if f.stall then s
    else match s.chainHeadCause c q with
      | none => s
      | some e => s.flsStall c q e

/-- Whether the head chain may start: earlier chains have completed or stopped, or with PIPE the earlier ones are RUNs whose blocks
have all entered; an LDTAB, which has no blocks, must have completed (R107; log 19). -/
def FlsState.mayStart (f : FlsState) (q : ChainCmd) : Bool :=
  f.runs.all (fun r => r.stopped || (fhPipe q.head && fhOp r.cmd.head == 1 && r.todo.isNone))

/-- Whether a chain waits for a bank: the array owns it, or a CLAIM issued before the chain is still queued (R94). -/
def Core.bankWaits (k : Core) (q : ChainCmd) : Bool :=
  (upTo 4).any (fun b => chainNames q.head b && (k.arr.owns b ||
    k.arr.streamQ.any (fun a => arrOp a.word == 3 && arrBank a.word == b && decide (a.after ≤ q.serial))))

/-- Whether the head chain waits for a bank (R94). -/
def Core.chainWaits (k : Core) : Bool :=
  match k.fls.queue with
  | [] => false
  | q :: _ => !k.fls.stall && fhOp q.head == 1 && k.fls.mayStart q && k.bankWaits q

end Sys2Proof.Machine
end

