-- ==== Sys2Proof/Machine/Routing.lean ====
section
/-! DEFINITION. Flit headers (R221) and the routing of A-class traffic (R228, R231, R232): where a flit may go, and for how long one
has waited for a credit (R245). -/

namespace Sys2Proof.Machine

open Sys2Proof

/-! The flit header (R221). -/

def fltDest (h : Nat) : Nat := fld h 0 16
def fltSrcId (h : Nat) : Nat := fld h 16 16
def fltTag (h : Nat) : Nat := fld h 32 16
def fltCtx (h : Nat) : Nat := fld h 32 10
def fltCore (h : Nat) : Nat := fld h 48 8
def fltAclass (h : Nat) : Bool := bitAt h 56
def fltVc (h : Nat) : Nat := fld h 57 3
def fltLast (h : Nat) : Bool := bitAt h 60
def fltKeyEn (h : Nat) : Bool := bitAt h 61
def fltOffset (h : Nat) : Nat := fld h 64 23
def fltLen (h : Nat) : Nat := fld h 87 9
def fltSeq (h : Nat) : Nat := fld h 96 16
def fltKey (h : Nat) : Nat := fld h 112 14
def fltEpoch (h : Nat) : Nat := fld h 126 2

/-! Contexts of flits (R222, R394). -/

/-- A context; ID 0 is always OPEN with generation 0 (R394). -/
def State.ctxOf (s : State) (id : Nat) : Ctx :=
  let x : Ctx := Store.get {} s.ctx.ctxs id
  if id = 0 then { x with st := .open_, gen := 0 } else x

/-- A context replaced. -/
def State.setCtx (s : State) (id : Nat) (x : Ctx) : State :=
  { s with ctx := { s.ctx with ctxs := Store.set {} s.ctx.ctxs id x } }

/-- Whether a tag names context 0, or an OPEN context with its generation (R222 step 3). -/
def State.tagOpen (s : State) (tag : Nat) : Bool :=
  let x := s.ctxOf (tag % 2 ^ 10)
  tag % 2 ^ 10 == 0 || (x.st == .open_ && x.gen == tag / 2 ^ 10 % 64)

/-! Offsets and directions (R228, R232). -/

/-- Coordinate and extent of this device on an axis, 0 for W to 3 for Z. -/
def State.coordOf (s : State) (a : Nat) : Nat := fld (s.reg pgVDT 0x48) (8 * a) 6
def State.extentOf (s : State) (a : Nat) : Nat := fld (s.reg pgVDT 0x4C) (8 * a) 7

/-- Coordinate of a destination in its routing entry (R228). -/
def routeCoord (e a : Nat) : Nat := fld e (16 + 6 * a) 6

/-- The offset on an axis (R232). -/
def State.axisOff (s : State) (e a : Nat) : Nat :=
  if s.extentOf a = 0 then 0 else (routeCoord e a + s.extentOf a - s.coordOf a) % s.extentOf a

/-- Whether + and − are productive on an axis (R232). -/
def State.plusOk (s : State) (e a : Nat) : Bool :=
  let d := s.axisOff e a
  decide (0 < 2 * d) && decide (2 * d ≤ s.extentOf a)
def State.minusOk (s : State) (e a : Nat) : Bool :=
  let d := s.axisOff e a
  decide (s.extentOf a ≤ 2 * d) && d != 0

/-- Logical ports of both lanes in every productive direction. -/
def State.productive (s : State) (e : Nat) : List Nat :=
  (upTo 4).flatMap (fun a =>
    (if s.plusOk e a then [4 * a, 4 * a + 1] else []) ++ (if s.minusOk e a then [4 * a + 2, 4 * a + 3] else []))

/-! Credits (R231). -/

/-- Buffers of a class on an input port and VC. -/
def classSize (cls : Nat) : Nat := if cls = 0 then 12 else 2

/-- Number of a physical port, VC and class. -/
def creditKey (p vc cls : Nat) : Nat := p * 24 + vc * 3 + cls

/-- Whether a credit is held for a port, VC and class. -/
def State.credit (s : State) (p vc cls : Nat) : Bool := decide (Store.get 0 s.vdt.credit (creditKey p vc cls) < classSize cls)

/-- A credit spent. -/
def State.spend (s : State) (p vc cls : Nat) : State :=
  let k := creditKey p vc cls
  { s with vdt := { s.vdt with credit := Store.set 0 s.vdt.credit k (Store.get 0 s.vdt.credit k + 1) } }

/-- A buffer of a class on an input port is free again, and the credit words of its link say so (R265). -/
def State.freeCredit (s : State) (p vc cls : Nat) : State :=
  let o := s.oport p
  let k := vc * 3 + cls
  s.setOport p { o with freed := Store.set 0 o.freed k ((Store.get 0 o.freed k + 1) % 2 ^ 8) }

/-! The spray set and the escape port (R231, R232). -/

/-- The spray set before credits. -/
def State.spraySet (s : State) (e dest : Nat) : List Nat :=
  (s.productive e).filter (fun l =>
    bitAt s.portMask l && (!s.vdt.patched.contains l || (s.vport (s.pmap l).phys).nbr == dest))

/-- The first port of a set at or after a pointer, in ascending order and around. -/
def rotate (ptr : Nat) (l : List Nat) : Option Nat :=
  match l.find? (fun x => decide (ptr ≤ x)) with
  | some x => some x
  | none => l.head?

/-- Whether the link a flit came on was the wrap of an axis: one that came in on − moved in +, and crossed the wrap where it now
stands at 0. -/
def State.cameByWrap (s : State) (p a : Nat) : Bool :=
  match s.lport p with
  | none => false
  | some l => l / 4 == a && (if bitAt l 1 then s.coordOf a == 0 else s.coordOf a + 1 == s.extentOf a)

/-- Whether a flit that came on a port, in a buffer of a class, has crossed the wrap of the axis on which it goes on, in + or − (R231;
log 38): its class says so, or the coordinate it started from, or the link it came on. -/
def State.crossedWrap (s : State) (h a : Nat) (plus : Bool) : Option (Nat × Nat) → Bool
  | none => false
  | some (p, cls) =>
    (cls == 2 && (match s.lport p with
      | some l => l / 4 == a
      | none => false)) ||
    (match Store.find s.vdt.routes (fltSrcId h) with
     | some e => if plus then decide (s.coordOf a < routeCoord e a) else decide (routeCoord e a < s.coordOf a)
     | none => s.cameByWrap p a)

/-- The escape port and the class of the buffer it leads to (R231): `came` is the input port and class, if the flit came on one. -/
def State.escape (s : State) (h e : Nat) (came : Option (Nat × Nat)) : Option (Nat × Nat) :=
  match (upTo 4).find? (fun a => s.axisOff e a != 0) with
  | none => none
  | some a =>
    let plus := s.plusOk e a
    let c := s.coordOf a
    let wraps := if plus then c + 1 == s.extentOf a else c == 0
    some (if plus then 4 * a else 4 * a + 2, if wraps || s.crossedWrap h a plus came then 2 else 1)

/-- Where an A-class flit goes next: discarded, waiting for a credit, or logical port and buffer class, by spraying or not. -/
inductive Hop where
  | discard
  | stall
  | go (l cls : Nat) (sprayed : Bool)
  deriving DecidableEq, Repr

/-- A hop on a port against a credit, if there is one. -/
def State.hopOn (s : State) (vc l cls : Nat) (sprayed : Bool) : Hop :=
  if s.credit (s.pmap l).phys vc cls then .go l cls sprayed else .stall

/-- The hop to the escape port (R231). -/
def State.hopEscape (s : State) (h e : Nat) (came : Option (Nat × Nat)) : Hop :=
  match s.escape h e came with
  | none => .stall
  | some (l, cls) => if bitAt s.portMask l then s.hopOn (fltVc h) l cls false else .stall

/-- The next hop of an A-class flit (R231, R232): one in an escape buffer stays on the escape route. -/
def State.hop (s : State) (h : Nat) (came : Option (Nat × Nat)) : Hop :=
  match Store.find s.vdt.routes (fltDest h) with
  | none => .discard
  | some e =>
    if bitAt e 43 then s.hopOn (fltVc h) (fld e 44 5) 0 false
    else
      let all := s.spraySet e (fltDest h)
      if all.isEmpty then .discard
      else if (came.map (·.2)).getD 0 ≠ 0 then s.hopEscape h e came
      else match rotate (Store.get 0 s.vdt.spray (fltVc h)) (all.filter (fun l => s.credit (s.pmap l).phys (fltVc h) 0)) with
      | some l => .go l 0 true
      | none => s.hopEscape h e came

/-- The hop of a buffered flit. -/
def State.hopOf (s : State) (a : AFlit) : Hop := s.hop a.flit.head (some (a.port, a.cls))

/-- The head A-class flits of the local streams: stream, flit, blocks that end in it, and what follows. -/
def State.localHeads (s : State) : List (Nat × Flit × Nat × List (Flit × Nat)) :=
  s.vdt.inject.filterMap (fun x => match x.2 with
    | (f, ends) :: rest => if fltAclass f.head then some (x.1, f, ends, rest) else none
    | [] => none)

/-- The ticks from which an A-class flit that is due has waited for a credit. -/
def State.stallStarts (s : State) : List Nat :=
  (s.vdt.abuf.filter (fun a => fltDest a.flit.head != s.devId && s.hopOf a == .stall)).map (·.eligible) ++
    (if s.inSpan && s.localHeads.any (fun x => s.tagOpen (fltTag x.2.1.head) && s.hop x.2.1.head none == .stall) then [s.tick]
     else []) ++
    (if s.vdt.ports.any (fun q => match q.2.xfer with
        | f :: _ => !s.credit q.1 (fltVc f.head) 0
        | [] => false) then [s.tick] else [])

/-- How many of the next `n` ticks an A-class flit waits for a credit in, as the credits stand (VDT_STALL_CNT, R245). -/
def State.stallTicks (s : State) (n : Nat) : Nat :=
  n - (s.stallStarts.foldl (fun m t => if t < m then t else m) (s.tick + n) - s.tick)

end Sys2Proof.Machine
end

