-- ==== Sys2Proof/Machine/Time.lean ====
section
/-! DEFINITION. The passage of fabric ticks (R189) and what counts them: progress counters (R134) and the core and partition
watchdogs (R464). An event that falls at a tick moves the tick forward to it, never back (log 2). -/

namespace Sys2Proof.Machine

open Sys2Proof

/-- Whether a thread's progress counter counts: READY or WAIT, and not held by WAITT (R134). -/
def Thread.counts (x : Thread) : Bool :=
  match x.a.st, x.held with
  | .ready, _ => true
  | .wait, some h => h.reason != 6
  | .wait, none => true
  | _, _ => false

/-- Whether a thread waits on a keystone. -/
def Thread.onKey (x : Thread) : Bool :=
  x.a.st == .wait && (match x.held with | some h => h.reason == 5 | none => false)

/-- `n` ticks pass for the array, Flowstone and the DMA engine of a core on which user work runs: what the counters of core cycles
are formed from (R80, R94, R162; log 7). -/
def Core.meter (n : Nat) (k : Core) : Core :=
  { k with runTicks := k.runTicks + n, bankTicks := k.bankTicks + n
           frozenTicks := if k.arr.frozen then k.frozenTicks + n else k.frozenTicks
           waitTicks := if k.chainWaits then k.waitTicks + n else k.waitTicks }

/-- A core at the end of the ticks from `t0` to `t1`, with the number of them in which it was clocked: a woken core's clocks run from
its first core cycle on (R202). -/
def Core.clockTo (t0 t1 : Nat) (k : Core) : Core × Nat :=
  match k.clocked, k.wakeAt with
  | true, _ => (k, t1 - t0)
  | false, some w => if w ≤ t1 then ({ k with clocked := true, wakeAt := none }, t1 - w) else (k, 0)
  | false, none => (k, 0)

/-- `n` ticks pass for a core, in `m` of which it is clocked: `prog` says that its progress counters count. -/
def Core.elapse (prog : Bool) (n m : Nat) (k : Core) : Core :=
  let ts :=
    if prog then
      Store.mapVals (fun _ x => if x.counts then { x with pcnt := satAt max32 (x.pcnt + m) } else x) k.threads
    else k.threads
  { k with threads := ts, wd := if k.threads.any (fun p => p.2.onKey) then k.wd + n else 0 }

/-- Gated cores whose wake comparators fire in the next `n` ticks for the pier frame that follows (R202). -/
def State.pierWakes (s : State) (n : Nat) : Nat :=
  (s.cores.filter (fun p => !p.2.clocked && (match p.2.wakeAt with
    | some w => decide (s.tick + 64 < w) && decide (w ≤ s.tick + n + 64)
    | none => false))).length

/-- Acknowledgements of a state stream that fall due in the next `n` ticks: one where 4,096 ticks have passed without one (R376). -/
def State.streamAcks (s : State) (n : Nat) : Nat :=
  if s.buddy.rxOn && s.buddy.rxAck.isSome then (s.tick + n - s.buddy.rxAckTick) / 4096 else 0

/-- The acknowledgement last returned, returned again as often as it falls due in the next `n` ticks (R376). -/
def State.ackStream (s : State) (n : Nat) : State :=
  match s.buddy.rxPeer, s.buddy.rxAck with
  | some (p, _), some f =>
    let k := s.streamAcks n
    if k = 0 then s
    else
      let v := Store.get {} s.vdt.ports p
      { s with
        vdt := { s.vdt with ports := Store.set {} s.vdt.ports p { v with xfer := v.xfer ++ List.replicate k f } }
        buddy := { s.buddy with rxAckTick := s.buddy.rxAckTick + 4096 * k } }
  | _, _ => s

/-- `n` ticks pass (R189); without main power the tick counter stands still (R453). -/
def elapse (n : Nat) (s : State) : State :=
  if n = 0 ∨ s.pwr.mainOk = false then s
  else
    let on := s.inSpan
    let wd := s.sch.job == .running || s.sch.job == .rewinding
    let s0 := if s.pierWakes n = 0 then s else s.cnt pgSCH 0x88 (s.pierWakes n)
    let s1 := (if s.stallTicks n = 0 then s0 else s0.cnt pgVDT 0xB4 (s.stallTicks n)).ackStream n
    { s1 with
      tick := (s.tick + n) % 2 ^ 64
      aon := s.aon + n
      cores := Store.mapVals (fun c k =>
        let r := k.clockTo s.tick (s.tick + n)
        let k1 := r.1.elapse (on && bitAt (s.reg (pgCORE c) 0x40) 0) n r.2
        if on && !k.inReset then k1.meter r.2 else k1) s.cores
      rst := if wd then { s.rst with wdPart := s.rst.wdPart + n } else s.rst }

/-- What passes while no command waits: a tick, or without main power a cycle of RC (R453; log 2). -/
def State.idle (s : State) : State := if s.pwr.mainOk then elapse 1 s else { s with aon := s.aon + 1000 }

/-- Time moves on to tick `t`, if it has not passed it (log 2). -/
def elapseTo (t : Nat) (s : State) : State := elapse (t - s.tick) s

/-- The machine at a woken core's first core cycle, before which the core does nothing (R202). -/
def State.awake (s : State) (c : Nat) : State :=
  match (s.core c).wakeAt with
  | some t => elapseTo t s
  | none => s

end Sys2Proof.Machine
end

