-- ==== Sys2Proof/Machine/MemOps.lean ====
section
/-! DEFINITION. Device and capacity memory (R283 to R302): extents, sidecar slots, the line code, loads and stores of blocks
and granules, the Sump's entries, precedence of stores with one commit tick, and the undo records of device memory (R340,
R342). -/

namespace Sys2Proof.Machine

open Sys2Proof

/-! Extents (R285, R290, R299). -/

/-- Bytes of a stack, of a sidecar unit, of a capacity channel. -/
def stackBytes : Nat := 36 * 2 ^ 30
def unitBytes : Nat := 64 * 2 ^ 20
def chanBytes : Nat := 16 * 2 ^ 30

/-- Stacks in service, in ascending order. -/
def MemState.stacks (m : MemState) : List Nat := setBits 8 m.stackMask

/-- U: bytes of device memory (R285). -/
def MemState.userBytes (m : MemState) : Nat := m.stacks.length * stackBytes - m.sidecarGib * 2 ^ 30

/-- Whether a stack in service has lost its contents to a test (R490). -/
def MemState.lostStack (m : MemState) : Bool := m.stacks.any (fun n => (Store.get {} m.stack n : Stack).lost)

/-- Extent of device memory; none until the first INIT after a cold reset (R290), nor while a stack's contents are lost (R490; log
45). -/
def MemState.devExtent (m : MemState) : Nat := if m.initDone && !m.lostStack then m.userBytes else 0

/-- Bytes of capacity memory (R299, R302). -/
def MemState.capBytes (m : MemState) : Nat := (32 - m.retired.length) * chanBytes

/-- Extent of capacity memory; none while the Gallery is out of service (R303). -/
def MemState.capExtent (m : MemState) : Nat := if m.galUp then m.capBytes else 0

/-- Granule code of a unit as the last INIT laid it out (R287). -/
def MemState.granCode (m : MemState) (u : Nat) : Nat := Store.get 1 m.gran u

/-- Granule bytes of a code (R287). -/
def granBytes (code : Nat) : Nat := 32 * 2 ^ code

/-- Sidecar bytes of a unit of a code (R287). -/
def unitSidecar (code : Nat) : Nat := unitBytes / granBytes code * 8

/-- B_u (R288): 8 MiB for each unit, corrected for the units with another code. -/
def sideBase (gran : Store Nat) (u : Nat) : Nat :=
  let low := gran.filter (fun p => decide (p.1 < u))
  (u - low.length) * unitSidecar 1 + (low.map (fun p => unitSidecar p.2)).foldl (· + ·) 0

/-- The granule of an address, in bytes. -/
def MemState.granule (m : MemState) (cap : Bool) (a : Nat) : Nat := if cap then 64 else granBytes (m.granCode (a / unitBytes))

/-- First byte of an address's granule. -/
def MemState.granStart (m : MemState) (cap : Bool) (a : Nat) : Nat := a - a % unitBytes % m.granule cap a

/-- The sidecar slot number of a block of `size` bytes, or none where the block lies outside its space (R288, R290,
R299). -/
def MemState.slot (m : MemState) (cap : Bool) (a size : Nat) : Option Nat :=
  if (if cap then m.capExtent else m.devExtent) < a + size ∨ a / unitBytes ≠ (a + size - 1) / unitBytes ∨
      size < m.granule cap a then none
  else if cap then some (a / 64)
  else some (sideBase m.gran (a / unitBytes) / 8 + a % unitBytes / m.granule false a)

/-- The check address of R42. -/
def checkAddr (cap : Bool) (a : Nat) : Nat := if cap then a + 2 ^ 63 else a

/-- Whether a block's address has a granule slot and lies in its space (R288, R289). -/
def MemState.place (m : MemState) (cap : Bool) (a size : Nat) : Bool := (m.slot cap a size).isSome

/-- Whether the context may read or write `n` bytes from `a` on of device or capacity memory (R395). -/
def State.pageOk (s : State) (cap : Bool) (ctx a n : Nat) (write : Bool) : Bool :=
  ctx == 0 ||
  (upTo ((a + n - 1) / 2 ^ 21 + 1 - a / 2 ^ 21)).all (fun i =>
    match Store.find (if cap then s.ctx.capPages else s.ctx.devPages) (a / 2 ^ 21 + i) with
    | none => false
    | some g => if write then g.ctx == ctx && g.w else g.ctx == ctx || g.shared)

/-! Where a line is (R285, R299, R302). -/

/-- Stack, group, controller channel, pseudo-channel, and what places bank and row, of a physical offset (R285). -/
def MemState.hbmMap (m : MemState) (o : Nat) : Nat × Nat × Nat × Nat × Nat :=
  let t := o / 256 / m.stacks.length
  (m.stacks.getD (o / 256 % m.stacks.length) 0, t % 8, t / 8 % 2, t / 16 % 2, t / 32)

/-- Rows of a bridge channel, and rows that one retirement takes from the top of capacity memory (R299, R302). -/
def chanRows : Nat := 2 ^ 26
def topRows : Nat := 2 ^ 21

/-- Rows of a channel that hold stripes in ascending order: from row `row` on, `n` items of the sequence of the stripes of some
columns (stripe number mod 32), from item `off` of the one that begins at stripe 32 × `k0` (R302). -/
structure GalRun where
  ch : Nat
  row : Nat
  n : Nat
  cols : List Nat
  k0 : Nat
  off : Nat
  deriving DecidableEq, Repr

/-- The part of a run below stripe 32 × `top`. -/
def GalRun.below (r : GalRun) (top : Nat) : GalRun := { r with n := min r.n ((top - r.k0) * r.cols.length - r.off) }

/-- The run as blocks of whole columns: first and last + 1 quotient of stripe number by 32, and the columns. -/
def GalRun.blocks (r : GalRun) : List (Nat × Nat × List Nat) :=
  let m := r.cols.length
  let a := r.off / m
  let b := (r.off + r.n) / m
  (if a = b then [(r.k0 + a, r.k0 + a + 1, (r.cols.take ((r.off + r.n) % m)).drop (r.off % m))]
   else [(r.k0 + a, r.k0 + a + 1, r.cols.drop (r.off % m)), (r.k0 + a + 1, r.k0 + b, r.cols),
      (r.k0 + b, r.k0 + b + 1, r.cols.take ((r.off + r.n) % m))]).filter (fun x => decide (x.1 < x.2.1) && !x.2.2.isEmpty)

/-- A number put into an ascending list without repeats. -/
def insertNat (x : Nat) : List Nat → List Nat
  | [] => [x]
  | y :: l => if x < y then x :: y :: l else if x = y then y :: l else y :: insertNat x l

/-- Blocks of disjoint stripes as one ascending sequence: first quotient, number of them, columns. -/
def galSequence (bs : List (Nat × Nat × List Nat)) : List (Nat × Nat × List Nat) :=
  let cuts := bs.foldl (fun l b => insertNat b.1 (insertNat b.2.1 l)) []
  ((cuts.zip (cuts.drop 1)).map (fun c =>
    (c.1, c.2 - c.1, (bs.filter (fun b => decide (b.1 ≤ c.1) && decide (c.1 < b.2.1))).foldl (fun l b =>
      b.2.2.foldl (fun z x => insertNat x z) l) []))).filter (fun x => !x.2.2.isEmpty)

/-- The free rows of a channel as pairs of first row and number, from row `at_` on; `runs` are its runs in ascending row. -/
def galGaps (ch : Nat) : List GalRun → Nat → List (Nat × Nat × Nat)
  | [], at_ => if at_ < chanRows then [(ch, at_, chanRows - at_)] else []
  | r :: l, at_ => (if at_ < r.row then [(ch, at_, r.row - at_)] else []) ++ galGaps ch l (r.row + r.n)

/-- A run put into a list in ascending row. -/
def insertRun (r : GalRun) : List GalRun → List GalRun
  | [] => [r]
  | x :: l => if r.row < x.row then r :: x :: l else x :: insertRun r l

/-- A sequence of stripes poured into free rows, both in ascending order; `fuel` bounds the pieces. -/
def galPour : Nat → List (Nat × List Nat × Nat × Nat) → List (Nat × Nat × Nat) → List GalRun
  | 0, _, _ => []
  | _ + 1, [], _ => []
  | _ + 1, _, [] => []
  | f + 1, (k0, cols, off, n) :: q, (ch, row, len) :: g =>
    let m := min n len
    ⟨ch, row, m, cols, k0, off⟩ :: galPour f (if m = n then q else (k0, cols, off + m, n - m) :: q)
      (if m = len then g else (ch, row + m, len - m) :: g)

/-- Where the stripes are after a retirement of channel `c` from a mapping: those that it holds below the new top go, in ascending
offset, into the free rows of the other channels in service, in ascending channel and row (R302). -/
def galRetire (out : List Nat) (runs : List GalRun) (c : Nat) : List GalRun :=
  let top := chanRows - (out.length + 1) * topRows
  let live := (runs.map (fun r => r.below top)).filter (fun r => r.n != 0)
  let stay := live.filter (fun r => r.ch != c)
  let moved := (galSequence ((live.filter (fun r => r.ch == c)).flatMap (·.blocks))).map (fun x =>
    (x.1, x.2.2, 0, x.2.1 * x.2.2.length))
  let gaps := ((upTo 32).filter (fun k => k != c && !out.contains k)).flatMap (fun k =>
    galGaps k ((stay.filter (fun r => r.ch == k)).foldl (fun l r => insertRun r l) []) 0)
  stay ++ galPour (2 * (moved.length + gaps.length)) moved gaps

/-- The runs of the bridge's channels after the retirements so far, in their order (R299, R302). -/
def galRuns (retired : List Nat) : List GalRun :=
  (retired.foldl (fun (p : List Nat × List GalRun) c => (p.1 ++ [c], galRetire p.1 p.2 c))
    ([], (upTo 32).map (fun k => ⟨k, 0, chanRows, [k], 0, 0⟩))).2

/-- The item of a run that a stripe is, if it is one. -/
def GalRun.item (r : GalRun) (st : Nat) : Option Nat :=
  let i := (st / 32 - r.k0) * r.cols.length + r.cols.idxOf (st % 32)
  if r.cols.contains (st % 32) && decide (r.k0 ≤ st / 32) && decide (r.off ≤ i) && decide (i < r.off + r.n) then some (i - r.off) else none

/-- Bridge channel and row of a capacity offset: those of its stripe, or where retirements have moved it (R299, R302). -/
def MemState.galPlace (m : MemState) (c : Nat) : Nat × Nat :=
  let st := c / 256
  if m.retired.isEmpty then (st % 32, st / 32)
  else ((galRuns m.retired).findSome? (fun r => (r.item st).map (fun i => (r.ch, r.row + i)))).getD (st % 32, st / 32)

/-- The bridge channel of a capacity offset. -/
def MemState.galChan (m : MemState) (c : Nat) : Nat := (m.galPlace c).1

/-! The line code (R286, R300). -/

/-- A mismatch of the duplicated logic of a stack's controller or of the bridge, if one shows itself: a hardware fault with its own cause
(R304, R306, R348; log 56). -/
def State.memCompare (s : State) (page cause : Nat) : State :=
  match s.takeSlip page with
  | (none, _) => s
  | (some _, s1) => (s1.logErr page (1 * 2 ^ 28 + cause * 2 ^ 24) 0 0).raiseHw

/-- The first lane that the decoder finds wrong; of a line it cannot correct the lane is open (log 6). -/
def State.failingLane (s : State) (found : Option (Store Nat)) : Nat × State :=
  match found with
  | some f => ((f.head?.map (·.1)).getD 0, s)
  | none => (s.free.1.toNat % 72, s.free.2)

/-- What reading one line of device memory or of its sidecar region, by physical line number, does: corrections and uncorrectable lines
counted and logged; true where it is uncorrectable. -/
def State.hbmLine (s0 : State) (line : Nat) : State × Bool :=
  let m := s0.mem.hbmMap (line * 64)
  let pg := pgHBM m.1
  let s := s0.memCompare pg 7
  match Store.get [] s.mem.devBad line with
  | [] => (s, false)
  | e =>
    let found := rsDecode 3 e
    let l := s.failingLane found
    let pos := (4 * m.2.1 + 2 * m.2.2.1) * 2 ^ 19 + m.2.2.2.1 * 2 ^ 18 + Config.hbmBank m.2.2.2.2 % 64 * 2 ^ 10
    let row := Config.hbmRow m.2.2.2.2 % 2 ^ 20
    match found with
    | some [] => (s, false)
    | some f =>
      let s1 := s.cnt pg 0x60 1
      (if f.length = 1 then s1 else (s1.logErr pg (2 * 2 ^ 24 + f.length * 2 ^ 16 + pos) row l.1).setInt pg 1, false)
    | none => (((l.2.cnt pg 0x64 1).logErr pg (1 * 2 ^ 28 + 1 * 2 ^ 24 + pos) row l.1).setInt pg 0, true)

/-- What reading one line of a bridge channel does, with the wrong symbols it has and its row, of which the log holds 18 bits (R300,
R302, R306; log 46): also a hardware fault where the channel has failed. -/
def State.galChanLine (s0 : State) (ch row : Nat) (e : Store Nat) : State × Bool :=
  let s := s0.memCompare pgGAL 6
  if (Store.get {} s.mem.chans ch).st = 3 then
    (s.logErr pgGAL (1 * 2 ^ 28 + 4 * 2 ^ 24 + ch * 2 ^ 19) 0 0, true)
  else match rsDecode 4 e with
    | some [] => (s, false)
    | some f =>
      let s1 := s.cnt pgGAL 0x60 1
      (if f.length = 1 then s1 else (s1.logErr pgGAL (2 * 2 ^ 24 + ch * 2 ^ 19 + f.length * 2 ^ 16) row 0).setInt pgGAL 2, false)
    | none => (((s.cnt pgGAL 0x64 1).logErr pgGAL (1 * 2 ^ 28 + 1 * 2 ^ 24 + ch * 2 ^ 19) row 0).setInt pgGAL 1, true)

/-- What reading one line of capacity memory does. -/
def State.galLine (s : State) (line : Nat) : State × Bool :=
  let p := s.mem.galPlace (line * 64)
  s.galChanLine p.1 (p.2 % 2 ^ 18) (Store.get [] s.mem.capBad line)

/-- A slot number that no block has: the store of bytes without a sidecar. -/
def noSlot : Nat := 2 ^ 64

/-- What reading the line of a sidecar slot does (R286, R288, R300). -/
def State.sideLine (s : State) (cap : Bool) (slot : Nat) : State × Bool :=
  if slot = noSlot then (s, false)
  else if cap then s.galChanLine (Config.galSideChan (slot / 8) % 32) 0 (Store.get [] s.mem.capSideBad (slot / 8))
  else s.hbmLine ((s.mem.userBytes + slot * 8) / 64)

/-- The lines of `n` bytes from `a` on read; true where one is uncorrectable. -/
def State.readLines (s : State) (cap : Bool) (a n : Nat) : State × Bool :=
  (upTo ((a + n - 1) / 64 + 1 - a / 64)).foldl (fun p i =>
    let r := if cap then p.1.galLine (a / 64 + i) else p.1.hbmLine (a / 64 + i)
    (r.1, p.2 || r.2)) (s, false)

/-- What stays wrong in a line that the decoder gives out, as bits of its bytes. -/
def MemState.lineWrong (m : MemState) (cap : Bool) (line : Nat) : List Byte :=
  lineBits (if cap then misread 4 (Store.get [] m.capBad line) else misread 3 (Store.get [] m.devBad line))

/-- Bytes from address `a` on with what is wrong in their lines. -/
def wrongBytes (wrong : Nat → List Byte) (a : Nat) (bs : List Byte) : List Byte :=
  (upTo bs.length).map (fun i => bs.getD i 0#8 ^^^ (wrong ((a + i) / 64)).getD ((a + i) % 64) 0#8)

/-! Bytes and sidecars. -/

/-- Bytes of device or capacity memory as they stand. -/
def State.memBytes (s : State) (cap : Bool) (a n : Nat) : List Byte :=
  Store.getRun 0#8 (if cap then s.mem.cap else s.mem.dev) a n

/-- Sidecar bytes of the granule at `g0`, whose slot is `slot`: a slot that nothing has written is ZEROED (R45, R290). -/
def State.sideBytes (s : State) (cap : Bool) (slot g0 : Nat) : List Byte :=
  match Store.find (if cap then s.mem.capSide else s.mem.devSide) slot with
  | some b => b
  | none => (zeroedSidecar (List.replicate (s.mem.granule cap g0) 0#8) (checkAddr cap g0)).bytes

/-- Bytes and, if given, a sidecar stored with no check and no log. -/
def State.memPoke (s : State) (cap : Bool) (a : Nat) (bs : List Byte) : State :=
  if cap then { s with mem := { s.mem with cap := Store.setRun 0#8 s.mem.cap a bs } }
  else { s with mem := { s.mem with dev := Store.setRun 0#8 s.mem.dev a bs } }

/-- A sidecar slot stored. -/
def State.sidePoke (s : State) (cap : Bool) (slot : Nat) (side : List Byte) : State :=
  if cap then { s with mem := { s.mem with capSide := Store.insert s.mem.capSide slot side } }
  else { s with mem := { s.mem with devSide := Store.insert s.mem.devSide slot side } }

/-- Stores of the current tick. -/
def State.recentStores (s : State) : List RecentStore := if s.mem.recentTick = s.tick then s.mem.recent else []

/-- The lines that a store covers whole lose their wrong symbols, whatever they held (R286). -/
def MemState.healLines (m : MemState) (cap : Bool) (a n : Nat) : MemState :=
  let lo := ceilDiv a 64
  let hi := (a + n) / 64
  if cap then { m with capBad := Store.clearRange m.capBad lo (hi - lo) }
  else { m with devBad := Store.clearRange m.devBad lo (hi - lo) }

/-- Whether any line is wrong: where none is, bytes are read as they were stored. -/
def MemState.sound (m : MemState) : Bool := m.devBad.isEmpty && m.capBad.isEmpty && m.capSideBad.isEmpty

/-- Bytes at an address with what is wrong in their lines. -/
def State.asRead (s : State) (cap : Bool) (a : Nat) (bs : List Byte) : List Byte :=
  if s.mem.sound then bs else wrongBytes (s.mem.lineWrong cap) a bs

/-- Bytes of device or capacity memory as a read of their lines gives them (R286, R300). -/
def State.givenBytes (s : State) (cap : Bool) (a n : Nat) : List Byte := s.asRead cap a (s.memBytes cap a n)

/-- Sidecar bytes of a slot with what is wrong in their line. -/
def State.sideAsRead (s : State) (cap : Bool) (slot : Nat) (b : List Byte) : List Byte :=
  if s.mem.sound then b
  else if cap then wrongBytes (fun l => lineBits (misread 4 (Store.get [] s.mem.capSideBad l))) (slot * 8) b
  else wrongBytes (s.mem.lineWrong false) (s.mem.userBytes + slot * 8) b

/-- A sidecar as a read of its line gives it. -/
def State.givenSide (s : State) (cap : Bool) (slot g0 : Nat) : List Byte := s.sideAsRead cap slot (s.sideBytes cap slot g0)

/-- The stores of this tick that stand over one of a rank (R291). -/
def State.standsOver (s : State) (cap : Bool) (rank : Nat) : List RecentStore :=
  s.recentStores.filter (fun r => r.capacity == cap && decide (rank < r.rank))

/-- Bytes stored with their commit tick now: those that a store of higher rank wrote at this tick keep its value (R291). -/
def State.rankedPoke (s : State) (cap : Bool) (a : Nat) (data : List Byte) (rank : Nat) : State :=
  let above := s.standsOver cap rank
  if above.isEmpty then s.memPoke cap a data
  else
    let old := s.memBytes cap a data.length
    s.memPoke cap a ((upTo data.length).map (fun i =>
      if above.any (fun r => decide (r.lo ≤ a + i) && decide (a + i < r.lo + r.n)) then old.getD i 0#8
      else data.getD i 0#8))

/-- Of the stores of this tick that stand over one, the lowest that matches, the earliest among equals. -/
def lowestStore (l : List RecentStore) (f : RecentStore → Bool) : Option RecentStore :=
  (l.filter f).foldl (fun best r => match best with
    | none => some r
    | some b => if r.rank ≤ b.rank then some r else some b) none

/-- The bytes that a store of a rank replaces: those before the stores of this tick that stand over it (R291, R340). -/
def State.oldBytes (s : State) (cap : Bool) (a n rank : Nat) : List Byte :=
  let above := s.standsOver cap rank
  let bs := s.memBytes cap a n
  if above.isEmpty then bs
  else (upTo n).map (fun i =>
    match lowestStore above (fun r => decide (r.lo ≤ a + i) && decide (a + i < r.lo + r.n)) with
    | some r => r.old.getD (a + i - r.lo) 0#8
    | none => bs.getD i 0#8)

/-- The sidecar that a store of a rank replaces. -/
def State.oldSide (s : State) (cap : Bool) (slot g0 rank : Nat) : List Byte :=
  match lowestStore (s.standsOver cap rank) (fun r => r.slot == slot) with
  | some r => r.oldSide
  | none => s.sideBytes cap slot g0

/-- A store noted among those of this tick; the lines that it covers whole are sound. -/
def State.noteStore (s : State) (r : RecentStore) : State :=
  { s with mem := { s.mem.healLines r.capacity r.lo r.n with recentTick := s.tick, recent := r :: s.recentStores } }

/-- A block's data and sidecar stored with its commit tick now (R291). -/
def State.commitBlock (s : State) (cap : Bool) (a slot : Nat) (data side : List Byte) (rank : Nat) : State :=
  let s1 := s.rankedPoke cap a data rank
  let s2 := if (s.standsOver cap rank).any (fun r => r.slot == slot) then s1 else s1.sidePoke cap slot side
  s2.noteStore ⟨cap, a, data.length, slot, rank, s.oldBytes cap a data.length rank, s.oldSide cap slot (s.mem.granStart cap a) rank⟩

/-- Bytes of device memory stored without a sidecar, with their commit tick now (R291, R314). -/
def State.rawStore (s : State) (a : Nat) (data : List Byte) (rank : Nat) : State :=
  (s.rankedPoke false a data rank).noteStore ⟨false, a, data.length, noSlot, rank, s.oldBytes false a data.length rank, []⟩

/-! Refresh windows (R199, R200, R206, R207, R301). -/

/-- Whether the controllers keep to compiled windows: normal service with STRICT set (R206, R207). -/
def State.compiled (s : State) : Bool :=
  s.img.strict && s.sch.phase == .normal && (s.sch.job == .running || s.sch.job == .rewinding)

/-- The refresh entries of the current span. -/
def State.refreshSet (s : State) : List Nat := ((s.curDesc.map (fun d => s.img.refresh.getD d.refSet [])).getD [])

/-- Whether a channel group of a stack is inside a compiled window at a tick (R199). -/
def State.inWindow (s : State) (stack group t : Nat) : Bool :=
  s.compiled && s.refreshSet.any (fun w =>
    fld w 0 3 == stack && bitAt (fld w 8 8) group && decide (fld w 16 11 ≤ t % 2048) &&
      decide (t % 2048 < fld w 16 11 + fld w 27 12))

/-- Whether a Gallery channel is inside its window at a tick (R301). -/
def galWindow (ch t : Nat) : Bool := t % 2048 / 64 == ch

/-- The first tick from `t` on at which nothing is busy; `n` bounds the search. -/
def waitOver (busy : Nat → Bool) : Nat → Nat → Nat
  | 0, t => t
  | n + 1, t => if busy t then waitOver busy n (t + 1) else t

/-- An access held until the windows that it meets are over, and counted (R200, R301). -/
def State.holdAccess (s : State) (page o : Nat) (busy : Nat → Bool) : State :=
  if busy s.tick then (elapseTo (waitOver busy 4096 s.tick) s).cnt page o 1 else s

/-- Stacks and groups of the stripes that `n` bytes from physical offset `o` on touch (R285). -/
def MemState.groups (m : MemState) (o n : Nat) : List (Nat × Nat) :=
  (upTo ((o + n - 1) / 256 + 1 - o / 256)).map (fun i => let g := m.hbmMap ((o / 256 + i) * 256); (g.1, g.2.1))

/-- An access to some channel groups waits for the end of their windows, and does not begin where it could not finish before one opens
(R200, R296). -/
def State.waitGroups (s : State) (l : List (Nat × Nat)) : State :=
  if s.compiled then
    s.holdAccess pgSCH 0x84 (fun t => l.any (fun g => (upTo (Config.accessTicks + 1)).any (fun i => s.inWindow g.1 g.2 (t + i))))
  else s

/-- Bridge channel of the line of a capacity sidecar slot: how the bridge lays out its sidecar area is open (log 46). -/
def galSideOf (slot : Nat) : Nat := Config.galSideChan (slot / 8) % 32

/-- The bridge channels of `n` bytes of capacity memory and of their sidecar slot. -/
def MemState.galChans (m : MemState) (a n slot : Nat) : List Nat :=
  (upTo ((a + n - 1) / 256 + 1 - a / 256)).map (fun i => m.galChan ((a / 256 + i) * 256)) ++ [galSideOf slot]

/-- An access to `n` bytes from `a` on with a sidecar slot, held out of refresh windows (R200, R301). -/
def State.refWait (s : State) (cap : Bool) (a n slot : Nat) : State :=
  if cap then
    let chans := s.mem.galChans a n slot
    s.holdAccess pgGAL 0x6C (fun t => chans.any (fun ch => galWindow ch t))
  else s.waitGroups (s.mem.groups a n ++ (if slot = noSlot then [] else s.mem.groups (s.mem.userBytes + slot * 8) 8))

/-- The channel that has stopped answering which `n` bytes from capacity offset `a` on, or their sidecar, touch (R302). -/
def State.failedChan (s : State) (a n slot : Nat) : Option Nat :=
  (s.mem.galChans a n slot).find? (fun ch => (Store.get {} s.mem.chans ch : GalChan).st == 3)

/-- A block store to device or capacity memory; one to a channel that has failed writes nothing and is a hardware fault (R291, R302). -/
def State.blockStore (s : State) (cap : Bool) (a slot : Nat) (data side : List Byte) (rank : Nat) : State :=
  match cap, s.failedChan a data.length slot with
  | true, some ch => (s.logErr pgGAL (1 * 2 ^ 28 + 4 * 2 ^ 24 + ch * 2 ^ 19) 0 0).raiseHw
  | _, _ => s.commitBlock cap a slot data side rank

/-! Loads and stores of one tick (R291). -/

/-- The loads of the current tick. -/
def State.recentLoads (s : State) : List RecentStore := if s.mem.loadTick = s.tick then s.mem.loads else []

/-- A load's stamp: the bytes and the slot that it reads. -/
def State.stampLoad (s : State) (cap : Bool) (a n slot : Nat) : State :=
  { s with mem := { s.mem with loadTick := s.tick, loads := ⟨cap, a, n, slot, 0, [], []⟩ :: s.recentLoads } }

/-- A store that finds a load of this tick on its bytes or its slot commits a tick later: every load gives what the stores up to its stamp
have written (R291; log 46). -/
def State.afterLoads (s : State) (cap : Bool) (a n slot : Nat) : State :=
  if s.recentLoads.any (fun r => r.capacity == cap && (r.slot == slot || (decide (r.lo < a + n) && decide (a < r.lo + r.n)))) then
    elapse 1 s
  else s

/-! Loads. -/

/-- A block or granule as read: bytes, sidecar, the address its check binds; whether a line was uncorrectable. -/
structure MemBlock where
  data : List Byte
  side : Sidecar
  sideRaw : List Byte
  addr : Nat
  bad : Bool
  deriving DecidableEq, Repr

/-- `n` bytes from `a` on with the sidecar of the first granule, whose slot is given (R288, R289, R291). -/
def State.memRead (s : State) (cap : Bool) (a n slot : Nat) : State × MemBlock :=
  let d := ((s.refWait cap a n slot).stampLoad cap a n slot).readLines cap a n
  let h := d.1.sideLine cap slot
  let b := s.givenSide cap slot (s.mem.granStart cap a)
  (h.1, ⟨s.givenBytes cap a n, Sidecar.ofBytes b, b, checkAddr cap a, d.2 || h.2⟩)

/-- `n` bytes of device memory from `a` on read without a sidecar: the bytes, and whether a line was uncorrectable (R286, R291, R314). -/
def State.rawLoad (s : State) (a n : Nat) : State × List Byte × Bool :=
  let d := ((s.refWait false a n noSlot).stampLoad false a n noSlot).readLines false a n
  (d.1, s.givenBytes false a n, d.2)

/-- What a store of a rank replaces, read for an undo log: bytes and sidecar, and whether a line was uncorrectable (R286, R340, R341). -/
def State.undoRead (s : State) (cap : Bool) (a n slot rank : Nat) : State × List Byte × List Byte × Bool :=
  let d := s.readLines cap a n
  let h := d.1.sideLine cap slot
  (h.1, s.asRead cap a (s.oldBytes cap a n rank),
    if slot = noSlot then [] else s.sideAsRead cap slot (s.oldSide cap slot (s.mem.granStart cap a) rank), d.2 || h.2)

/-- The stored CRC check of a load: under a ZEROED sidecar it covers the first granule's worth of bytes read, under a RAW one the
granule, and either binds the granule's address (R45, R46, R289; log 21). -/
def State.storedOk (s : State) (cap : Bool) (a : Nat) (b : MemBlock) : Bool :=
  if b.side.fmt = fmtZeroed then
    crc32c (b.data.take (s.mem.granule cap a) ++ b.sideRaw.take 4 ++ leBytes 8 (checkAddr cap (s.mem.granStart cap a))) == b.side.crc
  else if b.side.fmt = fmtRaw then
    let g := s.mem.granStart cap a
    crc32c (s.givenBytes cap g (s.mem.granule cap a) ++ b.sideRaw.take 4 ++ leBytes 8 (checkAddr cap g)) == b.side.crc
  else crc32c (b.data ++ b.sideRaw.take 4 ++ leBytes 8 b.addr) == b.side.crc

/-! The Sump (R292 to R294). -/

/-- Bytes of a line from `a` on covered by `n` bytes, as a 64-bit mask. -/
def lineMask (line a n : Nat) : Nat :=
  (upTo 64).foldl (fun m i => if decide (a ≤ line * 64 + i) && decide (line * 64 + i < a + n) then m + 2 ^ i else m) 0

/-- Mask of a whole line. -/
def fullMask : Nat := 2 ^ 64 - 1

/-- Highest entries count of a core brought up to date (SMP_COCC.MAX). -/
def State.sumpHigh (s : State) (c : Nat) : State :=
  let now := (s.mem.sump.filter (fun e => e.core == c)).length
  if Store.get 0 s.mem.sumpMax c < now then { s with mem := { s.mem with sumpMax := Store.set 0 s.mem.sumpMax c now } } else s

/-- The unit and granule start of a sidecar slot (R288). -/
def MemState.slotStart (m : MemState) (slot : Nat) : Nat :=
  let u := ((upTo 4352).filter (fun u => decide (sideBase m.gran u / 8 ≤ slot))).length - 1
  u * unitBytes + (slot - sideBase m.gran u / 8) * granBytes (m.granCode u)

/-- Eight bytes from byte `i` of a line changed where its read gave wrong bits and a write does not cover them. -/
def keepWrong (wrong : List Byte) (mask i : Nat) (bs : List Byte) : List Byte :=
  (upTo bs.length).map (fun k => if bitAt mask (i + k) then bs.getD k 0#8 else bs.getD k 0#8 ^^^ wrong.getD (i + k) 0#8)

/-- What a line's read gave wrong, written with it: a code word of its own from now on (R286). -/
def State.settleLine (s : State) (line mask : Nat) : State :=
  if (misread 3 (Store.get [] s.mem.devBad line)).isEmpty then s
  else
    let wrong := s.mem.lineWrong false line
    if line * 64 < s.mem.userBytes then s.memPoke false (line * 64) (keepWrong wrong mask 0 (s.memBytes false (line * 64) 64))
    else
      (upTo 8).foldl (fun a i =>
        let slot := (line * 64 - a.mem.userBytes) / 8 + i
        a.sidePoke false slot (keepWrong wrong mask (8 * i) (a.sideBytes false slot (a.mem.slotStart slot)))) s

/-- A line merged by read-modify-write: read, and written whole with the bytes of a mask where it could be corrected; true where it could
not, which is a hardware fault (R286, R292, R348). -/
def State.rmwNow (s : State) (line mask : Nat) : State × Bool :=
  let r := s.hbmLine line
  if r.2 then (r.1.raiseHw, true)
  else
    let s1 := r.1.settleLine line mask
    ({ s1 with mem := { s1.mem with devBad := Store.erase s1.mem.devBad line } }, false)

/-- A line merged once no window holds it up (R200). -/
def State.rmwLine (s : State) (line mask : Nat) : State × Bool := (s.waitGroups (s.mem.groups (line * 64) 64)).rmwNow line mask

/-- What a capacity line's read gave wrong, written with it. -/
def State.galSettle (s : State) (side : Bool) (line mask : Nat) : State :=
  let e := misread 4 (Store.get [] (if side then s.mem.capSideBad else s.mem.capBad) line)
  if e.isEmpty then s
  else if side then
    (upTo 8).foldl (fun a i =>
      let slot := line * 8 + i
      a.sidePoke true slot (keepWrong (lineBits e) mask (8 * i) (a.sideBytes true slot (slot * 64)))) s
  else s.memPoke true (line * 64) (keepWrong (lineBits e) mask 0 (s.memBytes true (line * 64) 64))

/-- A line of capacity memory, or of its sidecars, merged by read-modify-write once no window holds it up, as one of device memory is
(R286, R300, R301). -/
def State.galRmw (s : State) (side : Bool) (line mask : Nat) : State × Bool :=
  let ch := if side then galSideOf (line * 8) else s.mem.galChan (line * 64)
  let z := s.holdAccess pgGAL 0x6C (fun t => galWindow ch t)
  let r := if side then z.sideLine true (line * 8) else z.galLine line
  if r.2 then (r.1.raiseHw, true)
  else
    let s1 := r.1.galSettle side line mask
    (if side then { s1 with mem := { s1.mem with capSideBad := Store.erase s1.mem.capSideBad line } }
     else { s1 with mem := { s1.mem with capBad := Store.erase s1.mem.capBad line } }, false)

/-- The lines that `n` bytes from offset `o` on cover only in part, merged; those that could not be corrected (R286, R292). -/
def State.mergeLines (s : State) (rmw : State → Nat → Nat → State × Bool) (o n : Nat) : State × List Nat :=
  (upTo ((o + n - 1) / 64 + 1 - o / 64)).foldl (fun p i =>
    let m := lineMask (o / 64 + i) o n
    if m = fullMask then p
    else
      let r := rmw p.1 (o / 64 + i) m
      (r.1, if r.2 then (o / 64 + i) :: p.2 else p.2)) (s, [])

/-- The partial lines of a block's bytes and of its sidecar slot merged: the lines of data, and whether the sidecar's, could not be
corrected and so take nothing of the store (R286, R292, R300). -/
def State.mergeBlock (s : State) (cap : Bool) (a n slot : Nat) : State × List Nat × Bool :=
  let d := s.mergeLines (if cap then fun z => z.galRmw false else fun z => z.rmwLine) a n
  if slot = noSlot then (d.1, d.2, false)
  else
    let h := d.1.mergeLines (if cap then fun z => z.galRmw true else fun z => z.rmwLine) ((if cap then 0 else s.mem.userBytes) + slot * 8) 8
    (h.1, d.2, !h.2.isEmpty)

/-- Bytes to be stored, with those of lines that take nothing as they stand. -/
def State.takenBytes (s : State) (cap : Bool) (bad : List Nat) (a : Nat) (data : List Byte) : List Byte :=
  if bad.isEmpty then data
  else
    let now := s.memBytes cap a data.length
    (upTo data.length).map (fun i => if bad.contains ((a + i) / 64) then now.getD i 0#8 else data.getD i 0#8)

/-- A block store that merges its own partial lines first: that of the update unit, of the host, and of DMA to capacity memory (R286,
R292, R300). -/
def State.mergeStore (s : State) (cap : Bool) (a slot : Nat) (data side : List Byte) (rank : Nat) : State :=
  let m := s.mergeBlock cap a data.length slot
  m.1.blockStore cap a slot (m.1.takenBytes cap m.2.1 a data)
    (if m.2.2 then m.1.sideBytes cap slot (m.1.mem.granStart cap a) else side) rank

/-- Bytes stored without a sidecar, their partial lines merged first. -/
def State.mergeRaw (s : State) (a : Nat) (data : List Byte) (rank : Nat) : State :=
  let m := s.mergeBlock false a data.length noSlot
  m.1.rawStore a (m.1.takenBytes false m.2.1 a data) rank

/-! Open entries. -/

/-- A mismatch of the Sump's duplicated logic, if one shows itself (R305, R348; log 56). -/
def State.sumpCompare (s : State) : State :=
  match s.takeSlip pgSMP with
  | (none, _) => s
  | (some _, s1) => ((s1.logErr pgSMP (1 * 2 ^ 28 + 3 * 2 ^ 24) 0 0).setInt pgSMP 2).raiseHw

/-- A line as it stands: its bytes, or its eight sidecar slots (R285). -/
def State.lineHeld (s : State) (line : Nat) : List Byte × List (Option (List Byte)) :=
  if line * 64 < s.mem.userBytes then (s.memBytes false (line * 64) 64, [])
  else ([], (upTo 8).map (fun i => Store.find s.mem.devSide ((line * 64 - s.mem.userBytes) / 8 + i)))

/-- Bits of a mask that fall in slot `i` of a line. -/
def slotMask (mask i : Nat) : Nat := mask / 2 ^ (8 * i) % 2 ^ 8

/-- An entry's record of what it replaced, with a later write of mask `m` that found the line as `held`. -/
def SumpEntry.combine (e : SumpEntry) (m : Nat) (held : List Byte × List (Option (List Byte))) : SumpEntry :=
  { e with
    mask := e.mask ||| m
    old := (upTo e.old.length).map (fun i => if bitAt e.mask i then e.old.getD i 0#8 else held.1.getD i 0#8)
    sides := (upTo e.sides.length).map (fun i => if slotMask e.mask i = 0 then held.2.getD i none else e.sides.getD i none) }

/-- An entry discarded: its bytes are again those it replaced (R295). -/
def State.sumpDiscard (s : State) (e : SumpEntry) : State :=
  let s1 := { s with mem := { s.mem with sump := s.mem.sump.filter (fun x => !(x.core == e.core && x.line == e.line)) } }
  let now := s1.memBytes false (e.line * 64) 64
  let s2 := if e.old.isEmpty then s1
    else s1.memPoke false (e.line * 64) ((upTo 64).map (fun i => if bitAt e.mask i then e.old.getD i 0#8 else now.getD i 0#8))
  (upTo e.sides.length).foldl (fun a i =>
    let slot := (e.line * 64 - a.mem.userBytes) / 8 + i
    if slotMask e.mask i = 0 then a
    else match e.sides.getD i none with
    | some b => a.sidePoke false slot b
    | none => { a with mem := { a.mem with devSide := Store.erase a.mem.devSide slot } }) s2

/-- Every open entry discarded at a rewind, the newest first (R295). -/
def State.sumpDrop (s : State) : State := s.mem.sump.reverse.foldl (fun a e => a.sumpDiscard e) s

/-- The line of an entry merged by read-modify-write; of an entry whose line cannot be corrected nothing is written (R286, R292). -/
def State.sumpMerge (s : State) (e : SumpEntry) : State :=
  let r := s.rmwLine e.line e.mask
  if r.2 then r.1.sumpDiscard e else r.1

/-- A slice overflow: the line is merged without an entry, and the first overflow in a span is a schedule fault (R293). -/
def State.sumpOverflow (s : State) (c stream : Nat) (e : SumpEntry) : State :=
  let line := e.line
  let m := (e.stack, e.group)
  let s1 := (s.sumpMerge e).cnt pgSMP 0x64 1
  if s1.mem.sumpOvf then s1
  else
    (((({ s1 with mem := { s1.mem with sumpOvf := true } }).logErr pgSMP
      (3 * 2 ^ 28 + 2 * 2 ^ 24 + m.1 * 2 ^ 21 + m.2 * 2 ^ 18 + stream * 2 ^ 13 + c) line (line / 2 ^ 32)).setInt pgSMP
        3)).raiseSched

/-- The single-bit errors of an entry corrected as it closes, and counted (R292). -/
def State.sumpCorrect (s : State) (e : SumpEntry) : State :=
  let ones := (e.ecc.filter (fun p => p.2 == 1)).length
  if ones = 0 then s else (s.cnt pgSMP 0x68 ones).setInt pgSMP 0

/-- An entry that cannot be corrected: a hardware fault, and nothing of it is written (R292; log 46). -/
def State.sumpLost (s : State) (e : SumpEntry) : State :=
  (((s.sumpDiscard e).logErr pgSMP (1 * 2 ^ 28 + 1 * 2 ^ 24 + e.stack * 2 ^ 21 + e.group * 2 ^ 18 + e.core) e.line
    (e.line / 2 ^ 32)).setInt pgSMP 2).raiseHw

/-- An entry closed: whole lines and read-modify-writes counted (R292). -/
def State.sumpCloseEntry (s0 : State) (e : SumpEntry) : State :=
  let s := s0.sumpCompare.sumpCorrect e
  if e.ecc.any (fun p => p.2 != 1) then s.sumpLost e
  else
    let s1 := { s with mem := { s.mem with sump := s.mem.sump.filter (fun x => !(x.core == e.core && x.line == e.line)) } }
    if e.mask = fullMask then
      let s2 := s1.waitGroups [(e.stack, e.group)]
      ({ s2 with mem := { s2.mem with devBad := Store.erase s2.mem.devBad e.line } }).cnt64 pgSMP 0x50 1
    else (s1.sumpMerge e).cnt64 pgSMP 0x58 1

/-- Every entry whose 64 ticks have passed closed, oldest first (R292). -/
def State.sumpDue (s : State) : State :=
  (s.mem.sump.filter (fun e => decide (e.tick + 64 ≤ s.tick))).foldl (fun a e => a.sumpCloseEntry e) s

/-- A partial write of core `c` to one line of device memory, by physical line number, that found the line as `held` (R292 to
R294). -/
def State.sumpWrite (s : State) (c stream line mask : Nat) (held : List Byte × List (Option (List Byte))) : State :=
  match s.mem.sump.find? (fun e => e.core == c && e.line == line) with
  | some e =>
    let e1 := e.combine mask held
    let s1 := { s with mem := { s.mem with sump := s.mem.sump.map (fun x => if x = e then e1 else x) } }
    if e1.mask = fullMask then s1.sumpCloseEntry e1 else s1
  | none =>
    let m := s.mem.hbmMap (line * 64)
    let bank := s.mem.sump.filter (fun e => e.stack == m.1 && e.group == m.2.1)
    let entry : SumpEntry := { core := c, line := line, mask := mask, tick := s.tick, stack := m.1, group := m.2.1
                               old := held.1, sides := held.2 }
    let add := fun (z : State) =>
      ({ z with mem := { z.mem with sump := z.mem.sump ++ [{ entry with tick := z.tick }] } }).sumpHigh c
    if !s.mem.relaxed then
      if (bank.filter (fun e => e.core == c)).length < 2 then add s else s.sumpOverflow c stream entry
    else if bank.length < 512 then add s
    else
      match bank with
      | [] => s
      | old :: _ =>
        -- the write waits until the bank's oldest entry has closed
        add ((elapseTo (old.tick + 64) ((s.cnt pgSMP 0x60 (old.tick + 64 - s.tick)).setInt pgSMP 1)).sumpCloseEntry old)

/-- The partial lines of a run of bytes, from physical offset `o`, put into the Sump; lines covered whole bypass it (R292). `before` is
the machine as the run's store found it. -/
def State.sumpRun (s : State) (before : State) (c stream o n : Nat) : State :=
  (upTo ((o + n - 1) / 64 + 1 - o / 64)).foldl (fun a i =>
    let m := lineMask (o / 64 + i) o n
    if m = fullMask then a else a.sumpWrite c stream (o / 64 + i) m (before.lineHeld (o / 64 + i))) s.sumpDue.sumpCompare

/-! Stores. -/

/-- Whether a device memory block has a byte in a range the current span retains (R338, R342). -/
def State.retainedDev (s : State) (a n : Nat) : Bool :=
  match s.curDesc with
  | none => false
  | some d =>
    match s.img.retain.lists[d.retain]? with
    | none => false
    | some (first, count) =>
      ((s.img.retain.ranges.drop first).take count).any (fun r =>
        r.space == 2 && decide (r.base < a + n) && decide (a < r.base + 64 * r.lines))

/-- Bytes that device memory records take (R340). -/
def devRecBytes (l : List DevRec) : Nat := (l.map (fun r => 24 + r.data.length)).foldl (· + ·) 0

/-- A block store of core `c`'s DMA engine (R291, R292, R340, R342): logged where it is retained, discarded where the log is full, and not
made where what it replaces cannot be read, whose address it then answers. -/
def State.dmaStore (s : State) (c stream : Nat) (cap : Bool) (a slot : Nat) (data side : List Byte) : State × Option Nat :=
  let z := (s.refWait cap a data.length slot).afterLoads cap a data.length slot
  let store := fun (z0 : State) =>
    if cap then z0.mergeStore true a slot data side (c + 1)
    else
      let z1 := z0.blockStore false a slot data side (c + 1)
      (z1.sumpRun z0 c stream a data.length).sumpRun z0 c stream (z0.mem.userBytes + slot * 8) 8
  if cap || !(s.logs && s.retainedDev a data.length) then (store z, none)
  else
    let u := (s.core c).undo
    if u.ovf then (s, none)
    else
      let o := z.undoRead false a data.length slot (c + 1)
      let devs := u.devs ++ [⟨a, false, o.2.1, o.2.2.1, o.1.tick, c⟩]
      let n := devRecBytes devs
      if o.2.2.2 then (o.1, some a)
      else if n ≤ s.img.retain.dmemKib * 1024 then
        (store (o.1.modCore c (fun k => { k with undo := { k.undo with devs := devs, maxDev := max k.undo.maxDev n } })), none)
      else
        (((s.modCore c (fun k => { k with undo := { k.undo with ovf := true } })).pieErr 3 5 c s.devId).raiseSched, none)

end Sys2Proof.Machine
end

