-- ==== Sys2Proof/Machine/UpdFields.lean ====
section
/-! DEFINITION. Fields of the UPDATE section (R314, R315) and of update program instructions (R318), and where blocks, version
bits and journal records lie (R314, R316, R326). -/

namespace Sys2Proof.Machine

open Sys2Proof

/-! Header (R314). -/

def uhNprog (b : List Byte) : Nat := leAt b 0 2
def uhNgroup (b : List Byte) : Nat := leAt b 2 2
def uhNtab (b : List Byte) : Nat := leAt b 4 1
def uhStepDesc (b : List Byte) : Nat := leAt b 6 2
def uhJbase (b : List Byte) : Nat := leAt b 8 8
def uhVbytes (b : List Byte) : Nat := leAt b 16 4

/-! Group records (R315). -/

def ugProg (b : List Byte) : Nat := leAt b 0 1
def ugDelay (b : List Byte) : Nat := leAt b 1 1
def ugStart (b : List Byte) : Nat := leAt b 2 2
def ugNbank (b : List Byte) : Nat := leAt b 4 2
def ugCtx (b : List Byte) : Nat := leAt b 6 2
def ugCount (b : List Byte) : Nat := leAt b 8 4
def ugStream (b : List Byte) : Nat := leAt b 12 4
def ugTensor (b : List Byte) : Nat := leAt b 16 2
def ugSeep (b : List Byte) : Nat := leAt b 18 1
def ugKbank (b : List Byte) : Nat := leAt b 19 1
def ugVoff (b : List Byte) : Nat := leAt b 20 4
def ugFmt (b : List Byte) (slot : Nat) : Nat := fld (leAt b 24 4) (4 * slot) 4
/-- 0 none, 1 device, 2 capacity. -/
def ugSpace (b : List Byte) (slot : Nat) : Nat := fld (leAt b 28 2) (2 * slot) 2
def ugPeriod (b : List Byte) : Nat := leAt b 30 2
def ugBase (b : List Byte) (slot : Nat) : Nat := leAt b (32 + 8 * slot) 8
def ugGstride (b : List Byte) : Nat := leAt b 72 8
def ugBankStride (b : List Byte) : Nat := leAt b 80 8
def ugKbase (b : List Byte) : Nat := leAt b 88 8
/-- CONST k: value and exponent. -/
def ugConst (b : List Byte) (k : Nat) : Int × Int :=
  (sext 24 (leAt b (96 + 4 * k) 4), sext 8 (leAt b (99 + 4 * k) 1))

/-- Data bytes of a block of a slot; S4's where the code names no format. -/
def ugBytes (b : List Byte) (slot : Nat) : Nat := ((Fmt.ofCode (ugFmt b slot)).getD .s4).bytes

/-- Slots of a group that have a space. -/
def ugSlots (b : List Byte) : List Nat := (upTo 5).filter (fun s => ugSpace b s != 0)

/-- LEAD: 512 ticks where every slot lies in device memory, else 1,024 (R321). -/
def ugLead (b : List Byte) : Nat := if (ugSlots b).all (fun s => ugSpace b s == 1) then 512 else 1024

/-- The address of block `i` of bank `v` in a slot, for the gradients of step `step` (R316). -/
def ugAddr (b : List Byte) (slot v i step : Nat) : Nat :=
  ugBase b slot + v * ugBankStride b + i * ugBytes b slot +
    (if slot = 1 then step % (ugDelay b + 1) * ugGstride b else 0)

/-! Shares (R316, R321). -/

/-- Whether block `i` of bank `v` is in engine `e`'s share: its P block's first byte lies on stack Me. -/
def MemState.inShare (m : MemState) (g : List Byte) (e v i : Nat) : Bool := (m.hbmMap (ugAddr g 0 v i 0)).1 == e

/-- The first block of a share at or after block `i` of bank `v`; `n` bounds the search. -/
def MemState.shareFrom (m : MemState) (g : List Byte) (e : Nat) : Nat → Nat → Nat → Option (Nat × Nat)
  | 0, _, _ => none
  | n + 1, v, i =>
    if ugNbank g ≤ v then none
    else if ugCount g ≤ i then MemState.shareFrom m g e n (v + 1) 0
    else if m.inShare g e v i then some (v, i)
    else MemState.shareFrom m g e n v (i + 1)

/-- The next block of engine `e`'s share. A stack in service holds a block at least once in 72 of a bank, so the bound covers
every bank. -/
def MemState.nextShare (m : MemState) (g : List Byte) (e v i : Nat) : Option (Nat × Nat) :=
  if m.stacks.contains e then m.shareFrom g e (2 ^ 17) v i else none

/-- The place after the first `n` blocks of a share: the next bank and block to look at. -/
def MemState.shareAfter (m : MemState) (g : List Byte) (e : Nat) : Nat → Nat → Nat → Nat × Nat
  | 0, v, i => (v, i)
  | n + 1, v, i =>
    match m.nextShare g e v i with
    | none => (ugNbank g, 0)
    | some x => MemState.shareAfter m g e n x.1 (x.2 + 1)

/-- The UPDATE section of the held image, and a group of it. -/
def State.upd (s : State) : UpdSection := s.img.update
def State.updGroup (s : State) (g : Nat) : List Byte := (s.upd.groups.getD g ⟨[]⟩).raw

/-! Blocks in flight (R321, R325). -/

/-- Whether an engine carries a block. -/
def UpdEngine.busy (x : UpdEngine) : Bool := x.cur.isSome || !x.tail.isEmpty

/-- Blocks that an engine holds for reading, 64 at most (R325). -/
def UpdEngine.reading (x : UpdEngine) : Nat := b2n x.cur.isSome + x.ahead.length

/-- A block put behind those being read. -/
def UpdEngine.push (x : UpdEngine) (b : UpdBlock) : UpdEngine :=
  match x.cur with
  | none => { x with cur := some b }
  | some _ => { x with ahead := x.ahead ++ [b] }

/-- The engine turns to the next block being read that it does not withhold (R323). -/
def UpdEngine.turn (x : UpdEngine) : UpdEngine :=
  let l := x.ahead.dropWhile (fun b => x.pos.faulted.contains b.bank)
  { x with cur := l.head?, ahead := l.tail }

/-- Sweep ticks of a span of some frames for a group (R321). -/
def spanSweep (frames quiet lead : Nat) : Nat := 2048 * frames - quiet - (lead + 128)

/-- Sweep ticks of the spans from a sweep's first one up to the present one (R321). -/
def State.sweepBase (s : State) (p : UpdPos) (lead : Nat) : Nat :=
  ((upTo (s.sch.seq - p.startSpan)).map (fun i =>
    spanSweep (((s.img.spanDesc (p.startSpan + i)).map (·.frames)).getD 0) s.quiet lead)).foldl (· + ·) 0

/-- The tick at which an engine's next block begins its reads, at the earliest, unless it falls in a later span (R321). -/
def State.blockTick (s : State) (p : UpdPos) (g : List Byte) : Option Nat :=
  let u := p.done * ugPeriod g + p.delay - s.sweepBase p (ugLead g)
  if u < spanSweep s.curFrames s.quiet (ugLead g) then some (s.sch.first + u) else none

/-- STATE of UPD STAT of an engine (R334; log 51). -/
def State.updState (s : State) (e : Nat) : Nat :=
  let x : UpdEngine := Store.get {} s.train.engines e
  if x.jreplay then 4
  else if x.pos.active then
    (if (s.mem.nextShare (s.updGroup x.pos.group) e x.pos.bank x.pos.block).isNone then 3 else 2)
  else if s.sch.job == .running && decide (0 < s.upd.groups.length) then 1 else 0

/-! Instructions (R318). -/

def uiOp (w : Nat) : Nat := fld w 26 6
def uiRd (w : Nat) : Nat := fld w 22 4
def uiRa (w : Nat) : Nat := fld w 18 4
def uiRb (w : Nat) : Nat := fld w 14 4
def uiRnd (w : Nat) : Bool := bitAt w 13
def uiSlot (w : Nat) : Nat := fld w 0 3
def uiPolicy (w : Nat) : Policy := Policy.ofBits (fld w 3 2)
def uiFix (w : Nat) : Int := sext 8 (fld w 5 8)
def uiK (w : Nat) : Nat := fld w 0 4
def uiN (w : Nat) : Nat := fld w 0 6
def uiTable (w : Nat) : Nat := fld w 0 2

/-- The fields an instruction uses beside OP (low bit, width); an OP that is reserved uses none (R318). RND belongs to MUL,
SHR and ST alone (R320; log 28). -/
def uiUsed (op : Nat) : List (Nat × Nat) :=
  let rd := (22, 4)
  let ra := (18, 4)
  let rb := (14, 4)
  match op with
  | 0x01 => [rd, (0, 3)]
  | 0x02 => [ra, (13, 1), (0, 13)]
  | 0x03 => [rd, ra, rb]
  | 0x04 => [rd, ra, rb]
  | 0x05 => [rd, ra, rb, (13, 1)]
  | 0x06 => [rd, ra, (0, 4)]
  | 0x07 => [rd, ra, (0, 4)]
  | 0x08 => [rd, ra, (13, 1), (0, 6)]
  | 0x09 => [rd, ra, (0, 6)]
  | 0x0A => [rd, ra, rb]
  | 0x0B => [rd, ra, rb]
  | 0x0C => [rd, ra]
  | 0x0D => [rd, ra]
  | 0x0E => [rd, ra, rb]
  | 0x0F => [rd, ra, rb]
  | 0x10 => [rd, ra, (0, 2)]
  | 0x11 => [rd, ra, (0, 4)]
  | _ => []

/-- Whether an instruction word has a reserved OP or a bit set outside its fields. -/
def uiBad (w : Nat) : Bool :=
  uiOp w == 0 || decide (0x12 < uiOp w) || clearFields (w % 2 ^ 26) (uiUsed (uiOp w)) != 0

/-- The instructions of a program up to its END, with it; all of them where it has none. -/
def uiBody : List Nat → List Nat
  | [] => []
  | w :: ws => if uiOp w = 0x12 then [w] else w :: uiBody ws

/-- Whether an instruction is a use of the group's stream ID (R320). -/
def uiDraws (w : Nat) : Bool := uiRnd w && (uiOp w == 5 || uiOp w == 8 || uiOp w == 2)

/-- The slots a program loads, and those it stores, in order. -/
def uiLoads (p : List Nat) : List Nat := (p.filter (fun w => uiOp w == 1)).map uiSlot
def uiStores (p : List Nat) : List Nat := (p.filter (fun w => uiOp w == 2)).map uiSlot

/-! Layout (R314, R326). -/

/-- Bytes of a journal record, records of a ring, bytes of a ring, of the journal area. -/
def jrnlBytes : Nat := 2048
def jrnlRecords : Nat := 256
def jrnlRing : Nat := 512 * 1024
def jrnlArea : Nat := 4 * 2 ^ 20

/-- The program of a group, up to its END. -/
def State.updProg (s : State) (b : List Byte) : List Nat := uiBody (s.upd.progs.getD (ugProg b) [])

/-- Device address of record `i` of engine `e`'s ring. -/
def State.jrnlAt (s : State) (e i : Nat) : Nat := uhJbase s.upd.header + e * jrnlRing + i % jrnlRecords * jrnlBytes

/-- Device address of the byte of the version bitmap that holds bit `n`. -/
def State.verAt (s : State) (n : Nat) : Nat := uhJbase s.upd.header + jrnlArea + n / 8

end Sys2Proof.Machine
end

