-- ==== Sys2Proof/Machine/LoadParse.lean ====
section
/-! DEFINITION. The schedule image taken apart (R182, R183, R188, R190, R191, R199, R201, R228, R229, R308, R314, R337, R338,
R396, R408): directory, sections, and the held image they give. -/

namespace Sys2Proof.Machine

open Sys2Proof

/-- A directory entry with its index (R183). -/
structure DirEnt where
  idx : Nat
  ty : Nat
  resv : Nat
  count : Nat
  off : Nat
  deriving DecidableEq, Repr

/-- The section directory of an image. -/
def imgDir (b : List Byte) : List DirEnt :=
  (upTo (leAt b 10 2)).map (fun i =>
    ⟨i, leAt b (64 + 16 * i) 2, leAt b (66 + 16 * i) 2, leAt b (68 + 16 * i) 4, leAt b (72 + 16 * i) 8⟩)

/-- The entry of a section type, if the image has it. -/
def imgEnt (b : List Byte) (ty : Nat) : Option DirEnt := (imgDir b).find? (fun e => e.ty == ty)

/-- The image from the first byte of a section on; empty without the section. -/
def imgSec (b : List Byte) (ty : Nat) : List Byte :=
  match imgEnt b ty with
  | some e => b.drop e.off
  | none => []

/-- COUNT of a section, 0 without it. -/
def imgCount (b : List Byte) (ty : Nat) : Nat := ((imgEnt b ty).map (·.count)).getD 0

/-- Directory index of a section; 0xFF without it. -/
def imgIdx (b : List Byte) (ty : Nat) : Nat := ((imgEnt b ty).map (·.idx)).getD 0xFF

/-! Sections of varying record size. -/

/-- A slot table: the record number of its header (R512), the header, its entries. -/
structure SlotTab where
  record : Nat
  head : Nat
  entries : List Nat
  deriving DecidableEq, Repr

def SlotTab.port (t : SlotTab) : Nat := fld t.head 0 8
def SlotTab.count (t : SlotTab) : Nat := fld t.head 16 16

/-- `n` slot tables back to back (R183, R190); `r` is the number of the next record. -/
def slotTabs : Nat → Nat → List Byte → List SlotTab
  | 0, _, _ => []
  | n + 1, r, b =>
    if b.isEmpty then []
    else
      let c := leAt b 2 2
      ⟨r, leAt b 0 16, leRecs b 16 8 c⟩ :: slotTabs n (r + 1 + c) (b.drop (16 + 8 * c))

/-- A refresh set: the record number of its COUNT, its entries (R199). -/
structure RefSet where
  record : Nat
  entries : List Nat
  deriving DecidableEq, Repr

/-- `n` refresh sets back to back (R183, R199). -/
def refSets : Nat → Nat → List Byte → List RefSet
  | 0, _, _ => []
  | n + 1, r, b =>
    if b.isEmpty then []
    else
      let c := leAt b 0 2
      ⟨r, leRecs b 2 8 c⟩ :: refSets n (r + 1 + c) (b.drop (2 + 8 * c))

def imgSlots (b : List Byte) : List SlotTab := slotTabs (imgCount b 6) 0 (imgSec b 6)
def imgRefresh (b : List Byte) : List RefSet := refSets (imgCount b 7) 0 (imgSec b 7)

/-! Records by section. -/

def imgPieces (b : List Byte) : List Nat := leRecs (imgSec b 2) 0 16 (imgCount b 2)
def pcCore (w : Nat) : Nat := fld w 0 8
def pcKind (w : Nat) : Nat := fld w 8 8
def pcAddr (w : Nat) : Nat := fld w 32 32
def pcLen (w : Nat) : Nat := fld w 64 32
def pcOff (w : Nat) : Nat := fld w 96 32
/-- The bytes of a CODE piece. -/
def pcBytes (b : List Byte) (w : Nat) : List Byte := ((imgSec b 2).drop (pcOff w)).take (pcLen w)

/-- ASSIGN maps: 4,096 context IDs each. -/
def imgAssign (b : List Byte) : List (List Nat) :=
  (upTo (imgCount b 3)).map (fun m => leRecs (imgSec b 3) (8192 * m) 2 4096)
/-- THREADS records, entry PC in [31:0] and window in [63:32]. -/
def imgThreads (b : List Byte) : List Nat := leRecs (imgSec b 4) 0 8 4096
def imgSpans (b : List Byte) : List Nat := leRecs (imgSec b 5) 0 16 (leAt b 54 2)
def spanOf (w : Nat) : SpanDesc :=
  { frames := fld w 0 4, vfNext := fld w 4 3, vfKeep := bitAt w 7, replica := bitAt w 8, assign := fld w 16 16
    retain := fld w 32 16, slotBase := fld w 48 16, refSet := fld w 64 16, wakeFirst := fld w 80 16
    wakeCount := fld w 96 16 }
def imgWake (b : List Byte) : List Nat := leRecs (imgSec b 8) 0 4 (imgCount b 8)
def imgRoutes (b : List Byte) : List Nat := leRecs (imgSec b 9) 16 8 (imgCount b 9)
def imgLists (b : List Byte) : List Nat := leRecs (imgSec b 10) 32 8 (leAt (imgSec b 10) 0 2)
def imgRanges (b : List Byte) : List Nat :=
  leRecs (imgSec b 10) (32 + 8 * leAt (imgSec b 10) 0 2) 16 (imgCount b 10)
def rangeOf (w : Nat) : Range :=
  { base := fld w 0 64, lines := fld w 64 32, space := fld w 96 8, core := fld w 104 8, all := bitAt w 112 }
def imgNctx (b : List Byte) : Nat := leAt (imgSec b 11) 0 2
def imgNgrant (b : List Byte) : Nat := leAt (imgSec b 11) 2 4
def imgCtxs (b : List Byte) : List Nat := leRecs (imgSec b 11) 16 16 (imgNctx b)
def imgGrants (b : List Byte) : List Nat := leRecs (imgSec b 11) (16 + 16 * imgNctx b) 16 (imgNgrant b)
def ctxOf (w : Nat) : CtxRec :=
  { id := fld w 0 16, grace := fld w 16 8, devQ := fld w 32 32, capQ := fld w 64 32, keyQ := fld w 96 16 }
def grantOf (w : Nat) : GrantRec :=
  { first := fld w 0 32, count := fld w 32 32, ctx := fld w 64 16, space := fld w 80 8, w := bitAt w 88
    shared := bitAt w 89, core := fld w 96 8, all := bitAt w 104 }
def imgKeys (b : List Byte) : List Nat := leRecs (imgSec b 12) 16 8 (leAt (imgSec b 12) 0 2)
def imgAmax (b : List Byte) : List Nat := leRecs (imgSec b 14) 16 8 (imgCount b 14)
def amTensor (w : Nat) : Nat := fld w 0 16
def amFmt (w : Nat) : Nat := fld w 16 8
def amDrop (w : Nat) : Nat := fld w 24 8
def amDepth (w : Nat) : Nat := fld w 32 8
def amSkipAll (w : Nat) : Bool := bitAt w 40
def amCtx (w : Nat) : Nat := fld w 48 16

/-- Byte in the UPDATE section at which programs, tables and groups begin (R314). -/
def updTabAt (u : List Byte) : Nat := 64 + 256 * uhNprog u
def updGroupAt (u : List Byte) : Nat := updTabAt u + 2064 * uhNtab u
def imgProgs (u : List Byte) : List (List Nat) := (upTo (uhNprog u)).map (fun i => leRecs u (64 + 256 * i) 4 64)
def imgTables (u : List Byte) : List (List Byte) := (upTo (uhNtab u)).map (fun i => (u.drop (updTabAt u + 2064 * i)).take 2064)
def imgGroups (u : List Byte) : List (List Byte) :=
  (upTo (uhNgroup u)).map (fun i => (u.drop (updGroupAt u + 160 * i)).take 160)

/-- STEP_DESC of the UPDATE section, else of the AMAX section (R307). -/
def imgStep (b : List Byte) : Option Nat :=
  if (imgEnt b 13).isSome then some (uhStepDesc (imgSec b 13))
  else if (imgEnt b 14).isSome then some (leAt (imgSec b 14) 0 2)
  else none

/-- The context IDs of a map by global thread, 0 where none is listed. -/
def assignOf (l : List Nat) : Store Nat := Store.setRun 0 [] 0 l

/-- The held image that the bytes of an image give. -/
def parseImage (b : List Byte) : Image :=
  let r := imgSec b 10
  let u := imgSec b 13
  { strict := bitAt (leAt b 7 1) 0, digest := leAt b 24 8, seed := leAt b 32 8, devId := leAt b 40 2
    coord := (upTo 4).map (fun i => leAt b (42 + i) 1), extent := (upTo 4).map (fun i => leAt b (46 + i) 1)
    fmax := leAt b 50 2, undoKib := leAt b 52 2, repeat_ := leAt b 56 4, vfStart := leAt b 60 1
    code := (imgPieces b).map (fun w => ⟨pcCore w, pcKind w, pcAddr w, pcBytes b w⟩)
    assign := (imgAssign b).map assignOf
    threads := (upTo 4096).map (fun g => (g, ((imgThreads b).getD g 0 % 2 ^ 32, (imgThreads b).getD g 0 / 2 ^ 32)))
    spans := (imgSpans b).map spanOf
    slots := (imgSlots b).foldl (fun m t => Store.insert m t.port t.entries) []
    refresh := (imgRefresh b).map (·.entries)
    wake := imgWake b
    routesHead := (imgSec b 9).take 16, routes := imgRoutes b
    retain := { flood := leAt r 2 2, restore := leAt r 4 2, roundSlots := leAt r 6 1, dmemKib := leAt r 7 1
                udoBase := leAt r 8 8, udoKib := leAt r 16 4
                lists := (imgLists b).map (fun w => (w % 2 ^ 32, w / 2 ^ 32)), ranges := (imgRanges b).map rangeOf }
    ctxs := (imgCtxs b).map ctxOf, grants := (imgGrants b).map grantOf
    zeroDevKib := leAt (imgSec b 11) 6 2, zeroCapKib := leAt (imgSec b 11) 8 2
    keys := imgKeys b
    update := { header := u.take 64, progs := imgProgs u, tables := imgTables u, groups := (imgGroups u).map (fun g => ⟨g⟩) }
    stepDesc := imgStep b
    amax := (imgAmax b).map (leBytes 8) }

end Sys2Proof.Machine
end

