-- ==== Sys2Proof/Machine/Shape.lean ====
section
/-! DEFINITION. The shape descriptor (R13 to R18) as the device presents it in the GEN page and in reply to the shape
query. -/

namespace Sys2Proof.Machine

open Sys2Proof

/-- LOGICAL_CORE_MASK: every coordinate that a working core serves (R18). -/
def State.coreMask (s : State) : Nat := (upTo 256).foldl (fun m i => if s.rst.absent.contains i then m else m + 2 ^ i) 0

/-- Whether a logical core is present (R18). -/
def State.corePresent (s : State) (c : Nat) : Bool := decide (c < 256) && !s.rst.absent.contains c

/-- GAL_CHAN_MASK: the channels that hold capacity memory (R16, R302). -/
def State.galMask (s : State) : Nat :=
  if s.mem.galUp then (upTo 32).foldl (fun m i => if s.mem.retired.contains i then m else m + 2 ^ i) 0 else 0

/-- The fields of the descriptor in order, as (bytes, value) (R16). -/
def State.shapeFields (s : State) : List (Nat × Nat) :=
  [(2, 1), (1, 1), (1, s.bin), (2, Config.fmaxMhz s.bin), (1, 8), (1, 16), (1, 16), (1, 16),
   (2, 256 - s.rst.absent.length), (2, 128), (2, 128), (1, 64), (1, 8), (1, 6), (1, 128), (4, 8192), (2, 1024), (1, 32),
   (1, 6), (1, 8), (1, s.mem.stackMask), (2, s.mem.sidecarGib), (4, s.mem.userBytes / 2 ^ 20),
   (4, s.mem.capExtent / 2 ^ 20), (4, s.galMask), (4, 0xFF), (4, s.portMask), (2, 32), (1, 30), (1, 64)] ++
  [(1, 15), (1, 1), (1, 4), (1, 64), (2, 1024), (1, 6), (1, 8), (2, 16384), (2, 8192), (2, 4096), (1, 16), (1, 8),
   (1, 64), (1, 4), (2, 8), (4, 2048), (4, 0x3F), (4, s.descGen), (8, 0),
   (32, s.coreMask)]

/-- The 128 bytes of the descriptor (R16). -/
def State.shape (s : State) : List Byte := s.shapeFields.flatMap (fun f => leBytes f.1 f.2)

/-- A change of a field of the descriptor counted, with GEN INT_STAT.DESC_CHANGE (R17, R483). -/
def State.descChanged (s : State) : State := ({ s with descGen := (s.descGen + 1) % 2 ^ 32 }).setInt pgGEN 0

end Sys2Proof.Machine
end

