-- ==== Sys2Proof/Machine/Collective.lean ====
section
/-! DEFINITION. The collective monitor (R257 to R259): keyed deliveries from torus ports, their slack, and the blocks delivered
and sent by group. -/

namespace Sys2Proof.Machine

open Sys2Proof

/-- Whether the monitor measures (COL_CFG.MON_EN). -/
def State.colOn (s : State) : Bool := bitAt (s.reg pgCOL 0x40) 0

/-- The group of a physical port that carries a logical torus port: 2 × axis + direction. -/
def State.colGroup (s : State) (p : Nat) : Option Nat :=
  match s.lport p with
  | some l => if l < 16 then some (2 * (l / 4) + b2n (bitAt l 1)) else none
  | none => none

/-- One group's numbers. -/
def State.colOf (s : State) (g : Nat) : ColGroup := Store.get {} s.colGroups g

/-- One group's numbers replaced. -/
def State.setCol (s : State) (g : Nat) (x : ColGroup) : State := { s with colGroups := Store.set {} s.colGroups g x }

/-- A delivery measured (R257): `slack` ticks after its tick. -/
def State.colMeasure (s : State) (p : ColPend) (slack : Nat) : State :=
  let g := s.colOf p.group
  let late := decide (slack < s.vdt.allow)
  let s1 := s.setCol p.group { g with
    slack := if slack < g.slack then slack else g.slack
    dlv := satAt max32 (g.dlv + 1), late := if late then satAt max32 (g.late + 1) else g.late }
  if late then
    -- ERR_LOG3 and ERR_LOG4 of the record hold the delivery tick (R258)
    let s2 := s1.logErr pgCOL (1 * 2 ^ 24 + p.group * 2 ^ 21 + p.core) p.key (slack % 2 ^ 16)
    (if bitAt (s1.reg pgCOL 0x20) 31 then s2 else s2.setReg64 pgCOL 0x2C p.tick).setInt pgCOL 0
  else s1

/-- A keyed delivery of `n` blocks that arrived on port `p` for keystone `key` of a context, before its ARRIVE: not measured where one
on the keystone is still pending, measured at once where a thread waits already. -/
def State.colDelivery (s : State) (p key core ctx n : Nat) : State :=
  let k := s.key key
  match s.colGroup p with
  | none => s
  | some g =>
    if !s.colOn || k.kind == 0 || !k.remote || k.owner != ctx then s
    else
      let x := s.colOf g
      let s1 := s.setCol g { x with rx := (x.rx + n) % 2 ^ 64 }
      let d : ColPend := ⟨key, g, core, s.tick⟩
      let waiting := (s1.keyWaiters key).any (fun ct => match (s1.thread ct.1 ct.2).held with
        | some h => keyFn h.word == 1 || keyFn h.word == 2
        | none => false)
      if s1.colPend.any (fun q => q.key == key) then s1.cnt pgCOL 0x64 1
      else if waiting then s1.colMeasure d 0
      else if 1024 ≤ s1.colPend.length then s1.cnt pgCOL 0x64 1
      else { s1 with colPend := s1.colPend ++ [d] }

/-- A WAIT or ARRIVE_WAIT on a keystone completed. -/
def State.colWaited (s : State) (key fn : Nat) : State :=
  if !s.colOn || !(fn == 1 || fn == 2) then s
  else match s.colPend.find? (fun q => q.key == key) with
  | none => s
  | some d => ({ s with colPend := s.colPend.erase d }).colMeasure d (s.tick - d.tick)

/-- Blocks of a SEND that ended in a flit sent on a port. -/
def State.colSent (s : State) (p n : Nat) : State :=
  match s.colGroup p with
  | none => s
  | some g => if s.colOn then s.setCol g { s.colOf g with tx := ((s.colOf g).tx + n) % 2 ^ 64 } else s

end Sys2Proof.Machine
end

