-- ==== Sys2Proof/Machine/DmaOps.lean ====
section
/-! DEFINITION. The DMA engine (R165 to R177): fields and checks of descriptors, faults and their effect on a stream, loads and
stores of blocks with their checks, and the moves of each KIND, one block at a time. -/

namespace Sys2Proof.Machine

open Sys2Proof

/-! Fields of a descriptor (R166). -/
def dsKind (w : Nat) : Nat := fld w 0 4
def dsStream (w : Nat) : Nat := fld w 4 5
def dsFmt (w : Nat) : Nat := fld w 9 4
def dsSspace (w : Nat) : Nat := fld w 13 3
def dsDspace (w : Nat) : Nat := fld w 16 3
def dsRescale (w : Nat) : Bool := bitAt w 19
def dsOfmt (w : Nat) : Nat := fld w 20 4
def dsPolicy (w : Nat) : Policy := Policy.ofBits (fld w 24 2)
def dsRnd (w : Nat) : Bool := bitAt w 26
def dsFix (w : Nat) : Int := sext 8 (fld w 27 8)
def dsTensor (w : Nat) : Nat := fld w 35 12
def dsKeyEn (w : Nat) : Bool := bitAt w 47
def dsCount (w : Nat) : Nat := fld w 48 16
def dsSrc (w : Nat) : Nat := fld w 64 64
def dsDst (w : Nat) : Nat := fld w 128 64
def dsStreamId (w : Nat) : Nat := fld w 192 32
def dsKey (w : Nat) : Nat := fld w 224 14
def dsI5 (w : Nat) : Nat := fld w 240 16

/-! DST of a SEND (R167). -/
def sdAddr (w : Nat) : Nat := fld w 128 23
def sdCore (w : Nat) : Nat := fld w 160 8
def sdDev (w : Nat) : Nat := fld w 168 16
def sdAclass (w : Nat) : Bool := bitAt w 184
def sdVc (w : Nat) : Nat := fld w 185 3

/-- The source row stride of a TRANSPOSE (R167). -/
def dsStride (w : Nat) : Nat := fld w 160 32

/-- Fields a KIND uses, whether or not a flag of the descriptor turns them on (R166, R167); every other field must be 0. -/
def descUsed (w : Nat) : List (Nat × Nat) :=
  let k := dsKind w
  let on := fun (b : Bool) (f : List (Nat × Nat)) => if b then f else []
  if k = 7 then [(0, 4), (4, 5), (47, 1), (64, 23), (128, 64), (224, 14), (240, 16)]
  else
    [(0, 4), (4, 5), (9, 4), (13, 3), (16, 3), (47, 1), (48, 16), (64, 64), (224, 14)]
    ++ (if k = 5 then [(128, 23), (160, 28)] else if k = 6 then [(128, 23), (160, 32)] else [(128, 64)])
    ++ on (k == 4) [(27, 8)]
    ++ on (k == 1) [(19, 1), (20, 4), (24, 2), (26, 1), (27, 8), (35, 12), (192, 32)]

/-- Whether a KIND allows its two spaces (R145, R167): 1 core, 2 device, 3 capacity, 0 none. -/
def spacesOk (w : Nat) : Bool :=
  let a := dsSspace w
  let b := dsDspace w
  let mem := fun (x : Nat) => x == 2 || x == 3
  match dsKind w with
  | 1 => (a == 1 || mem a) && (b == 1 || mem b) && (a == 1 || b == 1) && (!dsRescale w || a == 1)
  | 2 => mem a && b == 1
  | 3 => a == 1 && mem b
  | 4 => a == 2 && (b == 1 || b == 2)
  | 5 => a == 1 && b == 1
  | 6 => a == 1 && b == 1
  | _ => a == 0 && b == 0

/-- The format a code names; S4 where it names none. -/
def dmaFmt (code : Nat) : Fmt := (Fmt.ofCode code).getD .s4

/-- Format of the blocks a descriptor writes. -/
def dsOut (w : Nat) : Fmt := if dsRescale w then dmaFmt (dsOfmt w) else dmaFmt (dsFmt w)

/-- Whether an address that a descriptor holds lies in device or capacity memory and is not a multiple of 32 (R167); `idx` where it
is the address of an index list. -/
def descAskew (sp a : Nat) (idx : Bool) : Bool := (sp == 2 || sp == 3) && a % 32 != 0 && !idx

/-- The checks of R167 that give cause 0xA: what fails, 0 the encoding, 1 a format code, 2 SRC, 3 DST. -/
def descFieldCheck (strict : Bool) (w : Nat) : Option Nat :=
  let k := dsKind w
  if k = 0 ∨ 7 < k ∨ clearFields w (descUsed w) ≠ 0 then some 0
  else if k = 7 then none
  else if dsCount w = 0 ∨ (k = 6 ∧ dsCount w ≠ 64) then some 0
  else if !spacesOk w then some 0
  else if Fmt.ofCode (dsFmt w) = none ∨ (dsRescale w = true ∧ Fmt.ofCode (dsOfmt w) = none) then some 1
  else if strict && k == 5 && sdAclass w then some 0
  else if descAskew (dsSspace w) (dsSrc w) (k == 2) then some 2
  else if descAskew (dsDspace w) (dsDst w) (k == 3) then some 3
  else none

/-- The core memory extents of a descriptor: address and bytes (R167, R171, R174). -/
def descExtents (w : Nat) : List (Nat × Nat) :=
  let n := dsCount w
  let cb := (dmaFmt (dsFmt w)).coreBytes
  match dsKind w with
  | 1 => (if dsSspace w = 1 then [(dsSrc w, n * cb)] else []) ++ (if dsDspace w = 1 then [(dsDst w, n * (dsOut w).coreBytes)] else [])
  | 2 => [(dsSrc w, 8 * n), (dsDst w, n * cb)]
  | 3 => [(dsSrc w, n * cb), (dsDst w, 8 * n)]
  | 4 => if dsDspace w = 1 then [(dsDst w, n * cb)] else []
  | 5 => [(dsSrc w, n * cb)]
  | 6 => (upTo 64).map (fun r => (dsSrc w + r * dsStride w, cb)) ++ [(sdAddr w, 64 * cb)]
  | _ => []

/-- Whether every core memory extent is aligned and below the carve-out (R167 cause 0xB); where a SEND's staging extent lies is
checked as it starts (R176). -/
def State.extentsOk (s : State) (w : Nat) : Bool :=
  (descExtents w).all (fun e => e.1 % 8 == 0 && s.cmIn e.1 e.2) && (dsKind w != 5 || sdAddr w % 8 == 0)

/-- The failing address of a descriptor refused at the head of its queue: the first address or core memory extent that breaks R167,
0 where the cause names none (R179). -/
def State.headAddr (s : State) (w cause : Nat) : Nat :=
  if cause = 0xA then
    match descFieldCheck s.img.strict w with
    | some 2 => dsSrc w
    | some 3 => dsDst w
    | _ => 0
  else if cause = 0xB then
    match (descExtents w).find? (fun e => !(e.1 % 8 == 0 && s.cmIn e.1 e.2)) with
    | some e => e.1
    | none => sdAddr w
  else 0

/-- Whether a descriptor draws random words: one use of its stream ID (R170). -/
def descDraws (w : Nat) : Bool := dsKind w == 1 && dsRescale w && dsRnd w

/-! Streams. -/

/-- A stream's descriptors. -/
def DmaState.stream (d : DmaState) (st : Nat) : List Desc := Store.get [] d.streams st

/-- A stream's descriptors replaced. -/
def DmaState.setStream (d : DmaState) (st : Nat) (l : List Desc) : DmaState :=
  { d with streams := Store.set [] d.streams st l }

/-- A descriptor put at the end of its stream's queue. -/
def DmaState.enqueue (d : DmaState) (st : Nat) (q : Desc) : DmaState :=
  { d.setStream st (d.stream st ++ [{ q with serial := d.issued }]) with issued := d.issued + 1 }

/-- The DMA engine of a core changed. -/
def State.modDma (s : State) (c : Nat) (f : DmaState → DmaState) : State := s.modCore c (fun k => { k with dma := f k.dma })

/-- The head of a stream changed. -/
def State.modHead (s : State) (c st : Nat) (f : Desc → Desc) : State :=
  s.modDma c (fun d => d.setStream st (modAt f (d.stream st) 0))

/-- A fault of the DMA engine: the DMA log, the core's fault queue and the class's effect (R137, R172, R179). -/
def State.dmaFault (s : State) (c : Nat) (d : Desc) (cls : FClass) (cause elem addr : Nat) : State :=
  let bit := match cls with
    | .sched => 4
    | .ctx => 3
    | .hw => if cause = 4 then 1 else if cause = 5 then 0 else 2
  ((s.dmaLog (pgDMA c) (cls.code * 2 ^ 28 + cause * 2 ^ 24 + dsStream d.word * 2 ^ 19 + dsKind d.word * 2 ^ 15)
    (d.thread * 2 ^ 28 + d.addr % 2 ^ 23) elem addr).setInt (pgDMA c) bit).coreFault c cls 3 cause d.thread d.ctx d.gen
      d.pc d.addr

/-- The check of a descriptor at the head of its queue (R56, R167, R168): class and cause. -/
def State.descHeadCause (s : State) (c : Nat) (d : Desc) : Option (FClass × Nat) :=
  let w := d.word
  if (descFieldCheck s.img.strict w).isSome then some (.sched, 0xA)
  else if !s.extentsOk w then some (.sched, 0xB)
  else if descDraws w && decide (65536 ≤ Store.get 0 (s.core c).dma.uses (dsStreamId w)) then some (.sched, 0xD)
  else if dsKeyEn w && (dsKind w != 5 || sdDev w == s.devId) &&
      !((s.key (dsKey w)).kind != 0 && (s.key (dsKey w)).owner == d.ctx) then some (.ctx, 0xE)
  else none

/-- A descriptor removed by a failure: after a context fault the stream also discards its later descriptors of that context
(R172). -/
def DmaState.discard (e : DmaState) (st : Nat) (cls : FClass) (ctx : Nat) : DmaState :=
  let rest := (e.stream st).tail
  { e.setStream st (if cls = .ctx then rest.filter (fun q => q.ctx != ctx) else rest) with
    walks := Store.erase e.walks st }

/-- The heads of a stream checked as they reach the head; `n` bounds the descriptors that a context fault removes. -/
def State.checkDescs : Nat → State → Nat → Nat → State
  | 0, s, _, _ => s
  | n + 1, s, c, st =>
    match ((s.core c).dma.stream st).head? with
    | none => s
    | some d =>
      if d.stalled || d.started then s
      else match s.descHeadCause c d with
        | none => s
        | some (.ctx, cause) =>
          State.checkDescs n ((s.dmaFault c d .ctx cause 0 0).modDma c (fun e => e.discard st .ctx d.ctx)) c st
        | some (cls, cause) =>
          (s.modHead c st (fun q => { q with stalled := true })).dmaFault c d cls cause 0 (s.headAddr d.word cause)

/-- The head of a stream checked (R167). -/
def State.checkDescHead (s : State) (c st : Nat) : State := s.checkDescs 8 c st

/-- A descriptor stopped at element `elem` (R172). -/
def State.dmaStop (s : State) (c st : Nat) (d : Desc) (e : FClass × Nat × Nat) (elem : Nat) : State :=
  ((s.dmaFault c d e.1 e.2.1 elem e.2.2).modDma c (fun m => m.discard st e.1 d.ctx)).checkDescHead c st

/-! Blocks. -/

/-- What a step of a move gives: the block or class, cause and address of the failure. -/
abbrev DmaRes (α : Type) := Except (FClass × Nat × Nat) α

/-- Sidecar bytes with another check (R43). -/
def withCrc (side : List Byte) (crc : Nat) : List Byte := side.take 4 ++ leBytes 4 crc

/-- The CRC of sidecar bytes. -/
def sideCrc (side : List Byte) : Nat := leNat ((side.drop 4).take 4)

/-- A sidecar with its transit check computed from data (R43). -/
def sealTransit (c : Sidecar) (data : List Byte) : List Byte := { c with crc := transitCrc data c }.bytes

/-- The checks of R46 after the first, in order: FMT, format named, tag. -/
def loadFmtCheck (fmt : Nat) (ctx gen : Nat) (c : Sidecar) : Option (FClass × Nat) :=
  if 8 ≤ c.fmt ∧ c.fmt ≠ fmtRaw ∧ c.fmt ≠ fmtZeroed then some (.hw, 2)
  else if c.fmt = fmtRaw then some (.ctx, 9)
  else if c.fmt ≠ fmtZeroed ∧ c.fmt ≠ fmt then some (.ctx, 6)
  else if c.tag % 1024 = ctx ∧ c.tag / 1024 ≠ gen then some (.ctx, 7)
  else none

/-- A load from device or capacity memory (R43, R46, R169, R170). -/
def State.devLoad (s : State) (d : Desc) (cap : Bool) (a fmt : Nat) : State × DmaRes Moved :=
  let f := dmaFmt fmt
  match s.mem.slot cap a f.bytes with
  | none => (s, .error (.ctx, 8, a))
  | some slot =>
    if !s.pageOk cap d.ctx a f.bytes false then (s, .error (.ctx, 8, a))
    else
      let r := s.memRead cap a f.bytes slot
      let b := r.2
      if b.bad || !s.storedOk cap a b then (r.1, .error (.hw, 1, a))
      else match loadFmtCheck fmt d.ctx d.gen b.side with
        | some e => (r.1, .error (e.1, e.2, a))
        | none =>
          if b.side.fmt = fmtZeroed then
            let z := List.replicate f.bytes 0#8
            (r.1, .ok ⟨z, sealTransit { exp := -128, fmt := f.code, zero := true, tag := 0 } z⟩)
          else (r.1, .ok ⟨b.data, withCrc b.sideRaw (flipCrc b.side.crc b.addr)⟩)

/-- A store to device or capacity memory; `check` asks for the format check of R169. -/
def State.devStore (s : State) (c : Nat) (d : Desc) (cap : Bool) (a : Nat) (b : Moved) (check : Bool) : State × DmaRes Unit :=
  let fmt := (Sidecar.ofBytes b.side).fmt
  match s.mem.slot cap a b.data.length with
  | none => (s, .error (.ctx, 8, a))
  | some slot =>
    if !s.pageOk cap d.ctx a b.data.length true then (s, .error (.ctx, 8, a))
    else if check && decide (8 ≤ fmt) then (s, .error (.hw, 2, a))
    else if check && fmt != dsFmt d.word then (s, .error (.ctx, 6, a))
    else
      let r := s.dmaStore c (dsStream d.word) cap a slot b.data (withCrc b.side (flipCrc (sideCrc b.side) (checkAddr cap a)))
      (r.1, match r.2 with
        | some _ => .error (.hw, 1, a)
        | none => .ok ())

/-- What a read of core memory by the engine finds: a word that cannot be corrected fails the transfer, with
the element's address (R161, R172). -/
def State.dmaTouch (s : State) (c a n : Nat) : State × DmaRes Unit :=
  let r := s.cmCorrect c a n
  match r.2 with
  | _ :: _ => (r.1, .error (.hw, 4, a))
  | [] => (r.1, .ok ())

/-- A block of core memory read. -/
def State.coreLoad (s : State) (c : Nat) (f : Fmt) (a : Nat) : State × DmaRes Moved :=
  let r := s.dmaTouch c a f.coreBytes
  (r.1, r.2.map (fun _ => ⟨s.cmBytes c a f.bytes, s.cmBytes c (a + f.bytes) 8⟩))

/-- The verification of a core memory block that DMA changes (R170). -/
def transitFault (f : Fmt) (b : Moved) (a : Nat) : Option (FClass × Nat × Nat) :=
  match coreBlockCheck f b.data b.side with
  | 0 => none
  | 3 => some (.hw, 3, a)
  | 4 => some (.hw, 2, a)
  | _ => some (.ctx, 6, a)

/-- A block under RESCALE (R48 to R50, R170). -/
def State.rescaleBlock (s : State) (d : Desc) (b : Moved) (i : Nat) : Moved :=
  let w := d.word
  let src := Sidecar.ofBytes b.side
  let f := dmaFmt (dsOfmt w)
  let x : Wide := ⟨unpackBlock (dmaFmt (dsFmt w)) b.data, src.exp, List.replicate 64 false⟩
  let o := rescale x f (dsPolicy w) (dsFix w) (s.amaxFloor (dsTensor w)) (dsRnd w)
    (genWord s.img.seed (dsStreamId w) s.sch.seq d.ord i)
  ⟨packBlock f o.m, (o.sidecar f (dsRnd w) src.sat (d.ctx + d.gen * 2 ^ 10)).bytes⟩

/-- One entry of an index list (R171). -/
def State.indexEntry (s : State) (c base i : Nat) : State × DmaRes Nat :=
  let e := leNat (s.cmBytes c (base + 8 * i) 8)
  let r := s.dmaTouch c (base + 8 * i) 8
  (r.1, r.2.bind (fun _ => if e % 32 ≠ 0 then .error (.ctx, 8, e) else .ok e))

/-- A block read counted. -/
def State.countRead (s : State) (c n : Nat) : State := s.cnt64 (pgDMA c) 0x58 n

/-- A block written counted. -/
def State.countWrite (s : State) (c n : Nat) : State := s.cnt64 (pgDMA c) 0x60 n

/-- A block put into the destination of a descriptor: core memory, or device or capacity memory. -/
def State.putBlock (s : State) (c : Nat) (d : Desc) (space a : Nat) (b : Moved) (check : Bool) : State × DmaRes Unit :=
  if space = 1 then ((s.cmPut c a (b.data ++ b.side)).countWrite c 1, .ok ())
  else
    let r := s.devStore c d (space == 3) a b check
    match r.2 with
    | .ok _ => (r.1.countWrite c 1, .ok ())
    | .error e => (r.1, .error e)

/-- Block `i` of a transfer between two spaces, without RESCALE (R149, R169). -/
def State.moveBlock (s : State) (c : Nat) (d : Desc) (fmt ssp src dsp dst : Nat) : State × DmaRes Unit :=
  let f := dmaFmt fmt
  if ssp = 1 then
    let r := s.coreLoad c f src
    match r.2 with
    | .error e => (r.1, .error e)
    | .ok b => (r.1.countRead c 1).putBlock c d dsp dst b true
  else
    let r := s.devLoad d (ssp == 3) src fmt
    match r.2 with
    | .error e => (r.1, .error e)
    | .ok b => (r.1.countRead c 1).putBlock c d dsp dst b true

/-- Block `i` of a COPY (R169, R170). -/
def State.copyBlock (s : State) (c : Nat) (d : Desc) (i : Nat) : State × DmaRes Unit :=
  let w := d.word
  let f := dmaFmt (dsFmt w)
  let step := fun (sp : Nat) (g : Fmt) => if sp = 1 then g.coreBytes else g.bytes
  let src := dsSrc w + i * step (dsSspace w) f
  let dst := dsDst w + i * step (dsDspace w) (dsOut w)
  if dsRescale w then
    let r := s.coreLoad c f src
    match r.2 with
    | .error e => (r.1, .error e)
    | .ok b =>
      match transitFault f b src with
      | some e => (r.1, .error e)
      | none => (r.1.countRead c 1).putBlock c d (dsDspace w) dst (r.1.rescaleBlock d b i) false
  else s.moveBlock c d (dsFmt w) (dsSspace w) src (dsDspace w) dst

/-- Element `i` of a GATHER (R171). -/
def State.gatherBlock (s : State) (c : Nat) (d : Desc) (i : Nat) : State × DmaRes Unit :=
  let w := d.word
  let e := s.indexEntry c (dsSrc w) i
  match e.2 with
  | .error x => (e.1, .error x)
  | .ok a => e.1.moveBlock c d (dsFmt w) (dsSspace w) a 1 (dsDst w + i * (dmaFmt (dsFmt w)).coreBytes)

/-- Element `i` of a SCATTER (R171). -/
def State.scatterBlock (s : State) (c : Nat) (d : Desc) (i : Nat) : State × DmaRes Unit :=
  let w := d.word
  let e := s.indexEntry c (dsDst w) i
  match e.2 with
  | .error x => (e.1, .error x)
  | .ok a => e.1.moveBlock c d (dsFmt w) 1 (dsSrc w + i * (dmaFmt (dsFmt w)).coreBytes) (dsDspace w) a

/-- The bytes that the check of a stored block or granule at `g0` covers: the data of its format, or one granule of `g` bytes (R42,
R45, R289). -/
def storedBytes (fmt g : Nat) : Nat := if fmt < 8 then (dmaFmt fmt).bytes else g

/-- The RAW granules from `g0` up to `hi` verified: a sound block of a format is not RAW and fails as such (R173, R289); `n` bounds
them. -/
def State.rawGranules : Nat → State → Nat → Nat → State × DmaRes Unit
  | 0, s, _, _ => (s, .ok ())
  | n + 1, s, g0, hi =>
    if hi ≤ g0 then (s, .ok ())
    else
      let g := s.mem.granule false g0
      match s.mem.slot false g0 g with
      | none => (s, .error (.ctx, 8, g0))
      | some slot =>
        let r := s.memRead false g0 g slot
        let b := r.2
        if b.bad || !(crc32c (s.givenBytes false g0 (storedBytes b.side.fmt g) ++ b.sideRaw.take 4 ++ leBytes 8 g0) == b.side.crc) then
          (r.1, .error (.hw, 1, g0))
        else if 8 ≤ b.side.fmt ∧ b.side.fmt ≠ fmtRaw ∧ b.side.fmt ≠ fmtZeroed then (r.1, .error (.hw, 2, g0))
        else if b.side.fmt ≠ fmtRaw then (r.1, .error (.ctx, 9, g0))
        else State.rawGranules n r.1 (g0 + g) hi

/-- Block `i` of an INGEST (R173, R289). -/
def State.ingestBlock (s : State) (c : Nat) (d : Desc) (i : Nat) : State × DmaRes Unit :=
  let w := d.word
  let f := dmaFmt (dsFmt w)
  let a := dsSrc w + i * f.bytes
  if !(s.mem.place false a f.bytes) || !s.pageOk false d.ctx a f.bytes false then (s, .error (.ctx, 8, a))
  else
    let r := s.rawGranules 32 (s.mem.granStart false a) (a + f.bytes)
    match r.2 with
    | .error e => (r.1, .error (e.1, e.2.1, a))
    | .ok _ =>
      let data := r.1.givenBytes false a f.bytes
      let side := sealTransit { exp := dsFix w, fmt := f.code, zero := data.all (fun b => b == 0#8)
                                tag := d.ctx + d.gen * 2 ^ 10 } data
      let dst := dsDst w + i * (if dsDspace w = 1 then f.coreBytes else f.bytes)
      (r.1.countRead c 1).putBlock c d (dsDspace w) dst ⟨data, side⟩ false

/-- Source row `r` of a TRANSPOSE read and verified (R170, R174). -/
def State.transposeRow (s : State) (c : Nat) (d : Desc) (r : Nat) : State × DmaRes Moved :=
  let f := dmaFmt (dsFmt d.word)
  let a := dsSrc d.word + r * dsStride d.word
  let l := s.coreLoad c f a
  (l.1, l.2.bind (fun b => match transitFault f b a with
    | some e => .error e
    | none => .ok b))

/-- The 64 blocks of a TRANSPOSE from its rows (R79, R174). -/
def transposeBlocks (f : Fmt) (tag : Nat) (rows : List Moved) : List Moved :=
  let sides := rows.map (fun b => Sidecar.ofBytes b.side)
  let es := sides.map (·.exp)
  let e := maxI es
  let ms := rows.map (fun b => unpackBlock f b.data)
  let sat := sides.any (·.sat)
  (upTo 64).map (fun k =>
    let vs := List.zipWith (fun m x => roundShift none (m.getD k 0) (e - x)) ms es
    let data := packBlock f vs
    ⟨data, sealTransit { exp := e, fmt := f.code, sat := sat, zero := vs.all (fun v => decide (v = 0)), tag := tag } data⟩)

/-- Block `i` of a TRANSPOSE whose rows have all been read, written (R174). -/
def State.transposeBlock (s : State) (c : Nat) (d : Desc) (i : Nat) : State :=
  let f := dmaFmt (dsFmt d.word)
  match (transposeBlocks f (d.ctx + d.gen * 2 ^ 10) d.rows)[i]? with
  | some b => (s.cmPut c (sdAddr d.word + i * f.coreBytes) (b.data ++ b.side)).countWrite c 1
  | none => s

/-! SEND (R175, R176, R221, R230). -/

/-- A fault that the Viaduct raises: its log, interrupt and class (R243). -/
def State.vdtFault (s : State) (cls : FClass) (cause pos l1 l2 ctx : Nat) : State :=
  let bit := match cls with
    | .sched => 5
    | .ctx => 4
    | .hw => 3
  ((s.logErr pgVDT (cls.code * 2 ^ 28 + cause * 2 ^ 24 + pos) l1 l2).setInt pgVDT bit).raiseClass cls ctx

/-- What the start of a SEND finds: none, or the failure; true where the descriptor stays at its head (R176, R230). -/
def State.sendStart (s : State) (c : Nat) (d : Desc) : Option (State × Option (FClass × Nat × Nat)) :=
  let w := d.word
  let a := sdAddr w
  let n := dsCount w * (dmaFmt (dsFmt w)).coreBytes
  let far := decide (sdDev w ≠ s.devId)
  let key := c * 32 + dsStream w
  let vcOld := Store.get 0 s.vdt.streamVc key
  if !(s.cmIn a n && s.stageOk (sdCore w) d.ctx a n) then some (s, some (.ctx, 8, a))
  else if far && sdAclass w && !bitAt (Store.get 0 s.vdt.routes (sdDev w)) 41 then
    some (s.vdtFault .ctx 8 (sdVc w * 2 ^ 16 + d.ctx) 0 (s.devId * 2 ^ 16 + sdDev w) d.ctx, some (.ctx, 0, a))
  else if far && sdAclass w && vcOld != 0 && vcOld != sdVc w + 1 then
    some (s.vdtFault .sched 0xC (sdVc w * 2 ^ 16 + d.ctx) 0 (s.devId * 2 ^ 16 + sdDev w) d.ctx, none)
  else none

/-- The header of flit `k` of a SEND to another device (R221). -/
def State.sendHead (s : State) (d : Desc) (k len : Nat) (last : Bool) : Nat :=
  let w := d.word
  let vc := if sdAclass w then sdVc w else 0
  let seq := if sdAclass w then Store.get 0 s.vdt.sent (sdDev w * 8 + vc) % 2 ^ 16 else 0
  sdDev w + s.devId * 2 ^ 16 + (d.ctx + d.gen * 2 ^ 10) * 2 ^ 32 + sdCore w * 2 ^ 48 + b2n (sdAclass w) * 2 ^ 56
    + vc * 2 ^ 57 + b2n last * 2 ^ 60 + b2n (last && dsKeyEn w) * 2 ^ 61
    + (sdAddr w + 240 * k) * 2 ^ 64 + len * 2 ^ 87 + seq * 2 ^ 96 + (if dsKeyEn w then dsKey w else 0) * 2 ^ 112
    + s.vdt.epoch * 2 ^ 126

/-- One flit handed to the Viaduct. -/
def State.pushFlit (s : State) (c : Nat) (d : Desc) (k : Nat) (body : List Byte) (last : Bool) : State :=
  let w := d.word
  let key := c * 32 + dsStream w
  let f : Flit := ⟨s.sendHead d k body.length last, body ++ List.replicate (240 - body.length) 0#8⟩
  let cb := (dmaFmt (dsFmt w)).coreBytes
  let ends := (240 * k + body.length) / cb - 240 * k / cb
  let v := s.vdt
  let sent := if sdAclass w then Store.set 0 v.sent (sdDev w * 8 + sdVc w) (Store.get 0 v.sent (sdDev w * 8 + sdVc w) + 1) else v.sent
  { s with vdt := { v with inject := Store.set [] v.inject key (Store.get [] v.inject key ++ [(f, ends)]), sent := sent } }

/-- Full flits of a byte run handed on, from flit `k`; what is left; `n` bounds the flits. -/
def State.pushFlits : Nat → State → Nat → Desc → Nat → List Byte → Bool → State × List Byte
  | 0, s, _, _, _, bs, _ => (s, bs)
  | n + 1, s, c, d, k, bs, lastBlock =>
    if lastBlock && decide (bs.length ≤ 240) then (s.pushFlit c d k bs true, [])
    else if bs.length < 240 then (s, bs)
    else State.pushFlits n (s.pushFlit c d k (bs.take 240) false) c d (k + 1) (bs.drop 240) lastBlock

/-- Block `i` of a SEND put onto the mesh, or in flits to the Viaduct (R175, R176, R221). -/
def State.sendOut (s : State) (c st : Nat) (d : Desc) (i : Nat) (bs : List Byte) : State :=
  let w := d.word
  let f := dmaFmt (dsFmt w)
  let last := decide (i + 1 = dsCount w)
  let s1 := ((s.countRead c 1).cnt (pgDMA c) 0x68 1)
  if sdDev w = s.devId then
    { s1 with mesh := s1.mesh ++ [⟨c, st, sdCore w, sdAddr w + i * f.coreBytes, bs,
        if last && dsKeyEn w then some (dsKey w) else none, d.ctx, d.gen⟩] }
  else
    let s2 := if sdAclass w then
        { s1 with vdt := { s1.vdt with streamVc := Store.set 0 s1.vdt.streamVc (c * 32 + st) (sdVc w + 1) } }
      else s1
    let p := State.pushFlits 8 s2 c d (i * f.coreBytes / 240) (d.part ++ bs) last
    p.1.modHead c st (fun q => { q with part := p.2 })

/-- Block `i` of a SEND (R175, R176). -/
def State.sendBlock (s : State) (c st : Nat) (d : Desc) (i : Nat) : State × DmaRes Unit :=
  let f := dmaFmt (dsFmt d.word)
  let r := s.coreLoad c f (dsSrc d.word + i * f.coreBytes)
  match r.2 with
  | .error e => (r.1, .error e)
  | .ok b => (r.1.sendOut c st d i (b.data ++ b.side), .ok ())

/-- The address of element or block `i` of a descriptor: the entry of the index list of a GATHER or SCATTER, else the source (R171,
R172). -/
def State.elemAddr (s : State) (c : Nat) (d : Desc) (i : Nat) : Nat :=
  let w := d.word
  let f := dmaFmt (dsFmt w)
  match dsKind w with
  | 2 => leNat (s.cmBytes c (dsSrc w + 8 * i) 8)
  | 3 => leNat (s.cmBytes c (dsDst w + 8 * i) 8)
  | 6 => dsSrc w + i * dsStride w
  | _ => dsSrc w + i * (if dsSspace w = 1 then f.coreBytes else f.bytes)

/-- The duplicated address arithmetic compared for a block: true where the comparison is on and finds a mismatch, which is counted
(R179, R180, R181; log 56). -/
def State.dmaSlip (s : State) (c : Nat) : Bool × State :=
  match s.takeSlip (pgDMA c) with
  | (none, _) => (false, s)
  | (some _, s1) => if bitAt (s1.reg (pgDMA c) 0x40) 0 then (true, s1.cnt (pgDMA c) 0x70 1) else (false, s1)

end Sys2Proof.Machine
end

