-- ==== Sys2Proof/Machine/Flags.lean ====
section
/-! DEFINITION. The scalar ALU of the control core: results, condition flags (R59, R60, R124) and conditions (R125). -/

namespace Sys2Proof.Machine

open Sys2Proof

/-- N and Z of a result; the other flags as they were (R59). -/
def Flags.nz (f : Flags) (r : Word) : Flags := { f with n := r.msb, z := r == 0#32 }

/-- Whether an exact signed result is out of s32. -/
def outS32 (v : Int) : Bool := decide (v < -2147483648) || decide (2147483647 < v)

/-- ADD (R59). -/
def aluAdd (a b : Word) (f : Flags) : Word × Flags :=
  let r := a + b
  (r, { f.nz r with c := decide (2 ^ 32 ≤ a.toNat + b.toNat), v := outS32 (a.toInt + b.toInt) })

/-- SUB, and CMP without its result: C is the borrow (R59). -/
def aluSub (a b : Word) (f : Flags) : Word × Flags :=
  let r := a - b
  (r, { f.nz r with c := decide (a.toNat < b.toNat), v := outS32 (a.toInt - b.toInt) })

/-- A result that writes N and Z only (R124). -/
def aluPlain (r : Word) (f : Flags) : Word × Flags := (r, f.nz r)

/-- A result that writes N, Z and V. -/
def aluV (r : Word) (v : Bool) (f : Flags) : Word × Flags := (r, { f.nz r with v := v })

/-- SHL: the count is the full unsigned value (R60). -/
def shl32 (a b : Word) : Word := if 32 ≤ b.toNat then 0#32 else a <<< b.toNat

/-- SHR (R60). -/
def shr32 (a b : Word) : Word := if 32 ≤ b.toNat then 0#32 else a >>> b.toNat

/-- SAR (R59, R60). -/
def sar32 (a b : Word) : Word :=
  if 32 ≤ b.toNat then (if a.msb then 0xFFFFFFFF#32 else 0#32) else BitVec.sshiftRight a b.toNat

/-- MUL: V is set where the signed product is out of s32 (R59). -/
def aluMul (a b : Word) (f : Flags) : Word × Flags := aluV (a * b) (outS32 (a.toInt * b.toInt)) f

/-- Bits [63:32] of the signed product (R124). -/
def mulhs (a b : Word) : Word := BitVec.ofInt 32 (a.toInt * b.toInt / 4294967296)

/-- Bits [63:32] of the unsigned product (R124). -/
def mulhu (a b : Word) : Word := BitVec.ofNat 32 (a.toNat * b.toNat / 4294967296)

/-- DIV and REM: the result is chosen by `rem`; quotients truncate toward zero (R59). -/
def aluDivS (rem : Bool) (a b : Word) (f : Flags) : Word × Flags :=
  if b = 0#32 then
    let r := if rem then a else 0#32
    (r, { f.nz r with v := false, dz := true })
  else if a = 0x80000000#32 ∧ b = 0xFFFFFFFF#32 then
    let r := if rem then 0#32 else a
    (r, { f.nz r with v := true, dz := false })
  else
    let r := if rem then BitVec.ofInt 32 (a.toInt.tmod b.toInt) else BitVec.ofInt 32 (a.toInt.tdiv b.toInt)
    (r, { f.nz r with v := false, dz := false })

/-- DIVU and REMU (R59). -/
def aluDivU (rem : Bool) (a b : Word) (f : Flags) : Word × Flags :=
  if b = 0#32 then
    let r := if rem then a else 0#32
    (r, { f.nz r with v := false, dz := true })
  else
    let r := if rem then BitVec.ofNat 32 (a.toNat % b.toNat) else BitVec.ofNat 32 (a.toNat / b.toNat)
    (r, { f.nz r with v := false, dz := false })

/-- The scalar operation FN selects (R124): its result, if it writes one, and its flags; none for a reserved FN. -/
def aluOp (fn : Nat) (a b : Word) (f : Flags) : Option (Option Word × Flags) :=
  let put := fun (x : Word × Flags) => some (some x.1, x.2)
  match fn with
  | 0x00 => put (aluAdd a b f)
  | 0x01 => put (aluSub a b f)
  | 0x02 => put (aluPlain (a &&& b) f)
  | 0x03 => put (aluPlain (a ||| b) f)
  | 0x04 => put (aluPlain (a ^^^ b) f)
  | 0x05 => put (aluV (shl32 a b) false f)
  | 0x06 => put (aluV (shr32 a b) false f)
  | 0x07 => put (aluV (sar32 a b) false f)
  | 0x08 => put (aluMul a b f)
  | 0x09 => put (aluPlain (mulhs a b) f)
  | 0x0A => put (aluPlain (mulhu a b) f)
  | 0x0B => put (aluDivS false a b f)
  | 0x0C => put (aluDivS true a b f)
  | 0x0D => put (aluDivU false a b f)
  | 0x0E => put (aluDivU true a b f)
  | 0x0F => put (aluV (-a) (a == 0x80000000#32) f)
  | 0x10 => put (aluPlain (if a.slt b then a else b) f)
  | 0x11 => put (aluPlain (if a.slt b then b else a) f)
  | 0x12 => put (aluPlain (if a.ult b then a else b) f)
  | 0x13 => put (aluPlain (if a.ult b then b else a) f)
  | 0x14 => some (none, (aluSub a b f).2)
  | 0x15 => some (none, f.nz (a &&& b))
  | _ => none

/-- The condition COND on flags (R125). -/
def condHolds (cond : Nat) (f : Flags) : Bool :=
  match cond with
  | 0x0 => true
  | 0x1 => f.z
  | 0x2 => !f.z
  | 0x3 => f.n != f.v
  | 0x4 => f.n == f.v
  | 0x5 => !f.z && f.n == f.v
  | 0x6 => f.z || f.n != f.v
  | 0x7 => f.c
  | 0x8 => !f.c
  | 0x9 => !f.c && !f.z
  | 0xA => f.c || f.z
  | 0xB => f.n
  | 0xC => !f.n
  | 0xD => f.v
  | 0xE => !f.v
  | _ => f.dz

end Sys2Proof.Machine
end

