-- ==== Sys2Proof/Machine/Control.lean ====
section
/-! DEFINITION. What every instruction of a thread shares (R119 to R123, R129 to R136): the fetch and its faults, the end
of an instruction, waiting, guards and bindings, the chains a thread waits for, and the queues it issues to. -/

namespace Sys2Proof.Machine

open Sys2Proof

/-- A general register (R117). -/
def Thread.greg (x : Thread) (r : Nat) : Word := Store.get 0#32 x.a.g r

/-- A general register written; writes to G0 are discarded (R117). -/
def Thread.setGreg (x : Thread) (r : Nat) (v : Word) : Thread :=
  if r = 0 then x else { x with a := { x.a with g := Store.set 0#32 x.a.g r v }, ecc := Store.erase x.ecc r }

/-- The flags written. -/
def Thread.setFlags (x : Thread) (f : Flags) : Thread := { x with a := { x.a with fl := f }, ecc := Store.erase x.ecc 33 }

/-- The PC set (R117: 23 bits). -/
def Thread.setPc (x : Thread) (pc : Nat) : Thread := { x with a := { x.a with pc := pc % 2 ^ 23 }, ecc := Store.erase x.ecc 32 }

/-- The PC at the next instruction. -/
def Thread.next (x : Thread) : Thread := x.setPc (x.a.pc + 4)

/-- A guard; selector 0 is a fixed TRUE (R117). -/
def Thread.guard (x : Thread) (g : Nat) : Guard := if g = 0 then .tt else Store.get .ff x.a.q g

/-- A guard written. -/
def Thread.setGuard (x : Thread) (g : Nat) (v : Guard) : Thread :=
  { x with a := { x.a with q := Store.set .ff x.a.q g v }, ecc := Store.erase x.ecc 33 }

/-- A guard or binding value as a guard. -/
def guardOf (b : Bool) : Guard := if b then .tt else .ff

/-- Whether a thread has an issue opportunity: its core runs, is not in reset, and user work runs (R119, R201). -/
def State.canIssue (s : State) (c : Nat) : Bool := s.inSpan && (s.core c).clocked && !(s.core c).inReset

/-- Whether a core's units may act: user work runs on the core (R80, R201). -/
def State.arrRuns (s : State) (c : Nat) : Bool := s.inSpan && (s.core c).clocked && !(s.core c).inReset

/-- The end of an instruction: the thread goes on, its progress count returns to 0, the instruction is counted (R120,
R134, R140). -/
def State.finish (s : State) (c t : Nat) (x : Thread) : State :=
  (s.setThread c t { x with held := none, pcnt := 0, emitted := 0 }).cnt64 (pgCORE c) 0x70 1

/-- An instruction that leaves the thread READY at the next instruction. -/
def State.done (s : State) (c t : Nat) (x : Thread) : State :=
  s.finish c t (({ x with a := { x.a with st := .ready } }).next)

/-- The thread waits, holding its instruction; the opportunity given up is counted (R120). -/
def State.wait (s : State) (c t : Nat) (x : Thread) (h : Held) : State :=
  (s.setThread c t { x with a := { x.a with st := .wait }, held := some h, emitted := 0 }).cnt64 (pgCORE c) 0x78 1

/-- A fault that the control core raises for a thread's own instruction: no other effect of the instruction, and on a
schedule fault the thread is FAULTED (R135, R136). -/
def State.insFault (s : State) (c t : Nat) (cls : FClass) (cause addr : Nat) : State :=
  let x := s.thread c t
  let s1 := match cls with
    | .sched => s.setThread c t x.faulted
    | _ => s
  s1.coreFault c cls 0 cause t x.tag.1 x.tag.2 x.a.pc (addr % 2 ^ 23)

/-- Whether a word of thread state that is read holds an error that cannot be corrected; a single wrong bit is corrected as it is
read and stays (R117). -/
def Thread.damaged (x : Thread) (ws : List Nat) : Bool := ws.any (fun n => n != 0 && decide (2 ≤ Store.get 0 x.ecc n))

/-- The words of thread state that hold the digest (R117). -/
def digestWords : List Nat := [42, 43]

/-- The duplicated ALU and issue logic compared for an instruction: a mismatch is a hardware fault, and the instruction has no
effect (R135 cause 0x3; log 56). -/
def State.issueAgrees (s : State) (c t : Nat) (k : State → State) : State :=
  match s.takeSlip (pgCORE c) with
  | (some _, s1) => s1.insFault c t .hw 3 0
  | (none, _) => k s

/-- The thread as a reader of core memory at `addr` (R137). -/
def Thread.reader (x : Thread) (t addr : Nat) : Reader :=
  { thread := t, ctx := x.tag.1, gen := x.tag.2, pc := x.a.pc, addr := addr }

/-- A thread's instruction: the word at PC, if the thread is READY and may issue. An uncorrectable error in the state it reads and a
mismatch of the duplicated logic are hardware faults (R135 causes 0x2 and 0x3). A fetch that fails, a word that is no instruction, and
a word with a field out of range are schedule faults (causes 0x5 and 0x4). A word of another opcode than the command's has no
effect: the command does not occur. -/
def State.instr (s0 : State) (c t opc : Nat) (body : State → Thread → Nat → State) : State :=
  let s := s0.awake c
  let x := s.thread c t
  if !(s.canIssue c && x.a.st == .ready) then s
  else if x.damaged [32, 33] then s.insFault c t .hw 2 0
  else if !(x.a.pc % 4 == 0 && s.cmIn x.a.pc 4) then s.issueAgrees c t (fun z => z.insFault c t .sched 5 x.a.pc)
  else
    let w := s.cmWord c x.a.pc
    if opcKnown (insOpc w) && insOpc w != opc then s
    else s.cmRead c x.a.pc 4 (x.reader t x.a.pc) (fun s1 =>
      if x.damaged (insReads w) then s1.insFault c t .hw 2 0
      else s1.issueAgrees c t (fun z =>
        if !opcKnown (insOpc w) || !insLegal w then z.insFault c t .sched 4 0 else body z (z.thread c t) w))

/-- A branch or jump to `target`, which must be aligned and in core memory below the carve-out (R135 cause 0x5). `x` is
the thread with any link written. -/
def State.jump (s : State) (c t target : Nat) (x : Thread) : State :=
  if target % 4 == 0 && s.cmIn target 4 then
    s.finish c t (({ x with a := { x.a with st := .ready } }).setPc target)
  else s.insFault c t .sched 5 target

/-- PC + 4 × OFF, formed in 32 bits (R123). -/
def relTarget (pc : Nat) (off : Int) : Nat := addr32 pc (4 * off)

/-- The checks of a scalar access: alignment and place (cause 0x5), then the context's grant (cause 0xA) (R135). -/
def State.scalarAccess (s : State) (c t a : Nat) (write : Bool) (k : State → State) : State :=
  if !(a % 4 == 0 && s.cmIn a 4) then s.insFault c t .sched 5 a
  else if !s.cmOk c (s.thread c t).tag.1 a 4 write then s.insFault c t .ctx 0xA a
  else k s

/-- The value MFSYS selects (R126); SEL 0x6 is the captured high half. -/
def State.sysValue (s : State) (c t sel : Nat) : Nat :=
  let x := s.thread c t
  match sel with
  | 0 => t
  | 1 => c
  | 2 => x.tag.1 + x.tag.2 * 2 ^ 10
  | 3 => s.spanTick
  | 4 => s.sch.seq % 2 ^ 32
  | 5 => s.tick % 2 ^ 32
  | 6 => x.tickHi
  | 7 => s.reg pgVDT 0x48
  | _ => s.devId

/-! Chains a thread waits for, guards and bindings. -/

/-- Whether a chain that the thread issued by an IFS in this span has neither completed nor been stopped (R133). -/
def Core.chainsPending (k : Core) (t : Nat) : Bool :=
  k.fls.queue.any (fun q => q.iss.thread == t && !q.iss.emitted) ||
  k.fls.runs.any (fun r => r.cmd.iss.thread == t && !r.cmd.iss.emitted && !r.stopped)

/-- Whether chain `serial` of a core is still queued or running. -/
def Core.chainLive (k : Core) (serial : Nat) : Bool :=
  k.fls.queue.any (fun q => q.serial == serial) || k.fls.runs.any (fun r => r.cmd.serial == serial && !r.stopped)

/-- The value of a binding or guard on bit `bit` of the SUM0 a chain wrote, with SENSE; FALSE where it wrote none
(R129). -/
def bindValue (sum0 : Option Nat) (bit : Nat) (sense : Bool) : Bool :=
  match sum0 with
  | some v => bitAt v bit == sense
  | none => false

/-- The binding a command takes at issue (R130). -/
def Thread.binding (x : Thread) (gsel : Nat) (ginv : Bool) : Binding :=
  if gsel = 0 then .resolved true
  else match x.guard gsel with
    | .tt => .resolved (!ginv)
    | .ff => .resolved ginv
    | .pending ch bit sense => .pending ch bit sense ginv

/-- Whether a binding is still PENDING. -/
def Binding.isPending : Binding → Bool
  | .pending .. => true
  | .resolved _ => false

/-- A binding resolved by the end of a chain (R129, R130). -/
def Binding.settle (b : Binding) (ch : Nat) (sum0 : Option Nat) : Binding :=
  match b with
  | .pending ch' bit sense inv => if ch' = ch then .resolved (bindValue sum0 bit sense != inv) else b
  | .resolved v => .resolved v

/-- A binding that has just resolved FALSE. -/
def Binding.fellFalse (b b' : Binding) : Bool :=
  match b, b' with
  | .pending .., .resolved false => true
  | _, _ => false

/-- A guard resolved by the end of a chain (R129). -/
def Guard.settle (g : Guard) (ch : Nat) (sum0 : Option Nat) : Guard :=
  match g with
  | .pending ch' bit sense => if ch' = ch then guardOf (bindValue sum0 bit sense) else g
  | .ff => .ff
  | .tt => .tt

/-! Issue. -/

/-- Depths of the chain queue and of a stream's queue (R107, R165). -/
def chainDepth : Nat := 4
def dmaDepth : Nat := 4

/-- Bytes of the chain command whose header is `h`: 32, and 8 for each stage of a RUN (R95). -/
def chainBytes (h : Nat) : Nat := if fld h 0 4 = 1 then 32 + 8 * (fld h 4 3 + 1) else 32

/-- A binding taken FALSE at issue counts in CORE_SQUASH_CNT at once (R132). -/
def State.countBind (s : State) (c : Nat) (b : Binding) : State :=
  if b = .resolved false then s.cnt (pgCORE c) 0x80 1 else s

/-- A chain put into the chain queue with the core's next serial number. -/
def Core.enqueueChain (k : Core) (q : ChainCmd) : Core :=
  { k with fls := { k.fls with queue := k.fls.queue ++ [{ q with serial := k.chains }] }, chains := k.chains + 1 }

/-- The checks of a command address: 16-byte aligned and in core memory (cause 0x5), granted to the context (cause 0xB)
(R135). -/
def State.cmdAccess (s : State) (c t a n : Nat) (k : State → State) : State :=
  if !(a % 16 == 0 && s.cmIn a n) then s.insFault c t .sched 5 a
  else if !s.cmOk c (s.thread c t).tag.1 a n false then s.insFault c t .ctx 0xB a
  else k s

/-- Command address of IMX, IFS and IDMA: G[RA] + OFF × 16 (R123). -/
def Thread.cmdAddr (x : Thread) (w : Nat) : Nat := addr32 (x.gr (fld w 18 5)) (insOff18 w * 16)

/-- IMX: the array command block enters its queue; where that is full or stalled, or a walk of the thread has taken
the opportunity, the thread waits (R67, R130, R136, R151). -/
def State.issueArray (s : State) (c t : Nat) (x : Thread) (w : Nat) : State :=
  let a := x.cmdAddr w
  s.cmdAccess c t a 16 (fun s0 => s0.cmRead c a 16 (x.reader t a) (fun s1 =>
    let cmd := leNat (s1.cmBytes c a 16)
    let k := s1.core c
    if k.arr.full cmd || k.arr.stalls cmd || bitAt x.emitted (if arrOp cmd = 1 then 0 else 1) then
      s1.wait c t x { word := w, reason := if arrOp cmd = 1 then 1 else 2 }
    else
      let b := x.binding (fld w 24 3) (bitAt w 23)
      ((s1.countBind c b).done c t x).pushArray c cmd ⟨a, t, x.a.pc, x.tag.1, x.tag.2, b, false⟩))

/-- IFS: the chain command enters the chain queue; where that is full or stalled, or a walk of the thread has taken the
opportunity, the thread waits (R107, R129, R130, R136, R151). -/
def State.issueChain (s : State) (c t : Nat) (x : Thread) (w : Nat) : State :=
  let a := x.cmdAddr w
  s.cmdAccess c t a 32 (fun s1 =>
    let head := leNat (s1.cmBytes c a 32)
    let n := chainBytes head
    s1.cmdAccess c t a n (fun s0 => s0.cmRead c a n (x.reader t a) (fun s2 =>
      let k := s2.core c
      if decide (chainDepth ≤ k.fls.queue.length) || k.fls.stall || bitAt x.emitted 2 then s2.wait c t x { word := w, reason := 3 }
      else
        let b := x.binding (fld w 24 3) (bitAt w 23)
        let stages := (upTo ((n - 32) / 8)).map (fun i => leNat (s2.cmBytes c (a + 32 + 8 * i) 8))
        let q : ChainCmd := ⟨head, stages, k.chains, ⟨a, t, x.a.pc, x.tag.1, x.tag.2, b, false⟩⟩
        let s3 := ((s2.setCore c (k.enqueueChain q)).countBind c b).done c t
          { x with lastIfs := some k.chains, lastSum := none }
        if k.fls.queue.isEmpty then s3.checkChainHead c else s3)))

/-- IDMA: the descriptor enters its stream's queue; where that is full or stalled the thread waits (R128, R136, R165). -/
def State.issueDesc (s : State) (c t : Nat) (x : Thread) (w : Nat) : State :=
  let a := x.cmdAddr w
  s.cmdAccess c t a 32 (fun s0 => s0.cmRead c a 32 (x.reader t a) (fun s1 =>
    let d := leNat (s1.cmBytes c a 32)
    let st := fld d 4 5
    let k := s1.core c
    if decide (dmaDepth ≤ (k.dma.stream st).length) || (k.dma.stream st).any (·.stalled) then s1.wait c t x { word := w, reason := 4 }
    else
      let q : Desc := { word := d, addr := a, thread := t, pc := x.a.pc, ctx := x.tag.1, gen := x.tag.2,
                        serial := k.dma.issued }
      let s2 := (s1.setCore c { k with dma := k.dma.enqueue st q }).done c t x
      if (k.dma.stream st).isEmpty then s2.checkDescHead c st else s2))

/-! The instructions that wait, at their first opportunity and at each later one. -/

/-- WAITT (R128). -/
def State.waitTick (s : State) (c t : Nat) (x : Thread) (w : Nat) : State :=
  let target := (x.gr (insRd w) + fld w 0 16) % 2 ^ 32
  if target ≤ s.spanTick then s.done c t x else s.wait c t x { word := w, reason := 6 }

/-- MFS: half of a summary register, once the thread's chains have ended (R133). -/
def State.moveSum (s : State) (c t : Nat) (x : Thread) (w : Nat) : State :=
  if (s.core c).chainsPending t then s.wait c t x { word := w, reason := 7 }
  else
    let v := match fld w 20 2 with | 0 => x.sum0 | 1 => x.sum1 | 2 => x.sum2 | _ => x.sum3
    let h := if bitAt w 19 then v / 2 ^ 32 else v % 2 ^ 32
    s.done c t (x.setGreg (insRd w) (BitVec.ofNat 32 h))

/-- BSUM: a branch on a bit of SUM0, once the thread's chains have ended (R133). -/
def State.branchSum (s : State) (c t : Nat) (x : Thread) (w : Nat) : State :=
  if (s.core c).chainsPending t then s.wait c t x { word := w, reason := 7 }
  else if bitAt x.sum0 (fld w 23 3) == bitAt w 26 then s.jump c t (relTarget x.a.pc (insOff22 w)) x
  else s.done c t x

/-- A keystone operation of a core completes: its watchdog returns to 0 (R464). -/
def State.keyDone (s : State) (c : Nat) : State := s.modCore c (fun k => { k with wd := 0 })

/-- A KEY instruction puts its thread in WAIT, with reason 0x5, until its result returns (R410): its opportunity is not given up. -/
def State.keyHold (s : State) (c t : Nat) (x : Thread) (h : Held) : State :=
  s.setThread c t { x with a := { x.a with st := .wait }, held := some h, emitted := 0 }

/-- A KEY function on a keystone the thread's context owns (R409, R410, R412). The operation acts at the keystone in the order of the
commands, and its result returns two passages later (log 7). -/
def State.keyFunction (s : State) (c t : Nat) (x : Thread) (w : Nat) : State :=
  let key := keyNo w
  let k := s.key key
  let a := x.gr (keyRa w)
  let h : Held := { word := w, reason := 5, key := key }
  let put := fun (z : State) (v : Nat) => z.keyHold c t x { h with res := some (v, z.keyBack c key 2) }
  let tryWait := fun (z : State) (h : Held) =>
    match keyTry x h (z.key key) with
    | some (k', r) =>
      let y := (z.setKey key k').keyHold c t x { h with res := some (r, z.keyBack c key 2) }
      if k'.phase = (z.key key).phase then y else y.keyWake key
    | none => z.keyHold c t x h
  if !(k.kind != 0 && k.owner == x.tag.1) then s.insFault c t .ctx 0xC 0
  else
    match keyFn w with
    | 0 => put (s.keyArrive key none) k.phase
    | 1 => tryWait s.keyCount h
    | 2 => tryWait (s.keyArrive key none) { h with phase := some k.phase }
    | 3 => put (s.keyCount.keySet key (k.value + a)) k.value
    | 4 => put s.keyCount (if a = 0 then k.value else k.phase)
    | 5 => tryWait s.keyCount h
    | _ =>
      let z := s.keyCount
      put (z.keySet key (k.value + keyUnits a)) ((k.change (k.value + keyUnits a)).value)

/-- A KEY instruction with function `fn`: a KEY word of another function is another command. -/
def State.keyInstr (s : State) (c t fn : Nat) : State :=
  let z := s.awake c
  let w := z.cmWord c (z.thread c t).a.pc
  if insOpc w == 0x0E && insLegal w && keyFn w != fn then z else s.instr c t 0x0E (fun y x w => y.keyFunction c t x w)

/-- A thread in WAIT at an issue opportunity: it executes its held instruction if the condition now holds, and otherwise
gives the opportunity up (R120). -/
def State.retest (s : State) (c t : Nat) : State :=
  let x := s.thread c t
  match x.held with
  | none => s
  | some h =>
    if !(s.canIssue c && x.a.st == .wait) then s
    else if x.damaged ([32, 33] ++ insReads h.word) then s.insFault c t .hw 2 0
    else s.issueAgrees c t (fun s =>
      match insOpc h.word with
      | 0x07 => s.branchSum c t x h.word
      | 0x0A => s.moveSum c t x h.word
      | 0x0E =>
        match h.res with
        | some (r, back) =>
          if s.tick < back then s.wait c t x h
          else ((s.done c t (x.setGreg (keyRd h.word) (BitVec.ofNat 32 r))).keyDone c).colWaited h.key (keyFn h.word)
        | none => s.wait c t x h
      | 0x0F => s.waitTick c t x h.word
      | 0x10 => s.issueArray c t x h.word
      | 0x11 => s.issueChain c t x h.word
      | 0x12 => s.issueDesc c t x h.word
      | _ => s)

end Sys2Proof.Machine
end

