-- ==== Sys2Proof/Machine/WalkOps.lean ====
section
/-! DEFINITION. Loop descriptor tables (R143, R144), the addresses of a walk's steps (R145, R148) and the blocks of a MOVE step
(R149), which the DMA engine and the tile walker share. -/

namespace Sys2Proof.Machine

open Sys2Proof

/-! Fields of a loop descriptor table (R143, R144), from its bytes. -/
def tbWord (b : List Byte) (o n : Nat) : Nat := leNat ((b.drop o).take n)
def tbCtl (b : List Byte) : Nat := tbWord b 0 8
def tbKind (b : List Byte) : Nat := fld (tbCtl b) 0 4
def tbNlvl (b : List Byte) : Nat := fld (tbCtl b) 4 3
def tbNcmd (b : List Byte) : Nat := fld (tbCtl b) 8 3
def tbBufAlt (b : List Byte) : Bool := bitAt (tbCtl b) 11
def tbFirstOvr (b : List Byte) : Bool := bitAt (tbCtl b) 12
/-- Space of operand `o` (0 P, 1 Q, 2 R). -/
def tbSpace (b : List Byte) (o : Nat) : Nat := fld (tbCtl b) (16 + 3 * o) 3
/-- Whether operand `o` patches command `k`. -/
def tbPatch (b : List Byte) (k o : Nat) : Bool := bitAt (tbCtl b) (25 + 3 * k + o)
def tbRun (b : List Byte) : Nat := fld (tbCtl b) 40 8
def tbFmt (b : List Byte) : Nat := fld (tbCtl b) 48 4
/-- TEMPLATE, and the reserved bits above it. -/
def tbTemplate (b : List Byte) : Nat := fld (tbWord b 8 8) 0 23
def tbTemplateRsv (b : List Byte) : Nat := tbWord b 8 8 / 2 ^ 23
def tbBase (b : List Byte) (o : Nat) : Nat := tbWord b (16 + 8 * o) 8
def tbExtent (b : List Byte) (o : Nat) : Nat := tbWord b (40 + 8 * o) 8
def tbBound (b : List Byte) (l : Nat) : Nat := tbWord b (64 + 16 * l) 2
def tbMode (b : List Byte) (l : Nat) : Nat := tbWord b (66 + 16 * l) 2
def tbSerp (b : List Byte) : Bool := bitAt (tbMode b 0) 3
def tbStride (b : List Byte) (l o : Nat) : Int := sext 32 (tbWord b (68 + 16 * l + 4 * o) 4)

/-- Bytes of a table (R143). -/
def walkBytes : Nat := 160

/-- The templates' bytes (R150): 16 for each array command, or one chain command with the given first word. -/
def tbTemplateBytes (b : List Byte) (first : Nat) : Nat :=
  if tbKind b = 2 then 16 * (tbNcmd b + 1) else 32 + 8 * (fld first 4 3 + 1)

/-- The operands in use. -/
def tbUsed (b : List Byte) : List Nat := (upTo 3).filter (fun o => tbSpace b o != 0)

/-- addr of R148. -/
def Walk.addr (k : Walk) (o s : Nat) : Int :=
  let b := k.table
  let base : Int := (tbBase b o : Int) +
    ((upTo 5).map (fun i => if i + 1 ≤ tbNlvl b then (k.idx.getD i 0 : Int) * tbStride b (i + 1) o else 0)).foldl (· + ·) 0
  let j := if tbSerp b && decide (1 ≤ tbNlvl b) && k.idx.getD 0 0 % 2 == 1 then tbBound b 0 - 1 - s else s
  base + (j : Int) * tbStride b 0 o

/-- The step extent of R145. -/
def walkExtent (b : List Byte) (o : Nat) : Nat :=
  let f := dmaFmt (tbFmt b)
  if tbKind b ≠ 1 then 1
  else if tbSpace b o = 1 then tbRun b * f.coreBytes
  else tbRun b * f.bytes

/-- The address of block `i` of a MOVE step's transfer in operand `o` (R149). -/
def Walk.blockAddr (k : Walk) (o i : Nat) : Nat :=
  let f := dmaFmt (tbFmt k.table)
  (k.addr o k.step).toNat + i * (if tbSpace k.table o = 1 then f.coreBytes else f.bytes)

/-- Block `i` of a walk's present MOVE step, moved under the format of its table (R149). -/
def State.walkBlock (s : State) (c : Nat) (d : Desc) (k : Walk) (i : Nat) : State × DmaRes Unit :=
  let b := k.table
  s.moveBlock c { d with word := setFld d.word 9 4 (tbFmt b) } (tbFmt b) (tbSpace b 0) (k.blockAddr 0 i) (tbSpace b 1) (k.blockAddr 1 i)

/-- Blocks that a MOVE walk with table `b` moves in all. -/
def walkTotal (b : List Byte) : Nat := if tbKind b = 1 then tbRun b * tbBound b 0 else 0

end Sys2Proof.Machine
end

