-- ==== Sys2Proof/Machine/Dma.lean ====
section
/-! DEFINITION. The commands of the DMA engine (R165 to R175): one block of a descriptor of each KIND, its completion, and a
mesh delivery. -/

namespace Sys2Proof.Machine

open Sys2Proof

/-- Whether a stream holds work for the engine: its head has passed its check and has blocks left, and a walk's has been handed a
transfer (R149, R165, R167). -/
def DmaState.hasWork (m : DmaState) (st : Nat) : Bool :=
  match (m.stream st).head? with
  | none => false
  | some d => !d.stalled && !d.moved && (dsKind d.word != 7 ||
      (match Store.find m.walks st with
       | some k => k.left != 0
       | none => false))

/-- The stream that the engine serves next: the first in ascending number, after the one served last, that holds work (R165). -/
def DmaState.turn (m : DmaState) : Option Nat := ((upTo 32).map (fun i => (m.lastServed + 1 + i) % 32)).find? m.hasWork

/-- The head descriptor of a stream that a command of KIND `kind` serves: it is the stream's turn (R165). -/
def State.served (s : State) (c st kind : Nat) : Option Desc :=
  let m := (s.core c).dma
  match (m.stream st).head? with
  | none => none
  | some d => if s.arrRuns c && dsKind d.word == kind && m.turn == some st then some d else none

/-- The head descriptor as its service begins: it has its use ordinal, and its stream is the one served last (R165,
R170). -/
def State.beginServe (s : State) (c st : Nat) (d : Desc) : State × Desc :=
  let sid := dsStreamId d.word
  let e := (s.core c).dma
  let draws := descDraws d.word && !d.started
  let ord := if draws then Store.get 0 e.uses sid else d.ord
  let d1 := { d with started := true, ord := ord }
  let s1 := if d.started then s else s.trcCmd 1 c 3 st d.ctx d.gen d.addr false
  (s1.modDma c (fun m =>
    { m.setStream st (modAt (fun _ => d1) (m.stream st) 0) with
      lastServed := st, uses := if draws then Store.set 0 m.uses sid (ord + 1) else m.uses }), d1)

/-- Blocks counted as moved; at the last the completion is due. -/
def State.moved (s : State) (c st n : Nat) : State :=
  s.modHead c st (fun q => { q with done := q.done + n, moved := decide (dsCount q.word ≤ q.done + n) })

/-- One block of the head descriptor, by the move of its KIND (R172). -/
def State.serve (s : State) (c st kind : Nat) (move : State → Desc → Nat → State × DmaRes Unit) : State :=
  match s.served c st kind with
  | none => s
  | some d =>
    let b := s.beginServe c st d
    match b.1.dmaSlip c with
    | (true, y) => y.dmaStop c st b.2 (.hw, 5, y.elemAddr c b.2 d.done) d.done
    | (false, y) =>
      let r := move y b.2 d.done
      match r.2 with
      | .ok _ => r.1.moved c st 1
      | .error e => r.1.dmaStop c st b.2 e d.done

/-- One block of the transfer that a MOVE step handed to its stream (R149, R172). -/
def State.serveWalk (s : State) (c st : Nat) : State :=
  match s.served c st 7, Store.find (s.core c).dma.walks st with
  | some d, some k =>
    let i := tbRun k.table - k.left
    match (s.modDma c (fun m => { m with lastServed := st })).dmaSlip c with
    | (true, y) => y.dmaStop c st d (.hw, 5, k.blockAddr 0 i) i
    | (false, y) =>
      let r := y.walkBlock c d k i
      match r.2 with
      | .error e => r.1.dmaStop c st d e i
      | .ok _ =>
        let k1 := { k with left := k.left - 1, step := if k.left = 1 then k.step + 1 else k.step }
        (r.1.modDma c (fun m => { m with walks := Store.insert m.walks st k1 })).modHead c st (fun q => { q with done := q.done + 1 })
  | _, _ => s

/-- COPY: the next block of a COPY descriptor, or of the transfer that a walk's MOVE step handed to the stream (R149, R167, R169,
R170). -/
def execCopy (c : Fin 256) (st : Fin 32) (s : State) : Host.Outcome State Fault Refusal :=
  .next (if (s.served c st 7).isSome then s.serveWalk c st else s.serve c st 1 (fun y d i => y.copyBlock c d i))

/-- GATHER: the next element (R171, R172). -/
def execGather (c : Fin 256) (st : Fin 32) (s : State) : Host.Outcome State Fault Refusal :=
  .next (s.serve c st 2 (fun y d i => y.gatherBlock c d i))

/-- SCATTER: the next element (R171, R172). -/
def execScatter (c : Fin 256) (st : Fin 32) (s : State) : Host.Outcome State Fault Refusal :=
  .next (s.serve c st 3 (fun y d i => y.scatterBlock c d i))

/-- INGEST: the next block (R173). -/
def execIngest (c : Fin 256) (st : Fin 32) (s : State) : Host.Outcome State Fault Refusal :=
  .next (s.serve c st 4 (fun y d i => y.ingestBlock c d i))

/-- SEND: the start checks before its first block, then its next block (R175, R176, R230). -/
def execSend (c : Fin 256) (st : Fin 32) (s : State) : Host.Outcome State Fault Refusal :=
  match s.served c st 5 with
  | none => .next s
  | some d =>
    match if d.started then none else s.sendStart c d with
    | some (y, some (cls, 0, _)) => .next ((y.modDma c (fun m => m.discard st cls d.ctx)).checkDescHead c st)
    | some (y, some e) => .next (y.dmaStop c st d e 0)
    | some (y, none) => .next (y.modHead c st (fun q => { q with stalled := true }))
    | none => .next (s.serve c st 5 (fun y d i => y.sendBlock c st d i))

/-- One service of a TRANSPOSE: its next source row is read, and once all 64 are, its next block is written (R165, R174). -/
def State.serveRow (s : State) (c st : Nat) (d : Desc) : State :=
  let b := s.beginServe c st d
  let n := d.rows.length
  match b.1.dmaSlip c with
  | (true, y) => y.dmaStop c st b.2 (.hw, 5, y.elemAddr c b.2 n) n
  | (false, y) =>
    let r := y.transposeRow c b.2 n
    match r.2 with
    | .ok row => (r.1.countRead c 1).modHead c st (fun q => { q with rows := q.rows ++ [row] })
    | .error e => r.1.dmaStop c st b.2 e n

/-- TRANSPOSE: the next of its 64 rows, then the next of its 64 blocks (R174). -/
def execTranspose (c : Fin 256) (st : Fin 32) (s : State) : Host.Outcome State Fault Refusal :=
  match s.served c st 6 with
  | none => .next s
  | some d =>
    if d.rows.length < 64 then .next (s.serveRow c st d)
    else .next (s.serve c st 6 (fun y d i => (y.transposeBlock c d i, .ok ())))

/-- A descriptor removed from the head of its stream, and the next one checked. -/
def State.popDesc (s : State) (c st : Nat) : State :=
  (s.modDma c (fun m => m.setStream st (m.stream st).tail)).checkDescHead c st

/-- A completed descriptor leaves its stream, and arrives on its keystone (R168). A SEND arrives where its last block is written. -/
def State.endDesc (s : State) (c st : Nat) (d : Desc) : State :=
  let y := s.popDesc c st
  let k := y.key (dsKey d.word)
  if dsKeyEn d.word && dsKind d.word != 5 && k.kind != 0 && k.owner == d.ctx then y.keyArrive (dsKey d.word) none else y

/-- DESCRIPTOR_DONE: a descriptor whose last block is written or handed on completes, and arrives on its keystone (R168). -/
def execDescriptorDone (c : Fin 256) (st : Fin 32) (s : State) : Host.Outcome State Fault Refusal :=
  match ((s.core c).dma.stream st).head? with
  | none => .next s
  | some d =>
    if !(s.arrRuns c && d.moved) then .next s
    else .next ((s.trcCmd 2 c 3 st d.ctx d.gen d.addr false).endDesc c st d)

/-- A block whose context has ended before it landed: it is not written, and counts as not moved (R178, R403 step 4). -/
def State.stragglerBlock (s : State) (id : Nat) : State :=
  let x := s.ctxOf id
  if x.st = .closing then s.setCtx id { x with tdBlocks := satAt max32 (x.tdBlocks + 1) } else s

/-- MESH_DELIVERY: the oldest block in flight of a core's stream is written at its destination, and the last one arrives on
its keystone (R168, R175). -/
def execMeshDelivery (c : Fin 256) (st : Fin 32) (s : State) : Host.Outcome State Fault Refusal :=
  match firstIdx (fun m => m.src == c.val && m.stream == st.val) s.mesh 0 with
  | none => .next s
  | some i =>
    match s.mesh[i]? with
    | none => .next s
    | some m =>
      let y := { s with mesh := s.mesh.eraseIdx i }
      if !s.tagOpen (m.ctx + m.gen * 2 ^ 10) then .next (y.stragglerBlock m.ctx)
      else
      let x := if (y.core m.dst).inReset then y else y.cmPut m.dst m.addr m.bytes
      match m.key with
      | none => .next x
      | some k =>
        if (x.key k).kind != 0 && (x.key k).owner == m.ctx then .next (x.keyArrive k none) else .next x

end Sys2Proof.Machine
end

