-- ==== Sys2Proof/Machine/FlsOps.lean ====
section
/-! DEFINITION. Flowstone (R92 to R113): the fields and checks of its commands, the blocks it reads and writes, the run of a
chain, and what the end of a chain resolves. -/

namespace Sys2Proof.Machine

open Sys2Proof

/-- A binding that missed its command's write point is kept until it resolves, for CORE_SQUASH_CNT (R131, R132). -/
def State.missBinding (s : State) (c : Nat) (b : Binding) : State := s.modCore c (fun k => { k with missed := k.missed ++ [b] })

/-- A binding still PENDING at its write point: a schedule fault of the control core (R131, R135, R136). The issuing thread becomes
FAULTED, as under the control core's other faults of the class (DESIGN CHOICE, log 59). -/
def State.unresolved (s : State) (c : Nat) (iss : Issue) : State :=
  (s.setThread c iss.thread (s.thread c iss.thread).faulted).coreFault c .sched 0 7
    iss.thread iss.ctx iss.gen iss.pc iss.addr

/-! Blocks of a chain. -/

/-- Entry index of lane `i` of block position `pos` of a bank, by slot or by row (R95). -/
def bankLane (bank pos : Nat) (byRow : Bool) (i : Nat) : Nat :=
  if byRow then accIdx bank (pos / 4) (64 * (pos % 4) + i) else accIdx bank (64 * (pos % 2) + i) (pos / 2)

/-- A bank's block position presented at one exponent (R76). -/
def Core.bankBlock (k : Core) (bank pos : Nat) (byRow : Bool) : Wide :=
  let es := (upTo 64).map (fun i => Store.get {} k.arr.acc (bankLane bank pos byRow i))
  let e := maxI (es.map (·.e))
  ⟨es.map (fun x => roundShift none x.v (e - x.e)), e, es.map (·.sat)⟩

/-- Writes of a wide block to a bank's block position (R101). -/
def bankWrites (bank pos : Nat) (byRow : Bool) (w : Wide) : List Wr :=
  (upTo 64).map (fun i => .acc (bankLane bank pos byRow i) 3 ⟨w.v.getD i 0, w.e, w.sat.getD i false⟩)

/-- A block of core memory as a wide block (R97: it enters with SAT 0). -/
def RdBlock.wide (b : RdBlock) : Wide := ⟨b.m, b.e, List.replicate 64 false⟩

/-- The cause of FLS for a failed block check: 0x3, 0x4 as they are, a format that differs is 0x7 (R109, R114). -/
def flsCheckCause (bad : Nat) : Nat := if bad = 5 then 7 else bad

/-- Latency of a stage, for the order of a chain's reads and writes (R106). -/
def stageLatency (w : Nat) : Nat := if stOp w = 0xC ∨ stOp w = 0xE ∨ stOp w = 0xF then 4 else 2

/-- The block period (R106). -/
def chainPeriod (h : Nat) : Nat :=
  let per := fun (on : Bool) (f : Nat) => if on then ceilDiv (fmtOf f).bytes 128 else 1
  let a := per (fhIsrc h == 0 || fhBstream h) (fhIfmt h)
  let b := per (fhOdst h == 0) (fhOfmt h)
  if a < b then b else a

/-- Whether an error is recorded before another: the earlier one, and of one core cycle that of the lowest block, then the lowest
stage with the output stage last, then the lowest lane, and a hardware fault before a context fault (R111); words of core memory come
last (R137). -/
def FlsErr.before (a b : FlsErr) : Bool :=
  let key := fun (e : FlsErr) =>
    ((((e.time * 2 + b2n e.word.isSome) * 65536 + e.block) * 16 + (if e.out then 8 else e.stage)) * 64 + e.lane) * 4 + e.cls.code
  decide (key a < key b)

/-- An error put in its place among others. -/
def flsErrInsert (e : FlsErr) : List FlsErr → List FlsErr
  | [] => [e]
  | x :: l => if e.before x then e :: x :: l else x :: flsErrInsert e l

/-- STAGE, OUTPUT and LANE of ERR_LOG0 (R114). -/
def FlsErr.pos (e : FlsErr) : Nat := e.stage * 2 ^ 21 + b2n e.out * 2 ^ 20 + e.lane * 2 ^ 14

/-- Errors raised in the order in which they are recorded; residue and duplicate mismatches are counted too (R110, R111, R116). -/
def State.raiseFlsErrs (s : State) (c : Nat) (q : ChainCmd) (es : List FlsErr) : State :=
  (es.foldl (fun l e => flsErrInsert e l) []).foldl (fun a e =>
    match e.word with
    | some b => a.cmFault c q.iss.reader b
    | none =>
      let a1 := match e.cls, e.cause with
        | .hw, 1 => a.cnt (pgFLS c) 0x60 1
        | .hw, 2 => a.cnt (pgFLS c) 0x64 1
        | _, _ => a
      a1.flsFaultAt c q e.cls e.cause e.block e.pos) s

/-- The generator words of consumer `k` for block `b` (R54, R55, R105). -/
def State.chainGen (s : State) (e : ChainEnv) (k b j : Nat) : Nat :=
  match e.ords.find? (fun p => p.1 == k) with
  | some p => genWord s.img.seed (fhStream e.cmd.head) s.sch.seq p.2 b j
  | none => 0

/-- What reading entries or lanes of the register file finds (R93): the number of single-bit errors, which are corrected and counted,
and those that cannot be corrected, by their places among those read. -/
def eccRead (ecc : Store Nat) (keys : List Nat) : Nat × List Nat :=
  let hits := keys.map (fun k => Store.get 0 ecc k)
  ((hits.filter (· == 1)).length, (upTo keys.length).filter (fun i => decide (2 ≤ hits.getD i 0)))

/-- A read of the register file counted, and its uncorrectable errors (R93, R111). -/
def State.fileRead (s : State) (c : Nat) (a : ChainAcc) (ecc : Store Nat) (keys : List Nat) (time block stage : Nat) : State × ChainAcc :=
  let r := eccRead ecc keys
  (if r.1 = 0 then s else s.cnt (pgFLS c) 0x68 r.1,
   { a with errs := a.errs ++ r.2.map (fun i => { time := time, block := block, stage := stage, lane := i, cls := .hw, cause := 5 }) })

/-- The lanes of a vector register, by their number in the register file. -/
def vregLanes (r : Nat) : List Nat := (upTo 64).map (fun i => r * 64 + i)

/-- Operand B of stage `k` with its width (R96, R511). -/
def State.chainB (s : State) (c : Nat) (e : ChainEnv) (a : ChainAcc) (w : Nat) (second : Wide) : Wide × Nat :=
  match stBsrc w with
  | 0 =>
    let r := stBreg w
    match Store.find a.shadow r with
    | some x => (x, 48)
    | none =>
      if e.cmd.stages.any (fun u => stWb u && stBreg u == r) then (Store.get {} e.v0 r, 48)
      else (Store.get {} (s.core c).fls.v r, 48)
  | 1 => (immBlock (sext 24 (stImm w)) (stImmExp w), 24)
  | _ => (second, 48)

/-- Whether operand B of a stage word is read from the register file and not forwarded inside the chain (R511). -/
def readsBreg (a : ChainAcc) (w : Nat) : Bool := stUsesB (stOp w) && stBsrc w == 0 && (Store.find a.shadow (stBreg w)).isNone

/-- The lanes of a LUT stage that meet a table entry with wrong parity (R99). -/
def parityLanes (bad : List Nat) (w : Nat) (t : Option Table) (x : Wide) : List Nat :=
  if stOp w ≠ 0xC then []
  else match t with
    | none => []
    | some t => (upTo x.v.length).filter (fun i => bad.contains (stTable w * 256 + lutSegment t (x.v.getD i 0) x.e))

/-- What a stage's reads find: errors of the vector register it reads as operand B, and of the table it looks up (R93, R99). -/
def State.stageReads (s : State) (c : Nat) (a : ChainAcc) (time b k w : Nat) (x : Wide) : State × ChainAcc :=
  let f := (s.core c).fls
  let r := if readsBreg a w then s.fileRead c a f.vEcc (vregLanes (stBreg w)) time b k else (s, a)
  (r.1, { r.2 with errs := r.2.errs ++ (parityLanes f.tabPar w (Store.find f.tables (stTable w)) x).map (fun l =>
    { time := time, block := b, stage := k, lane := l, cls := .hw, cause := 6 }) })

/-- The stages of a block in order: the block that leaves the last stage, and the WB writes (R97, R511). `time` is the core cycle at
which the block enters stage `k`. -/
def State.chainStages (s : State) (c : Nat) (e : ChainEnv) (a : ChainAcc) (b : Nat) (second : Wide) :
    Nat → Nat → List Nat → FBlk → List (Nat × Wide) → (State × ChainAcc) × FBlk × List (Nat × Wide)
  | _, _, [], x, wbs => ((s, a), x, wbs)
  | k, time, w :: rest, x, wbs =>
    let o := s.chainB c e a w second
    let r := s.stageReads c a time b k w x.w
    let y := runStage w x o.1 o.2 (s.chainGen e k b) (Store.find (s.core c).fls.tables (stTable w))
    State.chainStages r.1 c e r.2 b second (k + 1) (time + stageLatency w) rest y (if stWb w then wbs ++ [(stBreg w, y.w)] else wbs)

/-- The sum of the stages' latencies S (R106). -/
def chainLatency (st : List Nat) : Nat := (st.map stageLatency).foldl (· + ·) 0

/-- A write put among those due by its core cycle, after its equals. -/
def dueInsert (w : DueWrite) : List DueWrite → List DueWrite
  | [] => [w]
  | x :: l => if w.after < x.after then w :: x :: l else x :: dueInsert w l

/-- What the vector registers held before each of the writes made, which are in order (R511): core cycles before an entry `gap` after
the last, register, value. -/
def pastOf (v : Store Wide) (gap : Nat) (made : List DueWrite) : List (Nat × Nat × Wide) :=
  (made.foldl (fun (p : Store Wide × List (Nat × Nat × Wide)) d => d.writes.foldl (fun q w => match w with
    | .vreg r x => (Store.set {} q.1 r x, q.2 ++ [(gap - d.after, r, Store.get {} q.1 r)])
    | _ => q) p) (v, [])).2

/-- The vector registers as a chain finds them that starts four core cycles before its first block enters, a core cycle after the last
entry: the writes of those core cycles are not yet made (R106, R511). -/
def FlsState.atStart (f : FlsState) : Store Wide :=
  if f.runs.isEmpty then f.v
  else f.past.reverse.foldl (fun v p => if p.1 ≤ 3 then Store.set {} v p.2.1 p.2.2 else v) f.v

/-- Block `b` enters stage 0, `lead` or a period after the block before it: the writes whose core cycle lies before it are made, so
that its reads, which take place as it enters, see them (R106, R107, R162; the read's core cycle is a DESIGN CHOICE, log 58). -/
def State.chainDue (s : State) (c : Nat) (e : ChainEnv) (a : ChainAcc) (b : Nat) : State × ChainAcc :=
  let gap := if b = 0 then e.lead else chainPeriod e.cmd.head
  let made := a.due.filter (fun w => decide (w.after < gap))
  (s.applyWrs c (made.flatMap (·.writes)),
   { a with
     due := (a.due.filter (fun w => decide (gap ≤ w.after))).map (fun w => { w with after := w.after - gap })
     past := ((a.past.map (fun p => (p.1 + gap, p.2))) ++ pastOf (s.core c).fls.v gap made).filter (fun p => decide (p.1 ≤ 4)) })

/-- The largest magnitude of a wide block (R102). -/
def Wide.maxAbs (w : Wide) : Nat := w.v.foldl (fun m v => if m < v.natAbs then v.natAbs else m) 0

/-- The writes of a block, made 4 + S core cycles after its entry, or withheld (R106, R112). -/
def ChainAcc.write (a : ChainAcc) (e : ChainEnv) (ws : List Wr) : ChainAcc :=
  if e.live then { a with due := dueInsert ⟨4 + chainLatency e.cmd.stages, e.cmd.serial, ws⟩ a.due } else a

/-- The output stage on one block (R101 to R104): the accumulated summary and the block's writes. Of writes to one vector register in
one core cycle the last stands: a WB stage's after the output's, and a later stage's after an earlier one's (R511; DESIGN CHOICE,
log 58). -/
def State.chainOut (s : State) (e : ChainEnv) (a : ChainAcc) (b : Nat) (x : FBlk) (wbs : List (Nat × Wide)) : ChainAcc :=
  let h := e.cmd.head
  let m := x.w.maxAbs
  let amax := if expGt m x.w.e a.amax.1 a.amax.2 then (m, x.w.e) else a.amax
  let anySat := x.w.sat.any id
  let rng := x.rng.any id
  let wbw : List Wr := wbs.map (fun p => .vreg p.1 p.2)
  let base : ChainAcc :=
    { a with shadow := wbs.foldl (fun m p => Store.insert m p.1 p.2) a.shadow
             amax := amax, rng := a.rng || rng, pAny := a.pAny || x.p.any id, pAll := a.pAll && x.p.all id
             blocks := a.blocks + 1, last := (x.w.v.headD 0, x.w.e), rngs := a.rngs + b2n rng }
  if fhOdst h = 0 then
    let f := fmtOf (fhOfmt h)
    let o := rescale x.w f (fhPolicy h) (fhFix h) (s.amaxFloor (fhTensor h)) (fhRnd h) (s.chainGen e 8 b)
    let side := o.sidecar f (fhRnd h) anySat (e.cmd.iss.ctx + e.cmd.iss.gen * 2 ^ 10)
    let data := packBlock f o.m
    { base with
      sat := a.sat || anySat || side.sat, zero := a.zero && side.zero, sats := a.sats + b2n side.sat
      emin := if o.e < a.emin then o.e else a.emin, emax := if a.emax < o.e then o.e else a.emax
      bytes := if fhDigEn h then a.bytes ++ data ++ side.bytes.take 2 else a.bytes }.write e
        ((if fhNowr h then [] else [Wr.mem (fhDst h + b * f.coreBytes) (data ++ side.bytes)]) ++ wbw)
  else
    let ws : List Wr :=
      if fhNowr h then []
      else if fhOdst h = 3 then [.vreg (fhDst h) x.w]
      else bankWrites (fhObank h) (fhDst h + b) (fhOdst h == 2) x.w
    { base with
      sat := a.sat || anySat, zero := a.zero && x.w.v.all (fun v => decide (v = 0)), sats := a.sats + b2n anySat }.write e (ws ++ wbw)

/-- A block of core memory that a chain reads as it enters stage 0, with the failure of its first check that is raised, and the words
that cannot be corrected (R109, R161). -/
def State.chainRead (s : State) (c : Nat) (e : ChainEnv) (time b base : Nat) : State × Wide × List FlsErr :=
  let f := fmtOf (fhIfmt e.cmd.head)
  let a := base + b * f.coreBytes
  let z := s.cmCorrect c a f.coreBytes
  let r := z.1.coreBlock c f a
  let err := fun (cls : FClass) (cause : Nat) => ({ time := time, block := b, cls := cls, cause := cause } : FlsErr)
  (z.1, r.wide,
   (if r.bad = 0 then [] else if r.bad = 5 then (if e.heed then [err .ctx 7] else []) else [err .hw r.bad]) ++
   z.2.map (fun w => { time := time, block := b, cls := .hw, cause := 4, word := some w }))

/-- The input block of a chain, with the width that R52 counts it with (R95, R96). -/
def State.chainInput (s : State) (c : Nat) (e : ChainEnv) (a : ChainAcc) (time b : Nat) :
    (State × ChainAcc) × (Wide × Nat) × List FlsErr :=
  let h := e.cmd.head
  let k := s.core c
  match fhIsrc h with
  | 0 => let r := s.chainRead c e time b (fhSrc h); ((r.1, a), (r.2.1, (fmtOf (fhIfmt h)).bits), r.2.2)
  | 3 => (s.fileRead c a k.fls.vEcc (vregLanes (fhSrc h)) time b 0, (Store.get {} e.v0 (fhSrc h), 48), [])
  | n =>
    let at' := bankLane (fhIbank h) (fhSrc h + b) (n == 2)
    (s.fileRead c a k.arr.accEcc ((upTo 64).map at') time b 0, (k.bankBlock (fhIbank h) (fhSrc h + b) (n == 2), 48), [])

/-- One block of a chain: both of its streams are read and checked, and unless a context failure stops the chain it passes the stages
(R106, R109, R111). A block counts in FLS_BLK_CNT whether or not the chain's writes are withheld; FLS_SAT_CNT and FLS_RNG_CNT count
blocks that are written (R112, R116; DESIGN CHOICE, log 58). -/
def State.chainBlock (s : State) (c : Nat) (e : ChainEnv) (a : ChainAcc) (b : Nat) : State × ChainAcc :=
  match a.stop with
  | some _ => (s, a)
  | none =>
    let time := b * chainPeriod e.cmd.head
    let d := (s.cnt64 (pgFLS c) 0x48 1).chainDue c e a b
    let i := d.1.chainInput c e d.2 time b
    let j := if fhBstream e.cmd.head then i.1.1.chainRead c e time b (fhSrcb e.cmd.head) else (i.1.1, ({} : Wide), [])
    let errs := i.2.2 ++ j.2.2
    let acc := { i.1.2 with errs := i.1.2.errs ++ errs.filter (fun x => x.cls == .hw) }
    match errs.find? (fun x => x.cls == .ctx) with
    | some x => (j.1, { acc with stop := some x })
    | none =>
      let r := j.1.chainStages c e acc b j.2.1 0 time e.cmd.stages { w := i.2.1.1, width := i.2.1.2 } []
      (r.1.1, r.1.1.chainOut e r.1.2 b r.2.1 r.2.2)

/-- The upset that a chain's checked and duplicated logic shows at its first block, if the state holds one: its stage in bits [2:0], the
output stage in bit 3, its lane in bits [9:4], and 1 a residue or 2 a duplicate mismatch in bits [11:10] (R110; log 56). -/
def State.stageErrs (s : State) (c : Nat) (e : ChainEnv) : State × List FlsErr :=
  match s.takeSlip (pgFLS c) with
  | (none, s1) => (s1, [])
  | (some d, s1) =>
    let k := fld d 0 3
    let out := bitAt d 3
    let cause := fld d 10 2
    let shows := if cause = 1 then bitAt (s.reg (pgFLS c) 0x40) 0 && !out && stResidue (stOp (e.cmd.stages.getD k 0))
      else cause == 2 && bitAt (s.reg (pgFLS c) 0x40) 1
    let st := if out then e.cmd.stages else e.cmd.stages.take k
    (s1, if shows && (out || decide (k < e.cmd.stages.length)) then
      [⟨chainLatency st, 0, if out then 0 else k, out, fld d 4 6, .hw, cause, none⟩] else [])

/-- The next `n` blocks of a chain (R95). -/
def State.chainBlocks (s : State) (c : Nat) (e : ChainEnv) (a : ChainAcc) (n : Nat) : State × ChainAcc :=
  (upTo n).foldl (fun p _ => p.1.chainBlock c e p.2 p.2.blocks) (s, a)

/-- What a chain leaves for its completion (R102 to R104). The maximum that ABS_EN tests is kept with AMAX_EN clear too (DESIGN CHOICE,
log 58). -/
def ChainAcc.summary (a : ChainAcc) (h : Nat) : ChainSum :=
  let d := fhAbsExp h - a.amax.2
  let absurd := fhAbsEn h && (if 0 ≤ d then decide (2 ^ d.toNat ≤ a.amax.1) else decide (0 < a.amax.1))
  let core := fhOdst h = 0
  { sum0 := b2n a.sat + 2 * b2n a.rng + 4 * b2n a.pAny + 8 * b2n a.pAll + 16 * b2n a.zero + 32 * b2n absurd
      + (if core then toBits 8 a.emin * 2 ^ 8 + toBits 8 a.emax * 2 ^ 16 else 0) + a.blocks * 2 ^ 32
    sum1 := if fhAmaxEn h then a.amax.1 % 2 ^ 48 + toBits 16 a.amax.2 * 2 ^ 48 else 0
    sum3 := toBits 48 a.last.1 + toBits 16 a.last.2 * 2 ^ 48
    digest := if fhDigEn h then some (fhDigAcc h, a.bytes) else none
    amax := if fhAmaxEn h then some (fhTensor h, a.amax.1, a.amax.2) else none
    absurd := absurd }

/-- The writes due up to and with the last of chain `serial`, and those after it. -/
def dueThrough (serial : Nat) : List DueWrite → List DueWrite × List DueWrite
  | [] => ([], [])
  | w :: l =>
    if (w :: l).any (fun x => x.serial == serial) then let r := dueThrough serial l; (w :: r.1, r.2) else ([], w :: l)

/-- Due writes put among others. -/
def dueMerge (l m : List DueWrite) : List DueWrite := m.foldl (fun a w => dueInsert w a) l

/-- The writes still due of a chain made, as it ends (R106). -/
def State.flushDue (s : State) (c serial : Nat) : State :=
  let r := dueThrough serial (s.core c).fls.due
  (s.applyWrs c (r.1.flatMap (·.writes))).modCore c (fun k => { k with fls := { k.fls with due := r.2 } })

/-! The end of a chain. -/

/-- The two counters of the blocks a chain has written (R116). -/
def State.flsCounts (s : State) (c sats rngs : Nat) : State :=
  let s1 := if sats = 0 then s else s.cnt (pgFLS c) 0x5C sats
  if rngs = 0 then s1 else s1.cnt (pgFLS c) 0x6C rngs

/-- A running chain whose binding is now known: a context failure held with the binding is raised, with the writes of the blocks before
it made, or dropped (R111, R112, R509). -/
def State.settleChain (s : State) (c : Nat) (r : ChainRun) : State × Option ChainRun :=
  match r.cmd.iss.bind with
  | .pending .. => (s, some r)
  | .resolved true =>
    if r.squashed then (s, some r)
    else
      match r.fault with
      | some f =>
        let ws := match r.todo with
          | some p => p.2.due.flatMap (·.writes)
          | none => []
        (((s.applyWrs c ws).flsCounts c r.sats r.rngs).flsFaultAt c r.cmd .ctx f.cause f.log2 f.log0, none)
      | none => (s.flsCounts c r.sats r.rngs, some { r with sats := 0, rngs := 0 })
  | .resolved false =>
    if r.stopped then (s.cnt (pgFLS c) 0x58 1, none)
    else (s, some { r with sats := 0, rngs := 0, squashed := true, sum := none })

/-- Every running chain settled, oldest first. -/
def State.settleFls (s : State) (c : Nat) : State :=
  let rs := (s.core c).fls.runs
  let r := rs.foldl (fun (p : State × List ChainRun) x =>
    let q := p.1.settleChain c x
    (q.1, p.2 ++ q.2.toList)) (s, [])
  r.1.modCore c (fun k => { k with fls := { k.fls with runs := r.2 } })

/-- A running array command whose binding is now known. -/
def settleArrRun (r : ArrRun) : ArrRun :=
  match r.cmd.iss.bind with
  | .resolved false => { r with held := [], tile := none, squashed := true }
  | _ => r

/-- The context failures that array commands held with a binding: raised where it resolved TRUE, dropped and counted
where it resolved FALSE (R509). A STREAM that is squashed makes its reads and checks as any (R87). -/
def State.settleArrFaults (s : State) (c : Nat) : State :=
  let rs := (s.core c).arr.runs
  let s1 := s.modCore c (fun k => { k with arr := { k.arr with runs := rs.map (fun r =>
    match r.fault, r.cmd.iss.bind with
    | some _, .resolved true => { settleArrRun r with fault := none, stopped := true }
    | some _, .resolved false => { settleArrRun r with fault := none }
    | _, _ => settleArrRun r) } })
  rs.foldl (fun a r =>
    match r.fault, r.cmd.iss.bind with
    | some f, .resolved true => a.arrFault c r.cmd .ctx f.cause f.log0 f.log2
    | some _, .resolved false => if r.stopped then a.cnt (pgMXA c) 0x60 1 else a
    | _, _ => a) (rs.foldl (fun a r => if decide (r.cmd.iss.bind = .resolved false) && r.writes then a.accReads c r else a) s1)

/-- The bindings of a core's commands. -/
def Core.bindings (k : Core) : List Binding :=
  k.arr.loadQ.map (·.iss.bind) ++ k.arr.streamQ.map (·.iss.bind) ++ k.arr.runs.map (·.cmd.iss.bind) ++
  k.fls.queue.map (·.iss.bind) ++ k.fls.runs.map (·.cmd.iss.bind) ++ k.missed

/-- An issue record with its binding settled. -/
def Issue.settle (i : Issue) (ch : Nat) (v : Option Nat) : Issue := { i with bind := i.bind.settle ch v }

/-- A thread's guards settled, with what it knows of its last chain (R129). -/
def Thread.settle (x : Thread) (ch : Nat) (v : Option Nat) : Thread :=
  { x with a := { x.a with q := Store.mapVals (fun _ g => g.settle ch v) x.a.q }
           lastSum := if x.lastIfs = some ch then some v else x.lastSum }

/-- The core with guards and bindings on chain `ch` settled (R129, R130). A guard that settles FALSE is no longer
listed. -/
def Core.settle (k : Core) (ch : Nat) (v : Option Nat) : Core :=
  let arrCmd := fun (q : ArrCmd) => { q with iss := q.iss.settle ch v }
  let chCmd := fun (q : ChainCmd) => { q with iss := q.iss.settle ch v }
  { k with
    threads := Store.mapVals (fun _ x =>
      let y := x.settle ch v
      { y with a := { y.a with q := y.a.q.filter (fun p => p.2 != .ff) } }) k.threads
    arr := { k.arr with loadQ := k.arr.loadQ.map arrCmd, streamQ := k.arr.streamQ.map arrCmd
                        runs := k.arr.runs.map (fun r => { r with cmd := arrCmd r.cmd }) }
    fls := { k.fls with queue := k.fls.queue.map chCmd
                        runs := k.fls.runs.map (fun r => { r with cmd := chCmd r.cmd }) }
    missed := k.missed.map (·.settle ch v) }

/-- How many bindings of a core fell FALSE. -/
def fallen (before after : List Binding) : Nat :=
  ((before.zip after).filter (fun p => p.1.fellFalse p.2)).length

/-- The end of chain `ch`, which wrote SUM0 `v` or none: what waited on it resolves, and the writes and faults that were
held go ahead (R129, R132, R509). -/
def State.chainEnd (s : State) (c ch : Nat) (v : Option Nat) : State :=
  let k := s.core c
  let k1 := k.settle ch v
  let n := fallen k.bindings k1.bindings
  let s1 := s.setCore c { k1 with missed := k1.missed.filter (·.isPending) }
  let s2 := if n = 0 then s1 else s1.cnt (pgCORE c) 0x80 n
  (((s2.settleArrFaults c).settleArr c).settleFls c)

end Sys2Proof.Machine
end

