-- ==== Sys2Proof/Machine/Walker.lean ====
section
/-! DEFINITION. The tile walker (R142 to R155): table fields and their checks, the addresses of a step, patching and emission,
and the commands WALK, WALK_STEP, EMIT_COMMAND and WALK_DONE. -/

namespace Sys2Proof.Machine

open Sys2Proof

/-- Check 1 of R147: table, templates and core memory windows. A window's base is a multiple of 8, as R163 has a block's
first byte (log 25). -/
def State.walkPlaces (s : State) (c a : Nat) (b : List Byte) : Bool :=
  let tmpl := tbTemplate b
  let first := leNat (s.cmBytes c tmpl 8)
  a % 32 == 0 && s.cmIn a walkBytes &&
  (!(tbKind b == 2 || tbKind b == 3) || (tmpl % 16 == 0 && s.cmIn tmpl (tbTemplateBytes b first))) &&
  (upTo 3).all (fun o => tbSpace b o != 1 || (tbBase b o % 8 == 0 && s.cmIn (tbBase b o) (tbExtent b o)))

/-- Whether the spaces of a KIND are those of R146. -/
def walkSpaces (b : List Byte) : Bool :=
  let p := tbSpace b 0
  let q := tbSpace b 1
  let r := tbSpace b 2
  let mem := fun (x : Nat) => x == 1 || x == 2 || x == 3
  match tbKind b with
  | 1 => mem p && mem q && (p == 1 || q == 1) && r == 0
  | 2 => (p == 1 || p == 4) && (q == 1 || q == 4) && (r == 0 || r == 1 || r == 4)
  | 3 => (p == 1 || p == 5) && (q == 1 || q == 5) && (r == 0 || r == 1)
  | _ => false

/-- One level record against R144. -/
def walkLevelOk (b : List Byte) (l : Nat) : Bool :=
  let m := tbMode b l
  if tbNlvl b < l then ((b.drop (64 + 16 * l)).take 16).all (fun x => x == 0#8)
  else tbBound b l != 0 && decide (fld m 0 3 < 6) && (l == 0 || !bitAt m 3) && m / 16 == 0 &&
    (upTo 3).all (fun o => tbSpace b o != 0 || tbStride b l o == 0)

/-- Check 2 of R147: encodings, reserved and unused fields, spaces. DESIGN CHOICE (log 60): a patch bit of a command above NCMD, or
of an operand without a space, is refused here (R143). -/
def walkEncodingOk (b : List Byte) : Bool :=
  let w := tbCtl b
  let k := tbKind b
  let emit := k == 2 || k == 3
  decide (1 ≤ k) && decide (k ≤ 3) && decide (tbNlvl b ≤ 5) && !bitAt w 7 && fld w 13 3 == 0 && fld w 52 12 == 0 &&
  decide (tbNcmd b ≤ (if k = 2 then 4 else 0)) && (k == 2 || (!tbBufAlt b && !tbFirstOvr b)) &&
  (upTo 5).all (fun i => (upTo 3).all (fun o =>
    !tbPatch b i o || (emit && decide (i ≤ tbNcmd b) && tbSpace b o != 0))) &&
  (if k = 1 then tbRun b != 0 && (Fmt.ofCode (tbFmt b)).isSome && tbTemplate b == 0 else tbRun b == 0 && tbFmt b == 0) &&
  tbTemplateRsv b == 0 &&
  walkSpaces b &&
  (upTo 3).all (fun o => tbSpace b o != 0 || (tbBase b o == 0 && tbExtent b o == 0)) &&
  (upTo 6).all (walkLevelOk b)

/-- Outer index i_L of a WALK descriptor, for L from 1 to 5 (R142, R167). -/
def walkIndex (w l : Nat) : Nat := if l = 5 then dsI5 w else fld w (128 + 16 * (l - 1)) 16

/-- Check 3 of R147. -/
def walkIndicesOk (b : List Byte) (w : Nat) : Bool :=
  (upTo 5).all (fun i => if i + 1 ≤ tbNlvl b then decide (walkIndex w (i + 1) < tbBound b (i + 1)) else walkIndex w (i + 1) == 0)

/-- Check 4 of R147 for operand `o`: its window lies inside its space and is granted. A destination needs write access. -/
def State.walkWindowOk (s : State) (c ctx : Nat) (b : List Byte) (o : Nat) : Bool :=
  let a := tbBase b o
  let n := tbExtent b o
  let write := o == 1 && (tbKind b == 1 || tbKind b == 3)
  match tbSpace b o with
  | 0 => true
  | 1 => s.cmIn a n && s.cmOk c ctx a n write
  | 2 => decide (a + n ≤ s.mem.devExtent) && s.pageOk false ctx a n write
  | 3 => decide (a + n ≤ s.mem.capExtent) && s.pageOk true ctx a n write
  | 4 => decide (a + n ≤ 1024)
  | _ => decide (a + n ≤ 2048)

/-- A fault of the walker (R153, R157): its log, the core's fault queue under the DMA engine's UNIT (log 24), its class. -/
def State.tilFault (s : State) (c : Nat) (d : Desc) (cls : FClass) (cause operand step : Nat) : State :=
  let bit := match cls with
    | .sched => 2
    | .ctx => 1
    | .hw => 0
  ((s.logErr (pgTIL c) (cls.code * 2 ^ 28 + cause * 2 ^ 24 + operand * 2 ^ 22 + dsStream d.word * 2 ^ 17)
    (d.thread * 2 ^ 28 + fld d.word 64 23) (step % 2 ^ 16)).setInt (pgTIL c) bit).coreFault c cls 3 cause d.thread d.ctx
      d.gen d.pc (fld d.word 64 23)

/-- The start checks of a walk in order: class, cause and operand of the first failure (R147). -/
def State.walkStartCheck (s : State) (c : Nat) (d : Desc) (b : List Byte) : Option (FClass × Nat × Nat) :=
  if !s.walkPlaces c (fld d.word 64 23) b then some (.sched, 7, 3)
  else if !walkEncodingOk b then some (.sched, 6, 3)
  else if !walkIndicesOk b d.word then some (.sched, 3, 3)
  else match (upTo 3).find? (fun o => !s.walkWindowOk c d.ctx b o) with
    | some o => some (.ctx, 2, o)
    | none => none

/-- The WALK descriptor at the head of a stream that has passed its check and not started (R167). -/
def State.walkHead (s : State) (c st : Nat) : Option Desc :=
  match ((s.core c).dma.stream st).head? with
  | none => none
  | some d => if s.arrRuns c && dsKind d.word == 7 && !d.stalled && !d.started then some d else none

/-- The table and the templates of a walk read, as its start reads them: a word that cannot be corrected is the DMA engine's failure
of the descriptor (R147, R161). -/
def State.walkReads (s : State) (c a : Nat) (b : List Byte) : State × DmaRes Unit :=
  let r := s.dmaTouch c a walkBytes
  match r.2 with
  | .error e => (r.1, .error e)
  | .ok _ =>
    if tbKind b = 1 then r
    else r.1.dmaTouch c (tbTemplate b) (tbTemplateBytes b (leNat (s.cmBytes c (tbTemplate b) 8)))

/-- WALK: a walk descriptor at the head of its stream starts, unless a start check fails (R147). -/
def execWalk (c : Fin 256) (st : Fin 32) (s : State) : Host.Outcome State Fault Refusal :=
  match s.walkHead c st with
  | none => .next s
  | some d =>
    let a := fld d.word 64 23
    let b := s.cmBytes c a walkBytes
    match s.walkStartCheck c d b with
    | some (.ctx, cause, o) =>
      .next (((s.tilFault c d .ctx cause o 0).modDma c (fun m => m.discard st .ctx d.ctx)).checkDescHead c st)
    | some (cls, cause, o) => .next ((s.modHead c st (fun q => { q with stalled := true })).tilFault c d cls cause o 0)
    | none =>
      let r := (s.trcCmd 1 c 4 st d.ctx d.gen d.addr false).walkReads c a b
      match r.2 with
      | .error e => .next (r.1.dmaStop c st d e 0)
      | .ok _ =>
        let n := tbTemplateBytes b (leNat (s.cmBytes c (tbTemplate b) 8))
        .next (r.1.modDma c (fun m =>
          { m.setStream st (modAt (fun q => { q with started := true }) (m.stream st) 0) with
            walks := Store.insert m.walks st
              { table := b, templates := if tbKind b = 1 then [] else s.cmBytes c (tbTemplate b) n
                idx := (upTo 5).map (fun i => walkIndex d.word (i + 1)), desc := d } }))

/-- Bytes of command `i` of an EMIT step's templates. -/
def Walk.template (k : Walk) (i : Nat) : List Byte :=
  if tbKind k.table = 2 then (k.templates.drop (16 * i)).take 16 else k.templates

/-- What a patch of operand `o` at address `a` gives a command word: the new word, or none where a field would leave its
width (R146, R150, R153). -/
def patchWord (b : List Byte) (o : Nat) (a : Int) (w : Nat) : Option Nat :=
  let lim := fun (v : Int) (n : Nat) (f : Nat → Nat) => if 0 ≤ v ∧ v < (n : Int) then some (f v.toNat) else none
  if tbKind b = 2 then
    if tbSpace b o = 1 then lim (arrSrc w + a) (2 ^ 23) (fun v => setFld w 64 23 v)
    else lim ((arrBank w * 256 + arrSlot w : Nat) + a) 1024 (fun v => setFld (setFld w 13 2 (v / 256)) 16 8 (v % 256))
  else match o with
    | 0 =>
      if tbSpace b o = 1 then lim (fhSrc w + a) (2 ^ 23) (fun v => setFld w 64 23 v)
      else lim ((fhIbank w * 512 + fhSrc w : Nat) + a) 2048 (fun v => setFld (setFld w 12 2 (v / 512)) 64 23 (v % 512))
    | 1 =>
      if tbSpace b o = 1 then lim (fhDst w + a) (2 ^ 23) (fun v => setFld w 96 23 v)
      else lim ((fhObank w * 512 + fhDst w : Nat) + a) 2048 (fun v => setFld (setFld w 14 2 (v / 512)) 96 23 (v % 512))
    | _ => lim (fhSrcb w + a) (2 ^ 23) (fun v => setFld w 128 23 v)

/-- Command `i` of a step with the patches of its first `n` operands, in the order P, Q, R; none where a field leaves its width. -/
def Walk.patched (k : Walk) (i n : Nat) (w : Nat) : Option Nat :=
  (upTo n).foldl (fun acc o =>
    match acc with
    | none => none
    | some v => if tbPatch k.table i o then patchWord k.table o (k.addr o k.step) v else some v) (some w)

/-- Bits of a command's first part: 128 of an array command, 256 of a chain header. -/
def Walk.headBytes (k : Walk) : Nat := if tbKind k.table = 2 then 16 else 32

/-- The first operand that fails the checks of a step (R153): its extent in its window, then its patches, which add to those of the
operands before it where two patch one field. -/
def Walk.overflow (k : Walk) : Option Nat :=
  let b := k.table
  (upTo 3).find? (fun o => tbSpace b o != 0 &&
    (let a := k.addr o k.step
     !(decide ((tbBase b o : Int) ≤ a) && decide (a + (walkExtent b o : Int) ≤ ((tbBase b o + tbExtent b o : Nat) : Int))) ||
     (upTo (tbNcmd b + 1)).any (fun i =>
       tbPatch b i o && (k.patched i (o + 1) (leNat ((k.template i).take k.headBytes))).isNone)))

/-- The commands of an EMIT step: bytes and template addresses (R150). -/
def Walk.commands (k : Walk) : List (List Byte × Nat) :=
  let b := k.table
  (upTo (tbNcmd b + 1)).map (fun i =>
    let t := k.template i
    let w0 := leNat (t.take k.headBytes)
    let w1 := (k.patched i 3 w0).getD w0
    let w2 := if tbKind b = 2 ∧ tbBufAlt b = true ∧ k.step % 2 = 1 then setFld w1 4 1 (1 - arrBuf w1) else w1
    let w3 := if tbKind b = 2 ∧ tbFirstOvr b = true ∧ k.step = 0 ∧ arrOp w2 = 2 then setFld w2 11 2 0 else w2
    (leBytes k.headBytes w3 ++ t.drop k.headBytes, tbTemplate b + 16 * i))

/-- A stream's walk replaced. -/
def State.setWalk (s : State) (c st : Nat) (k : Walk) : State :=
  s.modDma c (fun m => { m with walks := Store.insert m.walks st k })

/-- DIM of every level, level L in bits [3L + 2:3L] (R144, R487). -/
def walkDims (b : List Byte) : Nat := (upTo 6).foldl (fun n l => n + (if l ≤ tbNlvl b then tbMode b l % 8 else 0) * 2 ^ (3 * l)) 0

/-- The WALK_STEP record of a step (R487). -/
def State.trcStep (s : State) (c st : Nat) (k : Walk) : State :=
  s.trc 3 c (some k.desc.ctx) ([BitVec.ofNat 8 st, BitVec.ofNat 8 (tbKind k.table)] ++ leBytes 2 k.step ++
    leBytes 4 (walkDims k.table) ++ leBytes 8 (k.addr 0 k.step % (2 ^ 64 : Int)).toNat)

/-- The duplicated address and patch arithmetic compared for a step: the operand at which a mismatch is found, where the comparison
is on; it is counted (R156, R158, R159; log 56). -/
def State.tilSlip (s : State) (c : Nat) : Option Nat × State :=
  match s.takeSlip (pgTIL c) with
  | (none, _) => (none, s)
  | (some p, s1) => if bitAt (s1.reg (pgTIL c) 0x40) 0 then (some (p % 3), s1.cnt (pgTIL c) 0x5C 1) else (none, s1)

/-- The step that a walk works on: the commands of an EMIT step that wait still belong to the step before the counter (R157). -/
def Walk.stepNo (k : Walk) : Nat :=
  if tbKind k.table != 1 && !k.pend.isEmpty then k.step - 1 else k.step

/-- A step that has passed its checks: a MOVE hands its transfer to the stream, an EMIT forms its commands (R149, R150). -/
def State.walkStep (s : State) (c st : Nat) (k : Walk) : State :=
  let s1 := (s.trcStep c st k).cnt64 (pgTIL c) 0x48 1
  if tbKind k.table = 1 then s1.setWalk c st { k with left := tbRun k.table }
  else s1.setWalk c st { k with step := k.step + 1, pend := k.commands }

/-- WALK_STEP: the next step of a walk, once the one before it has been performed: its checks, then its transfer or its commands
(R148 to R150, R153, R156). -/
def execWalkStep (c : Fin 256) (st : Fin 32) (s : State) : Host.Outcome State Fault Refusal :=
  match Store.find (s.core c).dma.walks st with
  | none => .next s
  | some k =>
    if !(s.arrRuns c) || k.stopped || !k.pend.isEmpty || k.left != 0 || decide (tbBound k.table 0 ≤ k.step) then .next s
    else
      let stop := fun (z : State) (cls : FClass) (cause o : Nat) =>
        (z.setWalk c st { k with stopped := true }).tilFault c k.desc cls cause o k.step
      match s.tilSlip c with
      | (some o, z) => .next (stop z .hw 1 o)
      | (none, z) =>
        match k.overflow with
        | some o => .next (stop z .sched 4 o)
        | none => .next (z.walkStep c st k)

/-- Whether an earlier WALK of the same thread for the same unit has still to emit: its walk runs, or it has not started and its table,
as it stands, is for that unit (R151). -/
def Core.emitsBefore (k : Core) (w : Walk) : Bool :=
  k.dma.streams.any (fun p => p.2.any (fun d =>
    dsKind d.word == 7 && d.thread == w.desc.thread && decide (d.serial < w.desc.serial) && !d.stalled &&
      (if d.started then
        (match Store.find k.dma.walks p.1 with
         | some x => x.desc.serial == d.serial && tbKind x.table == tbKind w.table && !x.stopped
         | none => false)
       else tbKind (Store.getRun 0#8 k.mem (fld d.word 64 23) walkBytes) == tbKind w.table)))

/-- A queue that a walk has put a command into at its thread's present issue opportunity (R151; log 60). -/
def State.markEmitted (s : State) (c t queue : Nat) : State :=
  s.modCore c (fun k => k.setThread t { k.thread t with emitted := setBit (k.thread t).emitted queue })

/-- EMIT_COMMAND: the walk's next command enters its unit's queue; a full queue leaves it held (R151). -/
def execEmitCommand (c : Fin 256) (st : Fin 32) (s : State) : Host.Outcome State Fault Refusal :=
  let k := s.core c
  match Store.find k.dma.walks st with
  | none => .next s
  | some w =>
    match w.pend with
    | [] => .next s
    | (bs, addr) :: rest =>
      let d := w.desc
      let iss : Issue := ⟨addr, d.thread, d.pc, d.ctx, d.gen, .resolved true, true⟩
      let s1 := (s.setWalk c st { w with pend := rest }).cnt64 (pgTIL c) 0x50 1
      if !(s.arrRuns c) || w.stopped || k.emitsBefore w then .next s
      else if tbKind w.table = 2 then
        if k.arr.full (leNat bs) then .next s
        else .next ((s1.markEmitted c d.thread (if arrOp (leNat bs) = 1 then 0 else 1)).pushArray c (leNat bs) iss)
      else if chainDepth ≤ k.fls.queue.length then .next s
      else
        let stages := (upTo ((bs.length - 32) / 8)).map (fun i => leNat ((bs.drop (32 + 8 * i)).take 8))
        let q : ChainCmd := ⟨leNat (bs.take 32), stages, k.chains, iss⟩
        let s2 := (s1.markEmitted c d.thread 2).modCore c (fun x => x.enqueueChain q)
        .next (if k.fls.queue.isEmpty then s2.checkChainHead c else s2)

/-- WALK_DONE: a walk whose last step is done and whose commands have all entered their queues completes, and arrives on its
keystone (R152, R168). -/
def execWalkDone (c : Fin 256) (st : Fin 32) (s : State) : Host.Outcome State Fault Refusal :=
  match Store.find (s.core c).dma.walks st with
  | none => .next s
  | some k =>
    if !(s.arrRuns c) || k.stopped || !k.pend.isEmpty || k.left != 0 || decide (k.step < tbBound k.table 0) then .next s
    else
      let d := k.desc
      .next ((((s.modDma c (fun m => { m with walks := Store.erase m.walks st })).cnt (pgTIL c) 0x58 1).trcCmd 2 c 4 st d.ctx d.gen
        d.addr false).endDesc c st d)

end Sys2Proof.Machine
end

