-- ==== Sys2Proof/Machine/LoadCheck.lean ====
section
/-! DEFINITION. The checks of a load (R185) in their order, with the section and record that SCH_LOADERR names (R512). A
failure is (CHECK, SECTION, ENTRY). Within one CHECK the sections are taken in ascending TYPE, and the records of a section in
order (log 29). -/

namespace Sys2Proof.Machine

open Sys2Proof

/-- A failed check: CHECK, SECTION, ENTRY. -/
abbrev LoadErr := Nat × Nat × Nat

/-- The first failure of a list. -/
def firstErr : List (Option LoadErr) → Option LoadErr
  | [] => none
  | some e :: _ => some e
  | none :: l => firstErr l

/-- A failure unless `ok` holds. -/
def need (ok : Bool) (chk sec ent : Nat) : Option LoadErr := if ok then none else some (chk, sec, ent)

/-- A failure at the first record of a list that is bad, numbered from `first` on. -/
def needAll (ok : List Bool) (chk sec first : Nat) : Option LoadErr :=
  match firstIdx (fun b => !b) ok 0 with
  | none => none
  | some i => some (chk, sec, first + i)

/-- SECTION of a failure in the image header (R512). -/
def secHeader : Nat := 0xFF

/-! 0x01 to 0x07. -/

/-- CHECK 0x01: the header of R182 against the length given. -/
def check01 (b : List Byte) (len : Nat) : Option LoadErr :=
  need (leAt b 0 4 == 0x49445254 && leAt b 4 2 == 1 && leAt b 8 2 == 64 &&
    decide (1 ≤ leAt b 10 2) && decide (leAt b 10 2 ≤ 64) &&
    (upTo 4).all (fun i => decide (1 ≤ leAt b (46 + i) 1) && decide (leAt b (46 + i) 1 ≤ 64)) &&
    decide (1 ≤ leAt b 54 2) && decide (leAt b 54 2 ≤ 4096) && decide (leAt b 60 1 ≤ 7) &&
    leAt b 7 1 / 2 == 0 && leAt b 61 3 == 0 && leAt b 16 8 == len) 1 secHeader 0

/-- The image CRC (R182). -/
def imgCrcOk (b : List Byte) : Bool :=
  crc32c (b.take 12 ++ List.replicate 4 0#8 ++ b.drop 16) == leAt b 12 4

/-- The fields of REQUIRE as (offset, bytes, rule): 0 a minimum, 1 a mask, 2 equal where not 0, 3 states nothing
(R16, R184). -/
def requireFields : List (Nat × Nat × Nat) :=
  [(0, 2, 3), (2, 1, 0), (3, 1, 3), (4, 2, 0), (6, 1, 0), (7, 1, 0), (8, 1, 0), (9, 1, 0), (0xA, 2, 0), (0xC, 2, 0),
   (0xE, 2, 0), (0x10, 1, 0), (0x11, 1, 0), (0x12, 1, 0), (0x13, 1, 0), (0x14, 4, 0), (0x18, 2, 0), (0x1A, 1, 0),
   (0x1B, 1, 0), (0x1C, 1, 0), (0x1D, 1, 1), (0x1E, 2, 2), (0x20, 4, 0), (0x24, 4, 0), (0x28, 4, 1), (0x2C, 4, 1),
   (0x30, 4, 1), (0x34, 2, 0), (0x36, 1, 0)] ++
  [(0x37, 1, 0), (0x38, 1, 0), (0x39, 1, 0), (0x3A, 1, 0), (0x3B, 1, 0), (0x3C, 2, 0), (0x3E, 1, 0), (0x3F, 1, 0),
   (0x40, 2, 0), (0x42, 2, 0), (0x44, 2, 0), (0x46, 1, 0), (0x47, 1, 0), (0x48, 1, 0), (0x49, 1, 0), (0x4A, 2, 0),
   (0x4C, 4, 0), (0x50, 4, 1), (0x54, 4, 3), (0x60, 32, 1)]

/-- Whether one field of REQUIRE is met by the descriptor (R15, R184). -/
def requireMet (req desc : List Byte) (f : Nat × Nat × Nat) : Bool :=
  let want := leAt req f.1 f.2.1
  let have_ := leAt desc f.1 f.2.1
  match f.2.2 with
  | 0 => decide (want ≤ have_)
  | 1 => want &&& have_ == want
  | 2 => want == 0 || want == have_
  | _ => true

/-- CHECK 0x05: REQUIRE (R15). -/
def check05 (b desc : List Byte) : Option LoadErr :=
  match imgEnt b 1 with
  | none => none
  | some e => need (requireFields.all (requireMet (b.drop e.off) desc)) 5 e.idx 0

/-- The bytes that the contents of a section imply; more than the image where a part cannot be read (R183). -/
def secSize (b : List Byte) (e : DirEnt) : Nat :=
  let s := b.drop e.off
  match e.ty with
  | 1 => 128
  | 2 => (imgPieces b).foldl (fun m w => if m < pcOff w + pcLen w then pcOff w + pcLen w else m) (16 * e.count)
  | 3 => 8192 * e.count
  | 4 => 8 * 4096
  | 5 => 16 * e.count
  | 6 =>
    let t := slotTabs e.count 0 s
    if t.length < e.count then b.length + 1 else (t.map (fun x => 16 + 8 * x.count)).foldl (· + ·) 0
  | 7 =>
    let t := refSets e.count 0 s
    if t.length < e.count then b.length + 1 else (t.map (fun x => 2 + 8 * x.entries.length)).foldl (· + ·) 0
  | 8 => 4 * e.count
  | 9 => 16 + 8 * e.count
  | 10 => 32 + 8 * leAt s 0 2 + 16 * e.count
  | 11 => 16 + 16 * (leAt s 0 2 + leAt s 2 4)
  | 12 => 16 + 8 * leAt s 0 2
  | 13 => updGroupAt s + 160 * uhNgroup s
  | _ => 16 + 8 * e.count

/-- Whether COUNT is what R183 has it count. -/
def secCountOk (b : List Byte) (e : DirEnt) : Bool :=
  let s := b.drop e.off
  match e.ty with
  | 1 => e.count == 1
  | 4 => e.count == 4096
  | 5 => e.count == leAt b 54 2
  | 11 => e.count == leAt s 0 2 + leAt s 2 4
  | 12 => e.count == leAt s 0 2
  | 13 => e.count == uhNgroup s
  | _ => true

/-- CHECK 0x06: the directory (R183). A missing mandatory section and a directory that the image cannot hold have no index
and are reported as the header is (log 29). -/
def check06 (b : List Byte) : Option LoadErr :=
  let d := imgDir b
  let lo := 64 + 16 * d.length
  let one := fun (e : DirEnt) =>
    decide (1 ≤ e.ty) && decide (e.ty ≤ 14) && !(d.any (fun x => decide (x.idx < e.idx) && x.ty == e.ty)) &&
    secCountOk b e && decide (lo ≤ e.off) && decide (e.off + secSize b e ≤ b.length) &&
    !(d.any (fun x => decide (x.idx < e.idx) && decide (e.off < x.off + secSize b x) &&
      decide (x.off < e.off + secSize b e)))
  firstErr [need (decide (lo ≤ b.length)) 6 secHeader 0,
    match d.find? (fun e => !one e) with
    | some e => some (6, e.idx, 0)
    | none => none,
    need ([1, 2, 3, 4, 5, 7, 9, 10, 11].all (fun t => d.any (fun e => e.ty == t))) 6 secHeader 0]

/-- CHECK 0x07: DEVICE_ID, COORD and EXTENT against VDT_ID, VDT_COORD and VDT_EXTENT. -/
def check07 (s : State) (b : List Byte) : Option LoadErr :=
  let c := s.reg pgVDT 0x48
  let x := s.reg pgVDT 0x4C
  need (leAt b 40 2 == s.devId &&
    (upTo 4).all (fun i => leAt b (42 + i) 1 == fld c (8 * i) 6 && leAt b (46 + i) 1 == fld x (8 * i) 7)) 7 secHeader 0

/-! 0x08. -/

/-- The records of a section that hold no reserved encoding and no non-zero reserved field, by record (R185, R512). -/
def secClean (b : List Byte) (e : DirEnt) : List Bool :=
  let s := b.drop e.off
  let zero := fun (w : Nat) (fs : List (Nat × Nat)) => fs.all (fun f => fld w f.1 f.2 == 0)
  match e.ty with
  | 1 => [leAt s 0x58 8 == 0 && leAt s 0x50 4 / 64 == 0]
  | 2 => (imgPieces b).map (fun w => zero w [(16, 16)] && decide (pcKind w ≤ 4))
  | 5 => (imgSpans b).map (fun w =>
      zero w [(9, 7), (112, 16)] && fld w 0 4 != 0 && (!bitAt w 7 || fld w 4 3 == 0))
  | 6 => (imgSlots b).flatMap (fun t => zero t.head [(8, 8), (32, 96)] :: t.entries.map (fun w => zero w [(35, 29)]))
  | 7 => (imgRefresh b).flatMap (fun t => true :: t.entries.map (fun w => zero w [(3, 5), (39, 25)]))
  | 8 => (imgWake b).map (fun w => zero w [(19, 13)])
  | 9 => zero (leAt s 0 16) [(16, 112)] :: (imgRoutes b).map (fun w => zero w [(49, 15)])
  | 10 => zero (leAt s 0 32) [(160, 96)] :: ((imgLists b).map (fun _ => true) ++
      (imgRanges b).map (fun w => zero w [(113, 15)]))
  | 11 => zero (leAt s 0 16) [(80, 48)] :: ((imgCtxs b).map (fun w => zero w [(24, 8), (112, 16)]) ++
      (imgGrants b).map (fun w => zero w [(90, 6), (105, 23)]))
  | 12 => [zero (leAt s 0 16) [(16, 112)]]
  | 13 => (leAt s 5 1 == 0 && leAt s 20 44 == 0) ::
      ((imgProgs s).map (fun p => !(uiBody p).any uiBad) ++ (imgTables s).map (fun t => leAt t 8 4 == 0) ++
        (imgGroups s).map (fun g => ugSeep g / 32 == 0 && leAt g 24 4 / 2 ^ 20 == 0 && leAt g 28 2 / 2 ^ 10 == 0 &&
          (upTo 5).all (fun k => ugSpace g k != 3)))
  | 14 => zero (leAt s 0 16) [(16, 112)] :: (imgAmax b).map (fun w => zero w [(41, 7)])
  | _ => []

/-- CHECK 0x08. -/
def check08 (b : List Byte) : Option LoadErr :=
  firstErr ((imgDir b).map (fun e => firstErr [need (e.resv == 0) 8 e.idx 0, needAll (secClean b e) 8 e.idx 0]))

/-! 0x09 to 0x0D. -/

/-- The entries of a command piece, and whether its length is a whole number of them (R184). -/
def pieceEntries : Nat → Nat → List Byte → List (List Byte) × Bool
  | 0, _, d => ([], d.isEmpty)
  | n + 1, kind, d =>
    if d.isEmpty then ([], true)
    else
      let size := match kind with | 1 => 160 | 2 => 16 | 3 => 32 + 8 * (fld (leAt d 0 1) 4 3 + 1) | _ => 32
      let step := if kind = 3 then ceilDiv size 16 * 16 else size
      if d.length < size then ([], false)
      else
        let r := pieceEntries n kind (d.drop step)
        (d.take size :: r.1, r.2)

/-- The entries of a piece; none for KIND 0x00. -/
def pcEntries (b : List Byte) (w : Nat) : List (List Byte) × Bool :=
  if pcKind w = 0 then ([], true) else pieceEntries (pcLen w / 16 + 1) (pcKind w) (pcBytes b w)

/-- CHECK 0x09: indices (R18, R184, R185). -/
def check09 (s : State) (b : List Byte) : Option LoadErr :=
  let maps := imgAssign b
  let nw := imgCount b 8
  firstErr [
    needAll ((imgPieces b).map (fun w => s.corePresent (pcCore w) && (pcEntries b w).2)) 9 (imgIdx b 2) 0,
    needAll (maps.map (fun m => (upTo 4096).all (fun g => m.getD g 0 == 0 || s.corePresent (g / 16)))) 9 (imgIdx b 3) 0,
    needAll ((imgSpans b).map (fun w =>
      let d := spanOf w
      decide (d.assign < maps.length) && decide (d.retain < (imgLists b).length) &&
      decide (d.refSet < (imgRefresh b).length) && decide (d.wakeCount ≤ 64) &&
      decide (d.wakeFirst + d.wakeCount ≤ nw))) 9 (imgIdx b 5) 0,
    needAll ((imgSlots b).flatMap (fun t =>
      decide (t.port ≤ 19) :: t.entries.map (fun w => !(bitAt w 0 && bitAt w 1) || decide (fld w 15 5 ≤ 19))))
      9 (imgIdx b 6) 0,
    needAll ((imgRoutes b).map (fun w => !bitAt w 43 || decide (fld w 44 5 ≤ 19))) 9 (imgIdx b 9) 1]

/-- CHECK 0x0A: UNDO_KIB (R160) and the place of the CODE pieces. -/
def check0A (b : List Byte) : Option LoadErr :=
  let undo := leAt b 52 2
  firstErr [need (undo % 64 == 0 && decide (undo ≤ 1024)) 0xA secHeader 0,
    needAll ((imgPieces b).map (fun w => decide (pcAddr w + pcLen w ≤ coreBytes - undo * 1024))) 0xA (imgIdx b 2) 0]

/-- The context IDs the image declares. -/
def imgDeclared (b : List Byte) : List Nat := (imgCtxs b).map (fun w => fld w 0 16)

/-- CHECK 0x0B: contexts of threads, entry PCs and progress windows; records of absent cores are passed over (R18). -/
def check0B (s : State) (b : List Byte) : Option LoadErr :=
  let ids := imgDeclared b
  firstErr [
    needAll ((imgAssign b).map (fun m => m.all (fun c => c == 0 || ids.contains c))) 0xB (imgIdx b 3) 0,
    needAll ((upTo 4096).map (fun g =>
      let w := (imgThreads b).getD g 0
      !s.corePresent (g / 16) || (w % 4 == 0 && decide (64 ≤ w / 2 ^ 32) && decide (w / 2 ^ 32 ≤ 30720))))
      0xB (imgIdx b 4) 0]

/-- The stage words of a chain command. -/
def chainStageWords (e : List Byte) : List Nat := leRecs e 32 8 ((e.length - 32) / 8)

/-- Whether one entry of a command piece passes the checks that R184 gives its KIND, on a machine that holds the image and its
pieces. `a` is its core memory address. -/
def State.entryOk (z : State) (w a : Nat) (e : List Byte) : Bool :=
  let n := leNat e
  match pcKind w with
  | 1 => z.walkPlaces (pcCore w) a e && walkEncodingOk e
  | 2 => (arrFieldCheck n).isNone && (decide (3 ≤ arrOp n) || decide (arrEnd n ≤ z.carve))
  | 3 =>
    let h := leAt e 0 32
    (chainFieldCheck h (chainStageWords e)).isNone && z.chainPlaces h
  | _ => (descFieldCheck z.img.strict n).isNone && (dsKind n == 7 || z.extentsOk n)

/-- Core memory addresses of a piece's entries, from `a` on. -/
def entryAddrs : Nat → Nat → List (List Byte) → List Nat
  | _, _, [] => []
  | kind, a, e :: l => a :: entryAddrs kind (a + (if kind = 3 then ceilDiv e.length 16 * 16 else e.length)) l

/-- Whether the group records of UPDATE name formats their unit allows (R39, R317). -/
def updFmtsOk (g : List Byte) : Bool := (ugSlots g).all (fun k => (Fmt.ofCode (ugFmt g k)).isSome)

/-- CHECK 0x0C: command pieces, and the formats of UPDATE. -/
def check0C (z : State) (b : List Byte) : Option LoadErr :=
  let u := imgSec b 13
  firstErr [
    needAll ((imgPieces b).map (fun w =>
      let es := (pcEntries b w).1
      (List.zipWith (fun a e => z.entryOk w a e) (entryAddrs (pcKind w) (pcAddr w) es) es).all id)) 0xC (imgIdx b 2) 0,
    needAll ((imgGroups u).map updFmtsOk) 0xC (imgIdx b 13) (1 + uhNprog u + uhNtab u)]

/-- The stream ID an entry of a command piece draws under, if it draws (R55). -/
def entryStream (w : Nat) (e : List Byte) : Option Nat :=
  let h := leAt e 0 32
  match pcKind w with
  | 3 => if fhOp h == 1 && !(chainConsumers h (chainStageWords e)).isEmpty then some (fhStream h) else none
  | 4 => if descDraws (leNat e) then some (dsStreamId (leNat e)) else none
  | _ => none

/-- Stream IDs with the generator instance that the image assigns them to, with section and record: Flowstone and the DMA
engine of each core, and the eight update engines (R56, R317). A group's STREAM_ID + e is taken modulo 2^32, as the draws take it
(DESIGN CHOICE, log 28). -/
def imgStreams (b : List Byte) : List (Nat × Nat × Nat × Nat) :=
  let u := imgSec b 13
  let ps := imgPieces b
  (upTo ps.length).flatMap (fun i =>
    let w := ps.getD i 0
    ((pcEntries b w).1.filterMap (entryStream w)).map (fun id => (id, pcCore w * 2 + pcKind w % 2, imgIdx b 2, i))) ++
  (upTo (uhNgroup u)).flatMap (fun g =>
    (upTo 8).map (fun e => ((ugStream ((imgGroups u).getD g []) + e) % 2 ^ 32, 512 + e, imgIdx b 13, 1 + uhNprog u + uhNtab u + g)))

/-- The first stream ID assigned to two instances. -/
def streamClash : List (Nat × Nat × Nat × Nat) → List (Nat × Nat × Nat × Nat) → Option LoadErr
  | _, [] => none
  | seen, x :: l =>
    if seen.any (fun y => y.1 == x.1 && y.2.1 != x.2.1) then some (0xD, x.2.2.1, x.2.2.2) else streamClash (x :: seen) l

/-- CHECK 0x0D (R56). -/
def check0D (b : List Byte) : Option LoadErr := streamClash [] (imgStreams b)

/-! 0x0E to 0x10. -/

/-- Q of an image (R345). -/
def imgQuiet (b : List Byte) : Nat :=
  let f := leAt (imgSec b 10) 2 2
  if f ≤ 1920 then 0 else ceilDiv (f - 1920) 32 * 32

/-- The diameter of an image's partition. -/
def imgDiameter (b : List Byte) : Nat := ((upTo 4).map (fun i => leAt b (46 + i) 1 / 2)).foldl (· + ·) 0

/-- The cutoff C of a span of `f` frames, from the span's first tick; negative where the span begins after it (R357). -/
def imgCutoff (b : List Byte) (f : Nat) : Int :=
  let r := imgSec b 10
  (((2048 * f + 1984 - leAt r 2 2) / 32 * 32 : Nat) : Int) - (((imgDiameter b + 2) * 32 * leAt r 6 1 : Nat) : Int)

/-- The slots of a span's frames at which a round of the exchange starts (R357, R401). -/
def imgRoundSlots (b : List Byte) (f : Nat) : List Nat :=
  let c := imgCutoff b f
  let n := 32 * leAt (imgSec b 10) 6 1
  ((upTo (imgDiameter b + 2)).map (fun r => c + ((r * n : Nat) : Int))).filterMap (fun t =>
    if 0 ≤ t ∧ t < ((2048 * f : Nat) : Int) then some (t.toNat / 32) else none)

/-- Slot tables of ports that are in PORT_MASK (R190). -/
def State.liveTabs (s : State) (b : List Byte) : List SlotTab := (imgSlots b).filter (fun t => bitAt s.portMask t.port)

/-- One slot entry against R191; an entry that is not VALID carries nothing to check. -/
def State.slotOk (s : State) (b : List Byte) (w : Nat) : Bool :=
  !bitAt w 0 ||
  (decide (1 ≤ fld w 20 5) && decide (fld w 20 5 ≤ 30) && (imgDeclared b).contains (fld w 25 10) &&
    (if bitAt w 1 then bitAt s.portMask (fld w 15 5) else s.corePresent (fld w 2 8)))

/-- The slots that a span must leave with no VALID entry, and the flits a VALID entry may have at the slots of a list. -/
def tabSlotsOk (t : SlotTab) (base : Nat) (ks : List Nat) (most : Nat) : List (Nat × Bool) :=
  ks.map (fun k =>
    let w := t.entries.getD (base + k) 0
    (t.record + 1 + base + k, !bitAt w 0 || decide (fld w 20 5 ≤ most)))

/-- A failure at the first record that is bad in a list of numbered records. -/
def needRecs (l : List (Nat × Bool)) (chk sec : Nat) : Option LoadErr :=
  match l.find? (fun p => !p.2) with
  | none => none
  | some p => some (chk, sec, p.1)

/-- CHECK 0x0E: slot tables (R190, R191, R347, R357). -/
def check0E (s : State) (b : List Byte) : Option LoadErr :=
  let tabs := imgSlots b
  let sec := imgIdx b 6
  let spans := (imgSpans b).map spanOf
  firstErr ((upTo tabs.length).map (fun i =>
    let t := tabs.getD i ⟨0, 0, []⟩
    let live := bitAt s.portMask t.port
    firstErr [
      need (!((tabs.take i).any (fun x => x.port == t.port)) && decide (1 ≤ t.count) && decide (t.count ≤ 8192)) 0xE sec t.record,
      needAll (t.entries.map (fun w => if live then s.slotOk b w else !bitAt w 0)) 0xE sec (t.record + 1),
      if !live then none
      else firstErr ((upTo spans.length).map (fun j =>
        let d := spans.getD j (spanOf 0)
        let q := (2048 * d.frames - imgQuiet b) / 32
        firstErr [
          need (decide (d.slotBase + 64 * d.frames ≤ t.count)) 0xE sec t.record,
          needRecs (tabSlotsOk t d.slotBase ((upTo (64 * d.frames - q)).map (fun k => q + k)) 0) 0xE sec,
          if imgStep b = some j then
            needRecs (tabSlotsOk t d.slotBase (imgRoundSlots b d.frames) 29) 0xE sec
          else none]))]))

/-- Ticks of a frame that the windows of a set give a channel group. -/
def refCover (es : List Nat) (stack group : Nat) : Nat :=
  ((upTo 2048).filter (fun t => es.any (fun w =>
    fld w 0 3 == stack && bitAt (fld w 8 8) group && decide (fld w 16 11 ≤ t) && decide (t < fld w 16 11 + fld w 27 12)))).length

/-- CHECK 0x0F: refresh sets (R199). -/
def check0F (s : State) (b : List Byte) : Option LoadErr :=
  firstErr ((imgRefresh b).map (fun t => firstErr [
    needAll (t.entries.map (fun w =>
      decide (1 ≤ fld w 27 12) && decide (fld w 27 12 ≤ 2048) && decide (fld w 16 11 + fld w 27 12 ≤ 2048)))
      0xF (imgIdx b 7) (t.record + 1),
    need (s.mem.stacks.all (fun m => (upTo 8).all (fun g => decide (52 ≤ refCover t.entries m g)))) 0xF (imgIdx b 7) t.record]))

/-- Whether a wake entry may follow the entries before it in its span: slots rise strictly and actions alternate from GATE
(R201), and no WAKE fires in the quiet tail (R347). -/
def wakeOk (frames quiet : Nat) (before : List Nat) (w : Nat) : Bool :=
  let core := fld w 0 8
  let prev := (before.filter (fun x => fld x 0 8 == core)).getLast?
  decide (fld w 9 10 < 64 * frames) &&
  (match prev with
   | none => !bitAt w 8
   | some p => bitAt p 8 != bitAt w 8 && decide (fld p 9 10 < fld w 9 10)) &&
  !(bitAt w 8 && decide (2048 * frames ≤ 32 * fld w 9 10 - 64 + quiet))

/-- CHECK 0x10: wake entries: each names a core that is present, whether a span takes it or not (R18), and each stands right in every
span that takes it (R201, R347). -/
def check10 (s : State) (b : List Byte) : Option LoadErr :=
  let ws := imgWake b
  let spans := (imgSpans b).map spanOf
  needAll ((upTo ws.length).map (fun i =>
    let w := ws.getD i 0
    s.corePresent (fld w 0 8) && spans.all (fun d =>
      decide (i < d.wakeFirst) || decide (d.wakeFirst + d.wakeCount ≤ i) ||
        wakeOk d.frames (imgQuiet b) ((ws.drop d.wakeFirst).take (i - d.wakeFirst)) w))) 0x10 (imgIdx b 8) 0

end Sys2Proof.Machine
end

