-- ==== Sys2Proof/Machine/LoadCheck11.lean ====
section
/-! DEFINITION. CHECK 0x11 of a load: ROUTES (R229), RETAIN (R337, R338, R343), CONTEXTS (R394, R396, R400, R401), KEYSTONES
(R408), UPDATE (R314, R317) and AMAX (R307, R308), in this order; and all checks of R185 together. -/

namespace Sys2Proof.Machine

open Sys2Proof

/-- Whether the keys of a list rise strictly. -/
def risingNats : List Nat → Bool
  | [] => true
  | [_] => true
  | a :: b :: l => decide (a < b) && risingNats (b :: l)

/-- Whether element `i` of a list equals no earlier one. -/
def freshAt (l : List Nat) (i : Nat) : Bool := !((l.take i).contains (l.getD i 0))

/-- ROUTES (R229). -/
def check11Routes (s : State) (b : List Byte) : Option LoadErr :=
  let rs := imgRoutes b
  let sec := imgIdx b 9
  let ids := rs.map (fun w => fld w 0 16)
  let allow := leAt (imgSec b 9) 0 2
  firstErr [need (decide (150 ≤ allow) && decide (allow ≤ 1023) && decide (rs.length ≤ 8192)) 0x11 sec 0,
    needAll ((upTo rs.length).map (fun i =>
      let w := rs.getD i 0
      (i == 0 || decide (ids.getD (i - 1) 0 < ids.getD i 0)) && bitAt w 40 && fld w 0 16 != s.devId &&
      (upTo 4).all (fun a => decide (fld w (16 + 6 * a) 6 < leAt b (46 + a) 1)))) 0x11 sec 1]

/-- The largest over the groups of the bytes one engine logs in a span, beside its journal records: of the stored slots that
`keep` holds for (R343). -/
def undoBytes (u : List Byte) (keep : Nat → Bool) : Nat :=
  ((imgGroups u).map (fun g =>
    let n := if ugPeriod g = 0 then 0 else ceilDiv (30720 - ugLead g - 128) (ugPeriod g)
    let ss := (uiStores (uiBody ((imgProgs u).getD (ugProg g) []))).filter (fun k => keep (ugSpace g k))
    n * (24 + (ss.map (fun k => ugBytes g k + 8)).foldl (· + ·) 0))).foldl (fun m x => if m < x then x else m) 0

/-- Bytes of journal records in the worst span of an engine (R343). -/
def undoJournal : Nat := 528384

/-- The restore budget of R343. -/
def restoreOk (bin : Nat) (b : List Byte) : Bool :=
  let r := imgSec b 10
  let u := imgSec b 13
  let undo := leAt b 52 2
  let dmem := leAt r 7 1
  let points := leAt b 60 1 :: ((imgSpans b).filter (fun w => !bitAt w 7)).map (fun w => fld w 4 3)
  let slow := points.foldl (fun m p => if p < m then p else m) 7
  let tCore := cyclesTicks bin (ceilDiv (ceilDiv ((undo - dmem) * 1024) 72) 32) slow
  let engines := if (imgGroups u).isEmpty then 0 else 8 * (undoBytes u (fun sp => sp == 1) + undoJournal)
  let tDev := ceilDiv (256 * dmem * 1024 + engines) 8000
  decide (64 + tCore ≤ leAt r 4 2) && decide (64 + tDev ≤ leAt r 4 2) &&
  ((imgGroups u).isEmpty || decide (undoBytes u (fun _ => true) + undoJournal ≤ leAt r 16 4 * 1024))

/-- RETAIN (R337, R338, R343). -/
def check11Retain (s : State) (b : List Byte) : Option LoadErr :=
  let r := imgSec b 10
  let sec := imgIdx b 10
  let nl := leAt r 0 2
  let flood := leAt r 2 2
  let restore := leAt r 4 2
  let round := leAt r 6 1
  let dmem := leAt r 7 1
  let undo := leAt b 52 2
  let nr := (imgRanges b).length
  firstErr [
    need (decide (1 ≤ nl) && decide (nl ≤ 4096) && decide (30 * imgDiameter b ≤ flood) && decide (flood ≤ 3904) &&
      decide (64 ≤ restore) && decide (restore ≤ 3072) && [4, 8, 16, 32].contains round && decide (dmem ≤ 64) &&
      decide (dmem ≤ undo) && leAt r 8 8 % 4096 == 0 && decide (leAt r 16 4 ≤ 8192) && restoreOk s.bin b) 0x11 sec 0,
    needAll ((imgLists b).map (fun w => decide (w % 2 ^ 32 + w / 2 ^ 32 ≤ nr))) 0x11 sec 1,
    needAll ((imgRanges b).map (fun w =>
      let g := rangeOf w
      decide (1 ≤ g.lines) && g.base % 64 == 0 &&
      (match g.space with
       | 1 => decide (g.base + 64 * g.lines ≤ coreBytes - undo * 1024) && (g.all || s.corePresent g.core)
       | 2 => decide (g.base + 64 * g.lines ≤ s.mem.devExtent)
       | _ => false))) 0x11 sec (1 + nl)]

/-- The cores a unit grant applies on. -/
def State.grantCores (s : State) (g : GrantRec) : List Nat :=
  if g.all then (upTo 256).filter s.corePresent else [g.core]

/-- Whether two grants overlap. -/
def State.grantsMeet (s : State) (g h : GrantRec) : Bool :=
  g.space == h.space && decide (g.first < h.first + h.count) && decide (h.first < g.first + g.count) &&
  (g.space != 1 || (s.grantCores g).any (s.grantCores h).contains)

/-- Pages or keystones that the image gives a context: kind 2 device pages, 3 capacity pages, 0 keystones (R397). -/
def imgUse (b : List Byte) (id kind : Nat) : Nat :=
  if kind = 0 then ((imgKeys b).filter (fun w => fld w 16 10 == id)).length
  else (((imgGrants b).map grantOf).filter (fun g => g.ctx == id && g.space == kind)).foldl (fun n g => n + g.count) 0

/-- CONTEXTS (R394, R396, R400, R401). -/
def check11Ctx (s : State) (b : List Byte) : Option LoadErr :=
  let c := imgSec b 11
  let sec := imgIdx b 11
  let cs := (imgCtxs b).map ctxOf
  let ids := cs.map (·.id)
  let gs := (imgGrants b).map grantOf
  let carve := coreBytes - leAt b 52 2 * 1024
  let frames := (imgSpans b).map (fun w => fld w 0 4)
  firstErr [
    need (decide (1 ≤ cs.length) && decide (cs.length ≤ 1023) && decide (gs.length ≤ 65535) &&
      decide (leAt c 6 2 ≤ 4096) && decide (leAt c 8 2 ≤ 512) &&
      frames.any (fun f => decide (0 ≤ imgCutoff b f))) 0x11 sec 0,
    needAll ((upTo cs.length).map (fun i =>
      let r := cs.getD i ⟨0, 0, 0, 0, 0⟩
      decide (1 ≤ r.id) && decide (r.id ≤ 1023) && freshAt ids i && decide (r.devQ ≤ 262143) && decide (r.capQ ≤ 524287) &&
      decide (r.keyQ ≤ 16383) && (Store.get {} s.ctx.ctxs r.id).st != .closing && decide (imgUse b r.id 2 ≤ r.devQ) &&
      decide (imgUse b r.id 3 ≤ r.capQ) && decide (imgUse b r.id 0 ≤ r.keyQ))) 0x11 sec 1,
    needAll ((upTo gs.length).map (fun i =>
      let g := gs.getD i ⟨0, 0, 0, 0, false, false, 0, false⟩
      decide (1 ≤ g.count) && ids.contains g.ctx &&
      (match g.space with
       | 1 => decide ((g.first + g.count) * 65536 ≤ carve) && (g.all || s.corePresent g.core)
       | 2 => decide ((g.first + g.count) * 2 ^ 21 ≤ s.mem.devExtent)
       | 3 => decide ((g.first + g.count) * 2 ^ 21 ≤ s.mem.capExtent)
       | _ => false) &&
      !((gs.take i).any (s.grantsMeet g)))) 0x11 sec (1 + cs.length),
    firstErr ((upTo frames.length).map (fun j =>
      let f := frames.getD j 0
      if 0 ≤ imgCutoff b f then
        need ((s.liveTabs b).all (fun t =>
          (tabSlotsOk t (spanOf ((imgSpans b).getD j 0)).slotBase (imgRoundSlots b f) 28).all (·.2))) 0x11 (imgIdx b 5) j
      else none))]

/-- KEYSTONES (R408). -/
def check11Keys (b : List Byte) : Option LoadErr :=
  match imgEnt b 12 with
  | none => none
  | some e =>
    let ks := imgKeys b
    firstErr [need (decide (1 ≤ ks.length) && decide (ks.length ≤ 16384)) 0x11 e.idx 0,
      needAll ((upTo ks.length).map (fun i =>
        let k : Keystone := { cfg := ks.getD i 0 }
        k.kind != 0 && freshAt (ks.map (fun w => fld w 0 14)) i && (imgDeclared b).contains k.owner &&
        decide (k.deadline < 30720) && (k.kind != 1 || decide (1 ≤ k.target)) && (k.kind != 2 || k.target == 0)))
        0x11 e.idx 1]

/-- Output ranges of a group: space, first byte, end, for every stored slot and bank (R317). -/
def updOutputs (u g : List Byte) : List (Nat × Nat × Nat) :=
  (uiStores (uiBody ((imgProgs u).getD (ugProg g) []))).flatMap (fun k =>
    (upTo (ugNbank g)).map (fun v =>
      (ugSpace g k, ugBase g k + v * ugBankStride g, ugBase g k + v * ugBankStride g + ugCount g * ugBytes g k)))

/-- Whether a group's ranges lie in their spaces: every slot with its gradient buffers, and the constants (R317). -/
def updPlaced (s : State) (g : List Byte) : Bool :=
  (ugSlots g).all (fun k =>
    decide (ugBase g k + (ugNbank g - 1) * ugBankStride g + ugCount g * ugBytes g k +
      (if k = 1 then ugDelay g * ugGstride g else 0) ≤ (if ugSpace g k = 2 then s.mem.capExtent else s.mem.devExtent))) &&
  (ugKbank g == 0 || decide (ugKbase g + 16 * ugNbank g ≤ s.mem.devExtent))

/-- One group record against R315 and R317. A store to, or a Seep export of, a slot with no space has nothing to act on and is
refused as a load of one is (log 28). -/
def updGroupOk (s : State) (u : List Byte) (spans : Nat) (g : List Byte) : Bool :=
  let p := uiBody ((imgProgs u).getD (ugProg g) [])
  let used := fun k => decide (k < 5) && ugSpace g k != 0
  decide (ugProg g < uhNprog u) && decide (1 ≤ ugDelay g) && decide (ugDelay g ≤ 4) && decide (ugStart g < spans) &&
  decide (1 ≤ ugNbank g) && decide (ugNbank g ≤ 1023) && decide (1 ≤ ugCtx g) && decide (ugCtx g + ugNbank g ≤ 1024) &&
  decide (1 ≤ ugCount g) && decide (ugCount g ≤ 2 ^ 28) && (ugTensor g == 0xFFFF || decide (ugTensor g ≤ 4095)) &&
  decide (8 ≤ ugPeriod g) && decide (ugKbank g ≤ 1) && ugSpace g 0 == 1 && ugSpace g 1 != 0 &&
  (uiLoads p).all used && (uiStores p).all (fun k => used k && k != 1) && (setBits 5 (ugSeep g)).all used &&
  decide (p.length ≤ ugPeriod g) && decide (ugLead g ≤ 64 * ugPeriod g) &&
  decide (ugVoff g + ugNbank g * ugCount g ≤ 8 * uhVbytes u) && updPlaced s g

/-- One program against R317: END, its slots, its stores, its draws, its tables. -/
def updProgOk (u : List Byte) (p : List Nat) : Bool :=
  let q := uiBody p
  let st := uiStores q
  q.any (fun w => uiOp w == 0x12) && (uiLoads q ++ st).all (fun k => decide (k < 5)) && !st.contains 1 && (upTo st.length).all (freshAt st) && decide ((q.filter uiDraws).length ≤ 4) &&
  q.all (fun w => uiOp w != 0x10 || decide (uiTable w < uhNtab u))

/-- UPDATE (R307, R314, R317, R343, R357). -/
def check11Upd (s : State) (b : List Byte) : Option LoadErr :=
  match imgEnt b 13 with
  | none => none
  | some e =>
    let u := imgSec b 13
    let gs := imgGroups u
    let spans := leAt b 54 2
    let frames := fld ((imgSpans b).getD (uhStepDesc u) 0) 0 4
    firstErr [
      need (decide (1 ≤ uhNprog u) && decide (uhNprog u ≤ 16) && decide (1 ≤ gs.length) && decide (gs.length ≤ 1024) &&
        decide (uhNtab u ≤ 4) && decide (uhStepDesc u < spans) && uhJbase u % 4096 == 0 &&
        decide (uhJbase u + jrnlArea + uhVbytes u ≤ s.mem.devExtent) && decide (0 ≤ imgCutoff b frames)) 0x11 e.idx 0,
      needAll ((imgProgs u).map (updProgOk u)) 0x11 e.idx 1,
      needAll ((imgTables u).map tableCrcOk) 0x11 e.idx (1 + uhNprog u),
      needAll ((upTo gs.length).map (fun i =>
        let g := gs.getD i []
        updGroupOk s u spans g &&
        (updOutputs u g).all (fun o => !((gs.take i).any (fun h =>
          (updOutputs u h).any (fun x => x.1 == o.1 && decide (x.2.1 < o.2.2) && decide (o.2.1 < x.2.2)))))))
        0x11 e.idx (1 + uhNprog u + uhNtab u)]

/-- AMAX (R307, R308, R357). -/
def check11Amax (b : List Byte) : Option LoadErr :=
  match imgEnt b 14 with
  | none => none
  | some e =>
    let rs := imgAmax b
    let step := leAt (imgSec b 14) 0 2
    let frames := fld ((imgSpans b).getD step 0) 0 4
    firstErr [
      need (decide (1 ≤ rs.length) && decide (rs.length ≤ 4096) && decide (step < leAt b 54 2) && imgStep b == some step &&
        decide (0 ≤ imgCutoff b frames)) 0x11 e.idx 0,
      needAll ((upTo rs.length).map (fun i =>
        let w := rs.getD i 0
        decide (amTensor w ≤ 4095) && freshAt (rs.map amTensor) i && (Fmt.ofCode (amFmt w)).isSome && decide (amDrop w ≤ 15) &&
        decide (1 ≤ amDepth w) && decide (amDepth w ≤ 16) && (amCtx w == 0 || (imgDeclared b).contains (amCtx w))))
        0x11 e.idx 1]

/-- The machine with an image and its CODE pieces in place, as a load leaves core memory (R186). -/
def State.placeImage (s : State) (b : List Byte) : State :=
  (imgPieces b).foldl (fun a w => a.modCore (pcCore w) (fun k => k.poke (pcAddr w) (pcBytes b w)))
    { s with sch := { s.sch with image := some (parseImage b) } }

/-- Every check of R185 but the granules' of 0x02, in order; `raw` says that those passed. -/
def State.loadCheck (s : State) (b : List Byte) (len : Nat) (raw : Bool) : Option LoadErr :=
  firstErr [check01 b len, need (raw && imgCrcOk b) 2 secHeader 0, need (leAt b 6 1 == 1) 3 secHeader 0,
    need (decide (leAt b 50 2 ≤ Config.fmaxMhz s.bin)) 4 secHeader 0, check05 b s.shape, check06 b, check07 s b, check08 b,
    check09 s b, check0A b, check0B s b, check0C (s.placeImage b) b, check0D b, check0E s b, check0F s b, check10 s b,
    check11Routes s b, check11Retain s b, check11Ctx s b, check11Keys b, check11Upd s b, check11Amax b]

end Sys2Proof.Machine
end

