-- ==== Sys2Proof/Machine/FabricOps.lean ====
section
/-! DEFINITION. The headers of the device engines' flits, the port mask (R219, R17) and what a patch does (R236, R237). -/

namespace Sys2Proof.Machine

open Sys2Proof

/-- The header of a context-0 flit of a device engine (R332, R358, R372, R376). -/
def State.engineHead (s : State) (dest core : Nat) (aclass : Bool) (vc offset len : Nat) (last : Bool) : Nat :=
  dest + s.devId * 2 ^ 16 + core * 2 ^ 48 + b2n aclass * 2 ^ 56 + vc * 2 ^ 57 + b2n last * 2 ^ 60 +
    offset % 2 ^ 23 * 2 ^ 64 + len * 2 ^ 87 + s.vdt.epoch * 2 ^ 126

/-- A flit with its body padded to 240 bytes. -/
def engineFlit (head : Nat) (body : List Byte) : Flit := ⟨head, body ++ List.replicate (240 - body.length) 0#8⟩

/-! The port mask. -/

/-- Whether a logical port is in service as the links stand (R219). -/
def State.portLive (s : State) (l : Nat) : Bool :=
  let m := s.pmap l
  !(s.vport m.phys).retire && ((m.mode == 1 && s.inPart m.phys) || (m.mode == 2 && s.linkUp m.phys))

/-- The mask the links stand for. -/
def State.liveMask (s : State) : Nat := (upTo 20).foldl (fun m l => if s.portLive l then m + 2 ^ l else m) 0

/-- PORT_MASK set, counted as a descriptor change where it differs (R17). -/
def State.setMask (s : State) (m : Nat) : State := if m = s.portMask then s else ({ s with portMask := m }).descChanged

/-- PORT_MASK brought up to date where the job state lets it change (R17, R219). -/
def State.refreshMask (s : State) : State :=
  match s.sch.job with
  | .idle => s.setMask s.liveMask
  | .loaded => s.setMask s.liveMask
  | .stopped => s.setMask s.liveMask
  | _ => s

/-- The physical ports in partition (R219, R243). -/
def State.inPartMask (s : State) : Nat := (upTo 20).foldl (fun m p => if s.inPart p then m + 2 ^ p else m) 0

/-- PORT_CHANGE where the ports in partition are no longer `was` (R243). -/
def State.portsMoved (s : State) (was : Nat) : State := if s.inPartMask = was then s else s.setInt pgVDT 0

/-! Patches. -/

def prKind (r : Nat) : Nat := fld r 0 8
def prPort (r : Nat) : Nat := fld r 16 8
def prEntry (r : Nat) : Nat := fld r 32 16
def prValue (r : Nat) : Nat := fld r 64 64

/-- PHYS and MODE of a VDT_PMAP value; RETIRE and NBR_ID of a VDT_PCFG value (R244). -/
def pmapOf (v : Nat) : PMap := ⟨fld v 5 2, fld v 0 5⟩

/-- One record's effect (R236). -/
def State.patchRecord (s : State) (r : Nat) : State :=
  let v := prValue r
  match prKind r with
  | 1 =>
    let rest := s.vdt.patched.filter (fun l => l != prPort r)
    { s with vdt := { s.vdt with
        pmap := Store.insert s.vdt.pmap (prPort r) (pmapOf v)
        patched := if (pmapOf v).phys = prPort r then rest else prPort r :: rest } }
  | 2 => s.setVport (prPort r) { s.vport (prPort r) with retire := bitAt v 16, nbr := v % 2 ^ 16 }
  | 3 =>
    { s with vdt := { s.vdt with
        slots := Store.insert s.vdt.slots (prPort r) (modAt (fun _ => v) (Store.get [] s.vdt.slots (prPort r)) (prEntry r)) } }
  | 4 =>
    if bitAt v 40 then { s with vdt := { s.vdt with routes := Store.insert s.vdt.routes (v % 2 ^ 16) v } }
    else { s with vdt := { s.vdt with routes := Store.erase s.vdt.routes (v % 2 ^ 16) } }
  | _ => s

/-- The mask once a patch has taken effect: a port that has only fallen out of partition keeps its bit, a retired one loses
it (R17, R219). -/
def State.patchMask (s : State) : Nat :=
  (upTo 20).foldl (fun m l =>
    let p := s.pmap l
    if s.portLive l || (bitAt s.portMask l && p.mode != 0 && !(s.vport p.phys).retire) then m + 2 ^ l else m) 0

/-- A patch takes effect, all of its records at one tick (R237). -/
def State.patchEffect (s : State) (records : List Nat) : State :=
  let s1 := records.foldl (fun a r => a.patchRecord r) s
  let s2 := { s1 with vdt := { s1.vdt with patch := none, patchState := 3 } }
  let s3 := match s2.sch.job with
    | .idle => s2.refreshMask
    | .loaded => s2.refreshMask
    | .stopped => s2.refreshMask
    | _ => s2.setMask s2.patchMask
  (s3.portsMoved s.inPartMask).setInt pgVDT 2

/-- The pending patch at the first tick of the span that follows the pier ending span `seq` (R237). -/
def State.patchPending (s : State) (seq : Nat) : State :=
  match s.vdt.patch with
  | none => s
  | some p => if p.seq ≤ seq then s.patchEffect p.records else s

end Sys2Proof.Machine
end

