-- ==== Sys2Proof/Machine/CtxOps.lean ====
section
/-! DEFINITION. Contexts: opening, teardown, parking, quotas and the effects of CTX_CMD (R393 to R407, R415, R416), and the page
zeroing engine's queue (R404). -/

namespace Sys2Proof.Machine

open Sys2Proof

/-- A context opened with its next generation (R394). -/
def State.openCtx (s : State) (r : CtxRec) : State :=
  let x := s.ctxOf r.id
  s.setCtx r.id { st := .open_, gen := (x.gen + 1) % 64, grace := if r.grace = 0 then 8 else r.grace
                  devQ := r.devQ, capQ := r.capQ, keyQ := r.keyQ, tdFlits := x.tdFlits, tdBlocks := x.tdBlocks }

/-- A record of the CTX page's log (R417). -/
def State.ctxLog (s : State) (cls cause id : Nat) : State := s.logErr pgCTX (cls * 2 ^ 28 + cause * 2 ^ 24 + id) 0 0

/-- Whether a thread is one of a context's: the span assigns it to the context, or it became FAULTED under it (R119). -/
def Thread.isOf (id : Nat) (x : Thread) : Bool :=
  if x.a.st == .faulted then x.home == some id else x.ctx.map (·.1) == some id

/-- The threads of a context that ends: INACTIVE for the rest of the job (R119, R136, R403 step 1; log 59). -/
def Core.stopThreads (k : Core) (id : Nat) : Core :=
  { k with threads := Store.mapVals (fun _ x =>
      if x.isOf id then { x with a := { x.a with st := .inactive }, held := none, home := none, ended := true } else x) k.threads }

/-- The threads of a context that parks: INACTIVE, but for a FAULTED one, which stays so (R119, R407). -/
def Core.restThreads (k : Core) (id : Nat) : Core :=
  { k with threads := Store.mapVals (fun _ x =>
      if x.isOf id && x.a.st != .faulted then { x with a := { x.a with st := .inactive }, held := none } else x) k.threads }

/-- Blocks that a descriptor has still to move: a WALK's are those of its MOVE walk, by the table that its walk read, or by the table
as it stands where the walk has not started (R178; log 60). -/
def Core.descLeft (k : Core) (st : Nat) (d : Desc) : Nat :=
  if dsKind d.word = 7 then
    let b := match Store.find k.dma.walks st with
      | some w => if d.started then w.table else Store.getRun 0#8 k.mem (fld d.word 64 23) walkBytes
      | none => Store.getRun 0#8 k.mem (fld d.word 64 23) walkBytes
    walkTotal b - d.done
  else dsCount d.word - d.done

/-- Blocks that the descriptors and walks of a context have still to move on a core (R178). -/
def Core.unmoved (k : Core) (id : Nat) : Nat :=
  (k.dma.streams.flatMap (fun p => (p.2.filter (fun d => d.ctx == id)).map (k.descLeft p.1))).foldl (· + ·) 0

/-- The descriptors and walks of a context discarded (R178). -/
def Core.dropDescs (k : Core) (id : Nat) : Core :=
  { k with dma := { k.dma with
      streams := (k.dma.streams.map (fun p => (p.1, p.2.filter (fun d => d.ctx != id)))).filter (fun p => !p.2.isEmpty)
      walks := k.dma.walks.filter (fun p => p.2.desc.ctx != id) } }

/-- The head of every stream of every core checked, where it has just become the head (R167). -/
def State.checkHeads (s : State) : State :=
  (s.cores.flatMap (fun p => p.2.dma.streams.map (fun q => (p.1, q.1)))).foldl (fun a x => a.checkDescHead x.1 x.2) s

/-- Pages of a store owned by a context, in ascending order. -/
def ownedPages (m : Store Grant) (id : Nat) : List Nat := (m.filter (fun p => p.2.ctx == id)).map (·.1)

/-- The quarantine of R403 step 5, in ticks. -/
def State.quarantine (s : State) : Nat := 150 * s.diameter + 10000

/-- Teardown of a context begins at tick `t` (R403 steps 1 to 6). -/
def State.teardown (s : State) (id t : Nat) : State :=
  let x := s.ctxOf id
  let blocks := (s.cores.map (fun p => p.2.unmoved id)).foldl (· + ·) 0
  let zq := (ownedPages s.ctx.devPages id).map (fun p => (false, p, id)) ++
    (ownedPages s.ctx.capPages id).map (fun p => (true, p, id))
  let s1 := s.setCtx id { x with st := .closing, overQ := false, overPiers := 0, devUse := 0, capUse := 0, keyUse := 0
                                 tdFlits := 0, tdBlocks := satAt max32 blocks, quarEnd := t + s.quarantine, quarOver := false }
  State.checkHeads { s1 with
    cores := Store.mapVals (fun _ k => (k.stopThreads id).dropDescs id) s1.cores
    ctx := { s1.ctx with
      devPages := s1.ctx.devPages.filter (fun p => p.2.ctx != id)
      capPages := s1.ctx.capPages.filter (fun p => p.2.ctx != id)
      units := s1.ctx.units.filter (fun p => p.2.ctx != id)
      keys := s1.ctx.keys.filter (fun p => p.2.owner != id)
      entries := Store.set 0 s1.ctx.entries id 0
      entriesCopy := Store.set 0 s1.ctx.entriesCopy id 0
      zeroQ := s1.ctx.zeroQ ++ zq } }

/-- A context parked (R407); an END entry raised meanwhile stays pending (R400). -/
def State.parkCtx (s : State) (id : Nat) : State :=
  let s1 := s.setCtx id { s.ctxOf id with st := .parked }
  let drop := fun (m : Store Nat) => if Store.get 0 m id = 2 then Store.erase m id else m
  ({ s1 with cores := Store.mapVals (fun _ k => k.restThreads id) s1.cores
             ctx := { s1.ctx with entries := drop s1.ctx.entries, entriesCopy := drop s1.ctx.entriesCopy } }).setInt pgCTX 3

/-- A context whose quarantine has passed and whose pages are all zeroed becomes FREE (R403 step 7). -/
def State.finishTeardown (s : State) (id : Nat) : State :=
  let x := s.ctxOf id
  if x.st == .closing && x.quarOver && !(s.ctx.zeroQ.any (fun z => z.2.2 == id)) then
    ((s.setCtx id { x with st := .free, quarOver := false }).cnt pgCTX 0x94 1).setInt pgCTX 4
  else s

/-- The agreed close list applied at the seal, with effect from tick `t` (R400). -/
def State.applyClose (s : State) (l : Store Nat) (t : Nat) : State :=
  l.foldl (fun a p =>
    let st := (a.ctxOf p.1).st
    if p.2 = 1 then
      if st = .open_ ∨ st = .parked then (a.teardown p.1 t).ctxLog 0 3 p.1 else a
    else if st = .open_ then (a.parkCtx p.1).ctxLog 0 2 p.1
    else a) s

/-- Whether a context's usage lies above a ceiling (R398). -/
def Ctx.isOver (x : Ctx) : Bool := decide (x.devQ < x.devUse) || decide (x.capQ < x.capUse) || decide (x.keyQ < x.keyUse)

/-- The quota rule of R398 at a sealed pier, for one context; context 0 is always OPEN (R394; log 48). -/
def State.quotaPier (s : State) (id : Nat) : State :=
  let x := s.ctxOf id
  if !x.overQ then s
  else if !x.isOver then s.setCtx id { x with overQ := false, overPiers := 0 }
  else
    let n := satAt 0xFF (x.overPiers + 1)
    let s1 := s.setCtx id { x with overPiers := n }
    if id ≠ 0 ∧ x.overPiers < x.grace ∧ x.grace ≤ n ∧ Store.get 0 s1.ctx.entries id = 0 then
      { s1 with ctx := { s1.ctx with entries := Store.set 0 s1.ctx.entries id 2 } }
    else s1

/-- The quota rule for every context. -/
def State.quotaCheck (s : State) : State := (s.ctx.ctxs.map (·.1)).foldl (fun a id => a.quotaPier id) s

/-! CTX_CMD (R415, R416). -/

def CtxCmd.ctx (c : CtxCmd) : Nat := fld c.arg0 0 10
def CtxCmd.kind (c : CtxCmd) : Nat := fld c.arg0 10 2
def CtxCmd.now (c : CtxCmd) : Bool := bitAt c.arg0 12
def CtxCmd.entry (c : CtxCmd) : Nat := c.arg2 + c.arg3 * 2 ^ 32

/-- A CTX_CMD refused (R416). -/
def State.ctxRefuse (s : State) (code : Nat) : State :=
  ({ s with ctx := { s.ctx with refuse := code } }).setInt pgCTX 1

/-- Pages of a space: device 1, capacity 2 (R415 KIND). -/
def State.pageCount (s : State) (kind : Nat) : Nat := (if kind = 1 then s.mem.devExtent else s.mem.capExtent) / 2 ^ 21

/-- Whether a page is in the free pool: in its space, not granted and not awaiting zeroing (R403). -/
def State.pageFree (s : State) (kind p : Nat) : Bool :=
  decide (p < s.pageCount kind) && (Store.find (if kind = 1 then s.ctx.devPages else s.ctx.capPages) p).isNone &&
  !(s.ctx.zeroQ.any (fun z => z.1 == (kind == 2) && z.2.1 == p))

/-- Reserved encodings and values out of range (R415, R416 code 0x08): context 0 neither closes nor parks (R394; log 48). -/
def CtxCmd.badRange (c : CtxCmd) : Bool :=
  (c.ctx == 0 && (c.op == 1 || c.op == 2)) || (c.now && c.op != 1) ||
  (match c.op with
   | 1 => false
   | 2 => false
   | 3 => false
   | 4 => c.kind == 0 || decide ((match c.kind with | 1 => 262143 | 2 => 524287 | _ => 16383) < c.arg1)
   | 5 => c.kind == 0 || c.kind == 3 || c.arg2 == 0
   | 6 => c.kind == 0 || c.kind == 3 || c.arg2 == 0
   | 7 =>
     let k : Keystone := { cfg := c.entry }
     decide (16383 < c.arg1) || fld c.entry 0 14 != c.arg1 || k.owner != c.ctx || k.kind == 0 ||
     decide (30720 ≤ k.deadline) || (k.kind == 1 && k.target == 0) || (k.kind == 2 && k.target != 0)
   | 8 => decide (16383 < c.arg1)
   | _ => true)

/-- The refusal of a command as the machine stands: the lowest code that applies, of 0x02, 0x03, 0x04 and 0x08; none where it
can take effect (R397, R402, R407, R415, R416). -/
def State.ctxCheck (s : State) (c : CtxCmd) : Option Nat :=
  let x := s.ctxOf c.ctx
  let alive := x.st == .open_ || x.st == .parked
  let pages := (upTo c.arg2).map (fun i => c.arg1 + i)
  let isDev := c.kind == 1
  let stateOk := match c.op with
    | 2 => x.st == .open_
    | 3 => x.st == .parked
    | _ => alive
  let quotaOk := match c.op with
    | 3 => !x.overQ
    | 5 => !x.overQ && decide ((if isDev then x.devUse else x.capUse) + c.arg2 ≤ (if isDev then x.devQ else x.capQ))
    | 7 => !x.overQ && decide (x.keyUse + 1 ≤ x.keyQ)
    | _ => true
  let ownOk := match c.op with
    | 5 => decide (c.arg1 + c.arg2 ≤ s.pageCount c.kind) && pages.all (s.pageFree c.kind)
    | 6 => decide (c.arg1 + c.arg2 ≤ s.pageCount c.kind) && pages.all (fun p =>
        match Store.find (if isDev then s.ctx.devPages else s.ctx.capPages) p with
        | some g => g.ctx == c.ctx
        | none => false)
    | 7 => (s.key c.arg1).kind == 0
    | 8 => (s.key c.arg1).kind != 0 && (s.key c.arg1).owner == c.ctx
    | _ => true
  if c.badRange then some 8
  else if !stateOk then some 2
  else if !quotaOk then some 3
  else if !ownOk then some 4
  else none

/-- The configured keystone as a load leaves it (R408). -/
def keyOfEntry (w : Nat) : Keystone :=
  let k : Keystone := { cfg := w }
  let v := if k.kind = 3 then k.target else 0
  { k with value := v, sealedValue := v }

/-- A context marked OVER where its usage lies above a ceiling (R398). -/
def State.markOver (s : State) (id : Nat) : State :=
  let x := s.ctxOf id
  if x.isOver && !x.overQ then (s.setCtx id { x with overQ := true }).setInt pgCTX 2 else s

/-- SET_QUOTA (R398, R415). -/
def State.putQuota (s : State) (c : CtxCmd) : State :=
  let x := s.ctxOf c.ctx
  let y : Ctx :=
    if c.kind = 1 then { x with devQ := c.arg1 } else if c.kind = 2 then { x with capQ := c.arg1 } else { x with keyQ := c.arg1 }
  (s.setCtx c.ctx y).markOver c.ctx

/-- GRANT: pages of KIND, with W and SHARED (R396, R415). -/
def State.grantPages (s : State) (c : CtxCmd) : State :=
  let x := s.ctxOf c.ctx
  let g : Grant := ⟨c.ctx, bitAt c.arg0 13, bitAt c.arg0 14⟩
  let put := fun (m : Store Grant) => iterate (fun i a => Store.insert a (c.arg1 + i) g) 0 c.arg2 m
  if c.kind = 1 then
    let z := s.setCtx c.ctx { x with devUse := x.devUse + c.arg2 }
    { z with ctx := { z.ctx with devPages := put z.ctx.devPages } }
  else
    let z := s.setCtx c.ctx { x with capUse := x.capUse + c.arg2 }
    { z with ctx := { z.ctx with capPages := put z.ctx.capPages } }

/-- RETURN: pages of KIND go to the zeroing engine (R404, R415). -/
def State.returnPages (s : State) (c : CtxCmd) : State :=
  let x := s.ctxOf c.ctx
  let cap := c.kind == 2
  let out := fun (m : Store Grant) => Store.clearRange m c.arg1 c.arg2
  let z := s.setCtx c.ctx (if cap then { x with capUse := x.capUse - c.arg2 } else { x with devUse := x.devUse - c.arg2 })
  let zq := z.ctx.zeroQ ++ (upTo c.arg2).map (fun i => (cap, c.arg1 + i, c.ctx))
  if cap then { z with ctx := { z.ctx with capPages := out z.ctx.capPages, zeroQ := zq } }
  else { z with ctx := { z.ctx with devPages := out z.ctx.devPages, zeroQ := zq } }

/-- GRANT_KEY: an unused keystone configured (R408, R415). -/
def State.grantKeystone (s : State) (c : CtxCmd) : State :=
  let x := s.ctxOf c.ctx
  (s.setCtx c.ctx { x with keyUse := x.keyUse + 1 }).setKey c.arg1 (keyOfEntry c.entry)

/-- RETURN_KEY (R415). -/
def State.returnKeystone (s : State) (c : CtxCmd) : State :=
  let x := s.ctxOf c.ctx
  let z := s.setCtx c.ctx { x with keyUse := x.keyUse - 1 }
  { z with ctx := { z.ctx with keys := Store.erase z.ctx.keys c.arg1 } }

/-- A command's effect at tick `t` (R415). -/
def State.ctxEffect (s : State) (c : CtxCmd) (t : Nat) : State :=
  (if c.op = 1 then s.teardown c.ctx t
  else if c.op = 2 then s.parkCtx c.ctx
  else if c.op = 3 then s.setCtx c.ctx { s.ctxOf c.ctx with st := .open_ }
  else if c.op = 4 then s.putQuota c
  else if c.op = 5 then s.grantPages c
  else if c.op = 6 then s.returnPages c
  else if c.op = 7 then s.grantKeystone c
  else if c.op = 8 then s.returnKeystone c
  else s).setInt pgCTX 0

/-- A command takes effect at tick `t`, or is refused as the machine then stands (R402, R416). -/
def State.ctxRun (s : State) (c : CtxCmd) (t : Nat) : State :=
  match s.ctxCheck c with
  | some code => s.ctxRefuse code
  | none => s.ctxEffect c t

/-- The pending command at the first tick of the span after its pier (R416): its pier is the one that ends span `seq`, or an
earlier one. -/
def State.ctxPending (s : State) (seq t : Nat) : State :=
  match s.ctx.cmd with
  | none => s
  | some c =>
    if c.seq ≤ seq then ({ s with ctx := { s.ctx with cmd := none } }).ctxRun c t else s

/-- The grants that an image load makes (R394, R396, R397). -/
def State.loadGrant (s : State) (g : GrantRec) (cores : List Nat) : State :=
  let w : Grant := ⟨g.ctx, g.w, g.shared⟩
  let x := s.ctxOf g.ctx
  match g.space with
  | 1 => { s with ctx := { s.ctx with units := cores.foldl (fun m c =>
      iterate (fun i a => Store.insert a (c * 128 + g.first + i) w) 0 g.count m) s.ctx.units } }
  | 2 =>
    let z := s.setCtx g.ctx { x with devUse := x.devUse + g.count }
    { z with ctx := { z.ctx with devPages := iterate (fun i a => Store.insert a (g.first + i) w) 0 g.count z.ctx.devPages } }
  | _ =>
    let z := s.setCtx g.ctx { x with capUse := x.capUse + g.count }
    { z with ctx := { z.ctx with capPages := iterate (fun i a => Store.insert a (g.first + i) w) 0 g.count z.ctx.capPages } }

end Sys2Proof.Machine
end

