-- ==== Sys2Proof/Machine/Seep.lean ====
section
/-! DEFINITION. The Seep's ring (R329 to R333): records, their order of release, what a full ring loses and the GAP record.
Each record's bytes lie in the ring in device memory, at its stream position modulo the ring's size (log 30). -/

namespace Sys2Proof.Machine

open Sys2Proof

/-- A Seep record with sequence number and CRC 0 (R331). -/
def seepRecord (type b3 step group bank block : Nat) (body : List Byte) : List Byte :=
  leBytes 2 0x5345 ++ leBytes 1 type ++ leBytes 1 b3 ++ leBytes 4 (32 + body.length) ++ leBytes 8 0 ++ leBytes 4 step ++
    leBytes 2 group ++ leBytes 2 bank ++ leBytes 4 block ++ leBytes 4 0 ++ body

/-- A record with its sequence number and CRC (R330, R331). -/
def seepNumber (b : List Byte) (n : Nat) : List Byte :=
  let h := b.take 8 ++ leBytes 8 n ++ (b.drop 16).take 12
  let body := b.drop 32
  h ++ leBytes 4 (crc32c (h ++ leBytes 4 0 ++ body)) ++ body

/-- A BLOCK record's body: the XOR of data bytes, then of sidecar bytes 0 and 1, padded to a multiple of 8 (R329). -/
def seepXor (new old newSide oldSide : List Byte) : List Byte :=
  let x := List.zipWith (· ^^^ ·) new old ++ List.zipWith (· ^^^ ·) (newSide.take 2) (oldSide.take 2)
  x ++ List.replicate ((8 - x.length % 8) % 8) 0#8

/-- Bytes of the ring in use, held records among them. -/
def TrainState.seepFill (t : TrainState) : Nat :=
  ((t.seepRing ++ t.seepHeld).map (fun r => r.bytes.length)).foldl (· + ·) 0

/-- Bytes of the ring (SEEP_RING_MIB). -/
def State.seepSize (s : State) : Nat := s.reg pgSEEP 0x44 % 2 ^ 12 * 2 ^ 20

/-- Whether a record of `n` bytes fits: while GAP is set none does (R333; log 30). -/
def State.seepRoom (s : State) (n : Nat) : Bool := !s.train.seepGap && decide (s.train.seepFill + n ≤ s.seepSize)

/-- A record lost: GAP begins (R333). -/
def State.seepLose (s : State) : State :=
  let s1 := s.cnt pgSEEP 0x70 1
  if s1.train.seepGap then s1
  else (({ s1 with train := { s1.train with seepGap := true } }).logErr pgSEEP (1 * 2 ^ 24) 0 0).setInt pgSEEP 2

/-- RING_HIGH where the fill has reached 75% (R335). -/
def State.seepHigh (s : State) (before : Nat) : State :=
  if before * 4 < s.seepSize * 3 ∧ s.seepSize * 3 ≤ s.train.seepFill * 4 then s.setInt pgSEEP 0 else s

/-- The runs of device memory that `n` bytes of the stream from position `pos` on lie in: address and bytes (R330; log 30). -/
def State.ringRuns (s : State) (pos n : Nat) : List (Nat × Nat) :=
  if s.seepSize = 0 then []
  else
    let o := pos % s.seepSize
    let k := min n (s.seepSize - o)
    [(s.reg64 pgSEEP 0x48 + o, k), (s.reg64 pgSEEP 0x48, n - k)].filter (fun r => r.2 != 0)

/-- Bytes written in runs of device memory one after the other, their partial lines merged (R292). -/
def State.ringWrite (s : State) : List (Nat × Nat) → List Byte → State
  | [], _ => s
  | r :: rs, bs =>
    let m := s.mergeLines State.rmwNow r.1 r.2
    (m.1.rawStore r.1 (m.1.takenBytes false m.2 r.1 (bs.take r.2)) 265).ringWrite rs (bs.drop r.2)

/-- A record's bytes written at a position of the stream (R330). -/
def State.ringPut (s : State) (pos : Nat) (bs : List Byte) : State := s.ringWrite (s.ringRuns pos bs.length) bs

/-- Bytes of the stream read from the ring; a line that cannot be corrected is a hardware fault (R286, R332, R348). -/
def State.ringGet (s : State) (pos n : Nat) : State × List Byte :=
  (s.ringRuns pos n).foldl (fun p r =>
    let l := p.1.rawLoad r.1 r.2
    (if l.2.2 then l.1.raiseHw else l.1, p.2 ++ l.2.1)) (s, [])

/-- Bytes of a list of records. -/
def seepBytes (l : List SeepRec) : Nat := (l.map (fun r => r.bytes.length)).foldl (· + ·) 0

/-- The held records written behind the released ones. -/
def State.seepStow (s : State) : State :=
  (s.train.seepHeld.foldl (fun (p : State × Nat) r => (p.1.ringPut p.2 r.bytes, p.2 + r.bytes.length))
    (s, s.train.seepPos + seepBytes s.train.seepRing)).1

/-- A record appended and held until its pier seals (R330). -/
def State.seepHold (s : State) (r : SeepRec) : State :=
  if !s.train.seepEn then s
  else
    let keep := fun (z : State) (x : SeepRec) => { z with train := { z.train with seepHeld := z.train.seepHeld ++ [x] } }
    if s.seepRoom r.bytes.length then
      ((keep s r).ringPut (s.train.seepPos + s.train.seepFill) r.bytes).seepHigh s.train.seepFill
    else keep s.seepLose { r with bytes := [] }

/-- The place of a record in the order of release (R330). -/
def SeepRec.rank (r : SeepRec) : Nat := r.tick * 64 + r.engine * 8 + r.slot

/-- A record put into a list ordered by rank, after its equals. -/
def seepInsert (r : SeepRec) : List SeepRec → List SeepRec
  | [] => [r]
  | x :: l => if r.rank < x.rank then r :: x :: l else x :: seepInsert r l

/-- One record released with the next sequence number; a lost one leaves a gap (R330, R333). -/
def State.seepRelease1 (s : State) (r : SeepRec) : State :=
  let t := s.train
  let n := t.seepSeq
  if r.bytes.isEmpty then
    { s with train := { t with seepSeq := n + 1, seepLost := some ((t.seepLost.map (·.1)).getD n, n) } }
  else
    (({ s with train := { t with seepSeq := n + 1
                                 seepRing := t.seepRing ++ [{ r with bytes := seepNumber r.bytes n, seq := n }] } }).ringPut
      (t.seepPos + seepBytes t.seepRing) (seepNumber r.bytes n)).cnt64 pgSEEP 0x68 1

/-- The STEP record's body (R331). -/
def stepBody (span vector : Nat) : List Byte := leBytes 8 span ++ leBytes 128 vector

/-- Held records released at the seal, the STEP record of a step pier after them (R330). -/
def State.seepSeal (s : State) (step : Option (Nat × Nat)) : State :=
  if !s.train.seepEn then { s with train := { s.train with seepHeld := [] } }
  else
    let l := s.train.seepHeld.foldl (fun a r => seepInsert r a) []
    let s1 := l.foldl (fun a r => a.seepRelease1 r) { s with train := { s.train with seepHeld := [] } }
    match step with
    | none => s1
    | some (n, v) =>
      let r : SeepRec := ⟨seepRecord 2 0 n 0 0 0 (stepBody s.sch.seq v), 0, s.tick, 0, 0⟩
      if s1.seepRoom r.bytes.length then (s1.seepRelease1 r).seepHigh s1.train.seepFill
      else s1.seepLose.seepRelease1 { r with bytes := [] }

/-- The GAP record released where the fill has fallen below half (R333). -/
def State.seepGapEnd (s : State) : State :=
  let t := s.train
  if t.seepGap && t.seepFill * 2 < s.seepSize && t.seepHeld.all (fun r => !r.bytes.isEmpty) then
    let s1 := { s with train := { t with seepGap := false, seepLost := none } }
    match t.seepLost with
    | none => s1
    | some (a, b) =>
      (s1.seepRelease1 ⟨seepRecord 3 0 s.train.step 0 0 0 (leBytes 8 a ++ leBytes 8 b), 0, s.tick, 0, 0⟩).seepStow
  else s

/-- A record of the SEEP page's log (R335). -/
def State.seepLog (s : State) (cause : Nat) : State := s.logErr pgSEEP (cause * 2 ^ 24) 0 0

/-- A storage acknowledgement naming `n` as the next number expected (R332): records below it leave the ring; a number beyond
SEQ, or below what was acknowledged, is logged and ignored. -/
def State.seepAcked (s : State) (n : Nat) : State :=
  let t := s.train
  if t.seepSeq < n ∨ n < t.seepAck then s.seepLog 4
  else if n = t.seepAck then s
  else
    let gone := t.seepRing.filter (fun r => decide (r.seq < n))
    let bytes := (gone.map (fun r => r.bytes.length)).foldl (· + ·) 0
    ({ s with train := { t with
      seepRing := t.seepRing.filter (fun r => decide (n ≤ r.seq)), seepAck := n, seepNext := t.seepNext - bytes
      seepPos := t.seepPos + bytes, seepLastAck := s.tick } }).seepGapEnd

/-- A flit of storage to the Seep engine (R332, R335). -/
def State.takeSeepFlit (s : State) (bytes : List Byte) : State :=
  if bytes.length = 8 then s.seepAcked (leNat bytes) else s.seepLog 4

end Sys2Proof.Machine
end

