-- ==== Sys2Proof/Machine/PierRecord.lean ====
section
/-! DEFINITION. Step piers (R307, R310, R312) and the pier record that every pier forms from the pier copies (R369, R370). -/

namespace Sys2Proof.Machine

open Sys2Proof

/-- The agreed skip vector as the exchange leaves it on this device (R312, R357). -/
def State.agreedVector (s : State) : Nat := s.train.skipAcc ||| s.train.skip

/-- What the seal of a step pier does to the training state (R307, R310, R312). -/
def State.sealStep (s : State) : State :=
  if s.isStepSpan then
    let v := s.agreedVector
    let s1 := s.advanceAmax v
    { s1 with train := { s1.train with step := (s1.train.step + 1) % 2 ^ 32, agreed := (v :: s1.train.agreed).take 4
                                       skip := 0, skipAcc := 0 } }
  else s

/-- The layout of SUM1 (R104): magnitude in [47:0], s16 exponent in [63:48]. -/
def sum1Bytes (x : Nat × Int) : List Byte := leBytes 6 x.1 ++ leBytes 2 (toBits 16 x.2)

/-- The 128 bytes of a thread in the record (R369). -/
def threadBytes (a : ThreadArch) : List Byte :=
  (upTo 31).flatMap (fun i => leBytes 4 (Store.get 0#32 a.g (i + 1)).toNat) ++
    leBytes 4 (a.pc % 2 ^ 23 + a.st.code * 2 ^ 23 + b2n a.fl.n * 2 ^ 26 + b2n a.fl.z * 2 ^ 27 + b2n a.fl.c * 2 ^ 28 +
      b2n a.fl.v * 2 ^ 29 + b2n a.fl.dz * 2 ^ 30)

/-- The 8 bytes of a keystone in the record: its pier copy. -/
def keyBytes (k : Keystone) : List Byte := leBytes 4 k.pierValue ++ leBytes 2 k.pierPhase ++ leBytes 2 0

/-- The 24 bytes of a tensor: accumulator pier copy, entry 0, floor, valid count, ADVANCED (R369). -/
def amaxBytes (cur : Nat × Int) (a : Amax) (advanced : Bool) : List Byte :=
  sum1Bytes cur ++ sum1Bytes (a.hist.headD (0, -256)) ++ leBytes 1 (toBits 8 a.floor) ++ leBytes 1 a.valid ++
    leBytes 1 (b2n advanced) ++ List.replicate 5 0#8

/-- The 128 bytes of an engine in a state of UPD STAT (R369). -/
def posBytes (p : UpdPos) (st : Nat) : List Byte :=
  leBytes 4 p.done ++ leBytes 1 p.head ++ leBytes 1 p.applied ++ leBytes 2 p.group ++ leBytes 8 p.startSpan ++
    leBytes 4 p.step ++ leBytes 1 st ++ List.replicate 107 0#8

/-- The 16 bytes of a context: the layout of a context record (R396; log 31). -/
def ctxBytes (id : Nat) (x : Ctx) : List Byte :=
  leBytes 2 id ++ leBytes 1 x.grace ++ leBytes 1 0 ++ leBytes 4 x.devQ ++ leBytes 4 x.capQ ++ leBytes 2 x.keyQ ++ leBytes 2 0

/-- The V/F point of the pier (R370): the one the V/F sequencer has switched to or is to switch to in it. -/
def State.pierVf (s : State) : Nat :=
  match s.pwr.due, s.curDesc with
  | some p, _ => p
  | none, some d => if d.vfKeep || s.pwr.failed.isSome then s.pwr.point else d.vfNext
  | none, none => s.pwr.point

/-- The next Seep sequence number after this pier's release (R330, R370); `z` is the state with the step pier's advance. -/
def State.pierSeepSeq (s z : State) : Nat :=
  (z.seepSeal (if s.isStepSpan then some (s.train.step, s.agreedVector) else none)).seepGapEnd.train.seepSeq

/-- The header with CRC `crc` (R370); `z` is the state with the step pier's advance. -/
def State.pierHead (s z : State) (crc : Nat) : List Byte :=
  leBytes 4 0x44524350 ++ leBytes 2 s.devId ++ leBytes 4 (s.reg pgVDT 0x48) ++ leBytes 2 0 ++ leBytes 4 crc ++
    leBytes 8 s.img.digest ++ leBytes 8 s.sch.seq ++ leBytes 4 z.train.step ++ leBytes 1 s.pierVf ++
    leBytes 1 (b2n s.isStepSpan) ++ leBytes 2 0 ++ leBytes 8 (s.pierSeepSeq z) ++ leBytes 8 s.train.seepAck ++
    List.replicate 200 0#8

/-- The record's bytes after its header. Accumulators, the local vector and the engines stand from W on as they stood at W, so
their present values are their pier copies (R311, R321). -/
def State.pierBody (s z : State) : List Byte :=
  let v := s.agreedVector
  (upTo 4096).flatMap (fun g => threadBytes (((s.thread (g / 16) (g % 16)).pierCopy).getD {})) ++
    (upTo 16384).flatMap (fun k => keyBytes (s.key k)) ++
    (upTo 4096).flatMap (fun t =>
      let a : Amax := Store.get {} z.train.amax t
      amaxBytes (Store.get {} s.train.amax t : Amax).cur a (s.isStepSpan && (Store.find z.train.amax t).isSome && !skipped v a.ctx)) ++
    leBytes 128 s.train.skip ++ (upTo 4).flatMap (fun a => leBytes 128 (z.train.agreed.getD a 0)) ++
    List.replicate 384 0#8 ++
    (upTo 8).flatMap (fun e => posBytes (Store.get {} s.train.engines e).pos (s.updState e)) ++
    (upTo 1024).flatMap (fun id => ctxBytes id (s.ctxOf id))

/-- The pier record of the pier that ends the current span (R369). -/
def State.pierRecord (s : State) : List Byte :=
  let z := s.sealStep
  let body := s.pierBody z
  s.pierHead z (crc32c (s.pierHead z 0 ++ body)) ++ body

/-- Bytes of a pier record, and of the amax histories that follow it in a state stream (R369, R376). -/
def pierBytes : Nat := 772352
def histBytes : Nat := 524288

/-- Whether a record's CRC verifies (R370). -/
def pierCrcOk (b : List Byte) : Bool :=
  b.length == pierBytes && crc32c (b.take 12 ++ leBytes 4 0 ++ b.drop 16) == leAt b 12 4

end Sys2Proof.Machine
end

