-- ==== Sys2Proof/Machine/Pier.lean ====
section
/-! DEFINITION. Job states (R28, R29), the start of a span (R85, R113, R119, R187), the end of its work (R138, R345) and the
seal of its pier (R307, R310, R330, R345, R371, R398, R400). -/

namespace Sys2Proof.Machine

open Sys2Proof

/-! Job states. -/

/-- A device in LOST whose job is IDLE or LOADED returns to ACQUIRING (R197). -/
def State.lostReturns (s : State) : State :=
  if s.tck.state = .lost then
    { s with tck := { s.tck with state := .acquiring, hist := [], good := 0, lastKept := s.tick } }
  else s

/-- The retirement's new channel table in effect (R302 step 3). -/
def State.retireSwitch (s : State) : State :=
  match s.mem.retire with
  | none => s
  | some r =>
    ({ s with mem := { s.mem with retired := s.mem.retired ++ [r.chan], retire := none, retState := 3
                                  chans := Store.set {} s.mem.chans r.chan { (Store.get {} s.mem.chans r.chan : GalChan) with st := 2 } } }).descChanged.setInt pgGAL 5

/-- Job states in which memory may be repaired or trained, and in which a migrated retirement takes effect (R298, R302, R306). -/
def Job.quiet (j : Job) : Bool := j == .idle || j == .loaded || j == .parked || j == .stopped

/-- A retirement whose migration has ended takes effect where no pier is to come (R302 step 3). -/
def State.retireQuiet (s : State) : State :=
  match s.mem.retire with
  | some r => if r.migrated && s.sch.job.quiet then s.retireSwitch else s
  | none => s

/-- The job state changed, with what hangs on the change: interrupt bits (R212), a pending CTX_CMD discarded (R416), raises
and withdrawals with nothing left to rewind dropped, a lost tick acquired anew (R197), and PORT_MASK brought up to date (R17). -/
def State.setJob (s : State) (j : Job) : State :=
  if s.sch.job = j then s
  else
    let live := j == .running || j == .rewinding
    let s1 := ({ s with sch := { s.sch with job := j }
                        pie := if live then s.pie else { s.pie with raises := [], deferred := [], withdraw := none }
                        -- a pier that does not seal discards both pending records (R371)
                        buddy := if live then s.buddy else { s.buddy with ownPending := none, buddyPending := [], buddyGot := 0 } }).setInt pgSCH 0
    let s2 := if j = .stopped then s1.setInt pgSCH 1 else s1
    let ends := j == .idle || j == .loaded || j == .stopped
    let s3 := if ends && s2.ctx.cmd.isSome then ({ s2 with ctx := { s2.ctx with cmd := none } }).ctxRefuse 5 else s2
    let s4 := if j == .idle || j == .loaded then s3.lostReturns else s3
    (if ends then s4.refreshMask else s4).retireQuiet

/-! V/F points. -/

/-- The duplicated V/F sequencer compared as it changes the point to `p`: a mismatch is a hardware fault (R469 cause 0x5; log 56). -/
def State.seqAgrees (s : State) (p : Nat) : State :=
  match s.takeSlip pgPWR with
  | (none, _) => s
  | (some _, z) => (z.logErr pgPWR (2 ^ 28 + 5 * 2 ^ 24 + p * 2 ^ 17) 0 0).raiseHw

/-- The standby core PLL of each die, set to the new frequency and locked while there is a reference, drives it; the other one stands by
(R447, R455). -/
def ClkState.switchPlls (k : ClkState) : ClkState :=
  { k with
    corePll := 15 - k.corePll % 16
    coreLock := if k.tickLock then 15 else k.standbyLock
    standbyLock := k.coreLock }

/-- The present point changed, for reason 1 pier, 2 governor or 3 stress, with its VF record (R454, R469, R487). -/
def State.pointTo (s : State) (p why : Nat) : State :=
  if s.pwr.point = p then s
  else
    ((({ s with pwr := { s.pwr with point := p }, clk := s.clk.switchPlls }).trc 8 (traceSource pgPWR) none
      [BitVec.ofNat 8 s.pwr.point, BitVec.ofNat 8 p, BitVec.ofNat 8 why]).cnt pgPWR 0x60 1).setInt pgPWR 1

/-- The present point changed by an image, or by a stress test that runs it. -/
def State.setPoint (s : State) (p : Nat) : State := s.pointTo p (if s.pwr.stress then 3 else 1)

/-! Span start. -/

/-- Array, Flowstone, walker and DMA engine at the first tick of a span, and after a rewind or a reset (R85, R113, R155,
R177). -/
def Core.clearUnits (k : Core) : Core := { k with arr := {}, fls := {}, dma := {}, chains := 0, wd := 0, missed := [] }

/-- An undo log emptied (R339); its high marks stay (R367). -/
def UndoLog.cleared (u : UndoLog) : UndoLog := { maxLines := u.maxLines, maxDev := u.maxDev }

/-- A thread at the first tick of a span, before the span assigns it a context: INACTIVE with its state untouched, its summaries and
digest 0; a FAULTED thread stays so (R113, R118, R119). -/
def Thread.restSpan (x : Thread) : Thread :=
  { x with a := { x.a with st := if x.a.st == .faulted then .faulted else .inactive }
           sum0 := 0, sum1 := 0, sum2 := 0, sum3 := 0, digest := 0, held := none, pcnt := 0
           ctx := none, lastIfs := none, lastSum := none, emitted := 0
           ecc := x.ecc.filter (fun p => decide (p.1 < 34)) }

/-- A thread becomes READY with every guard FALSE, at its entry address in its first active span; a FAULTED thread, and one whose
context has ended, does not (R119). -/
def Thread.activate (x : Thread) (entry : Nat) : Thread :=
  if x.a.st == .faulted || x.ended then x
  else if x.a.started then { x with a := { x.a with st := .ready, q := [] }, ecc := Store.erase x.ecc 33 }
  else { x with a := { st := .ready, pc := entry, started := true }, ecc := [] }

/-- A core at the first tick of a span. -/
def Core.startSpan (k : Core) : Core :=
  { k.clearUnits with threads := Store.mapVals (fun _ x => x.restSpan) k.threads
                      undo := k.undo.cleared, clocked := true, wakeAt := none }

/-- The threads that an ASSIGN map gives a context, with their progress windows (R26, R119, R134): those of an OPEN context become
active. -/
def State.assignThreads (s : State) (m : Store Nat) : State :=
  m.foldl (fun a p =>
    let x := a.ctxOf p.2
    let c := p.1 / 16
    let t := p.1 % 16
    let i := Store.get (0, 0) s.img.threads p.1
    if p.2 ≠ 0 ∧ (a.core c).inReset = false then
      let y : Thread := { a.thread c t with ctx := some (p.2, x.gen), pwin := i.2 }
      a.setThread c t (if x.st = .open_ then y.activate i.1 else y)
    else a) s

/-- The Viaduct at the first tick of a span: A-class counts, reorder buffer and pointers 0 (R239). -/
def VdtState.startSpan (v : VdtState) : VdtState :=
  { v with expect := [], reorder := [], gapSince := [], sent := [], spray := [], streamVc := [], inject := [], runs := []
           slotErr := false }

/-- What waits for the pier that ends span `seq`: the patch, a migrated retirement, the context command (R237, R302, R402,
R416). -/
def State.pierWaits (s : State) (seq t : Nat) : State :=
  let s1 := s.patchPending seq
  let s2 := match s1.mem.retire with
    | some r => if r.migrated && decide (r.seq ≤ seq) then s1.retireSwitch else s1
    | none => s1
  s2.ctxPending seq t

/-- The seal unit's exchange state at the first tick of a span. -/
def PieState.startSpan (p : PieState) : PieState :=
  { p with round := 0, seenPorts := [], roundFault := false, closeRound := 0, closeSeen := [], closeFault := false
           peerDigests := none, yPlusSeen := false, compared := false }

/-- Span `n` starts at tick `t` (R119, R187, R239). -/
def State.startSpan (s : State) (n t : Nat) : State :=
  let s0 := s.pierWaits (n - 1) t
  let s1 := { s0 with
    sch := { s0.sch with job := .running, seq := n, place := .span, first := t, wakeIdx := [] }
    cores := Store.mapVals (fun _ k => k.startSpan) s0.cores
    mesh := []
    colPend := []
    vdt := s0.vdt.startSpan
    pie := s0.pie.startSpan
    ctx := { s0.ctx with merged := [], zeroed := (0, 0) }
    mem := { s0.mem with sumpOvf := false } }
  match s1.curDesc with
  | none => s1
  | some d => s1.assignThreads (s1.img.assign.getD d.assign [])

/-! The end of a span's work. -/

/-- The words of thread state that a pier copy reads (R138). -/
def pierWords : List Nat := (upTo 33).map (· + 1)

/-- The faults of a core's work that W cuts off: a hardware fault for each thread whose pier copy meets an uncorrectable error, a
schedule fault for each that has not ended its span, and one for each unit, naming the command that entered its queue first (R85,
R113, R117, R119, R137, R155, R177). -/
def State.endCore (s : State) (c : Nat) : State :=
  let k := s.core c
  let s1 := k.threads.foldl (fun a p =>
    let a1 := if p.2.damaged pierWords then a.coreFault c .hw 0 2 p.1 p.2.tag.1 p.2.tag.2 p.2.a.pc 0 else a
    if p.2.a.st == .ready || p.2.a.st == .wait then
      a1.coreFault c .sched 0 8 p.1 p.2.tag.1 p.2.tag.2 p.2.a.pc 0
    else a1) s
  let arr := (k.arr.runs.map (·.cmd)) ++ k.arr.loadQ ++ k.arr.streamQ
  let first := fun (best : Option ArrCmd) (q : ArrCmd) => match best with
    | none => some q
    | some b => if q.serial < b.serial then some q else some b
  let s2 := match arr.foldl first none with
    | none => s1
    | some q => s1.arrSched c q 0xA
  let s3 := match (k.fls.runs.map (·.cmd)) ++ k.fls.queue with
    | [] => s2
    | q :: _ => s2.flsFault c q .sched 0xC 0
  let older := fun (best : Option Desc) (d : Desc) => match best with
    | none => some d
    | some b => if d.serial < b.serial then some d else some b
  let s4 := match (k.dma.streams.flatMap (·.2)).foldl older none with
    | none => s3
    | some d => s3.dmaFault c d .sched 0xC 0 0
  let first := fun (best : Option Walk) (w : Walk) => match best with
    | none => some w
    | some b => if w.desc.serial < b.desc.serial then some w else some b
  match (k.dma.walks.map (·.2)).foldl first none with
  | none => s4
  | some w => s4.tilFault c w.desc .sched 5 3 w.stepNo

/-- A slot error: the first of a span is a hardware fault with its own cause, one in a replay of the same span a schedule
fault (R225). -/
def State.slotError (s : State) (cause pos l1 l2 : Nat) : State :=
  if s.vdt.slotErr then s
  else
    let s1 := { s with vdt := { s.vdt with slotErr := true, slotErrSpan := some s.sch.seq } }
    if s.vdt.slotErrSpan = some s.sch.seq then s1.vdtFault .sched 0xB pos l1 l2 0
    else s1.vdtFault .hw cause pos l1 l2 0

/-- The slot within its frame in which a span's work ends (R243; DEDUCED, log 38). -/
def State.lastSlot (s : State) : Nat := (s.tick - 1) % 2048 / 32

/-- Flits of OPEN contexts that the end of the last frame leaves in a FIFO or an injection buffer (R225, R241). -/
def State.leftover (s : State) : State :=
  let left := fun (q : QFlit) => s.tagOpen (fltTag q.flit.head)
  match s.vdt.ports.find? (fun p => p.2.fifo.any left) with
  | some p =>
    let h := (((p.2.fifo.find? left).map (·.flit.head)).getD 0)
    s.slotError 4 (p.1 * 2 ^ 19 + s.lastSlot * 2 ^ 10 + fltCtx h) 0 (fltSrcId h * 2 ^ 16 + fltDest h)
  | none =>
    match ((s.vdt.inject.flatMap (·.2)).map (·.1)).find? (fun f => !fltAclass f.head && s.tagOpen (fltTag f.head)) with
    | some f => s.slotError 4 (s.lastSlot * 2 ^ 10 + fltCtx f.head) 0 (fltSrcId f.head * 2 ^ 16 + fltDest f.head)
    | none => s

/-- W, the tick at which the span's work ends (R345, R346). -/
def State.workEnd (s : State) : Nat := s.pierFirst - s.quiet

/-- The step whose sweeps must have ended when the current step pier begins: a sweep still running whose step plus DELAY is
the current step (R322). -/
def State.sweepLate (s : State) (p : UpdPos) : Bool :=
  p.active && s.isStepSpan && decide (p.step + ugDelay (s.updGroup p.group) ≤ s.train.step)

/-- A fault of an update engine, with its record (R334). -/
def State.updFault (s : State) (e : Nat) (cls : FClass) (cause slot group block pc bank ctx : Nat) : State :=
  let bit := match cls with
    | .sched => 5
    | .ctx => 4
    | .hw => 3
  ((s.logErr (pgUPD e) (cls.code * 2 ^ 28 + cause * 2 ^ 24 + slot % 8 * 2 ^ 21 + group % 2 ^ 10 * 2 ^ 11) block
    (pc % 64 * 2 ^ 10 + bank % 2 ^ 10)).setInt (pgUPD e) bit).raiseClass cls ctx

/-- The sweeps that a step pier finds running (R322 cause 0x8). -/
def State.endSweeps (s : State) : State :=
  (s.train.engines.filter (fun p => s.sweepLate p.2.pos)).foldl (fun a p => a.updFault p.1 .sched 8 0 p.2.pos.group 0 0 0 0) s

/-- The comparators of the cores whose span ends gated fire 64 ticks before the pier frame, for a first core cycle on its first tick
(R202; log 62). -/
def State.endGated (s : State) : State :=
  let n := (s.cores.filter (fun p => !p.2.clocked && p.2.wakeAt.isNone)).length
  let s1 := if n = 0 ∨ s.tick + 64 < s.pierFirst then s else s.cnt pgSCH 0x88 n
  { s1 with cores := Store.mapVals (fun _ k => if s.pierFirst ≤ s.tick then { k with clocked := true, wakeAt := none }
      else if k.clocked then k else { k with wakeAt := some (k.wakeAt.getD s.pierFirst) }) s1.cores }

/-- The span's work ends at W: incomplete work faults, and every thread's and keystone's pier copy is taken (R138, R345, R369). -/
def State.endWork (s : State) : State :=
  let s1 := (s.cores.map (·.1)).foldl (fun a c => a.endCore c) s.endGated
  let s2 := s1.leftover.endSweeps
  let s3 := if s2.sch.seq = 2 ^ 48 - 1 then
      (s2.logErr pgSCH (3 * 2 ^ 28 + 4 * 2 ^ 24) ((s2.sch.seq - 1) % s2.img.spans.length + (s2.curFrames - 1) * 2 ^ 12) 0).raiseSched
    else s2
  { s3 with sch := { s3.sch with place := .pier }
            cores := Store.mapVals (fun _ k => { k with
              threads := Store.mapVals (fun _ x => { x with pierCopy := some x.a }) k.threads }) s3.cores
            ctx := { s3.ctx with
              keys := Store.mapVals (fun _ k => { k with pierValue := k.value, pierPhase := k.phase }) s3.ctx.keys } }

/-! The seal. -/

/-- Corrections counted so far by FLS_ECC_CNT, DMA_ECC_CNT, HBM_CORR_CNT and GAL_CORR_CNT (R363). -/
def State.corrections (s : State) : Nat :=
  (s.regs.filter (fun p =>
    let ty := pageType (p.1 / 0x1000)
    let o := p.1 % 0x1000
    (ty == 0xA && o == 0x68) || (ty == 0xB && o == 0x6C) || (ty == 0x13 && o == 0x60) || (ty == 0x15 && o == 0x60))).foldl
    (fun n p => n + p.2.toNat) 0

/-- A reason of PIE_SUSPECT set (R363). -/
def State.suspect (s : State) (bit : Nat) : State :=
  if bitAt (s.reg pgPIE 0x64) bit then s.markSet pgPIE 0x64 bit
  else ((s.markSet pgPIE 0x64 bit).setReg pgPIE 0x64 (setBit (s.reg pgPIE 0x64) bit)).setInt pgPIE 6

/-- The counts of the last `n` piers; a window of 0 piers acts as 1 (R363; log 32). -/
def PieState.within (p : PieState) (n : Nat) : List WinCount := p.win.filter (fun w => decide (p.winPiers < w.pier + max 1 n))

/-- PIE_WINDOW.PIERS. -/
def State.windowPiers (s : State) : Nat := s.reg pgPIE 0x44 % 2 ^ 16

/-- The counts within the window held against PIE_CFG's limits (R363). -/
def State.checkWindow (s : State) : State :=
  let cfg := s.reg pgPIE 0x40
  let l := s.pie.within s.windowPiers
  let total := fun (f : WinCount → Nat) => l.foldl (fun n w => n + f w) 0
  let s1 := if fld cfg 8 8 ≤ total (·.rewinds) then s.suspect 1 else s
  let s2 := if fld cfg 16 8 ≤ total (·.late) then s1.suspect 2 else s1
  if fld cfg 24 8 * 1024 ≤ total (·.corr) then s2.suspect 3 else s2

/-- A sealed pier: the corrections made since the last seal are counted, the limits are applied, and the window moves on by a pier
(R363; log 32). -/
def State.windowSeal (s : State) : State :=
  let now := s.corrections
  let s1 := ({ s with pie := { s.pie.count 0 0 (now - s.pie.corrBase) with corrBase := now } }).checkWindow
  let p := { s1.pie with winPiers := s1.pie.winPiers + 1 }
  { s1 with pie := { p with win := p.within s1.windowPiers } }

/-- The pier digest of a stress test: every thread's digest in global order, then the eight replica digests (R365). -/
def State.pierDigest (s : State) : Nat :=
  crc64 0 ((upTo 4096).flatMap (fun g => leBytes 8 (s.thread (g / 16) (g % 16)).digest) ++
    (upTo 8).flatMap (fun e => leBytes 8 (Store.get {} s.train.engines e).pos.digest))

/-- The digests of every thread read for a pier digest: an error in one that cannot be corrected is a hardware fault of its core
(R117, R365). -/
def State.digestsRead (s : State) : State :=
  s.cores.foldl (fun a p => p.2.threads.foldl (fun b t =>
    if t.2.damaged digestWords then b.coreFault p.1 .hw 0 2 t.1 t.2.tag.1 t.2.tag.2 t.2.a.pc 0 else b) a) s

/-- A failed pier of the running stress test (R365). -/
def State.stressFail (s : State) : State :=
  let s1 := if s.pie.stressFails = 0 then s.pieErr 0 0xA 0 s.devId else s
  { s1 with pie := { s1.pie with stressFails := satAt 255 (s1.pie.stressFails + 1) } }

/-- The comparison with the golden digests at a pier of a stress test (R365). -/
def State.stressPier (s : State) : State :=
  if s.pie.stress ≠ 2 then s
  else
    let z := s.digestsRead
    let g := z.rawLoad (s.reg64 pgPIE 0x78 + 8 * (s.sch.seq - 1)) 8
    let z1 := if g.2.2 then g.1.raiseHw else g.1
    if s.pierDigest = leNat g.2.1 then z1 else z1.stressFail

/-- The end of a running stress test, where the image parks (R365). The temperature at its end is a measurement (log 49). -/
def State.stressEnd (s0 : State) : State :=
  if s0.pie.stress ≠ 2 then s0
  else
    let f := s0.free
    let s := f.2
    let last := f.1.toNat % 2 ^ 8
    let top := if last < s.pie.stressTemp then s.pie.stressTemp else last
    let bad := decide (0 < s.pie.stressFails) || decide (top < fld s.pie.stressCmd 16 8)
    let s1 := ({ s with pie := { s.pie with stress := if bad then 4 else 3, stressTemp := top }, pwr := { s.pwr with stress := false } }).setInt pgPIE 7
    if bad then s1.suspect 4 else s1

/-- Whether the pier of the current span carries a replica check (R360, R389). -/
def State.replicaPier (s : State) : Bool :=
  (s.curDesc.map (·.replica)).getD false || (s.isStepSpan && decide (0 < s.buddy.probation))

/-- An engine's digests restarted after a replica pier (R359). -/
def UpdPos.restartDigests (p : UpdPos) : UpdPos := 
  { p with
    digest := 0, windows := [], winBytes := [], commits := 0, log := []
    lastWindows := p.windows, lastLog := p.log }

/-- An engine at a seal: its position becomes its pier copy, its undo area is empty (R321, R341). -/
def UpdEngine.sealed (replica : Bool) (e : UpdEngine) : UpdEngine :=
  let p := if replica then e.pos.restartDigests else e.pos
  { e with pos := p, copy := p, undo := [], subst := [] }

/-- The buddy's histories after a record with ADVANCED tensors is promoted (R371). -/
def buddyAdvance (rec_ : List Byte) (m : Store (List (Nat × Int))) : Store (List (Nat × Int)) :=
  (upTo 4096).foldl (fun a t =>
    let o := 0xA0100 + 24 * t
    if bitAt (leAt rec_ (o + 18) 1) 0 then
      Store.insert a t (((leAt rec_ (o + 8) 6, sext 16 (leAt rec_ (o + 14) 2)) :: Store.get (List.replicate 16 (0, -256)) a t).take 16)
    else a) m

/-- Extent of the Y axis (VDT_EXTENT). -/
def State.extentY (s : State) : Nat := fld (s.reg pgVDT 0x4C) 16 7

/-- The buddy store at a seal: the device's own record, and the Y− neighbour's where it came whole and intact; else the
device is BEHIND (R371, R373). -/
def State.buddySeal (s : State) : State :=
  let b := s.buddy
  let own := match b.ownPending with
    | some r => r
    | none => s.pierRecord
  let got := Store.getRun 0#8 b.buddyPending 0 pierBytes
  let b1 := { b with ownSealed := some own, ownPending := none, buddyPending := [], buddyGot := 0 }
  let b2 :=
    if s.extentY < 2 then b1
    else if b.buddyGot = pierBytes ∧ pierCrcOk got = true then
      { b1 with buddySealed := some got, behind := false, buddyHist := buddyAdvance got b.buddyHist }
    else { b1 with behind := true }
  { s with buddy := b2 }

/-- Entries that the agreed list has met leave the pending list; an END raised where the list parks stays (R400). -/
def keepEntries (agreed entries : Store Nat) : Store Nat :=
  entries.filter (fun p => Store.get 0 agreed p.1 == 0 || (Store.get 0 agreed p.1 == 2 && p.2 == 1))

/-- The agreed close list takes effect (R400). -/
def State.closeSeal (s : State) (t : Nat) : State :=
  let l := s.ctx.merged
  let s1 := s.applyClose l t
  { s1 with ctx := { s1.ctx with entries := keepEntries l s1.ctx.entries, merged := [] } }

/-- Every value that a rewind returns to, taken at a seal (R138, R311, R353, R399). -/
def State.takeCopies (s : State) (replica : Bool) : State :=
  { s with
    cores := Store.mapVals (fun _ k => { k with
      threads := Store.mapVals (fun _ x => { x with rewind := some (x.pierCopy.getD x.a) }) k.threads
      undo := k.undo.cleared }) s.cores
    train := { s.train with
      stepCopy := s.train.step, skipCopy := s.train.skip
      amax := Store.mapVals (fun _ a => { a with curCopy := a.cur }) s.train.amax
      engines := Store.mapVals (fun _ e => e.sealed replica) s.train.engines }
    ctx := { s.ctx with
      entriesCopy := s.ctx.entries
      keys := Store.mapVals (fun _ k => { k with sealedValue := k.value, sealedPhase := k.phase }) s.ctx.keys } }

/-- The pier of the current span seals, up to what follows it (R345). -/
def State.seal (s : State) : State :=
  let v := s.agreedVector
  let isStep := s.isStepSpan
  let replica := s.replicaPier
  let s1 := s.stressPier.buddySeal
  let s2 := s1.sealStep
  let s3 := if isStep && v != 0 then (upTo 8).foldl (fun a e => a.setInt (pgUPD e) 1) s2 else s2
  let s4 := (s3.seepSeal (if isStep then some (s.train.step, v) else none)).seepGapEnd
  let s5 := (s4.closeSeal (s.pierFirst + 2048)).quotaCheck
  let s6 := (s5.mem.sump.foldl (fun a e => a.sumpCloseEntry e) s5).takeCopies replica
  let s7 := ({ s6 with
    pie := { s6.pie with replays := 0, words := s6.pie.words.filter (fun w => w.span != s.sch.seq % 256) }
    sch := { s6.sch with phase := if s6.sch.phase == Phase.test then Phase.test else .normal }
    pwr := { s6.pwr with imagePoint := s6.pwr.due.getD s6.pwr.imagePoint, due := none }
    rst := { s6.rst with wdPart := 0 }
    buddy := { s6.buddy with probation := if isStep then s6.buddy.probation - 1 else s6.buddy.probation }
    ctx := { s6.ctx with zeroed := (0, 0) }
    trace := { s6.trace with drained := 0 } }).cnt pgSCH 0x80 1
  s7.windowSeal

/-- The PIER record of a pier frame's end: 1 sealed, 2 not sealed (R487). -/
def State.trcPier (s : State) (how : Nat) : State :=
  s.trc 6 (traceSource pgPIE) none (leBytes 8 s.sch.seq ++ [BitVec.ofNat 8 how, BitVec.ofNat 8 s.pwr.point,
    BitVec.ofNat 8 (b2n s.isStepSpan + 2 * b2n s.replicaPier)])

/-- A pier that holds a schedule STOP for its span: STOPPED without sealing (R510). -/
def State.stopAtPier (s : State) : State :=
  ({ s with
    sch := { s.sch with seq := s.sch.seq - 1, place := .none }
    train := { s.train with skip := s.train.skipCopy, skipAcc := 0, seepHeld := [] }
    ctx := { s.ctx with entries := s.ctx.entriesCopy, merged := [] }
    buddy := { s.buddy with ownPending := none, buddyPending := [], buddyGot := 0 } }).setJob .stopped

/-- Parked at the last sealed pier (R29, R187). -/
def State.park (s : State) : State :=
  (({ s with
    sch := { s.sch with parkReq := false, place := .none }
    pie := { s.pie with words := [], agreed := none, restored := false, withdraw := none } }).stressEnd).setJob .parked

/-- Whether the image's passes have all sealed (R187). -/
def State.repeatDone (s : State) : Bool :=
  s.img.repeat_ != 0 && decide (s.img.repeat_ * s.img.spans.length ≤ s.sch.seq)

end Sys2Proof.Machine
end

