-- ==== Sys2Proof/Machine/Rewind.lean ====
section
/-! DEFINITION. Rewinds (R349 to R355), withdrawals (R380 to R382) and STOP words (R234, R510): how a device takes an alarm
word, returns to the last sealed pier and replays. -/

namespace Sys2Proof.Machine

open Sys2Proof

/-- The tick nearest the device's own count with the 24 frame bits of a REWIND word (R349). -/
def State.frameNear (s : State) (bits : Nat) : Nat :=
  let f := s.tick / 2048
  let m := 2 ^ 24
  let up := f - f % m + bits % m
  -- candidates one period below, here and above, compared in ticks
  let dist := fun (x : Nat) => if x * 2048 < s.tick then s.tick - x * 2048 else x * 2048 - s.tick
  let low := if m ≤ up then up - m else up
  let best := if dist low < dist up then low else up
  (if dist (up + m) < dist best then up + m else best) * 2048

/-- A REWIND word (R349). -/
def rewindWord (origin tick span : Nat) : Nat := alarmWord 1 origin (tick / 2048 % 2 ^ 24 * 2 ^ 8 + span % 256)

/-- The words held that name a span, and the largest proposal among them (R351). -/
def PieState.wordsFor (p : PieState) (span : Nat) : List RewindWord := p.words.filter (fun w => w.span == span % 256)

/-- The word with the largest proposal; the earlier of equals. -/
def largestWord (l : List RewindWord) : Option RewindWord :=
  l.foldl (fun b w => match b with
    | none => some w
    | some x => if x.tick < w.tick then some w else some x) none

/-- The agreed rewind tick for the target brought up to date from the words held (R351). -/
def State.agree (s : State) : State :=
  match largestWord (s.pie.wordsFor s.pie.target) with
  | none => s
  | some w => { s with pie := { s.pie with agreed := some w.tick, lastRtick := w.tick
                                           lastRec := w.origin * 2 ^ 16 + s.pie.target % 256 } }

/-- A thread restored to its rewind point: one FAULTED there is FAULTED, unless its context has ended (R119, R138). -/
def Thread.toRewind (x : Thread) : Thread :=
  let r := x.rewind.getD {}
  let a := if x.ended then { r with st := .inactive } else r
  { x with a := a, held := none, pcnt := 0, sum0 := 0, sum1 := 0, sum2 := 0, sum3 := 0, digest := 0, ctx := none
           lastIfs := none, lastSum := none, emitted := 0, home := if a.st == .faulted then x.home else none, ecc := [] }

/-- Threads, units and everything else that returns to the last sealed pier at once (R353). -/
def State.toPier (s : State) : State :=
  { s with
    cores := Store.mapVals (fun _ k => { k.clearUnits with
      clocked := true, wakeAt := none
      threads := Store.mapVals (fun _ x => x.toRewind) k.threads }) s.cores
    mesh := []
    colPend := []
    train := { s.train with
      step := s.train.stepCopy, skip := s.train.skipCopy, skipAcc := 0, seepHeld := []
      amax := Store.mapVals (fun _ a => { a with cur := a.curCopy }) s.train.amax
      engines := Store.mapVals (fun _ e => { e with pos := e.copy, cur := none, ahead := [], tail := [], u := [], p := [] }) s.train.engines }
    ctx := { s.ctx with
      entries := s.ctx.entriesCopy, merged := []
      keys := Store.mapVals (fun _ k => { k with value := k.sealedValue, phase := k.sealedPhase }) s.ctx.keys }
    mem := s.sumpDrop.mem
    buddy := { s.buddy with ownPending := none, buddyPending := [], buddyGot := 0 }
    pie := s.pie.startSpan }

/-- A rewind begins, to replay span `target` (R352): the device stops every unit and returns to the pier. A fault detected before the
word came and not yet raised may still propose (R348, R351), but one of a V/F switch that this rewind takes back goes with it, as the switch
itself does (R204); a STOP word for the span is discarded (R510). `count` says that a REWIND word caused it (R354). -/
def State.enterRewind (s : State) (target : Nat) (count : Bool) : State :=
  let inPier := s.sch.place == .pier
  let undone := inPier && target == s.sch.seq
  let s1 := ((if inPier then s.trcPier 2 else s).toPier).setJob .rewinding
  let s2 := { s1 with
    pie := { s1.pie with target := target, restored := false, agreed := none, deferred := []
                         raises := (s1.pie.raises.filter (fun (r : Raise) => !(undone && r.next))).map (fun (r : Raise) => { r with second := true })
                         replays := if count then s1.pie.replays + 1 else s1.pie.replays }
    sch := { s1.sch with stops := s1.sch.stops.filter (fun n => n != target % 256) }
    pwr := if undone then { s1.pwr with due := none, failed := none } else s1.pwr }
  (if undone && s1.pwr.due.isSome then s2.setPoint s1.pwr.imagePoint else s2).agree

/-- Largest number of rewinds to one pier: 0 acts as 1 (R354, R367). -/
def State.replayMax (s : State) : Nat := if fld (s.reg pgPIE 0x40) 0 4 = 0 then 1 else fld (s.reg pgPIE 0x40) 0 4

/-- Whether a WITHDRAW for span `n` is held (R382). -/
def PieState.withdrawFor (p : PieState) (n : Nat) : Bool :=
  match p.withdraw with
  | some arg => fld arg 8 8 == n % 256
  | none => false

/-- A device that has restored and holds a WITHDRAW for the span it would replay parks at the last sealed pier (R382). -/
def State.parkRestored (s : State) : State :=
  if s.sch.job == .rewinding && s.pie.restored && s.pie.withdrawFor s.pie.target then
    ({ s with sch := { s.sch with seq := s.pie.target - 1 } }).park
  else s

/-- A WITHDRAW word held: one for the span at hand abandons it; one for the span after it lets this one seal and parks there (R382). -/
def State.takeWithdraw (s0 : State) (arg : Nat) : State :=
  let n := fld arg 8 8
  let s := s0.wakeReason 6
  let held := { s with pie := { s.pie with withdraw := some arg } }
  match s.sch.job with
  | .rewinding =>
    if n == s.pie.target % 256 then held.parkRestored
    else if n == (s.pie.target + 1) % 256 && !s.pie.withdrawFor s.pie.target then held else s
  | .running =>
    let cur := s.sch.place == .span || s.sch.place == .pier
    if cur && n == s.sch.seq % 256 then held.enterRewind s.sch.seq false
    else if n == (s.sch.seq + 1) % 256 then
      if s.sch.place == .none then held.park else held
    else s
  | _ => s

/-- The span an event of this device's own belongs to (R380). -/
def State.eventSpan (s : State) : Nat := if s.sch.job == .rewinding then s.pie.target else s.faultSpan

/-- A WITHDRAW raised by this device (R380, R381). -/
def State.raiseWithdraw (s : State) (reason subject : Nat) : State :=
  let arg := reason + s.eventSpan % 256 * 2 ^ 8 + subject * 2 ^ 16
  let w := alarmWord 2 s.devId arg
  if s.knowsAlarm w then s else (s.floodAlarm w none).takeWithdraw arg

/-- An origin of the rewind whose count passes REPLAY_MAX withdraws instead of taking part (R354). -/
def State.replayLimit (s : State) : State :=
  if s.replayMax < s.pie.replays && (s.pie.wordsFor s.pie.target).any (fun w => w.origin == s.devId) && !s.pie.withdrawFor s.pie.target then
    (((s.pieErr 0 7 0 s.devId).setInt pgPIE 2).suspect 5).raiseWithdraw 2 s.devId
  else s

/-- A REWIND word held (R349, R351, R352). -/
def State.takeRewind (s : State) (origin arg : Nat) : State :=
  let span := arg % 256
  let w : RewindWord := ⟨origin, s.frameNear (arg / 256), span⟩
  let held := { s with pie := { s.pie with words := s.pie.words ++ [w] } }
  let ignored := s.cnt pgPIE 0x8C 1
  match s.sch.job with
  | .rewinding =>
    if span ≠ s.pie.target % 256 then ignored
    else if s.pie.withdrawFor s.pie.target then s
    else (held.agree).replayLimit
  | .running =>
    match s.sch.place with
    | .span => if span = s.sch.seq % 256 then (held.enterRewind s.sch.seq true).replayLimit else ignored
    | .pier =>
      if span = s.sch.seq % 256 then (held.enterRewind s.sch.seq true).replayLimit
      else if span = (s.sch.seq + 1) % 256 then held else ignored
    | .pier0 => if span = (s.sch.seq + 1) % 256 then held else ignored
    | .none => if span = (s.sch.seq + 1) % 256 then (held.enterRewind (s.sch.seq + 1) true).replayLimit else ignored
  | _ => ignored

/-- A STOP word (R29, R234, R510): with bit 8 clear the job stops at once; with bit 8 set it waits for the pier of its span, the
current one or the next. A parked device stands at the pier of its last span (log 61). -/
def State.takeStop (s : State) (arg : Nat) : State :=
  if bitAt arg 8 then
    let n := arg % 256
    let inSpan := s.sch.job == .running && (s.sch.place == .span || s.sch.place == .pier)
    if s.sch.job == .parked && n == s.sch.seq % 256 then s.setJob .stopped
    else if s.holdsStops && (n == (s.sch.seq + 1) % 256 || (inSpan && n == s.sch.seq % 256)) then s.holdStop n
    else s
  else match s.sch.job with
    | .running => s.setJob .stopped
    | .parked => s.setJob .stopped
    | .rewinding => s.setJob .stopped
    | _ => s

/-- An alarm word acted on (R234). -/
def State.takeAlarm (s : State) (w : Nat) : State :=
  let arg := fld w 32 32
  match fld w 0 4 with
  | 1 => s.takeRewind (fld w 4 16) arg
  | 2 => s.takeWithdraw arg
  | 3 => s.takeStop arg
  | _ => s

/-- A STOP raised by this device that acts at once (R234). -/
def State.raiseStop (s : State) : State := (s.raiseAlarm (alarmWord 3 s.devId 0)).takeStop 0

/-- The earliest tick that a device may propose while the failover of a lost comb runs (R278, R350). -/
def State.combFloor (s : State) : Nat :=
  match s.opt.failover with
  | some f => if f.loss then f.since + 16000 + s.flood + 64 else 0
  | none => 0

/-- The proposal of a raise at the present tick (R350). -/
def State.proposal (s : State) (floor : Nat) : Nat :=
  let t := s.tick + 1000 + s.flood + s.img.retain.restore
  let t1 := if t < floor then floor else t
  ceilDiv (if t1 < s.combFloor then s.combFloor else t1) 2048 * 2048

/-- A REWIND word of this device raised for span `n`, flooded and taken (R349, R350). -/
def State.raiseRewind (s : State) (n floor : Nat) : State :=
  let w := rewindWord s.devId (s.proposal floor) n
  let s1 := { s with pie := s.pie.count 1 0 0 }
  let s2 := (if s1.pie.stress = 2 then s1.stressFail else s1).checkWindow
  let s3 := (s2.cnt pgPIE 0x80 1).setInt pgPIE 0
  if s3.knowsAlarm w then s3 else (s3.floodAlarm w none).takeAlarm w

/-- A mismatch of the seal unit's two copies, if one shows itself: a hardware fault with cause 0x2 (R348, R366; log 56). -/
def State.sealCompare (s : State) : State :=
  match s.takeSlip pgPIE with
  | (none, _) => s
  | (some _, s1) => (s1.pieErr 1 2 0 s.devId).raiseHw

/-! What a restore does (R339 to R341). -/

/-- A device memory record applied: bytes and, where the record has one, the sidecar. -/
def State.restoreRec (s : State) (r : DevRec) : State :=
  let s1 := s.memPoke r.capacity r.addr r.data
  match r.side, s.mem.slot r.capacity r.addr r.data.length with
  | [], _ => s1
  | side, some n => s1.sidePoke r.capacity n side
  | _, none => s1

/-- The order in which records are applied: descending commit tick, then the reverse of R291's precedence. -/
def DevRec.rank (r : DevRec) : Nat := r.tick * 2 ^ 16 + r.order

/-- A record put into a list of descending rank, after its equals: of one device's equal ranks the later record comes first. -/
def recInsert (r : DevRec) : List DevRec → List DevRec
  | [] => [r]
  | x :: l => if x.rank ≤ r.rank then r :: x :: l else x :: recInsert r l

/-- The records of the device in the order of their application. -/
def State.undoRecords (s : State) : List DevRec :=
  (s.cores.flatMap (fun p => p.2.undo.devs) ++
    s.train.engines.flatMap (fun p => p.2.undo.filter (fun r => !r.capacity))).foldl (fun l r => recInsert r l) []

/-- A core's line records applied (R339). -/
def Core.restoreLines (k : Core) : Core := k.undo.lines.foldl (fun a r => a.poke (r.1 * 64) r.2) k

/-- An engine after a restore: the old contents of its capacity outputs stand in for capacity memory (R341). The first record
of an address holds what stood there at the pier. -/
def UpdEngine.restored (e : UpdEngine) : UpdEngine :=
  let caps := e.undo.filter (·.capacity)
  { e with undo := [], subst := e.subst ++ caps.filter (fun r => !(e.subst.any (fun x => x.addr == r.addr))) }

/-- Every undo log and undo area emptied after a restore. -/
def State.undoDone (s : State) : State :=
  { s with
    cores := Store.mapVals (fun _ k => { k with undo := k.undo.cleared }) s.cores
    train := { s.train with engines := Store.mapVals (fun _ e => e.restored) s.train.engines } }

/-- Restore completes: every retained range and every location the update unit wrote is as at the last sealed pier (R336,
R352). -/
def State.restoreAll (s : State) : State :=
  let s1 := { s with cores := Store.mapVals (fun _ k => k.restoreLines) s.cores }
  (s1.undoRecords.foldl (fun a r => a.restoreRec r) s1).undoDone

/-- A restore that meets an uncorrectable error: which records were applied is left open (R355; log 6). -/
def State.restoreSome (s : State) : State :=
  let lines := s.cores.flatMap (fun p => p.2.undo.lines.map (fun r => (p.1, r)))
  let s1 := lines.foldl (fun a x =>
    let f := a.free
    if f.1.toNat % 2 = 1 then f.2.modCore x.1 (fun k => k.poke (x.2.1 * 64) x.2.2) else f.2) s
  (s1.undoRecords.foldl (fun a r =>
    let f := a.free
    if f.1.toNat % 2 = 1 then f.2.restoreRec r else f.2) s1).undoDone

/-- The Viaduct at the rewind tick (R240). -/
def VdtState.rewound (v : VdtState) : VdtState :=
  { v with epoch := (v.epoch + 1) % 4, abuf := [], credit := []
           inject := [], reorder := [], runs := []
           ports := Store.mapVals (fun _ p => { p with fifo := [], xfer := [] }) v.ports }

/-- The retry buffers of a port emptied at a rewind; half-slot numbering, locks, weights and matrices go on (R280). -/
def OptPort.rewound (o : OptPort) : OptPort := { o with sentHalf := [], nacked := [], resend := [], failed := [], nackDue := [] }

/-- What follows a seal, or the end of pier 0 or of a resume frame: the next span is due, unless the device parks or rewinds
to this pier (R29, R187, R349, R382). -/
def State.afterSeal (s : State) : State :=
  let s1 := { s with sch := { s.sch with place := .none, first := s.pierFirst + 2048 } }
  if s1.pie.withdraw.isSome then s1.park
  else if !(s1.pie.wordsFor (s1.sch.seq + 1)).isEmpty then (s1.enterRewind (s1.sch.seq + 1) true).replayLimit
  else if s1.sch.parkReq || s1.repeatDone then s1.park
  else s1

end Sys2Proof.Machine
end

