-- ==== Sys2Proof/Machine/SchedOps.lean ====
section
/-! DEFINITION. What the schedule's commands share: refusals of SCH_CMD (R212), the checks of a start tick (R30, R198), what an
image that has passed its checks sets (R186, R240, R293, R310, R394, R408), pier 0 (R31), wake entries (R201 to R203) and the
V/F steps of a pier frame (R204, R455, R456). -/

namespace Sys2Proof.Machine

open Sys2Proof

/-- A SCH_CMD refused (R212). -/
def State.schRefuse (s : State) (code : Nat) : State := ({ s with sch := { s.sch with refuse := code } }).setInt pgSCH 2

/-- SCH_ARG. -/
def State.schArg (s : State) : Nat := s.reg64 pgSCH 0x48

/-- The refusal of ARM or RESUME in its job state, if any: the lowest code (R30, R198). -/
def State.startRefusal (s : State) (t : Nat) : Option Nat :=
  if t < s.tick + 1000000 then some 2
  else if t % 2048 ≠ 0 then some 3
  else if s.tck.state ≠ .aligned ∧ s.tck.state ≠ .root then some 4
  else none

/-- A stress test that is armed runs from the accepted ARM on (R365). -/
def State.stressStart (s : State) : State :=
  if s.pie.stress = 1 then
    { s with pie := { s.pie with stress := 2, stressFails := 0, stressTemp := 0 }
             pwr := { s.pwr with stress := true } }
  else s

/-! What a load writes. -/

/-- Check enables of a page type that loading an image sets again (R9 and the pages' own rules). -/
def enableBits : Nat → Nat
  | 0x8 => 1 | 0x9 => 3 | 0xA => 3 | 0xB => 1 | 0xC => 1 | 0xF => 1 | 0x16 => 3 | _ => 0

/-- `v` with every bit of `mask` set, for masks 0, 1 and 3. -/
def withBits (v mask : Nat) : Nat :=
  let a := if bitAt mask 0 then setBit v 0 else v
  if bitAt mask 1 then setBit a 1 else a

/-- The check enables set to 1 on every page that has them. -/
def State.enableChecks (s : State) : State :=
  (s.regs.filter (fun p => p.1 % 0x1000 == 0x40 && enableBits (pageType (p.1 / 0x1000)) != 0)).foldl
    (fun a p => a.wr p.1 (withBits (a.rd p.1) (enableBits (pageType (p.1 / 0x1000))))) s

/-- A tracked tensor as a load leaves it (R308, R310). -/
def amaxOf (b : List Byte) : Amax :=
  let w := leNat b
  { fmt := amFmt w, drop := amDrop w, depth := amDepth w, skipAll := amSkipAll w, ctx := amCtx w
    hist := List.replicate 16 (0, -256) }

/-- The threads as a load leaves them, with their progress windows (R119, R134). -/
def State.loadThreads (s : State) : State :=
  let s1 := { s with cores := Store.mapVals (fun _ k => { k with threads := [] }) s.cores }
  s1.img.threads.foldl (fun a p => a.setThread (p.1 / 16) (p.1 % 16) { pwin := p.2.2 }) s1

/-- Keystones as a load leaves them, with their owners' usage (R397, R408). -/
def State.loadKeys (s : State) : State :=
  let s1 := { s with ctx := { s.ctx with keys := [] } }
  s1.img.keys.foldl (fun a w =>
    let k := keyOfEntry w
    let x := a.ctxOf k.owner
    (a.setKey (fld w 0 14) k).setCtx k.owner { x with keyUse := x.keyUse + 1 }) s1

/-- The training state as a load leaves it (R307, R310, R312). -/
def State.loadTrain (s : State) : State :=
  { s with train := { s.train with
      step := 1, stepCopy := 1, skip := 0, skipCopy := 0, skipAcc := 0, agreed := [], engines := [], keptAmax := []
      amax := s.img.amax.foldl (fun m b => Store.insert m (amTensor (leNat b)) (amaxOf b)) [] } }

/-- The tables, contexts and everything else that an image which passed its checks sets (R186). -/
def State.install (s : State) : State :=
  let m := s.img
  let s1 := m.ctxs.foldl (fun a r => a.openCtx r) (s.loadThreads)
  let s2 := m.grants.foldl (fun a g =>
    a.loadGrant g (if g.all then (upTo 256).filter a.corePresent else [g.core])) s1
  let s3 := (s2.loadKeys.loadTrain).enableChecks
  { s3 with
    vdt := { s3.vdt with
      slots := m.slots, epoch := 0, slotErrSpan := none, slotErr := false
      routes := m.routes.foldl (fun t w => Store.insert t (w % 2 ^ 16) w) [], allow := leAt m.routesHead 0 2 }
    mem := { s3.mem with relaxed := !m.strict && bitAt (s3.reg pgSMP 0x40) 0 }
    sch := { s3.sch with load := none, seq := 0, adopted := false, stops := [], parkReq := false, resume := false
                         place := .none, p0Sealed := false }
    pie := { s3.pie with words := [], agreed := none, replays := 0, withdraw := none }
    rst := { s3.rst with coreWdSpan := [] } }

/-- A load that has ended in IDLE with its failure (R185, R212). -/
def State.loadFail (s : State) (e : LoadErr) : State :=
  let ent := if 0xFFFE < e.2.2 then 0xFFFF else e.2.2
  ((({ s with sch := { s.sch with load := none, loadErr := e.1 + e.2.1 * 2 ^ 8 + ent * 2 ^ 16 } }).setJob .idle)).setInt pgSCH 3

/-- The end of a load of `len` bytes staged at `addr` (R185, R186). -/
def State.loadEnd (s : State) (addr len : Nat) : State :=
  let r := State.rawGranules (len / 32 + 1) s addr (addr + len)
  let raw := match r.2 with
    | .ok _ => true
    | .error _ => false
  let b := r.1.memBytes false addr len
  match r.1.loadCheck b len raw with
  | some e => r.1.loadFail e
  | none => ((r.1.placeImage b).install).setJob .loaded

/-! Pier 0 (R31). -/

/-- The reason a device's report fails pier 0, if it does (R31, R205, R212). -/
def State.p0Reason (s : State) (r : PierReport) : Option Nat :=
  if r.missing then some 1
  else if !r.running then some 2
  else if r.s ≠ s.sch.start then some 3
  else if r.digest ≠ s.img.digest then some 4
  else if r.strict ≠ s.img.strict then some 5
  else none

/-- The lowest device at fault with its reason (R212; log 33). -/
def State.p0Fault (s : State) (l : List PierReport) : Option (Nat × Nat) :=
  l.foldl (fun b r =>
    match s.p0Reason r, b with
    | none, _ => b
    | some x, none => some (r.dev, x)
    | some x, some (d, y) => if r.dev < d ∨ (r.dev = d ∧ x < y) then some (r.dev, x) else b) none

/-- Pier 0, or a resume frame, seals (R31, R33). -/
def State.sealStart (s : State) : State :=
  let s1 := { s with
    cores := Store.mapVals (fun _ k => { k with threads := Store.mapVals (fun _ x => { x with pierCopy := none }) k.threads }) s.cores }
  let s2 := (s1.quotaCheck).takeCopies false
  let s3 := { s2 with
    sch := { s2.sch with p0Sealed := true, adopted := false, p0Err := 0
                         phase := if s2.sch.phase == Phase.test then Phase.test else .normal }
    pie := { s2.pie with replays := 0 }
    pwr := { s2.pwr with due := none }
    rst := { s2.rst with wdPart := 0 }
    ctx := { s2.ctx with zeroed := (0, 0) }
    trace := { s2.trace with drained := 0 } }
  ((s3.cnt pgSCH 0x80 1).windowSeal).afterSeal

/-- Pier 0 fails: back to LOADED with the reason (R31). -/
def State.failStart (s : State) (dev reason : Nat) : State :=
  ((({ s with sch := { s.sch with p0Err := dev * 2 ^ 16 + reason, place := .none, resume := false }
              pie := { s.pie with words := [], withdraw := none } }).setJob .loaded)).setInt pgSCH 4

/-! V/F points. -/

/-- A raise whose voltage was not in band: not switched, and a hardware fault whose word names the next span (R456). -/
def State.vfFail (s : State) (p : Nat) : State :=
  (((({ s with pwr := { s.pwr with failed := some p } }).logErr pgPWR (1 * 2 ^ 28 + 1 * 2 ^ 24 + p * 2 ^ 17) 0 0).setInt pgPWR 4)).raiseWith
    { tick := s.tick, next := true }

/-! Wake entries (R201 to R203). -/

/-- The wake entries of a core in the current span, each with its index in the section. -/
def State.wakeOf (s : State) (c : Nat) : List (Nat × Nat) :=
  match s.curDesc with
  | none => []
  | some d => ((upTo d.wakeCount).map (fun i => (d.wakeFirst + i, s.img.wake.getD (d.wakeFirst + i) 0))).filter
      (fun p => fld p.2 0 8 == c)

def weWake (w : Nat) : Bool := bitAt w 8
def weSlot (w : Nat) : Nat := fld w 9 10

/-- First tick of a GATE's slot, and the tick at which a WAKE fires (R202). -/
def State.gateTick (s : State) (w : Nat) : Nat := s.sch.first + 32 * weSlot w
def State.wakeTick (s : State) (w : Nat) : Nat := s.sch.first + (32 * weSlot w - 64)

/-- Whether a thread lets its core's clocks stop: INACTIVE, DONE, or waiting on WAITT or a keystone (R203). -/
def Thread.gateOk (x : Thread) : Bool :=
  match x.a.st with
  | .inactive => true
  | .done => true
  | .wait => (match x.held with
    | some h => h.reason == 5 || h.reason == 6
    | none => false)
  | _ => false

/-- Whether a core is idle in the sense of R203. -/
def Core.gateOk (k : Core) : Bool :=
  k.threads.all (fun p => p.2.gateOk) && k.arr.loadQ.isEmpty && k.arr.streamQ.isEmpty && k.arr.runs.isEmpty &&
    k.fls.queue.isEmpty && k.fls.runs.isEmpty && k.dma.streams.all (fun p => p.2.isEmpty) && k.dma.walks.isEmpty

/-- ERR_LOG1 of the SCH page: the span's descriptor and the frame within the span (R212). -/
def State.schPos (s : State) : Nat := s.descIndex + (s.tick - s.sch.first) / 2048 % 16 * 2 ^ 12

/-- The duplicated span sequencer (`who` 0) or core `who - 1`'s wake comparator compared as it acts: a mismatch is a hardware fault
(R212 causes 0x1 and 0x2; log 56). `idx` is the wake entry's index. -/
def State.schAgrees (s : State) (who idx : Nat) : State :=
  if Store.find s.slips pgSCH = some who then
    (({ s with slips := Store.erase s.slips pgSCH }).logErr pgSCH
      (2 ^ 28 + (if who = 0 then 2 ^ 24 else 2 * 2 ^ 24 + (who - 1) * 2 ^ 16)) s.schPos idx).raiseHw
  else s

/-- Whether wake entries act: in the frames of a span, its quiet tail among them (R202, R345). -/
def State.inFrames (s : State) : Bool :=
  s.inSpan || (s.sch.job == .running && s.sch.place == .pier && decide (s.tick < s.pierFirst))

/-- A GATE at its slot (R203); past the end of the span's work the pier frame wakes the core again (R202). -/
def State.gateAt (s : State) (c idx : Nat) : State :=
  if (s.core c).gateOk then s.modCore c (fun k => { k with clocked := false, wakeAt := if s.inSpan then none else some s.pierFirst })
  else (s.logErr pgSCH (3 * 2 ^ 28 + 3 * 2 ^ 24 + c * 2 ^ 16) s.schPos idx).raiseSched

/-- The wake comparator of a core fires for the WAKE entry `w`: a gated core's first core cycle falls on the first tick of the entry's
slot (R202; log 62). -/
def State.wakeFires (s : State) (c w : Nat) : State :=
  let s1 := (elapseTo (s.wakeTick w) s).cnt pgSCH 0x88 1
  let t := s.gateTick w
  s1.modCore c (fun k =>
    if k.clocked then k else if t ≤ s1.tick then { k with clocked := true, wakeAt := none } else { k with wakeAt := some t })

end Sys2Proof.Machine
end

