-- ==== Sys2Proof/Machine/Alarm.lean ====
section
/-! DEFINITION. Alarm words as they arrive (R234, R235), the seal unit's raises and the replay (R348 to R355), and patches of
the fabric (R236 to R238). -/

namespace Sys2Proof.Machine

open Sys2Proof

/-- The first copy of an alarm word whose CRC-8 verifies (R234). -/
def goodCopy (w : AlarmCopies) : Option Nat :=
  let ok := fun (v : BitVec 64) (c : BitVec 8) => crc8 (leBytes 8 v.toNat) == c.toNat
  if ok w.word w.crc then some w.word.toNat else if ok w.again w.crcAgain then some w.again.toNat else none

/-- A distinct alarm word that came on a port in partition: counted, flooded onward and acted on; one of a reserved TYPE has no effect
(R234, R235). -/
def State.alarmArrives (s : State) (p v : Nat) : State :=
  if !s.inPart p || fld v 0 4 == 0 || decide (4 ≤ fld v 0 4) || s.knowsAlarm v then s
  else (((s.cnt pgVDT 0xAC 1).setInt pgVDT 1).floodAlarm v (some p)).takeAlarm v

/-- ALARM_RECEIVE (R234, R235): the word is that of its first good copy; one with none is lost. -/
def execAlarmReceive (p : Fin 20) (w : AlarmCopies) (s : State) : Host.Outcome State Fault Refusal :=
  .next (match goodCopy w with
    | some v => s.alarmArrives p v
    | none => s)

/-- A raise held to the agreed tick, as it was handed over (R351). -/
def State.deferRaise (s : State) (r : Raise) : State :=
  ({ s with pie := { s.pie with raises := s.pie.raises.erase r, deferred := s.pie.deferred ++ [r] } }).cnt pgPIE 0x88 1

/-- A raise made while REWINDING: one that may propose does while the flood can still reach every device; any other is held (R350,
R351, R355). -/
def State.raiseAgain (s : State) (target : Nat) : State :=
  let late := match s.pie.agreed with
    | none => false
    | some r => decide (r < s.tick + s.flood + 64)
  match s.pie.raises.find? (·.second) with
  | some r =>
    if late then s.deferRaise r
    else ({ s with pie := { s.pie with raises := s.pie.raises.erase r } }).raiseRewind target r.floor
  | none => match s.pie.raises with
    | [] => s
    | r :: _ => s.deferRaise r

/-- REWIND_RAISE (R348 to R351, R456). -/
def execRewindRaise (s : State) : Host.Outcome State Fault Refusal :=
  .next (match s.sch.job, s.pie.raises with
    | .running, r :: rest =>
      let n := if r.next && s.sch.place == .pier then s.sch.seq + 1 else s.faultSpan
      ({ s with pie := { s.pie with raises := rest } }).raiseRewind n r.floor
    | .rewinding, _ => s.raiseAgain s.pie.target
    | _, _ => s)

/-- RESTORE_DONE (R352, R355, R382). -/
def execRestoreDone (ok : Bool) (s : State) : Host.Outcome State Fault Refusal :=
  .next (
    if s.sch.job ≠ .rewinding ∨ s.pie.restored = true then s
    else if ok then
      let s1 := s.restoreAll
      ({ s1 with pie := { s1.pie with restored := true } }).parkRestored
    else
      let s1 := s.restoreSome.pieErr 1 3 0 s.devId
      (({ s1 with pie := { s1.pie with restored := true } }).raiseWithdraw 3 s.devId).parkRestored)

/-- What the abandoned span leaves is gone at the rewind tick: its traffic and its words. The raises held fall due now, and those not yet
made with them, each on its own and with the floor it has (R240, R351, R381). The STOP word of a schedule fault of the span is discarded, so the word of one that recurs in the replay is a new
one (R36, R510; log 61). -/
def State.dropAbandoned (s : State) : State :=
  let stop := fun (w : Nat) => fld w 0 4 == 3 && bitAt w 40 && fld w 32 8 == s.pie.target % 256
  let v := s.vdt.rewound
  { s with
    vdt := { v with alarms := v.alarms.filter (fun a => !stop a.word) }
    opt := { s.opt with ports := Store.mapVals (fun _ o => o.rewound) s.opt.ports }
    pie := { s.pie with
      words := s.pie.words.filter (fun w => w.span != s.pie.target % 256), agreed := none, restored := false, deferred := []
      raises := (s.pie.deferred ++ s.pie.raises).map (fun (r : Raise) => { tick := s.tick, floor := r.floor }) } }

/-- The job runs again, at the last sealed pier's point (R352, R456, R487). -/
def State.replayJob (s : State) (r : Nat) : State :=
  ((((s.trc 7 (traceSource pgPIE) none (leBytes 8 r ++ leBytes 2 (s.pie.lastRec / 2 ^ 16) ++
    [BitVec.ofNat 8 s.pie.replays])).setPoint s.pwr.imagePoint).setJob .running).cnt pgPIE 0x84 1).setInt pgPIE 1

/-- The replay at R of a device whose switch to point `p` is still missing: it raises again, and stays for the rewind that it then proposes,
which counts against REPLAY_MAX (R351, R354, R456; log 53). -/
def State.switchMissing (s : State) (p r : Nat) : State :=
  let tried := (s.pie.raises ++ s.pie.deferred).any (·.next)
  let s1 := elapseTo r (if tried then s else (elapseTo (r - 1024) s).vfFail p)
  ((s1.cnt pgPIE 0x88 s1.pie.raises.length).dropAbandoned).enterRewind s.pie.target true

/-- REWIND_TICK (R57, R240, R351, R352, R456): the replayed span starts at R, once the V/F switch that it awaits has been made. -/
def execRewindTick (s : State) : Host.Outcome State Fault Refusal :=
  .next (match s.sch.job, s.pie.agreed with
    | .rewinding, some r =>
      -- the failover of a lost comb withholds the device's readiness (R278)
      if !s.pie.restored || s.pie.withdrawFor s.pie.target || ((s.opt.failover.map (·.loss)).getD false) then s
      else match s.pwr.failed with
        | some p => s.switchMissing p r
        | none => ((((elapseTo r s).cnt pgPIE 0x88 s.pie.raises.length).dropAbandoned.replayJob r).startSpan s.pie.target r)
    | _, _ => s)

/-! Patches. -/

/-- PATCH_APPLY (R237): the check of the staged patch starts. -/
def execPatchApply (m : Master) (s : State) : Host.Outcome State Fault Refusal :=
  .next (s.lk m pgVDT 0x54 (fun s =>
    if s.vdt.checking.isSome then s
    else { s with vdt := { s.vdt with
      checking := some (s.reg64 pgVDT 0x58, s.reg64 pgVDT 0x60), patchState := 1, patchRec := 0, patchCheck := 0 } }))

/-- Whether the contexts of the held image name a context. -/
def State.declared (s : State) (id : Nat) : Bool := s.img.ctxs.any (fun r => r.id == id)

/-- A slot entry of a patch against R191; the ports it names are held against PORT_MASK under code 0x06. -/
def State.patchSlotOk (s : State) (w : Nat) : Bool :=
  decide (w < 2 ^ 35) &&
  (!bitAt w 0 ||
    (decide (1 ≤ fld w 20 5) && decide (fld w 20 5 ≤ 30) && s.declared (fld w 25 10) &&
      (if bitAt w 1 then decide (fld w 15 5 < 20) else s.corePresent (fld w 2 8))))

/-- Code 0x02 of one record: KIND, reserved fields, and the value against its own table (R191, R228, R236, R244). -/
def State.patchFieldsOk (s : State) (r : Nat) : Bool :=
  let v := prValue r
  decide (1 ≤ prKind r) && decide (prKind r ≤ 4) && fld r 8 8 == 0 && fld r 24 8 == 0 && fld r 48 16 == 0 &&
  (match prKind r with
   | 1 => decide (v < 2 ^ 7) && fld v 5 2 != 3 && decide (fld v 0 5 < 20)
   | 2 => decide (v < 2 ^ 17)
   | 3 => s.patchSlotOk v
   | _ => decide (v < 2 ^ 49) && (!bitAt v 43 || decide (fld v 44 5 < 20)))

/-- Code 0x03 of one record (R238). -/
def State.patchPlaceOk (s : State) (r : Nat) : Bool :=
  match prKind r with
  | 1 => decide (prPort r < 20)
  | 2 => decide (prPort r < 20)
  | 3 => decide (prPort r < 20) && decide (prEntry r < (Store.get [] s.vdt.slots (prPort r)).length)
  | _ => true

/-- PORT_MASK as it would stand once the port map and configuration of `z` are in effect. -/
def State.maskAfter (z : State) : Nat :=
  match z.sch.job with
  | .idle => z.liveMask
  | .loaded => z.liveMask
  | .stopped => z.liveMask
  | _ => z.patchMask

/-- Code 0x06: every VALID slot entry names ports that are in PORT_MASK and not retired. -/
def State.slotsLive (z : State) : Bool :=
  let live := fun (l : Nat) => bitAt z.maskAfter l && !(z.vport (z.pmap l).phys).retire
  z.vdt.slots.all (fun p => p.2.all (fun w => !bitAt w 0 || (live p.1 && (!bitAt w 1 || live (fld w 15 5)))))

/-- Code 0x07: no two logical ports name one physical port (R218; log 36). -/
def State.physDistinct (z : State) : Bool :=
  (upTo 20).all (fun i => (upTo i).all (fun j => (z.pmap i).phys != (z.pmap j).phys))

/-- The first record after which a condition on the patched fabric fails for good; 0 where it failed before the patch. -/
def State.patchFirst (s : State) (ok : State → Bool) (records : List Nat) : Nat :=
  let bad := fun (k : Nat) => !ok ((records.take (k + 1)).foldl (fun a r => a.patchRecord r) s)
  ((upTo records.length).find? bad).getD 0

/-- The index of the first record that fails a check. -/
def firstBad (ok : Nat → Bool) (records : List Nat) : Option Nat := firstIdx (fun r => !ok r) records 0

/-- The COUNT records of a staged patch. -/
def State.patchRecords (s : State) (addr : Nat) : List Nat :=
  let head := s.memBytes false addr 16
  let n := leAt head 4 2
  leRecs (s.memBytes false (addr + 16) (16 * n)) 0 16 n

/-- Code 0x01: the address, the header and the CRC (R236). -/
def State.patchHeadOk (s : State) (addr : Nat) : Bool :=
  let head := s.memBytes false addr 16
  let n := leAt head 4 2
  addr % 4096 == 0 && decide (addr + 16 + 16 * n ≤ s.mem.devExtent) && leAt head 0 4 == 0x48544150 &&
    decide (1 ≤ n) && decide (n ≤ 4096) && crc32c (s.memBytes false (addr + 16) (16 * n)) == leAt head 8 4

/-- Whether the reserved bytes of a patch header are 0. -/
def State.patchHeadZero (s : State) (addr : Nat) : Bool :=
  let head := s.memBytes false addr 16
  leAt head 6 2 == 0 && leAt head 12 4 == 0

/-- Whether the pier ending span `seq` has sealed (R238). SEQ 0 in IDLE, LOADED or PARKED is the present (R237, R384). -/
def State.pierSealed (s : State) (seq : Nat) : Bool :=
  let begun := s.sch.p0Sealed || s.sch.adopted
  match s.sch.job with
  | .idle => false
  | .loading => false
  | .loaded => begun && seq != 0 && decide (seq ≤ s.sch.seq)
  | .running =>
    (match s.sch.place with
     | .span => decide (seq < s.sch.seq)
     | .pier => decide (seq < s.sch.seq)
     | _ => begun && decide (seq ≤ s.sch.seq))
  | .rewinding => decide (seq < s.pie.target)
  | .parked => begun && seq != 0 && decide (seq ≤ s.sch.seq)
  | _ => begun && decide (seq ≤ s.sch.seq)

/-- The refusal of a patch: the first failing code, and its record (R238; log 36). -/
def State.patchCheck (s : State) (addr seq : Nat) : Option (Nat × Nat) :=
  if !s.patchHeadOk addr then some (1, 0)
  else
    let rs := s.patchRecords addr
    let after := rs.foldl (fun a r => a.patchRecord r) s
    let small := fun (z : State) => decide (z.vdt.routes.length ≤ 8192)
    if !s.patchHeadZero addr then some (2, 0)
    else match firstBad s.patchFieldsOk rs, firstBad s.patchPlaceOk rs with
    | some i, _ => some (2, i)
    | none, some i => some (3, i)
    | none, none =>
      if !small after then some (4, s.patchFirst small rs)
      else if s.pierSealed seq then some (5, 0)
      else if !after.slotsLive then some (6, s.patchFirst State.slotsLive rs)
      else if !after.physDistinct then some (7, s.patchFirst State.physDistinct rs)
      else if s.vdt.patch.isSome then some (8, 0)
      else none

/-- PATCH_CHECKED (R237, R238): the patch is refused, takes effect at once, or waits for its pier. -/
def execPatchChecked (s : State) : Host.Outcome State Fault Refusal :=
  .next (match s.vdt.checking with
    | none => s
    | some (addr, seq) =>
      let s1 := { s with vdt := { s.vdt with checking := none } }
      match s1.patchCheck addr seq with
      | some (code, i) =>
        ({ s1 with vdt := { s1.vdt with patchState := 4, patchRec := i, patchCheck := code } }).setInt pgVDT 2
      | none =>
        let rs := s1.patchRecords addr
        if seq = 0 ∧ (s1.sch.job = .idle ∨ s1.sch.job = .loaded ∨ s1.sch.job = .parked) then s1.patchEffect rs
        else { s1 with vdt := { s1.vdt with patch := some ⟨rs, seq⟩, patchState := 2 } })

/-- PATCH_ABORT (R237). -/
def execPatchAbort (m : Master) (s : State) : Host.Outcome State Fault Refusal :=
  .next (s.lk m pgVDT 0x54 (fun s =>
    if s.vdt.patch.isSome then { s with vdt := { s.vdt with patch := none, patchState := 5 } } else s))

end Sys2Proof.Machine
end

