-- ==== Sys2Proof/Machine/Array.lean ====
section
/-! DEFINITION. The commands of the matrix array (R67 to R69, R83 to R87, R131): LOAD, STREAM, CLAIM, RELEASE, their
completions, and the write point of a guarded command. -/

namespace Sys2Proof.Machine

open Sys2Proof

/-- What the block checks of a command find: the errors of class hardware, and with a context failure the columns let through
before it and its error (R83, R84). -/
structure ColScan where
  hw : List ArrErr
  stop : Option (Nat × ArrErr)
  deriving DecidableEq, Repr

/-- The error of a block check of a LOAD or a STREAM (R89). A weight block names array column 0, and a source block under TRANSPOSE
the lowest of the delivered columns that it holds an element of (DESIGN CHOICE, log 57). -/
def blockErr (w time i seg cause : Nat) : ArrErr :=
  if arrOp w = 2 then ⟨time, 0, seg, 1, 0, i, cause, none⟩ else ⟨time, i, seg, 0, 0, 0, cause, none⟩

/-- The failed checks of one column or row of blocks in order: hardware errors up to a context failure that is heeded, and those
read in the same core cycle after it; the context failure (R83, R84). A second context failure of that core cycle is no error of its
own: the command has stopped (DESIGN CHOICE, log 57). -/
def scanBlocks (heed same : Bool) : List ArrErr → List ArrErr × Option ArrErr
  | [] => ([], none)
  | e :: rest =>
    if e.cause ≠ 5 then let r := scanBlocks heed same rest; (e :: r.1, r.2)
    else if heed then (if same then rest.filter (fun x => x.cause != 5) else [], some e)
    else scanBlocks heed same rest

/-- The scan of columns without TRANSPOSE from column `i` on, `p` core cycles apart. The blocks of an S4 or S8 column are read in one
core cycle (R66). -/
def scanCols (w p : Nat) (heed : Bool) : Nat → List RdCol → ColScan
  | _, [] => ⟨[], none⟩
  | i, col :: rest =>
    let f := arrSrcFmt w
    let r := scanBlocks heed (f == .s4 || f == .s8) (col.bad.map (fun b => blockErr w (i * p) i b.1 b.2))
    match r.2 with
    | some e => ⟨r.1, some (i, e)⟩
    | none => let q := scanCols w p heed (i + 1) rest; ⟨r.1 ++ q.hw, q.stop⟩

/-- The failed checks of the source blocks of chunk `h` under TRANSPOSE, each block checked once: row by row, and in a row block by
block (R78, R83). -/
def State.chunkErrs (s : State) (c w p h : Nat) : List ArrErr :=
  let f := arrSrcFmt w
  let n := if arrCols w - 128 * h < 128 then arrCols w - 128 * h else 128
  (upTo (transRows f)).flatMap (fun k => (upTo (ceilDiv n 64)).filterMap (fun j =>
    let i := 128 * h + 64 * j
    let b := (s.transBlock c w k i).bad
    if b = 0 then none else some (blockErr w (128 * h * p) i (if f = .s4 then k / 64 else k / 32) b)))

/-- The scan under TRANSPOSE, chunk by chunk, `n` chunks from chunk `h` on. The feeder fills the transpose buffer before it delivers
a column of the chunk, so a context failure lets no column of its chunk through (R78, R84; DEDUCED, log 57). -/
def State.scanChunks (s : State) (c w p : Nat) (heed : Bool) : Nat → Nat → ColScan
  | _, 0 => ⟨[], none⟩
  | h, n + 1 =>
    let r := scanBlocks heed false (s.chunkErrs c w p h)
    match r.2 with
    | some e => ⟨r.1, some (128 * h, e)⟩
    | none => let q := s.scanChunks c w p heed (h + 1) n; ⟨r.1 ++ q.hw, q.stop⟩

/-- The blocks that `n` columns of a LOAD or STREAM take, each with the core cycle of its read (R66, R78). -/
def arrReads (w p n : Nat) : List (Nat × Nat) :=
  let f := arrSrcFmt w
  if arrTrans w = 0 then
    (upTo n).flatMap (fun i => (upTo (colBlocks f)).map (fun j => (i * p, arrSrc w + i * arrStride w + j * f.coreBytes)))
  else
    (upTo (ceilDiv n 128)).flatMap (fun h =>
      let m := if n - 128 * h < 128 then n - 128 * h else 128
      (upTo (transRows f)).flatMap (fun k => (upTo (ceilDiv m 64)).map (fun j =>
        (128 * h * p, arrSrc w + k * arrStride w + h * transChunk f + j * f.coreBytes))))

/-- What those reads find in core memory: corrected words counted, and errors for those that cannot be corrected (R161). -/
def State.touchBlocks (s : State) (c : Nat) (f : Fmt) (rs : List (Nat × Nat)) : State × List ArrErr :=
  rs.foldl (fun p r =>
    let z := p.1.cmCorrect c r.2 f.coreBytes
    (z.1, p.2 ++ z.2.map (fun b => ⟨r.1, 0, 0, 0, 0, 0, 4, some b⟩))) (s, [])

/-- Columns read by a command whose scan stopped there or nowhere. -/
def colsRead (w : Nat) (sc : ColScan) : Nat :=
  match sc.stop with
  | none => arrCols w
  | some x => let n := x.1 + (if arrTrans w = 0 then 1 else 128); if arrCols w < n then arrCols w else n

/-- The scan of a LOAD's or STREAM's source, its columns `p` core cycles apart. -/
def State.arrScan (s : State) (c w p : Nat) (heed : Bool) (cols : List RdCol) : ColScan :=
  if arrTrans w = 0 then scanCols w p heed 0 cols else s.scanChunks c w p heed 0 (ceilDiv (arrCols w) 128)

/-- The record a context failure under a PENDING binding will have (R509). -/
def heldStop (q : ArrCmd) (e : ArrErr) : HeldFault := ⟨5, 0, e.wcol, e.pos q.word⟩

/-- The residue mismatches of a STREAM's columns (R82), with RES_EN of MXA_CFG set. -/
def State.residueErrs (s : State) (c w : Nat) (tile : Tile) (cols : List RdCol) : List ArrErr :=
  let fw := arrFmtWEff w
  let p := (arrPasses (arrDigits tile.fmt) (arrDigits fw)).length
  if !bitAt (s.reg (pgMXA c) 0x40) 0 then []
  else (upTo cols.length).flatMap (fun n => match cols[n]? with
    | none => []
    | some col => (residueFaults tile fw col).map (fun r => ⟨n * p + r.2.2 + 132 + r.1, r.1, r.2.1, 0, r.2.2, n, 1, none⟩))

/-- The comparison of the two copies of the column-bottom unit at a STREAM's first write, if it writes: an upset of one shows itself
in the array column that the state names (R82; log 56). -/
def State.bottomErrs (s : State) (c n p : Nat) : State × List ArrErr :=
  if n = 0 then (s, [])
  else match s.takeSlip (pgMXA c) with
    | (some m, s1) => (s1, if bitAt (s.reg (pgMXA c) 0x40) 1 then [⟨p + 135 + m % 128, m % 128, 0, 0, 0, 0, 2, none⟩] else [])
    | (none, s1) => (s1, [])

/-- Whether a command's context failures are heeded: unless its binding is FALSE (R87, R509). -/
def heeds (b : Binding) : Bool := decide (b ≠ .resolved false)

/-- A running command added, its writes made as far as they may be; with a binding already FALSE it writes nothing. -/
def State.addArrRun (s : State) (c : Nat) (r : ArrRun) : State :=
  let sq := decide (r.cmd.iss.bind = .resolved false)
  let r1 := if sq then { r with held := [], squashed := true } else r
  (s.modCore c (fun k => { k with arr := { k.arr with runs := k.arr.runs ++ [r1] } })).settleArr c

/-- What a LOAD that a context failure stops does to its buffer, both buffers for an S32 tile: it holds no tile (R84). -/
def dropTile (w : Nat) : List Wr :=
  if arrFmt (arrFmtX w) = .s32 then [.tile 0 none, .tile 1 none] else [.tile (arrBuf w) none]

/-- Core cycles in which the loader reads a tile column (R66). -/
def loadCycles (f : Fmt) : Nat := colBlocks f * f.bytes / 128

/-- The core cycle of a command's write point, from its start (R131). -/
def writePoint (w per : Nat) : Nat :=
  if arrOp w = 1 then 4 else if arrTrans w = 0 then 135 + per else 267 + per

/-- Whether a command whose context check fails at `e` stops there: with a PENDING binding it stops at a block that it reads by its
write point, and for a later one the binding is known by then (R131, R509). -/
def stopsAt (q : ArrCmd) (per : Nat) (e : ArrErr) : Bool := !q.iss.bind.isPending || decide (e.time ≤ writePoint q.word per)

/-- A LOAD that starts: its tile is read, and a narrower tile ends an S32 tile at once (R63, R83). Under WIDEN the tile is held as
S16, which is the format a STREAM of it must name in FMT_X (R79; DESIGN CHOICE, log 57). -/
def State.startLoad (s : State) (c : Nat) (q : ArrCmd) : State :=
  let w := q.word
  let cols := (upTo 128).map (s.arrCol c w)
  let p := loadCycles (arrSrcFmt w)
  let sc := s.arrScan c w p (heeds q.iss.bind) cols
  let z := (s.trcArr 1 c q false).touchBlocks c (arrSrcFmt w) (arrReads w p (colsRead w sc))
  let s0 := z.1
  let hw := sc.hw ++ z.2
  let fmt := if arrTrans w = 2 then Fmt.s16 else arrFmt (arrFmtX w)
  let clears : List Wr := if (s0.core c).arr.endS32 = (s0.core c).arr then [] else [.tile (arrBuf w) none]
  match sc.stop with
  | none =>
    (s0.raiseArrErrs c q hw).addArrRun c { cmd := q, held := if fmt = .s32 then [] else clears, tile := some (tileOf fmt cols) }
  | some x =>
    if q.iss.bind = .resolved true then (s0.applyWrs c (dropTile w)).raiseArrErrs c q (hw ++ [x.2])
    else (s0.raiseArrErrs c q hw).addArrRun c
      { cmd := q, held := dropTile w, fault := some (heldStop q x.2), stopped := stopsAt q 1 x.2 }

/-- The writes of a STREAM: for each column it forms, the 128 rows of its slot (R73, R74). -/
def streamWrites (w : Nat) (tile : Tile) (cols : List RdCol) : List Wr :=
  let fw := arrFmtWEff w
  ((upTo cols.length).flatMap (fun n =>
    match cols[n]? with
    | none => []
    | some col =>
      (upTo 128).map (fun m =>
        let e := columnBottom tile.fmt fw (tile.cols.getD m []) (tile.exps.getD m []) col.m col.exps
        .acc (accIdx (arrBank w) m (arrSlot w + n)) (arrMode w) e)))

/-- A STREAM that starts: its weight columns pass through the buffer (R65, R73, R82, R84). Its passes count in MXA_COL_CNT whether or
not its writes are withheld (R87, R91; DESIGN CHOICE, log 57). -/
def State.startStream (s : State) (c : Nat) (q : ArrCmd) (tile : Tile) : State :=
  let w := q.word
  let p := (arrPasses (arrDigits tile.fmt) (arrDigits (arrFmtWEff w))).length
  let cols := (upTo (arrN w)).map (s.arrCol c w)
  let sc := s.arrScan c w p (heeds q.iss.bind) cols
  let taken := match sc.stop with
    | some x => cols.take x.1
    | none => cols
  let n := taken.length
  let touch := (s.trcArr 1 c q false).touchBlocks c (arrSrcFmt w) (arrReads w p (colsRead w sc))
  let bottom := touch.1.bottomErrs c n p
  let ws := streamWrites w tile taken
  let a := (s.core c).arr
  -- entries are read now where the writes are made now, or are withheld
  let now := a.owns (arrBank w) && !q.iss.bind.isPending && (!heeds q.iss.bind || !a.runs.any ArrRun.writes)
  let reads := if now then bottom.1.accErrs c q p ws else (bottom.1, [])
  let errs := sc.hw ++ touch.2 ++ s.residueErrs c w tile taken ++ bottom.2 ++ reads.2
  let s1 := reads.1.cnt64 (pgMXA c) 0x48 (n * p)
  let run : ArrRun := { cmd := q, held := ws, per := p, cols := n, due := writePoint w p, read := now }
  match sc.stop with
  | none => (s1.raiseArrErrs c q errs).addArrRun c run
  | some x =>
    if q.iss.bind = .resolved true then (s1.raiseArrErrs c q (errs ++ [x.2])).addArrRun c { run with stopped := true }
    else (s1.raiseArrErrs c q errs).addArrRun c { run with fault := some (heldStop q x.2), stopped := stopsAt q p x.2 }

/-- LOAD: the head of the load queue starts once every earlier STREAM of its buffer has started (R67). -/
def execLoad (c : Fin 256) (s : State) : Host.Outcome State Fault Refusal :=
  let a := (s.core c).arr
  match a.loadQ with
  | [] => .next s
  | q :: rest =>
    let both := arrFmt (arrFmtX q.word) == .s32
    let behind := a.streamQ.any (fun p => arrOp p.word == 2 && decide (p.serial < q.serial) &&
      (both || arrFmt (arrFmtX p.word) == .s32 || arrBuf p.word == arrBuf q.word))
    let busy := a.runs.any (fun r => arrOp r.cmd.word == 1 && !r.stopped)
    if !(s.arrRuns c) || a.loadStall || a.frozen || behind || busy then .next s
    else .next (((s.modCore c (fun k => { k with arr := { k.arr with loadQ := rest } })).startLoad c q).checkLoadHead c)

/-- STREAM: the head of the stream queue starts once every earlier LOAD of its buffer has completed, if its buffer then
holds its tile (R67, R69). -/
def execStream (c : Fin 256) (s : State) : Host.Outcome State Fault Refusal :=
  let a := (s.core c).arr
  match a.streamQ with
  | [] => .next s
  | q :: rest =>
    let both := arrFmt (arrFmtX q.word) == .s32
    if !(s.arrRuns c) || a.streamStall || a.frozen || arrOp q.word != 2 || a.loadAhead (arrBuf q.word) q.serial both then
      .next s
    else
      match a.tileCheck q.word false, a.buf (arrBuf q.word) with
      | none, some tile =>
        .next (((s.modCore c (fun k => { k with arr := { k.arr with streamQ := rest } })).startStream c q
          tile).checkStreamHead c)
      | _, _ =>
        .next ((s.modCore c (fun k => { k with arr := { k.arr with streamStall := true } })).arrSched c q 9)

/-- A CLAIM or RELEASE at the point at which it takes effect (R68, R87, R131). -/
def State.takeOwner (s : State) (c : Nat) (q : ArrCmd) (rest : List ArrCmd) (up : Bool) : State :=
  let s1 := s.modCore c (fun k => { k with arr := { k.arr with streamQ := rest } })
  let s2 := match q.iss.bind with
    | .resolved true => (s1.applyWr c (.own (arrBank q.word) up)).settleArr c
    | .resolved false => s1.cnt (pgMXA c) 0x60 1
    | .pending .. => ((s1.missBinding c q.iss.bind).unresolved c q.iss).cnt (pgMXA c) 0x60 1
  ((s2.trcArr 1 c q false).trcArr 2 c q (decide (q.iss.bind ≠ .resolved true))).checkStreamHead c

/-- CLAIM: the array takes a bank once no earlier chain has a pending access to it (R68, R94). -/
def execClaim (c : Fin 256) (s : State) : Host.Outcome State Fault Refusal :=
  let k := s.core c
  match k.arr.streamQ with
  | [] => .next s
  | q :: rest =>
    if !(s.arrRuns c) || k.arr.streamStall || arrOp q.word != 3 || k.fls.pendingAccess (arrBank q.word) q.after then .next s
    else .next (s.takeOwner c q rest true)

/-- RELEASE: Flowstone gets a bank back after the last write of every earlier STREAM (R68). -/
def execRelease (c : Fin 256) (s : State) : Host.Outcome State Fault Refusal :=
  let a := (s.core c).arr
  match a.streamQ with
  | [] => .next s
  | q :: rest =>
    let writing := a.runs.any (fun r => arrOp r.cmd.word == 2 && (!r.stopped || !r.held.isEmpty))
    if !(s.arrRuns c) || a.streamStall || arrOp q.word != 4 || writing then .next s
    else .next (s.takeOwner c q rest false)

/-- The write point of array run `i` (R131). -/
def State.arrWritePoint (s : State) (c i : Nat) : State :=
  match (s.core c).arr.runs[i]? with
  | none => s
  | some r =>
    match r.cmd.iss.bind with
    | .resolved _ =>
      (s.modCore c (fun k => { k with arr := { k.arr with runs := modAt (fun q => { q with pastWrite := true }) k.arr.runs i } })).settleArr c
    | .pending .. =>
      ((((s.accReads c r).modCore c (fun k => { k with arr := { k.arr with
        runs := modAt (fun q => { q with pastWrite := true, squashed := true, held := [], tile := none, fault := none
                                         cmd := { q.cmd with iss := { q.cmd.iss with bind := .resolved false } } })
          k.arr.runs i } })).missBinding c r.cmd.iss.bind).unresolved c r.cmd.iss).settleArr c

/-- A stopped LOAD whose binding is PENDING no longer clears a buffer that a later LOAD has filled since (R84). -/
def forgetDrop (later : ArrCmd) (r : ArrRun) : ArrRun :=
  if r.stopped && arrOp r.cmd.word == 1 && decide (r.cmd.serial < later.serial) &&
      (arrBuf r.cmd.word == arrBuf later.word || arrFmt (arrFmtX later.word) == .s32) then { r with held := [] }
  else r

/-- A completed array command leaves; one whose writes were withheld counts in MXA_SQUASH_CNT (R87, R132). -/
def State.arrComplete (s : State) (c i : Nat) : State :=
  match (s.core c).arr.runs[i]? with
  | none => s
  | some r =>
    let s1 := match r.squashed, r.tile with
      | false, some t => (s.applyWr c (.tile (arrBuf r.cmd.word) (some t))).modCore c (fun k =>
          { k with arr := { k.arr with runs := k.arr.runs.map (forgetDrop r.cmd) } })
      | _, _ => s
    let s2 := s1.modCore c (fun k => { k with arr := { k.arr with runs := k.arr.runs.eraseIdx i } })
    ((if r.squashed then s2.cnt (pgMXA c) 0x60 1 else s2).trcArr 2 c r.cmd r.squashed).settleArr c

/-- The oldest run of an OP that has not stopped. -/
def ArrayState.oldest (a : ArrayState) (op : Nat) : Option Nat :=
  firstIdx (fun r => arrOp r.cmd.word == op && !r.stopped) a.runs 0

/-- A run reaches its end: a binding still PENDING meets its write point first; held writes keep it running. -/
def State.arrDone (s : State) (c op : Nat) : State :=
  if !(s.arrRuns c) then s
  else match (s.core c).arr.oldest op with
    | none => s
    | some i =>
      let s1 := s.arrWritePoint c i
      match (s1.core c).arr.runs[i]? with
      | some r => if r.held.isEmpty then s1.arrComplete c i else s1
      | none => s1

/-- LOAD_DONE: the buffer holds the new tile (R65). -/
def execLoadDone (c : Fin 256) (s : State) : Host.Outcome State Fault Refusal := .next (s.arrDone c 1)

/-- STREAM_DONE: a STREAM signals completion after its last entry is written (R65). -/
def execStreamDone (c : Fin 256) (s : State) : Host.Outcome State Fault Refusal := .next (s.arrDone c 2)

end Sys2Proof.Machine
end

