-- ==== Sys2Proof/Machine/Mailbox.lean ====
section
/-! DEFINITION. The two mailboxes and their command engine (R429 to R433): doorbells, the running command, its arguments and its
response. Words of a request that the spec does not place are taken in the order of the command's arguments (log 39). -/

namespace Sys2Proof.Machine

open Sys2Proof

/-- A mailbox: 0 of PCIe, 1 of the management port. -/
def State.mbx (s : State) (n : Nat) : Mailbox := if n = 0 then s.host.mbx0 else s.host.mbx1

/-- A mailbox replaced. -/
def State.setMbx (s : State) (n : Nat) (m : Mailbox) : State :=
  if n = 0 then { s with host := { s.host with mbx0 := m } } else { s with host := { s.host with mbx1 := m } }

/-- The page that reports on a mailbox. -/
def mbxPage (n : Nat) : Nat := if n = 0 then pgHIF else pgMGT

/-- Codes that a chapter defines (R378, R429). -/
def mbxCodes : List Nat := [0x01, 0x02, 0x10, 0x40, 0x41, 0x42, 0x43, 0x44, 0x45]

/-- The refusal of a doorbell, if any: the lowest code (R430, R443). NWORD has six bits, so it never exceeds 63. -/
def Mailbox.refusal (m : Mailbox) (seq : Nat) (word0 : Nat) : Option Nat :=
  if seq ≠ (m.last + 1) % 2 ^ 16 then some 1
  else if m.st ≠ .idle then some 2
  else if !mbxCodes.contains (fld word0 0 8) then some 3
  else if fld word0 14 18 ≠ 0 then some 6
  else none

/-- A doorbell or an ACK refused: REFUSE, the log and MBX_REFUSED. `pos` holds the log's fields of the MGT page, `who` its
64-bit ERR_LOG1 and ERR_LOG2: the BAR offset written, or the source MAC (R443, R444). -/
def State.mbxRefuse (s : State) (n code pos who : Nat) : State :=
  (((s.setMbx n { s.mbx n with refuse := code }).logErr (mbxPage n) (4 * 2 ^ 24 + pos) (who % 2 ^ 32) (who / 2 ^ 32))).setInt (mbxPage n) 2

/-- A doorbell with its request (R430): accepted in one step, or refused. -/
def State.mbxRing (s : State) (n seq : Nat) (req : List Nat) (kslot pos who : Nat) : State :=
  let m := s.mbx n
  match m.refusal seq (req.headD 0) with
  | some code => s.mbxRefuse n code pos who
  | none =>
    -- mailbox 1 goes first where mailbox 0 was rung at the same tick and its command has not run (R431)
    let ahead := n == 1 && s.host.engineQ == [0] && s.host.mbx0.since == s.tick + 1 && s.host.mbx0.rsp.isEmpty && s.pwr.mainOk
    let st := if s.host.engineQ.isEmpty || ahead then MbxSt.running else .queued
    let s1 := s.setMbx n { m with st := st, last := seq, refuse := 0, req := req.take (1 + fld (req.headD 0) 8 6), rsp := []
                                  status := 0, kslot := kslot, pos := pos, who := who, since := s.tick + 1 }
    let s2 := if ahead then s1.setMbx 0 { s1.mbx 0 with st := .queued } else s1
    { s2 with host := { s2.host with engineQ := if ahead then [1, 0] else s2.host.engineQ ++ [n] } }

/-- An ACK (R432). -/
def State.mbxAck (s : State) (n seq pos who : Nat) : State :=
  let m := s.mbx n
  if m.st = .done ∧ seq = m.last then s.setMbx n { m with st := .idle, refuse := 0 } else s.mbxRefuse n 5 pos who

/-- The mailbox whose command the engine runs, where that command is `code` and has no response yet (R431). -/
def State.mbxRuns (s : State) (code : Nat) : Option Nat :=
  match s.host.engineQ with
  | [] => none
  | n :: _ => if fld ((s.mbx n).req.headD 0) 0 8 = code ∧ (s.mbx n).rsp = [] then some n else none

/-- Word `i` of the request, 0 where it was not sent. -/
def State.mbxArg (s : State) (n i : Nat) : Nat := (s.mbx n).req.getD i 0

/-- A 64-bit argument in two words. -/
def State.mbxArg64 (s : State) (n i : Nat) : Nat := s.mbxArg n i + s.mbxArg n (i + 1) * 2 ^ 32

/-- The response of the running command, formed and still to be held (R429). -/
def State.mbxReply (s : State) (n status : Nat) (words : List Nat) : State :=
  let m := s.mbx n
  let code := fld (m.req.headD 0) 0 8
  s.setMbx n { m with rsp := (code + status % 2 ^ 8 * 2 ^ 8 + words.length % 2 ^ 6 * 2 ^ 16) :: words, status := status }

/-- The running command completes (R432). -/
def State.mbxDone (s : State) : State :=
  match s.host.engineQ with
  | [] => s
  | n :: rest =>
    if (s.mbx n).rsp = [] then s
    else
      let s1 := s.setMbx n { s.mbx n with st := .done }
      let s2 := { s1 with host := { s1.host with engineQ := rest } }
      let s3 := match rest with
        | [] => s2
        | k :: _ => s2.setMbx k { s2.mbx k with st := .running }
      let s4 := (if n = 0 then s3.cnt pgHIF 0x70 1 else s3).setInt (mbxPage n) 1
      s4.wakeReason 1

end Sys2Proof.Machine
end

