-- ==== Sys2Proof/Machine/ReplayOps.lean ====
section
/-! DEFINITION. What the exchanges of the seal unit share (R357 to R362, R400): ports, seal flits and close flits as they are
sent and as they arrive, replica mismatches, and the blocks of a vote. -/

namespace Sys2Proof.Machine

open Sys2Proof

/-- Physical ports in partition that carry a logical torus port. -/
def State.torusPorts (s : State) : List Nat :=
  (upTo 20).filter (fun p => s.inPart p && (match s.lport p with
    | some l => decide (l < 16)
    | none => false))

/-- The physical ports in partition among the torus ports of a list of logical ports. -/
def State.physOf (s : State) (ls : List Nat) : List Nat :=
  (ls.map (fun l => (s.pmap l).phys)).filter (fun p => s.inPart p)

/-- Logical ports of Y+ and of Y− (R216). -/
def yPlus : List Nat := [8, 9]
def yMinus : List Nat := [10, 11]

/-- Tick at which flit position `pos` of the slot that begins at `t` starts transmission (R223). -/
def posTick (t pos : Nat) : Nat := t + 32 * pos / 30

/-- A flit sent in a position of a slot by a device engine. -/
def State.sendFlit (s : State) (p t pos : Nat) (f : Flit) : State := s.emit (.flit p (posTick t pos) pos f)

/-- The replica digests of the eight engines (R359). -/
def State.digests (s : State) : List Nat := (upTo 8).map (fun e => (Store.get {} s.train.engines e).pos.digest)

/-- The body of a seal flit; that of a replica check carries the digests (R358; log 37). -/
def State.sealBody (s : State) (check : Bool) : List Byte :=
  leBytes 128 s.agreedVector ++ (if check then s.digests.flatMap (leBytes 8) else List.replicate 64 0#8) ++
    leBytes 8 s.sch.seq

/-- A seal flit to the peer of a port (R358). -/
def State.sealFlit (s : State) (p : Nat) (check : Bool) : Flit :=
  engineFlit (s.engineHead (s.vport p).peerId 0xFF false 0 0 200 false) (s.sealBody check)

/-- Whether an exchange of the current span may run: a span's work or its pier frame (R345, R357). -/
def State.exchangeOn (s : State) : Bool := s.sch.job == .running && (s.sch.place == .span || s.sch.place == .pier)

/-- A flit missing at the end of a round: the first of an exchange is a hardware fault (R357, R400). -/
def State.missing (s : State) (p t : Nat) : State :=
  ((elapseTo t s).pieErr 1 1 (p * 2 ^ 19) s.devId).raiseHw

/-! The close list (R400). -/

/-- Entries a close flit carries. -/
def closeMax : Nat := 118

/-- A list of words merged into the list held: END replaces PARK, and the lowest IDs are kept. -/
def closeMerge (m : Store Nat) (l : List Nat) : Store Nat :=
  (l.foldl (fun a w =>
    let id := fld w 0 10
    let act := fld w 10 2
    if act = 1 ∨ (act = 2 ∧ Store.get 0 a id = 0) then Store.insert a id act else a) m).take closeMax

/-- The words of a list. -/
def closeWords (m : Store Nat) : List Nat := m.map (fun p => p.1 + p.2 * 2 ^ 10)

/-- A close flit to the peer of a port. -/
def State.closeFlit (s : State) (p : Nat) : Flit :=
  let ws := closeWords s.ctx.merged
  engineFlit (s.engineHead (s.vport p).peerId 0xFB false 0 0 240 false) (leBytes 2 ws.length ++ ws.flatMap (leBytes 2))

/-- Whether the pier of the current span carries the close exchange. -/
def State.carriesClose (s : State) : Bool := decide (s.sch.first ≤ s.cutoff)

/-! Votes (R361, R362). -/

/-- Address and space of a block under a vote; parameters and masters alone are voted on. -/
def State.votePlace (s : State) (b : VoteBlock) : Bool × Nat :=
  let g := s.updGroup b.group
  (ugSpace g b.slot == 2, ugAddr g b.slot b.bank b.block 0)

/-- The block an item of a vote names. -/
def voteBlock (i : VoteItem) : VoteBlock := ⟨i.engine, i.group, i.slot, i.bank, i.block⟩

/-- This device's own copy of a block, read through the decoder: data and sidecar; an uncorrectable line is a hardware fault (R286,
R300, R348). -/
def State.voteCopy (s : State) (b : VoteBlock) : State × List Byte × List Byte :=
  let a := s.votePlace b
  let n := ugBytes (s.updGroup b.group) b.slot
  match s.mem.slot a.1 a.2 n with
  | none => (s, s.memBytes a.1 a.2 n, [])
  | some k =>
    let r := s.memRead a.1 a.2 n k
    (if r.2.bad then r.1.raiseHw else r.1, r.2.data, r.2.sideRaw)

/-- This device's own copies of some blocks. -/
def State.voteCopies (s : State) (bs : List VoteBlock) : State × List (VoteBlock × List Byte × List Byte) :=
  bs.foldl (fun p b =>
    let r := p.1.voteCopy b
    (r.1, p.2 ++ [(b, r.2)])) (s, [])

/-- An undo record whose bytes or slot a vote has written: it returns to what the vote wrote (R361). -/
def DevRec.voted (m : MemState) (cap : Bool) (a slot : Nat) (data side : List Byte) (r : DevRec) : DevRec :=
  if r.capacity != cap then r
  else { r with
    data := (upTo r.data.length).map (fun i =>
      if a ≤ r.addr + i ∧ r.addr + i < a + data.length then data.getD (r.addr + i - a) 0#8 else r.data.getD i 0#8)
    side := if !r.side.isEmpty && m.slot cap r.addr r.data.length == some slot then side else r.side }

/-- A block written by a vote: it belongs to no span, and no later rewind undoes it (R361). It stands as a store of the update unit does
(log 37). -/
def State.voteStore (s : State) (b : VoteBlock) (data side : List Byte) : State :=
  let a := s.votePlace b
  match s.mem.slot a.1 a.2 data.length with
  | none => s
  | some k =>
    let turn := DevRec.voted s.mem a.1 a.2 k data side
    let s1 := s.mergeStore a.1 a.2 k data side (257 + b.engine)
    { s1 with
      cores := Store.mapVals (fun _ c => { c with undo := { c.undo with devs := c.undo.devs.map turn } }) s1.cores
      train := { s1.train with
        engines := Store.mapVals (fun _ e => { e with undo := e.undo.map turn, subst := e.subst.map turn }) s1.train.engines } }

/-- Whether two copies agree (R362). -/
def copyAgree (x y : List Byte × List Byte) : Bool := x.1 == y.1 && x.2.take 2 == y.2.take 2

/-- PIE_VOTE at the end of a vote. -/
def voteReg (engines fixed state : Nat) : Nat := engines % 2 ^ 8 * 2 ^ 24 + fixed % 2 ^ 16 * 2 ^ 8 + state

/-- A running vote replaced by what a stage has made of it. -/
def State.putVote (s : State) (v : Vote) : State :=
  { s with pie := { s.pie with votes := s.pie.votes.map (fun x => if x.isY = v.isY then v else x) } }

/-- A vote ended. -/
def State.voteEnd (s : State) (v : Vote) (fixed state : Nat) : State :=
  ({ s with pie := { s.pie with votes := s.pie.votes.filter (fun x => x.isY != v.isY)
                                voteLast := voteReg v.engines fixed state } }).setInt pgPIE 4

/-- The physical port on which a vote's content goes to the peer (R361; log 37). -/
def State.votePort (s : State) (v : Vote) : Nat := (s.physOf (if v.isY then yMinus else yPlus)).headD 0

/-- The smallest j that keeps `n` commits in 1,024 windows of 4,096 × 2^j; `m` bounds the search (R359). -/
def winLog (n : Nat) : Nat → Nat → Nat
  | 0, j => j
  | m + 1, j => if n ≤ 2 ^ 22 * 2 ^ j then j else winLog n m (j + 1)

/-- Blocks that 4,096 × 2^j commits of an engine's last replica period cover, by window: those in the windows whose digests the peer's do
not match (R359, R361). -/
def UpdPos.windowBlocks (p : UpdPos) (windows : List Nat) : List VoteBlock :=
  let size := 4096 * 2 ^ winLog p.lastLog.length 40 0
  let l := p.lastLog.reverse
  (windows.flatMap (fun w => ((l.drop (w * size)).take size).flatten)).eraseDups

/-- Engines whose replica digests differ from a peer's. -/
def State.mismatches (s : State) (peer : List Nat) : List Nat :=
  (upTo 8).filter (fun e => s.digests.getD e 0 != peer.getD e 0)

/-- Replica digests found different from those of a peer (R360): the mismatches are counted and logged and a vote of the pair starts, or
its running vote takes them in (log 37). -/
def State.replicaMismatch (s : State) (l : List Nat) (peer : Nat) (isY : Bool) : State :=
  match l with
  | [] => s
  | e :: _ =>
    let mask := l.foldl (fun m x => m + 2 ^ x) 0
    let s1 := ((s.cnt pgPIE 0x90 l.length).setInt pgPIE 3).pieErr 0 8 (e * 2 ^ 16) peer
    match s1.pie.votes.find? (fun v => v.isY == isY) with
    | none => { s1 with pie := { s1.pie with votes := s1.pie.votes ++ [⟨peer, isY, mask, 1, s1.sch.seq, [], [], []⟩] } }
    | some v => s1.putVote { v with engines := v.engines ||| mask }

/-! Flits the seal unit takes from the Viaduct (R222, R358, R400). -/

/-- A seal flit that arrived on a port: a vector for the round that runs, or, from P + 256 of a replica pier on, digests from a Y port, of
which the first intact copy of either side counts (R357, R360; log 37). -/
def State.takeSealFlit (s : State) (p : Nat) (body : List Byte) : State :=
  if !s.exchangeOn || leAt body 192 8 != s.sch.seq then s
  else
    let ds := (upTo 8).map (fun e => leAt body (128 + 8 * e) 8)
    let s1 := if s.isStepSpan && decide (s.pie.round < s.rounds) then
        { s with pie := { s.pie with seenPorts := s.pie.seenPorts ++ [(p, leAt body 0 128)] } }
      else s
    if s.sch.place == .pier && s.replicaPier && decide (s.pierFirst + 256 ≤ s.tick) then
      if (s.physOf yMinus).contains p && s.pie.peerDigests.isNone then
        { s1 with pie := { s1.pie with peerDigests := some ds } }
      else if (s.physOf yPlus).contains p && !s.pie.yPlusSeen then
        ({ s1 with pie := { s1.pie with yPlusSeen := true } }).replicaMismatch (s.mismatches ds) (s.vport p).peerId false
      else s1
    else s1

/-- A close flit that arrived on a port. -/
def State.takeCloseFlit (s : State) (p : Nat) (body : List Byte) : State :=
  if s.exchangeOn && s.carriesClose && decide (s.pie.closeRound < s.rounds) then
    { s with pie := { s.pie with closeSeen := s.pie.closeSeen ++ [(p, leRecs body 2 2 (leAt body 0 2))] } }
  else s

end Sys2Proof.Machine
end

