-- ==== Sys2Proof/Machine/StateOps.lean ====
section
/-! DEFINITION. The state mover (R374 to R379): transfer lists, the state stream as it is formed, sent and taken, and the
installing of a pier record (R369, R370, R385, R392). -/

namespace Sys2Proof.Machine

open Sys2Proof

/-! Transfer lists (R375). -/

def tlKind (w : Nat) : Nat := fld w 0 4
def tlSspace (w : Nat) : Nat := fld w 4 3
def tlDspace (w : Nat) : Nat := fld w 7 3
def tlFmt (w : Nat) : Nat := fld w 10 4
def tlScore (w : Nat) : Nat := fld w 14 8
def tlDcore (w : Nat) : Nat := fld w 22 8
def tlPsrc (w : Nat) : Nat := fld w 30 2
def tlCount (w : Nat) : Nat := fld w 32 32
def tlSrc (w : Nat) : Nat := fld w 64 64
def tlDst (w : Nat) : Nat := fld w 128 64

/-- Whether an entry is well formed; `last` says that it is the last of its list. -/
def tlEntryOk (w : Nat) (last : Bool) : Bool :=
  w < 2 ^ 192 &&
  (match tlKind w with
   | 1 => (tlSspace w == 1 || tlSspace w == 2) && tlDspace w == 1 && tlFmt w == 0 && tlPsrc w == 0 &&
       (tlSspace w == 1 || tlScore w == 0) && tlSrc w % 64 == 0 && tlDst w % 64 == 0
   | 2 => (tlSspace w == 2 || tlSspace w == 3) && (tlDspace w == 2 || tlDspace w == 3) && (Fmt.ofCode (tlFmt w)).isSome &&
       tlScore w == 0 && tlDcore w == 0 && tlPsrc w == 0 && tlSrc w % 32 == 0 && tlDst w % 32 == 0
   | 3 => last && tlSspace w == 0 && tlDspace w == 0 && tlFmt w == 0 && tlScore w == 0 && tlDcore w == 0 &&
       decide (tlPsrc w ≤ 1) && tlCount w == 1 && tlSrc w == 0 && tlDst w == 0
   | _ => false)

/-- The entries of the list at an address, if it is well formed. -/
def State.transferList (s : State) (addr : Nat) : Option (List Nat) :=
  let head := s.memBytes false addr 16
  let n := leAt head 4 4
  if addr % 4096 ≠ 0 ∨ s.mem.devExtent < addr + 16 + 32 * n ∨ leAt head 0 4 ≠ 0x54534C54 ∨ n = 0 ∨ 65535 < n ∨
      leAt head 12 4 ≠ 0 then none
  else
    let b := s.memBytes false (addr + 16) (32 * n)
    let es := leRecs b 0 32 n
    if crc32c b ≠ leAt head 8 4 ∨ !((upTo n).all (fun i => tlEntryOk (es.getD i 0) (i + 1 == n))) then none else some es

/-- Bytes of one item of an entry as it travels (R376). -/
def tlItemBytes (w : Nat) : Nat :=
  match tlKind w with
  | 1 => 64
  | 2 => (dmaFmt (tlFmt w)).coreBytes
  | _ => pierBytes + histBytes

/-! Forming the stream (R376, R377). -/

/-- A tensor's 16 history entries, newest first. -/
def histOf (l : List (Nat × Int)) : List Byte := (upTo 16).flatMap (fun i => sum1Bytes (l.getD i (0, -256)))

/-- The amax histories that follow a record: the device's own, or the buddy copies. -/
def State.histories (s : State) (psrc : Nat) : List Byte :=
  (upTo 4096).flatMap (fun t =>
    if psrc = 0 then histOf (Store.get {} (if s.train.keptAmax.isEmpty then s.train.amax else s.train.keptAmax) t : Amax).hist
    else histOf (Store.get [] s.buddy.buddyHist t))

/-- One item of an entry on the sender, or the status it fails with (R377, R379). -/
def State.tlItem (s : State) (w i : Nat) : State × Except Nat (List Byte) :=
  match tlKind w with
  | 1 =>
    let a := tlSrc w + 64 * i
    if tlSspace w = 1 then
      if !s.corePresent (tlScore w) || decide (coreBytes < a + 64) ||
          (s.core (tlScore w)).ecc.any (fun p => p.1 / 8 == a / 64 && p.2 != 1) then (s, .error 3)
      else (s, .ok (s.cmBytes (tlScore w) a 64))
    else if s.mem.devExtent < a + 64 then (s, .error 3)
    else
      let r := s.readLines false a 64
      (r.1, if r.2 then .error 3 else .ok (s.givenBytes false a 64))
  | 2 =>
    let f := dmaFmt (tlFmt w)
    let cap := tlSspace w == 3
    let a := tlSrc w + i * f.bytes
    match s.mem.slot cap a f.bytes with
    | none => (s, .error 3)
    | some slot =>
      let r := s.memRead cap a f.bytes slot
      let b := r.2
      if b.bad || !s.storedOk cap a b || (decide (8 ≤ b.side.fmt) && b.side.fmt != fmtRaw && b.side.fmt != fmtZeroed) then
        (r.1, .error 3)
      else if b.side.fmt = fmtZeroed then
        let z := List.replicate f.bytes 0#8
        (r.1, .ok (z ++ sealTransit { exp := -128, fmt := f.code, zero := true, tag := 0 } z))
      else (r.1, .ok (b.data ++ withCrc b.sideRaw (flipCrc b.side.crc b.addr)))
  | _ =>
    match (if tlPsrc w = 0 then s.buddy.ownSealed else if s.buddy.behind then none else s.buddy.buddySealed) with
    | none => (s, .error 6)
    | some r => (s, .ok (r ++ s.histories (tlPsrc w)))

/-- Items `i` on of an entry, up to the first that fails, with the status and the item of that failure; `n` bounds them. -/
def State.tlItems : Nat → State → Nat → Nat → State × List Byte × Option (Nat × Nat)
  | 0, s, _, _ => (s, [], none)
  | n + 1, s, w, i =>
    let r := s.tlItem w i
    match r.2 with
    | .error st => (r.1, [], some (st, i))
    | .ok b =>
      let q := State.tlItems n r.1 w (i + 1)
      (q.1, b ++ q.2.1, q.2.2)

/-- The stream of a list below its ending, from entry `k`, up to the first item that fails: status, entry and item of that failure
(R377). -/
def State.tlStream : List Nat → State → Nat → State × List Byte × Option (Nat × Nat × Nat)
  | [], s, _ => (s, [], none)
  | w :: ws, s, k =>
    let r := s.tlItems (tlCount w) w 0
    match r.2.2 with
    | some e => (r.1, leBytes 32 w ++ r.2.1, some (e.1, k, e.2))
    | none =>
      let q := State.tlStream ws r.1 (k + 1)
      (q.1, leBytes 32 w ++ r.2.1 ++ q.2.1, q.2.2)

/-- A stream with its CRC and its final zero word (R376). -/
def tlSeal (b : List Byte) : List Byte := b ++ leBytes 4 (crc32c b) ++ leBytes 4 0

/-! Sending (R376). -/

/-- A transfer flit handed to a physical port, to leave in spare positions (R230). -/
def State.queueXfer (s : State) (p : Nat) (f : Flit) : State :=
  s.setVport p { s.vport p with xfer := (s.vport p).xfer ++ [f] }

/-- Bytes a sender keeps unacknowledged. -/
def txWindow : Nat := 64 * 2 ^ 20

/-- Flits of the stream handed on from `txNext` while the window allows; `n` bounds them. The last flit carries LAST (log 40). -/
def State.txFill : Nat → State → State
  | 0, s => s
  | n + 1, s =>
    match s.buddy.tx with
    | none => s
    | some b =>
      let k := s.buddy.txNext
      if b.length ≤ k ∨ s.buddy.txAck + txWindow < k + 240 then s
      else
        let body := (b.drop k).take 240
        let l := s.buddy.txPorts.getD (k / 240 % s.buddy.txPorts.length) 0
        let f := engineFlit (s.engineHead s.buddy.txDest 0xFE true 6 k body.length (decide (b.length ≤ k + 240))) body
        State.txFill n ({ s.queueXfer (s.pmap l).phys f with buddy := { s.buddy with txNext := k + body.length } })

/-- Every flit that the window allows. -/
def State.txSend (s : State) : State :=
  match s.buddy.tx with
  | none => s
  | some b => s.txFill (b.length / 240 + 1)

/-- The end of a STATE_SEND, with the entry and item of a failure (R376, R377, R379). -/
def State.txEnd (s : State) (status : Nat) (at_ : List Nat) : State :=
  match s.mbxRuns 0x40 with
  | none => { s with buddy := { s.buddy with tx := none } }
  | some n =>
    let moved := s.buddy.txAck
    ({ s with buddy := { s.buddy with tx := none, lastStatus := status, moved := moved } }).mbxReply n status at_

/-- The end of a stream of which the receiver has what was sent: done, or stopped where a source check failed (R377). -/
def State.txSent (s : State) : State :=
  match s.buddy.txFail with
  | none => s.txEnd 0 []
  | some e => s.txEnd e.1 [e.2.1, e.2.2]

/-- A receiver's notice that it has stopped the stream: position, status, entry and item (R377; log 40). -/
def State.txStopped (s : State) (bytes : List Byte) : State :=
  if s.buddy.txFail.isSome then s.txSent else s.txEnd (leAt bytes 8 2) [leAt bytes 10 2, leAt bytes 12 4]

/-- An acknowledgement of the stream sent (R376). -/
def State.txAcked (s : State) (n : Nat) : State :=
  match s.buddy.tx with
  | none => s
  | some b =>
    if n ≤ s.buddy.txAck ∨ s.buddy.txNext < n then s
    else
      let s1 := { s with buddy := { s.buddy with txAck := n, txTries := 0, txTick := s.tick } }
      if n = b.length then s1.txSent else s1.txSend

/-! Receiving (R376, R377). -/

/-- A failure told to the sender (R377; log 40). -/
def State.rxNotice (s : State) (status : Nat) (at_ : List Nat) : State :=
  match s.buddy.rxPeer with
  | none => s
  | some (p, src) => s.queueXfer p (engineFlit (s.engineHead src 0xFE true 6 0 16 false)
      (leBytes 8 s.buddy.rxPos ++ leBytes 2 status ++ leBytes 2 (at_.getD 0 0) ++ leBytes 4 (at_.getD 1 0)))

/-- The end of a STATE_RECV; a failure stops the sender too (R377). -/
def State.rxDone (s0 : State) (status : Nat) (at_ : List Nat) : State :=
  let s := if status = 0 then s0 else s0.rxNotice status at_
  let b := s.buddy
  let s1 := { s with buddy := { b with
    rxOn := false, rxBuf := [], rxCrc := 0xFFFFFFFF, rxLate := [], rxEnd := none, rxIndex := 0, rxEntry := 0, rxLeft := 0
    rxItem := 0, rxPeer := none, rxAck := none, lastStatus := status, moved := b.rxPos } }
  match s1.mbxRuns 0x41 with
  | none => s1
  | some n => s1.mbxReply n status at_

/-- One item stored at its destination, or the status it fails with (R377). -/
def State.rxStore (s : State) (w i : Nat) (b : List Byte) : State × Option Nat :=
  match tlKind w with
  | 1 =>
    let a := tlDst w + 64 * i
    if s.corePresent (tlDcore w) && s.cmIn a 64 then (s.modCore (tlDcore w) (fun k => k.poke a b), none) else (s, some 4)
  | 2 =>
    let f := dmaFmt (tlFmt w)
    let cap := tlDspace w == 3
    let a := tlDst w + i * f.bytes
    let data := b.take f.bytes
    let side := b.drop f.bytes
    match s.mem.slot cap a f.bytes with
    | none => (s, some 4)
    | some slot =>
      if transitCrc data (Sidecar.ofBytes side) ≠ sideCrc side then (s, some 3)
      else (s.commitBlock cap a slot data (withCrc side (flipCrc (sideCrc side) (checkAddr cap a))) 0, none)
  | _ => ({ s with buddy := { s.buddy with received := some b } }, none)

/-- Buffered bytes of the stream processed while an entry, an item or the ending is whole; `n` bounds the steps. -/
def State.rxDrain : Nat → State → State
  | 0, s => s
  | n + 1, s =>
    let b := s.buddy
    let eat := fun (k : Nat) => { b with rxBuf := b.rxBuf.drop k, rxCrc := crcRefl crc32cPoly b.rxCrc (b.rxBuf.take k) }
    if !b.rxOn then s
    else if 0 < b.rxLeft then
      let k := tlItemBytes b.rxEntry
      if b.rxBuf.length < k then
        -- a stream that ends inside an entry is one that a source check has stopped (R377; log 40)
        if b.rxEnd = some b.rxPos then s.rxDone 3 [b.rxIndex - 1, b.rxItem] else s
      else
        let r := s.rxStore b.rxEntry b.rxItem (b.rxBuf.take k)
        match r.2 with
        | some st => r.1.rxDone st [b.rxIndex - 1, b.rxItem]
        | none =>
          State.rxDrain n { r.1 with buddy := { eat k with
            received := r.1.buddy.received, rxLeft := b.rxLeft - 1, rxItem := b.rxItem + 1 } }
    else if 32 ≤ b.rxBuf.length then
      let w := leAt b.rxBuf 0 32
      if tlEntryOk w true then
        State.rxDrain n { s with buddy := { eat 32 with
          rxEntry := w, rxLeft := tlCount w, rxItem := 0, rxIndex := b.rxIndex + 1 } }
      else s.rxDone 2 [b.rxIndex, 0]
    else if b.rxEnd = some b.rxPos ∧ b.rxBuf.length = 8 then
      if leAt b.rxBuf 0 4 = b.rxCrc ^^^ 0xFFFFFFFF ∧ leAt b.rxBuf 4 4 = 0 then s.rxDone 0 [] else s.rxDone 5 []
    else if b.rxEnd = some b.rxPos then s.rxDone 5 []
    else s

/-- Bytes put in order, with the flits held that follow them; `n` bounds the flits. -/
def BuddyState.rxTake : Nat → BuddyState → List Byte → BuddyState
  | 0, b, _ => b
  | n + 1, b, bytes =>
    let b1 := { b with rxBuf := b.rxBuf ++ bytes, rxPos := b.rxPos + bytes.length }
    match Store.find b1.rxLate b1.rxPos with
    | none => b1
    | some x => BuddyState.rxTake n { b1 with rxLate := Store.erase b1.rxLate b1.rxPos } x

/-- A flit of a state stream that arrived on a port from device `src`: placed by OFFSET, and acknowledged unless it made the stream fail
(R376, R377; log 40). -/
def State.takeStateFlit (s : State) (p src offset : Nat) (last : Bool) (bytes : List Byte) : State :=
  if s.buddy.tx.isSome then
    if bytes.length = 8 then s.txAcked (leNat bytes) else if bytes.length = 16 then s.txStopped bytes else s
  else if !s.buddy.rxOn then s
  else
    let b := s.buddy
    let d := (offset + 2 ^ 23 - b.rxPos % 2 ^ 23) % 2 ^ 23
    let b0 := if last && decide (d < 2 ^ 22) then { b with rxEnd := some (b.rxPos + d + bytes.length) } else b
    let b1 :=
      if d = 0 then BuddyState.rxTake (b0.rxLate.length + 1) b0 bytes
      else if d < 2 ^ 22 then { b0 with rxLate := Store.insert b0.rxLate (b.rxPos + d) bytes }
      else b0
    let ack := engineFlit (s.engineHead src 0xFE true 6 0 8 false) (leBytes 8 b1.rxPos)
    let s1 := ({ s with buddy := { b1 with rxPeer := some (p, src), rxAck := some ack, rxAckTick := s.tick } }).rxDrain (b1.rxBuf.length + 2)
    if !s1.buddy.rxOn && s1.buddy.lastStatus != 0 then s1 else s1.queueXfer p ack

/-! Pier records (R369, R370, R385, R392). -/

/-- A thread of a record (R369). One that the record shows as never started begins at its entry (log 41). -/
def recThread (b : List Byte) : ThreadArch :=
  let w := leAt b 124 4
  let st : TState := match fld w 23 3 with
    | 1 => .ready
    | 2 => .wait
    | 3 => .done
    | 4 => .faulted
    | _ => .inactive
  { st := st
    g := (upTo 31).foldl (fun m i => Store.set 0#32 m (i + 1) (BitVec.ofNat 32 (leAt b (4 * i) 4))) []
    pc := fld w 0 23
    fl := ⟨bitAt w 26, bitAt w 27, bitAt w 28, bitAt w 29, bitAt w 30⟩
    started := fld w 0 23 != 0 || fld w 23 3 != 0 }

/-- A magnitude and exponent in the layout of SUM1. -/
def sum1Of (b : List Byte) (o : Nat) : Nat × Int := (leAt b o 6, sext 16 (leAt b (o + 6) 2))

/-- A tracked tensor as a record and its histories leave it (R309, R369, R376): after a step pier its accumulator is clear (R310; log
41). -/
def recAmax (a : Amax) (r : List Byte) (hist : List (Nat × Int)) (step : Bool) : Amax :=
  let cur := if step then (0, -256) else sum1Of r 0
  { a with cur := cur, curCopy := cur, hist := hist, floor := sext 8 (leAt r 16 1), valid := leAt r 17 1 }

/-- An engine's position as a record leaves it: the place in its share follows from the blocks begun (R316, R321, R369). -/
def State.recPos (s : State) (e : Nat) (b : List Byte) : UpdPos :=
  let g := s.updGroup (leAt b 6 2)
  let done := leAt b 0 4
  let at_ := if leAt b 20 1 ≠ 2 ∧ leAt b 20 1 ≠ 3 then (0, 0) else s.mem.shareAfter g e done 0 0
  { active := leAt b 20 1 == 2 || leAt b 20 1 == 3, group := leAt b 6 2, step := leAt b 16 4, startSpan := leAt b 8 8, done := done
    bank := at_.1, block := at_.2, head := leAt b 4 1, applied := leAt b 5 1 }

/-- A context's ceilings as a record gives them (log 31). -/
def State.recCtx (s : State) (b : List Byte) : State :=
  let id := leAt b 0 2
  if id = 0 then s
  else s.setCtx id { s.ctxOf id with grace := leAt b 2 1, devQ := leAt b 4 4, capQ := leAt b 8 4, keyQ := leAt b 12 2 }

/-- Whether a record fits this device and its image (R385). -/
def State.recFits (s : State) (r : List Byte) : Bool :=
  pierCrcOk r && leAt r 0 4 == 0x44524350 && leAt r 4 2 == s.devId && leAt r 16 8 == s.img.digest

/-- A record installed with the histories that go with it (R385, R392): `seq` and `step` are those of the record or their
overrides. -/
def State.install_ (s : State) (r : List Byte) (hist : Nat → List (Nat × Int)) (seq step skipk : Nat) : State :=
  let part := fun (o n : Nat) => (r.drop o).take n
  let s1 := (upTo 4096).foldl (fun a g =>
    let x := recThread (part (0x100 + 128 * g) 128)
    let y := a.thread (g / 16) (g % 16)
    a.setThread (g / 16) (g % 16) { y with
      a := x, rewind := some x, pierCopy := none, held := none, ctx := none, home := none, ecc := [] }) s
  let s2 := (upTo 16384).foldl (fun a k =>
    if (a.key k).kind = 0 then a
    else
      let v := leAt r (0x80100 + 8 * k) 4
      let ph := leAt r (0x80104 + 8 * k) 2
      a.setKey k { a.key k with value := v, phase := ph, sealedValue := v, sealedPhase := ph }) s1
  let s3 := (upTo 1024).foldl (fun a c => a.recCtx (part (0xB8900 + 16 * c) 16)) s2
  let agreed := (upTo 4).map (fun a =>
    let v := leAt r (0xB8180 + 128 * a) 128
    if a < skipk then setBit v 0 else v)
  let stepPier := bitAt (leAt r 37 1) 0
  -- the local vector is clear after a step pier (R312; log 41)
  let skip := if stepPier then 0 else leAt r 0xB8100 128
  { s3 with
    train := { s3.train with
      step := step, stepCopy := step, skip := skip, skipCopy := skip, skipAcc := 0, agreed := agreed, keptAmax := []
      amax := Store.mapVals (fun t a => recAmax a (part (0xA0100 + 24 * t) 24) (hist t) stepPier) s3.train.amax
      engines := (upTo 8).foldl (fun m e =>
        let p := s3.recPos e (part (0xB8500 + 128 * e) 128)
        let x : UpdEngine := Store.get {} s3.train.engines e
        Store.set {} m e { x with pos := p, copy := p, cur := none, ahead := [], tail := [], undo := [], subst := [] }) s3.train.engines
      seepSeq := leAt r 40 8, seepAck := leAt r 48 8 }
    pwr := { s3.pwr with imagePoint := leAt r 36 1 }
    sch := { s3.sch with seq := seq, adopted := true, p0Sealed := false
                         phase := if s3.sch.phase == Phase.test then Phase.test else .recovery } }

/-- A list of histories in the order of a stream, by tensor. -/
def histAt (b : List Byte) (t : Nat) : List (Nat × Int) := (upTo 16).map (fun i => sum1Of b (128 * t + 8 * i))

/-- The end of ADOPT or SELF_RESTORE with a status. -/
def State.adoptEnd (s : State) (n status : Nat) : State :=
  ({ s with buddy := { s.buddy with lastStatus := status } }).mbxReply n status []

/-- ADOPT of a record with its checks (R379, R385, R392). -/
def State.adoptRec (s : State) (n : Nat) (r : List Byte) (hist : Nat → List (Nat × Int)) (seqOver stepOver : Option Nat)
    (skipk : Nat) : State :=
  let seq := leAt r 24 8
  if !s.recFits r then s.adoptEnd n 7
  else
    let first := seqOver.getD seq
    if (first + (s.img.spans.length - seq % s.img.spans.length)) % s.img.spans.length ≠ 0 then s.adoptEnd n 8
    else (s.install_ r hist first (stepOver.getD (leAt r 32 4)) (if skipk ≤ 4 then skipk else 4)).adoptEnd n 0

/-- Own histories as the device keeps them (R376, R385). -/
def State.ownHist (s : State) (t : Nat) : List (Nat × Int) :=
  (Store.get {} (if s.train.keptAmax.isEmpty then s.train.amax else s.train.keptAmax) t : Amax).hist

/-- A core's and an engine-free restore from the carve-outs (R387 step 1). -/
def State.carveRestore (s : State) : State :=
  let s1 := { s with cores := Store.mapVals (fun _ k => k.restoreLines) s.cores }
  (s1.cores.flatMap (fun p => p.2.undo.devs)).foldl (fun l r => recInsert r l) [] |>.foldl (fun a r => a.restoreRec r) s1

/-- Which line records are applied before an uncorrectable carve-out error is found is left open (R387; log 6). -/
def State.restoreSomeLines (s : State) : State :=
  (s.cores.flatMap (fun p => p.2.undo.lines.map (fun r => (p.1, r)))).foldl (fun a x =>
    let f := a.free
    if f.1.toNat % 2 = 1 then f.2.modCore x.1 (fun k => k.poke (x.2.1 * 64) x.2.2) else f.2) s

end Sys2Proof.Machine
end

