-- ==== Sys2Proof/Machine/UpdateOps.lean ====
section
/-! DEFINITION. The update unit's operations (R316 to R328, R341, R359): reads and their checks, constants, the version bitmap,
undo areas, replica digests, the commit of a block, and the end of a sweep. -/

namespace Sys2Proof.Machine

open Sys2Proof

/-- An update engine. -/
def State.eng (s : State) (e : Nat) : UpdEngine := Store.get {} s.train.engines e

/-- An update engine replaced. -/
def State.setEng (s : State) (e : Nat) (x : UpdEngine) : State :=
  { s with train := { s.train with engines := Store.set {} s.train.engines e x } }

/-- An update engine changed. -/
def State.modEng (s : State) (e : Nat) (f : UpdEngine → UpdEngine) : State := s.setEng e (f (s.eng e))

/-! The version bitmap (R316). -/

/-- The number of a block's version bit. -/
def verBit (g : List Byte) (v i : Nat) : Nat := ugVoff g + v * ugCount g + i

/-- A block's version bit. -/
def State.version (s : State) (g : List Byte) (v i : Nat) : Bool :=
  bitAt (leNat (s.memBytes false (s.verAt (verBit g v i)) 1)) (verBit g v i % 8)

/-- A version bit set to the parity of a step by engine `e`, with no log: the other bits of its byte keep what the other engines wrote,
at this tick too (R291, R325). -/
def State.putVersion (s : State) (e : Nat) (g : List Byte) (v i step : Nat) : State :=
  let a := s.verAt (verBit g v i)
  let m := s.mergeBlock false a 1 noSlot
  if !m.2.1.isEmpty then m.1
  else
    let b := leNat (m.1.memBytes false a 1)
    let n := verBit g v i % 8
    (m.1.memPoke false a (leBytes 1 (if step % 2 = 1 then setBit b n else clrBit b n))).noteStore
      ⟨false, a, 1, noSlot, 257 + e, m.1.oldBytes false a 1 (257 + e), []⟩

/-- What store `(space, address, bytes, slot)` waits for: refresh windows, and loads of this tick (R200, R291, R301). -/
def State.storeTurn (s : State) (t : Bool × Nat × Nat × Nat) : State :=
  (s.refWait t.1 t.2.1 t.2.2.1 t.2.2.2).afterLoads t.1 t.2.1 t.2.2.1 t.2.2.2

/-- A record put into an engine's undo area (R341). -/
def State.updLog (s : State) (e : Nat) (r : DevRec) : State := s.modEng e (fun x => { x with undo := x.undo ++ [r] })

/-- A hardware fault of an engine for a line that cannot be corrected, beside a slot's block (R286, R323). -/
def State.updLineFault (s : State) (e : Nat) (g : List Byte) (v i : Nat) : State :=
  s.updFault e .hw 3 0 (s.eng e).pos.group i 0 v (ugCtx g + v)

/-- Old bytes of the 64-bit bitmap word of a block logged, then its version bit set (R325, R341). -/
def State.setVersion (s : State) (e : Nat) (g : List Byte) (v i step : Nat) : State :=
  let a := s.verAt (verBit g v i) / 8 * 8
  let o := s.undoRead false a 8 noSlot (257 + e)
  let z := if o.2.2.2 then o.1.updLineFault e g v i else o.1
  (z.updLog e ⟨a, false, o.2.1, [], z.tick, 256 + e⟩).putVersion e g v i step

/-- A block's version bit read from the bitmap (R286, R316). -/
def State.versionRead (s : State) (e : Nat) (g : List Byte) (v i : Nat) : State × Bool :=
  let r := s.rawLoad (s.verAt (verBit g v i)) 1
  (if r.2.2 then r.1.updLineFault e g v i else r.1, bitAt (leNat r.2.1) (verBit g v i % 8))

/-! Withheld blocks (R313, R324). -/

/-- Whether a bank is skipped: by the agreed vector of the sweep's step (R312, R313). -/
def State.bankSkipped (s : State) (g : List Byte) (v step : Nat) : Bool :=
  skipped (s.train.agreed.getD (s.train.step - 1 - step) 0) (ugCtx g + v)

/-! Reads (R316, R323). -/

/-- The slots a group reads: those its program loads and those the Seep exports. -/
def State.updReads (s : State) (g : List Byte) : List Nat :=
  (upTo 5).filter (fun k => (uiLoads (s.updProg g)).contains k || bitAt (ugSeep g) k)

/-- A slot block as the engine reads it (R323, R341): the checks in order, and in a replay the block's contents from the undo
area in place of capacity memory. -/
def State.updRead (s : State) (e : Nat) (g : List Byte) (k v i step : Nat) : State × UpdIn :=
  let cap := ugSpace g k == 2
  let a := ugAddr g k v i step
  let n := ugBytes g k
  let ctx := ugCtx g + v
  match s.mem.slot cap a n with
  | none => (s, { bad := 5 })
  | some slot =>
    if !s.pageOk cap ctx a n false then (s, { bad := 5 })
    else
      let r := match (s.eng e).subst.find? (fun x => cap && x.addr == a) with
        | some x => (s, (⟨x.data, Sidecar.ofBytes x.side, x.side, checkAddr cap a, false⟩ : MemBlock))
        | none => s.memRead cap a n slot
      let b := r.2
      let bad :=
        if b.bad || !r.1.storedOk cap a b then 3
        else match loadFmtCheck (ugFmt g k) ctx (r.1.ctxOf ctx).gen b.side with
          | some (.hw, _) => 3
          | some _ => 6
          | none => 0
      (r.1, ⟨b.data, b.sideRaw, bad⟩)

/-- Every slot a group reads, in ascending order. -/
def State.updReadAll (s : State) (e : Nat) (g : List Byte) (v i step : Nat) : State × Store UpdIn :=
  (s.updReads g).foldl (fun p k =>
    let r := p.1.updRead e g k v i step
    (r.1, p.2 ++ [(k, r.2)])) (s, [])

/-- A block read as wide values (R318): a ZEROED block is 64 zeros at exponent −128 (R45). -/
def UpdIn.wide (x : UpdIn) (f : Fmt) : Wide :=
  let c := Sidecar.ofBytes x.side
  let z := List.replicate 64 false
  if c.fmt = fmtZeroed then ⟨List.replicate 64 0, -128, z⟩ else ⟨unpackBlock f x.data, c.exp, z⟩

/-! Blocks and sweeps. -/

/-- The group of the sweep an engine runs. -/
def State.engGroup (s : State) (e : Nat) : List Byte := s.updGroup (s.eng e).pos.group

/-- The sweep of an engine ends where its share holds no further block and none is in flight (R321, R334). -/
def State.sweepEnd (s : State) (e : Nat) : State :=
  let p := (s.eng e).pos
  if p.active && !(s.eng e).busy && (s.mem.nextShare (s.engGroup e) e p.bank p.block).isNone then
    (s.modEng e (fun x => { x with pos := { x.pos with active := false, faulted := [] } })).setInt (pgUPD e) 0
  else s

/-- A fault on the block an engine carries (R323). -/
def State.blockFault (s : State) (e : Nat) (cls : FClass) (cause slot : Nat) : State :=
  match (s.eng e).cur with
  | none => s
  | some b => s.updFault e cls cause slot (s.eng e).pos.group b.block b.pc b.bank (ugCtx (s.engGroup e) + b.bank)

/-- Withheld blocks of a bank counted, unless its context is CLOSING (R324). -/
def State.countWithheld (s : State) (e bank n : Nat) : State :=
  if n = 0 ∨ (s.ctxOf (ugCtx (s.engGroup e) + bank)).st = .closing then s else s.cnt (pgUPD e) 0x78 n

/-- A context fault on the block: it makes no writes, and its bank's remaining blocks, those being read among them, are withheld
(R323, R324). -/
def State.bankFault (s : State) (e cause slot : Nat) : State :=
  match (s.eng e).cur with
  | none => s
  | some b =>
    let s1 := (s.blockFault e .ctx cause slot).modEng e (fun x => { x with pos := { x.pos with faulted := x.pos.faulted ++ [b.bank] } })
    let held := ((s1.eng e).ahead.takeWhile (fun x => (s1.eng e).pos.faulted.contains x.bank)).length
    ((s1.modEng e (·.turn)).countWithheld e b.bank held).sweepEnd e

/-- What a check that failed does (R323): a hardware fault lets the block go on, since the span is replayed. -/
def State.readFault (s : State) (e bad slot : Nat) (k : State → State) : State :=
  if bad = 0 then k s
  else if bad = 3 then k (s.blockFault e .hw 3 slot)
  else s.bankFault e bad slot

/-! Executing a program (R318 to R320). -/

/-- The block whose program an engine executes and the instruction word it is at, in a span. -/
def State.updAt (s : State) (e : Nat) : Option (UpdBlock × Nat) :=
  if !s.inSpan then none
  else match (s.eng e).cur with
  | none => none
  | some b => ((s.updProg (s.engGroup e))[b.pc]?).map (fun w => (b, w))

/-- The checks of an engine's arithmetic, its duplicated logic and its stores as an instruction executes: 1 a residue mismatch, 2 a
duplicate mismatch, 4 a store word that cannot be corrected (R323, R334; log 56). -/
def State.updCompare (s : State) (e : Nat) : State :=
  match s.takeSlip (pgUPD e) with
  | (none, _) => s
  | (some d, s1) =>
    if d = 4 then s1.blockFault e .hw 4 0
    else if d = 1 then
      if bitAt (s1.reg (pgUPD e) 0x40) 0 then (s1.cnt (pgUPD e) 0x80 1).blockFault e .hw 1 0 else s1
    else if bitAt (s1.reg (pgUPD e) 0x40) 1 then (s1.cnt (pgUPD e) 0x84 1).blockFault e .hw 2 0 else s1

/-- The machine as an engine executes an instruction: at the instruction's tick, one per tick from the program's first, if time has not
passed it (R321), and with its checks made. -/
def State.updTurn (s : State) (e : Nat) : State :=
  match (s.eng e).cur with
  | none => s
  | some b => (elapseTo (b.runs + b.pc) s).updCompare e

/-- Wide register and predicates of an engine. -/
def UpdEngine.reg (x : UpdEngine) (r : Nat) : Wide := Store.get {} x.u r
def UpdEngine.pred (x : UpdEngine) (r : Nat) : List Bool := Store.get (List.replicate 64 false) x.p r

/-- A result in RD: wide value and predicates; the program moves on, and a draw is counted. -/
def UpdEngine.result (x : UpdEngine) (b : UpdBlock) (w : Nat) (v : Wide) (p : List Bool) : UpdEngine :=
  { x with u := Store.set {} x.u (uiRd w) v, p := Store.set (List.replicate 64 false) x.p (uiRd w) p
           cur := some { b with pc := b.pc + 1, uses := b.uses + b2n (uiDraws w) } }

/-- The generator words of the next use of an engine's program (R320). -/
def State.updGen (s : State) (e : Nat) (b : UpdBlock) (j : Nat) : Nat :=
  genWord s.img.seed (ugStream (s.engGroup e) + e) (s.eng e).pos.startSpan b.uses b.ordinal j

/-- The generator words where RND asks for them. -/
def State.updRnd (s : State) (e : Nat) (b : UpdBlock) (w : Nat) : Option (Nat → Nat) :=
  if uiDraws w then some (s.updGen e b) else none

/-- Constant K of the group: with KBANK, K0 to K3 lie at KBASE + 16 × bank and are read from there (R200, R286, R315). -/
def State.updConst (s : State) (e bank k : Nat) : State × Int × Int :=
  let g := s.engGroup e
  if ugKbank g = 1 ∧ k < 4 then
    let r := s.rawLoad (ugKbase g + 16 * bank + 4 * k) 4
    (if r.2.2 then r.1.blockFault e .hw 3 0 else r.1, sext 24 (leNat (r.2.1.take 3)), sext 8 (leNat (r.2.1.drop 3)))
  else (s, ugConst g k)

/-- What `f` makes of the engine's block where it is at an instruction of OP `op`, at that instruction's tick. -/
def State.updDo (s : State) (e op : Nat) (f : State → UpdBlock → Nat → State) : State :=
  match s.updAt e with
  | none => s
  | some (b, w) => if uiOp w ≠ op then s else f (s.updTurn e) b w

/-- An instruction of OP `op` on the engine's block: its result from the engine, the block and the word. -/
def State.updExec (s : State) (e op : Nat) (f : UpdEngine → UpdBlock → Nat → Wide × List Bool) : State :=
  s.updDo e op (fun z b w =>
    let x := z.eng e
    let r := f x b w
    z.setEng e (x.result b w r.1 r.2))

/-- A result that keeps RA's predicates (log 47). -/
def State.updCalc (s : State) (e op : Nat) (f : Wide → Wide → UpdBlock → Nat → Wide) : State :=
  s.updExec e op (fun x b w => (f (x.reg (uiRa w)) (x.reg (uiRb w)) b w, x.pred (uiRa w)))

/-- An instruction with a constant that keeps RA's predicates (R319). -/
def State.updCalcK (s : State) (e op : Nat) (f : Wide → Int × Int → Wide) : State :=
  s.updDo e op (fun z b w =>
    let k := z.updConst e b.bank (uiK w)
    let x := k.1.eng e
    k.1.setEng e (x.result b w (f (x.reg (uiRa w)) k.2) (x.pred (uiRa w))))

/-- Free lanes: 64 values of S48 (log 6, log 47). -/
def State.freeLanes (s : State) : State × List Int :=
  (upTo 64).foldl (fun p _ =>
    let a := p.1.free
    let b := a.2.free
    (b.2, p.2 ++ [sext 48 (a.1.toNat + b.1.toNat % 2 ^ 16 * 2 ^ 32)])) (s, [])

/-- CLIP: RA at the common exponent with K, clamped to [−K, K] (R318). -/
def clipWide (a : Wide) (k ke : Int) : Wide :=
  let b := immBlock k ke
  let r := alignLanes a.v a.e 48 b.v b.e 24
  let m := r.2.1.headD 0
  Wide.clamped (r.1.map (clampI (-m) m)) r.2.2 a.sat

/-! Replica digests (R359). -/

/-- The CRC-64 of a message followed by `n` zero bytes, from that of the message. -/
def crc64Pad : Nat → Nat → Nat
  | 0, c => c
  | n + 1, c => crc64Pad n (crcFwdBits 64 0x42F0E1EBA9EA3693 8 c)

/-- Neighbouring windows joined: digests with the bytes they cover. -/
def joinWindows : List (Nat × Nat) → List (Nat × Nat)
  | a :: b :: l => (crc64Pad b.2 a.1 ^^^ b.1, a.2 + b.2) :: joinWindows l
  | l => l

/-- A commit's bytes put into the digest and the window digests, and its voted blocks into the list of commits. -/
def UpdPos.digested (p : UpdPos) (blocks : List VoteBlock) (bytes : List Byte) : UpdPos :=
  let j0 := winLog p.commits 40 0
  let j := winLog (p.commits + 1) 40 0
  let ws := p.windows.zip p.winBytes
  let ws1 := if j0 < j then joinWindows ws else ws
  let i := p.commits / (4096 * 2 ^ j)
  let ws2 := if i < ws1.length then modAt (fun w => (crc64 w.1 bytes, w.2 + bytes.length)) ws1 i
    else ws1 ++ [(crc64 0 bytes, bytes.length)]
  { p with
    digest := crc64 p.digest bytes, windows := ws2.map (·.1), winBytes := ws2.map (·.2), commits := p.commits + 1
    log := blocks :: p.log }

/-! Commits (R325, R326, R329, R341). -/

/-- The outputs of a block in ascending slot. -/
def UpdBlock.sorted (b : UpdBlock) : List (Nat × List Byte × List Byte) :=
  (upTo 5).filterMap (fun k => (Store.find b.outs k).map (fun o => (k, o.1, o.2)))

/-- A journal record (R326). -/
def jrnlRecord (step group bank block : Nat) (outs : List (Nat × List Byte × List Byte)) : List Byte :=
  let head := leBytes 4 step ++ leBytes 2 group ++ leBytes 2 bank ++ leBytes 4 block ++
    leBytes 1 (outs.foldl (fun m o => m + 2 ^ o.1) 0) ++ List.replicate 3 0#8
  let body := outs.flatMap (fun o => o.2.1 ++ o.2.2)
  let rest := List.replicate 44 0#8 ++ body ++ List.replicate (jrnlBytes - 64 - body.length) 0#8
  head ++ leBytes 4 (crc32c (head ++ leBytes 4 0 ++ rest)) ++ rest

/-- Whether a journal record is valid. -/
def jrnlValid (r : List Byte) : Bool := crc32c (r.take 16 ++ leBytes 4 0 ++ r.drop 20) == leAt r 16 4

/-- The Seep's BLOCK records of a block (R329): one for each exported slot whose new bytes differ from the old. -/
def State.seepBlocks (s : State) (e : Nat) (b : UpdBlock) : State :=
  let g := s.engGroup e
  b.sorted.foldl (fun a o =>
    if !bitAt (ugSeep g) o.1 then a
    else
      let old : UpdIn := Store.get {} b.ins o.1
      let x := seepXor o.2.1 old.data o.2.2 old.side
      if x.all (fun c => c == 0#8) then a
      else a.seepHold ⟨seepRecord 1 (o.1 + ugFmt g o.1 * 16) (a.eng e).pos.step (a.eng e).pos.group b.bank b.block x,
        0, a.tick, e, o.1⟩) s

/-- The journal record written at HEAD; the slot's old contents are logged at its first write in the span. -/
def State.putJournal (s : State) (e : Nat) (b : UpdBlock) : State :=
  let a := s.jrnlAt e (s.eng e).pos.head
  let first := !(s.eng e).undo.any (fun r => !r.capacity && r.side.isEmpty && r.addr == a && r.data.length == jrnlBytes)
  let s1 :=
    if first then
      let o := s.undoRead false a jrnlBytes noSlot (257 + e)
      (if o.2.2.2 then o.1.updLineFault e (s.engGroup e) b.bank b.block else o.1).updLog e ⟨a, false, o.2.1, [], s.tick, 256 + e⟩
    else s
  let x := s1.eng e
  (s1.setEng e { x with pos := { x.pos with head := (x.pos.head + 1) % jrnlRecords } }).mergeRaw a
    (jrnlRecord x.pos.step x.pos.group b.bank b.block b.sorted) (257 + e)

/-- A block store of an engine, through its own write buffer: partial lines merged (R291, R292). -/
def State.updStore (s : State) (e : Nat) (cap : Bool) (a slot : Nat) (data side : List Byte) : State :=
  s.mergeStore cap a slot data side (257 + e)

/-- One output written in place, its old block logged: for capacity memory, the contents the replay stood on. -/
def State.putOutput (s : State) (e : Nat) (b : UpdBlock) (o : Nat × List Byte × List Byte) : State :=
  let g := s.engGroup e
  let cap := ugSpace g o.1 == 2
  let a := ugAddr g o.1 b.bank b.block (s.eng e).pos.step
  match s.mem.slot cap a o.2.1.length with
  | none => s
  | some slot =>
    let old : State × DevRec := match (s.eng e).subst.find? (fun r => cap && r.addr == a) with
      | some r => (s, { r with tick := s.tick, order := 256 + e })
      | none =>
        let u := s.undoRead cap a o.2.1.length slot (257 + e)
        (if u.2.2.2 then u.1.updLineFault e g b.bank b.block else u.1, ⟨a, cap, u.2.1, u.2.2.1, s.tick, 256 + e⟩)
    let x := old.1.eng e
    (old.1.setEng e { x with undo := x.undo ++ [old.2], subst := x.subst.filter (fun r => !(cap && r.addr == a)) }).updStore e cap a slot
      o.2.1 o.2.2

/-- What a commit of an engine writes: space, address, bytes and slot of the journal record, of each output and of the bitmap word. -/
def State.commitStores (s : State) (e : Nat) (b : UpdBlock) : List (Bool × Nat × Nat × Nat) :=
  let g := s.engGroup e
  let p := (s.eng e).pos
  (false, s.jrnlAt e p.head, jrnlBytes, noSlot) :: b.sorted.filterMap (fun o =>
    let cap := ugSpace g o.1 == 2
    let a := ugAddr g o.1 b.bank b.block p.step
    (s.mem.slot cap a o.2.1.length).map (fun k => (cap, a, o.2.1.length, k))) ++
    [(false, s.verAt (verBit g b.bank b.block) / 8 * 8, 8, noSlot)]

/-- The oldest block whose END has executed committed in the order of R325, at one tick: once none of its stores has to wait. -/
def State.commitUpd (s : State) (e : Nat) (b : UpdBlock) : State :=
  let g := s.engGroup e
  let voted := b.sorted.filter (fun o => o.1 == 0 || o.1 == 4)
  let digest := voted.flatMap (fun o => o.2.1 ++ o.2.2.take 2)
  let blocks := voted.map (fun o => ⟨e, (s.eng e).pos.group, o.1, b.bank, b.block⟩)
  let s1 := (((s.commitStores e b).foldl State.storeTurn s).seepBlocks e b).putJournal e b
  let s2 := b.sorted.foldl (fun a o => a.putOutput e b o) s1
  let s3 := s2.setVersion e g b.bank b.block (s2.eng e).pos.step
  let s4 := s3.modEng e (fun x =>
    { x with tail := x.tail.drop 1, pos := { x.pos.digested blocks digest with applied := (x.pos.applied + 1) % jrnlRecords } })
  (s4.cnt64 (pgUPD e) 0x70 1).sweepEnd e

/-! Journal replay (R327). -/

/-- The outputs of a journal record: slot, data and sidecar. -/
def jrnlOuts (g r : List Byte) : List (Nat × List Byte × List Byte) :=
  ((setBits 5 (leAt r 12 1)).foldl (fun (p : List Byte × List (Nat × List Byte × List Byte)) k =>
    let n := ugBytes g k
    (p.1.drop (n + 8), p.2 ++ [(k, p.1.take n, (p.1.drop n).take 8)])) (r.drop 64, [])).2

/-- An output of a journal record written again (R327): slot, bytes and sidecar. -/
def State.replayOut (e : Nat) (g : List Byte) (v b step : Nat) (s : State) (o : Nat × List Byte × List Byte) : State :=
  let cap := ugSpace g o.1 == 2
  let at_ := ugAddr g o.1 v b step
  match s.mem.slot cap at_ o.2.1.length with
  | none => s
  | some slot => (s.storeTurn (cap, at_, o.2.1.length, slot)).updStore e cap at_ slot o.2.1 o.2.2

/-- One record reapplied, if it is valid and of the current sweep's step. -/
def State.replayRecord (s0 : State) (e i : Nat) : State :=
  let l := s0.rawLoad (s0.jrnlAt e i) jrnlBytes
  let r := l.2.1
  let p := (s0.eng e).pos
  let s := if l.2.2 then l.1.updLineFault e (s0.updGroup (leAt r 4 2)) (leAt r 6 2) (leAt r 8 4) else l.1
  if l.2.2 || !jrnlValid r || leAt r 0 4 != p.step then s
  else
    let g := s.updGroup (leAt r 4 2)
    let v := leAt r 6 2
    let b := leAt r 8 4
    let s1 := (jrnlOuts g r).foldl (State.replayOut e g v b p.step) s
    ((s1.storeTurn (false, s1.verAt (verBit g v b), 1, noSlot)).putVersion e g v b p.step).cnt (pgUPD e) 0x7C 1

/-- Every record from APPLIED to HEAD − 1. -/
def State.replayJournal (s : State) (e : Nat) : State :=
  let p := (s.eng e).pos
  let n := (p.head + jrnlRecords - p.applied) % jrnlRecords
  let before := s.reg (pgUPD e) 0x7C
  let s1 := (upTo n).foldl (fun a i => a.replayRecord e ((p.applied + i) % jrnlRecords)) s
  let s2 := s1.modEng e (fun x => { x with jreplay := false, pos := { x.pos with applied := x.pos.head } })
  if s2.reg (pgUPD e) 0x7C = before then s2 else s2.setInt (pgUPD e) 2

end Sys2Proof.Machine
end

