-- ==== Sys2Proof/Machine/Buddy.lean ====
section
/-! DEFINITION. The buddy store, the state mover's commands, admission and dark neighbours (R371 to R392). -/

namespace Sys2Proof.Machine

open Sys2Proof

/-- The flits of a pier record with the lane each travels on (R372): flit `k` on lane k mod 2, in positions 0 to 27 of slots 2
to 59. -/
def State.recFlit (s : State) (r : List Byte) (dest k : Nat) : Flit :=
  let body := (r.drop (240 * k)).take 240
  engineFlit (s.engineHead dest 0xFD false 0 (240 * k) body.length false) body

/-- One lane of a record sent: `lane` 0 or 1 on physical port `p`. -/
def State.sendLane (s : State) (r : List Byte) (lane p : Nat) : State :=
  (upTo 1610).foldl (fun a i =>
    let k := 2 * i + lane
    if k < 3219 then a.sendFlit p (s.pierFirst + 32 * (2 + i / 28)) (i % 28) (s.recFlit r (s.vport p).peerId k) else a) s

/-- BUDDY_SEND (R369, R371, R372): the pier record is formed and sent to the Y+ neighbour. -/
def execBuddySend (s : State) : Host.Outcome State Fault Refusal :=
  .next (
    if s.sch.job ≠ .running ∨ s.sch.place ≠ .pier ∨ s.extentY < 2 ∨ s.buddy.ownPending.isSome = true then s
    else
      let s1 := elapseTo (s.pierFirst + 64) s
      let r := s1.pierRecord
      let s2 := { s1 with buddy := { s1.buddy with ownPending := some r } }
      let lane := fun (a : State) (i : Nat) =>
        let p := (a.pmap (8 + i)).phys
        if a.inPart p then a.sendLane r i p else a
      lane (lane s2 0) 1)

/-- A flit of the Y− neighbour's record that arrived in a pier frame (R372, R373). -/
def State.takeBuddyFlit (s : State) (p offset : Nat) (bytes : List Byte) : State :=
  if s.sch.job == .running && s.sch.place == .pier && (s.physOf yMinus).contains p && decide (offset + bytes.length ≤ pierBytes) then
    { s with buddy := { s.buddy with
      buddyPending := Store.setRun 0#8 s.buddy.buddyPending offset bytes, buddyGot := s.buddy.buddyGot + bytes.length } }
  else s

/-- Whether the ports a STATE_SEND names are a port, or the two lanes of one axis and direction (R378). -/
def sendPortsOk (w : Nat) : Bool :=
  let a := fld w 0 8
  let b := fld w 8 8
  decide (a < 20) && (!bitAt w 16 || (decide (a < 16) && a / 2 == b / 2 && a != b))

/-- A STATE_SEND of a well-formed list: its stream is formed and its sending begins, of what precedes an item that fails a source check
(R376, R377; log 40). -/
def State.sendList (s : State) (n : Nat) (es : List Nat) : State :=
  let w := s.mbxArg n 3
  let r := s.tlStream es 0
  let ports := if bitAt w 16 then [fld w 0 8, fld w 8 8] else [fld w 0 8]
  ({ r.1 with buddy := { r.1.buddy with
    tx := some (if r.2.2.isSome then r.2.1 else tlSeal r.2.1), txFail := r.2.2, txPorts := ports, txDest := s.mbxArg n 4 % 2 ^ 16
    txAck := 0, txNext := 0, txTries := 0, txTick := s.tick } }).txSend

/-- A list sent where its entries and its ports are well formed, else status 2 (R378). -/
def State.sendChecked (s : State) (n : Nat) (list : Option (List Nat)) (portsOk : Bool) : State :=
  match list with
  | none => ({ s with buddy := { s.buddy with lastStatus := 2 } }).mbxReply n 2 []
  | some es => if portsOk then s.sendList n es else ({ s with buddy := { s.buddy with lastStatus := 2 } }).mbxReply n 2 []

/-- STATE_SEND as the command of mailbox `n`: no further one while a stream is under way, status 1 outside LOADED and PARKED. -/
def State.takeStateSend (s : State) (n : Nat) : State :=
  if s.buddy.tx.isSome then s
  else if s.sch.job ≠ .loaded ∧ s.sch.job ≠ .parked then ({ s with buddy := { s.buddy with lastStatus := 1 } }).mbxReply n 1 []
  else s.sendChecked n (s.transferList (s.mbxArg64 n 1)) (sendPortsOk (s.mbxArg n 3))

/-- STATE_SEND (R376 to R378): list address, ports and DEST_ID (log 39). -/
def execStateSend (s : State) : Host.Outcome State Fault Refusal :=
  .next (match s.mbxRuns 0x40 with
    | none => s
    | some n => s.takeStateSend n)

/-- STATE_RECV (R376 to R378): one stream is awaited. -/
def execStateRecv (s : State) : Host.Outcome State Fault Refusal :=
  .next (match s.mbxRuns 0x41 with
    | none => s
    | some n =>
      if s.buddy.rxOn then s
      else if s.sch.job ≠ .loaded then ({ s with buddy := { s.buddy with lastStatus := 1 } }).mbxReply n 1 []
      else { s with buddy := { s.buddy with
        rxOn := true, rxPos := 0, rxBuf := [], rxCrc := 0xFFFFFFFF, rxLate := [], rxEnd := none, rxIndex := 0, rxEntry := 0
        rxLeft := 0, rxItem := 0, rxPeer := none, rxAck := none } })

/-- STATE_ACK (R376): the next byte the receiver expects. -/
def execStateAck (n : Nat) (s : State) : Host.Outcome State Fault Refusal := .next (s.txAcked n)

/-- STATE_RESEND (R376): 200 µs without progress; the eleventh time the transfer fails. -/
def execStateResend (s : State) : Host.Outcome State Fault Refusal :=
  .next (match s.buddy.tx with
    | none => s
    | some _ =>
      let s1 := elapseTo (s.buddy.txTick + 200000) s
      if 10 ≤ s1.buddy.txTries then s1.txEnd 5 []
      else
        ({ s1 with buddy := { s1.buddy with
          txTries := s1.buddy.txTries + 1, txNext := s1.buddy.txAck, txTick := s1.tick } }).txSend)

/-- The journal replays that a warm reset left due precede an adoption, which sets the engines' positions (R327). -/
def State.beforeAdopt (s : State) : State :=
  (upTo 8).foldl (fun a e => if (a.eng e).jreplay then a.replayJournal e else a) s

/-- ADOPT (R385, R392): source, overrides and SKIPK (log 39). -/
def execAdopt (s : State) : Host.Outcome State Fault Refusal :=
  .next (match s.mbxRuns 0x42 with
    | none => s
    | some n =>
      let w := s.mbxArg n 1
      let seqOver := if bitAt w 8 then some (s.mbxArg64 n 2) else none
      let stepOver := if bitAt w 9 then some (s.mbxArg n 4) else none
      if s.sch.job ≠ .loaded then s.adoptEnd n 1
      else if fld w 0 8 = 0 then
        match s.buddy.ownSealed with
        | none => s.adoptEnd n 6
        | some r => s.beforeAdopt.adoptRec n r s.ownHist seqOver stepOver (s.mbxArg n 5)
      else
        match s.buddy.received with
        | none => s.adoptEnd n 6
        | some r => s.beforeAdopt.adoptRec n (r.take pierBytes) (histAt (r.drop pierBytes)) seqOver stepOver (s.mbxArg n 5))

/-- SELF_RESTORE (R387): the carve-out's records, then the own sealed record; `ok` says that the carve-outs read correctly. -/
def execSelfRestore (ok : Bool) (s : State) : Host.Outcome State Fault Refusal :=
  .next (match s.mbxRuns 0x43 with
    | none => s
    | some n =>
      if s.sch.job ≠ .loaded then s.adoptEnd n 1
      else match s.buddy.ownSealed with
      | none => s.adoptEnd n 6
      | some r =>
        if ok then s.carveRestore.beforeAdopt.adoptRec n r s.ownHist none none 0
        else s.restoreSomeLines.adoptEnd n 9)

/-- PROBATION (R389). -/
def execProbation (s : State) : Host.Outcome State Fault Refusal :=
  .next (match s.mbxRuns 0x44 with
    | none => s
    | some n =>
      ({ s with buddy := { s.buddy with probation := s.mbxArg n 1 % 2 ^ 16, lastStatus := 0 } }).mbxReply n 0 [])

/-- Words of a 64-bit number. -/
def words64 (v : Nat) : List Nat := [v % 2 ^ 32, v / 2 ^ 32 % 2 ^ 32]

/-- STATE_STATUS (R378): last status, BEHIND, SEQ of the two sealed records, stream bytes moved (log 39). -/
def execStateStatus (s : State) : Host.Outcome State Fault Refusal :=
  .next (match s.mbxRuns 0x45 with
    | none => s
    | some n =>
      let seq := fun (r : Option (List Byte)) => match r with
        | none => 0
        | some b => leAt b 24 8
      s.mbxReply n 0 ([s.buddy.lastStatus, b2n s.buddy.behind] ++ words64 (seq s.buddy.ownSealed) ++
        words64 (seq s.buddy.buddySealed) ++ words64 s.buddy.moved))

/-- Physical ports of the torus that lead to a neighbour. -/
def State.portsTo (s : State) (nbr : Nat) : List Nat :=
  (upTo 20).filter (fun p => (s.vport p).nbr == nbr && !(s.vport p).retire && (match s.lport p with
    | some l => decide (l < 16) && (s.pmap l).mode == 1
    | none => false))

/-- NEIGHBOUR_DARK (R381): every port to a neighbour has left UP while the job runs. -/
def execNeighbourDark (nbr : Nat) (s : State) : Host.Outcome State Fault Refusal :=
  .next (
    let ports := s.portsTo nbr
    if (s.sch.job ≠ .running ∧ s.sch.job ≠ .rewinding) ∨ ports.isEmpty = true ∨ ports.any (fun p => s.linkUp p) = true ∨
        (Store.find s.buddy.dark nbr).isSome = true then s
    else
      ({ s with buddy := { s.buddy with dark := Store.insert s.buddy.dark nbr s.tick } }).raiseWith
        { tick := s.tick, floor := s.tick + 1000000 + s.flood + 64, second := true })

/-- NEIGHBOUR_WITHDRAW (R381): the ports are still dark after 1,000,000 ticks. -/
def execNeighbourWithdraw (nbr : Nat) (s : State) : Host.Outcome State Fault Refusal :=
  .next (match Store.find s.buddy.dark nbr with
    | none => s
    | some t =>
      let s1 := { s with buddy := { s.buddy with dark := Store.erase s.buddy.dark nbr } }
      if (s.portsTo nbr).any (fun p => s.linkUp p) || !(s.sch.job == .running || s.sch.job == .rewinding) then s1
      else (elapseTo (t + 1000000) s1).raiseWithdraw 5 nbr)

end Sys2Proof.Machine
end

