-- ==== Sys2Proof/Machine/Memory.lean ====
section
/-! DEFINITION. The commands of device and capacity memory (R283 to R306) and of the host's aperture (R422 to R424, R289). -/

namespace Sys2Proof.Machine

open Sys2Proof

/-- Whether memory may be repaired or trained (R298, R306). -/
def State.quietJob (s : State) : Bool := s.sch.job.quiet

/-! HBM stacks. -/

/-- A stack. -/
def State.stk (s : State) (n : Nat) : Stack := Store.get {} s.mem.stack n

/-- A stack replaced. -/
def State.setStk (s : State) (n : Nat) (k : Stack) : State :=
  { s with mem := { s.mem with stack := Store.set {} s.mem.stack n k } }

/-- An HBM command refused (R287, R298): cause 0x3, or 0x4 where spare resources are exhausted. -/
def State.hbmRefuse (s : State) (n cause : Nat) : State := (s.logErr (pgHBM n) (cause * 2 ^ 24) 0 0).setInt (pgHBM n) 2

/-- An HBM command that starts: OP and the place of HBM_RADDR. -/
def State.hbmStart (s : State) (n op : Nat) : State :=
  s.setStk n { s.stk n with cmd := some (op, s.reg (pgHBM n) 0x54) }

/-- Whether the sidecar configuration allows INIT (R287, R304): SIDECAR_GIB from 16 to 64, and room for every unit. -/
def State.sideFits (s : State) (mask : Nat) : Bool :=
  let g := s.reg (pgHBM 0) 0x44
  let units := ({ s.mem with stackMask := mask, sidecarGib := g } : MemState).userBytes / unitBytes
  decide (16 ≤ g) && decide (g ≤ 64) && decide (sideBase s.mem.granCfg units ≤ g * 2 ^ 30)

/-- Stacks that INIT takes into service: HBM_CFG.EN, unless the stack is of another kind (R283, R290). -/
def State.initMask (s : State) : Nat :=
  (upTo 8).foldl (fun m n => if bitAt (s.reg (pgHBM n) 0x40) 0 && !(s.stk n).odd then m + 2 ^ n else m) 0

/-- HBM_INIT (R287, R290, R304). -/
def execHbmInit (m : Master) (n : Fin 8) (s : State) : Host.Outcome State Fault Refusal :=
  .next (s.lk m (pgHBM n) 0x50 (fun s =>
    if n.val ≠ 0 ∨ s.sch.job ≠ .idle ∨ (upTo 8).any (fun i => (s.stk i).cmd.isSome) = true ∨ s.sideFits s.initMask = false
    then s.hbmRefuse n 3
    else
      let s1 := s.hbmStart 0 1
      { s1 with mem := { s1.mem with initPlan := some (s.initMask, s.reg (pgHBM 0) 0x44, s.mem.granCfg) } }))

/-- A repair place as the pool of its spares names it: bank of the channel for rows, channel for lanes (R304). -/
def spareUnit (op addr : Nat) : Nat := if op = 5 then addr / 2 ^ 27 else addr / 2 ^ 20

/-- Whether the spares of a repair are used up (log 45). -/
def State.sparesOut (s : State) (n op : Nat) : Bool :=
  let addr := s.reg (pgHBM n) 0x54
  let k := s.stk n
  let used := match op with
    | 3 => k.soft
    | 4 => k.hard
    | _ => k.lanes
  decide (Config.spares n op (spareUnit op addr) ≤
    (used.filter (fun a => spareUnit op a == spareUnit op addr)).length)

/-- Whether a waiting host access of `len` bytes from `a` on is to a stack: to its data, or to the sidecars of what it writes (R285, R289,
R298). -/
def State.hostTouches (s : State) (n a len : Nat) (write : Bool) : Bool :=
  let side := fun (x : Nat) => match s.mem.slot false (s.mem.granStart false x) (s.mem.granule false x) with
    | some k => s.mem.groups (s.mem.userBytes + k * 8) 8
    | none => []
  (s.mem.groups a len ++ (if write then side a ++ side (a + len - 1) else [])).any (fun g => g.1 == n)

/-- A repair or a retraining (R298): refused while a host access to the stack waits. -/
def State.hbmRepair (s : State) (n op : Nat) : State :=
  if !s.quietJob || (upTo 8).any (fun i => (s.stk i).cmd.isSome && (i == n || i == 0 && (s.stk 0).cmd.map (·.1) == some 1)) ||
      s.host.wbuf.any (fun w => s.hostTouches n w.1 w.2.length true) || s.host.rwait.any (fun r => s.hostTouches n r.1 r.2 false)
    then s.hbmRefuse n 3
  else if op ≠ 2 ∧ s.sparesOut n op = true then s.hbmRefuse n 4
  else s.hbmStart n op

/-- HBM_TRAIN (R298). -/
def execHbmTrain (m : Master) (n : Fin 8) (s : State) : Host.Outcome State Fault Refusal :=
  .next (s.lk m (pgHBM n) 0x50 (fun s => s.hbmRepair n 2))

/-- HBM_ROW_SOFT (R298). -/
def execHbmRowSoft (m : Master) (n : Fin 8) (s : State) : Host.Outcome State Fault Refusal :=
  .next (s.lk m (pgHBM n) 0x50 (fun s => s.hbmRepair n 3))

/-- HBM_ROW_HARD (R298). -/
def execHbmRowHard (m : Master) (n : Fin 8) (s : State) : Host.Outcome State Fault Refusal :=
  .next (s.lk m (pgHBM n) 0x50 (fun s => s.hbmRepair n 4))

/-- HBM_LANE (R298). -/
def execHbmLane (m : Master) (n : Fin 8) (s : State) : Host.Outcome State Fault Refusal :=
  .next (s.lk m (pgHBM n) 0x50 (fun s => s.hbmRepair n 5))

/-- Whether a memory command may change the shape now (R17). -/
def State.shapeOpen (s : State) : Bool := s.sch.job == .idle || s.sch.job == .loaded || s.sch.job == .stopped

/-- INIT ends (R290): the layout that it began with takes effect and device memory holds zeros with ZEROED sidecars; in a job state in
which the shape may not change (R17) it ends with no effect. -/
def State.hbmInitEnd (s : State) : State :=
  match s.mem.initPlan with
  | none => s
  | some (mask, g, gran) =>
    let s0 := { s with mem := { s.mem with initPlan := none } }
    if !s0.shapeOpen then s0
    else
      let changed := s0.mem.stackMask != mask || s0.mem.sidecarGib != g
      let s1 := (upTo 8).foldl (fun a i => a.setStk i { a.stk i with inService := bitAt mask i, lost := false }) s0
      let s2 := { s1 with mem := { s1.mem with
        dev := [], devSide := [], devBad := [], initDone := true, gran := gran, sidecarGib := g, stackMask := mask } }
      if changed then s2.descChanged else s2

/-- Whether a line of device memory or of its sidecar region lies in the row, or the channel, that a repair named (R284, R285, R304). -/
def MemState.inRepair (m : MemState) (n op addr line : Nat) : Bool :=
  let h := m.hbmMap (line * 64)
  let ch := addr / 2 ^ 27
  h.1 == n && h.2.1 == ch / 4 && h.2.2.1 == ch / 2 % 2 &&
    (op == 5 || (h.2.2.2.1 == fld addr 26 1 && Config.hbmBank h.2.2.2.2 % 64 == fld addr 20 6 && Config.hbmRow h.2.2.2.2 % 2 ^ 20 == fld addr 0 20))

/-- The lines of a repaired row or channel read, corrected and written back (R298). -/
def State.repairLines (s : State) (n op addr : Nat) : State :=
  ((s.mem.devBad.map (·.1)).filter (fun l => s.mem.inRepair n op addr l)).foldl (fun a l => (a.rmwLine l 0).1) s

/-- HBM_CMD_DONE (R290, R298, R304); `ok` says whether a training succeeded. -/
def execHbmCmdDone (n : Fin 8) (ok : Bool) (s : State) : Host.Outcome State Fault Refusal :=
  .next (
    let k := s.stk n
    match k.cmd with
    | none => s
    | some (op, addr) =>
      let s0 := if 3 ≤ op then s.repairLines n op addr else s
      let s1 := s0.setStk n { s0.stk n with cmd := none }
      let trainFail := fun (z : State) =>
        let z1 := z.setStk n { z.stk n with trained := ok }
        if ok then z1 else z1.logErr (pgHBM n) (5 * 2 ^ 24) 0 0
      let s2 := match op with
        | 1 => s1.hbmInitEnd
        | 2 => trainFail s1
        | 3 => (s1.setStk n { s1.stk n with soft := k.soft ++ [addr] }).cnt (pgHBM n) 0x6C 1
        | 4 => (s1.setStk n { s1.stk n with hard := k.hard ++ [addr] }).cnt (pgHBM n) 0x6C 1
        | _ => trainFail ((s1.setStk n { s1.stk n with lanes := k.lanes ++ [addr] }).cnt (pgHBM n) 0x6C 1)
      s2.setInt (pgHBM n) 5)

/-- HBM_TRAINING_DONE (R283): `good` has a bit for every stack of the right height and density. -/
def execHbmTrainingDone (good : Nat) (s : State) : Host.Outcome State Fault Refusal :=
  .next ((upTo 8).foldl (fun a i =>
    a.setStk i { a.stk i with trained := true, odd := !bitAt good i
                              inService := (a.stk i).inService && bitAt good i }) s)

/-- HBM_HOT (R296, R304). -/
def execHbmHot (n : Fin 8) (temp : Nat) (s : State) : Host.Outcome State Fault Refusal :=
  .next (
    let k := s.stk n
    let s1 := s.setStk n { k with hot := decide (85 < temp), temp := temp % 256 }
    if 85 < temp ∧ k.hot = false then s1.setInt (pgHBM n) 3 else s1)

/-- REFRESH_OUTSIDE_WINDOWS (R296, R297, R301; log 46): an added refresh of a hot stack, or one in an idle cycle where no
windows are kept to; a Gallery channel's added refresh. -/
def execRefreshOutsideWindows (gallery : Bool) (n : Fin 32) (s : State) : Host.Outcome State Fault Refusal :=
  .next (
    if gallery then
      let s1 := s.cnt pgGAL 0x68 1
      if s.img.strict && s1.mem.galXrefSpan != some s.sch.seq then
        ({ s1 with mem := { s1.mem with galXrefSpan := some s.sch.seq } }).logErr pgGAL (5 * 2 ^ 24 + n.val * 2 ^ 19) 0 0 |>.setInt pgGAL 3
      else s1
    else if 8 ≤ n.val then s
    else
      let k := s.stk n
      if !k.hot then s
      else
        let s1 := s.cnt (pgHBM n) 0x68 1
        if s.img.strict && k.xrefSpan != some s.sch.seq then
          let f := s1.free
          let r := f.2.free
          ((r.2.setStk n { k with xrefSpan := some s.sch.seq }).logErr (pgHBM n)
            (6 * 2 ^ 24 + f.1.toNat / 2 ^ 18 % 2 ^ 6 * 2 ^ 18 + f.1.toNat / 2 ^ 10 % 2 ^ 6 * 2 ^ 10) (r.1.toNat % 2 ^ 20) 0).setInt
              (pgHBM n) 4
        else s1)

/-! The Sump. -/

/-- SUMP_CLOSE (R292): 64 ticks after the first store into the entry. -/
def execSumpClose (c : Fin 256) (line : Nat) (s : State) : Host.Outcome State Fault Refusal :=
  .next (match s.mem.sump.find? (fun e => e.core == c.val && e.line == line) with
    | none => s
    | some e => (elapseTo (e.tick + 64) s).sumpCloseEntry e)

/-! The Gallery. -/

/-- A Gallery command refused: cause 0x3 (R306). -/
def State.galRefuse (s : State) (ch : Nat) : State := (s.logErr pgGAL (3 * 2 ^ 24 + ch * 2 ^ 19) 0 0).setInt pgGAL 4

/-- GAL_INIT (R303, R306). -/
def execGalInit (m : Master) (s : State) : Host.Outcome State Fault Refusal :=
  .next (s.lk m pgGAL 0x40 (fun s =>
    if s.sch.job ≠ .idle ∨ s.mem.galCmd.isSome = true then s.galRefuse 0
    else { s with mem := { s.mem with galCmd := some 1 } }))

/-- GAL_TRAIN (R306). -/
def execGalTrain (m : Master) (s : State) : Host.Outcome State Fault Refusal :=
  .next (s.lk m pgGAL 0x40 (fun s =>
    if s.quietJob = false ∨ s.mem.galCmd.isSome = true then s.galRefuse 0
    else { s with mem := { s.mem with galCmd := some 4 } }))

/-- GAL_CMD_DONE (R303, R306): INIT brings the Gallery into service, with nothing in it (log 46). -/
def execGalCmdDone (s : State) : Host.Outcome State Fault Refusal :=
  .next (match s.mem.galCmd with
    | none => s
    | some op =>
      let s1 := { s with mem := { s.mem with galCmd := none } }
      let s2 :=
        if op ≠ 1 ∨ s1.shapeOpen = false then s1
        else
          let s3 := { s1 with mem := { s1.mem with galUp := true, cap := [], capSide := [], capBad := [], capSideBad := [] } }
          if s.mem.galUp then s3 else s3.descChanged
      s2.setInt pgGAL 5)

/-- The refusal of RETIRE (R302, R306): the lowest code that applies. -/
def State.retireRefusal (s : State) (ch seq : Nat) : Option Nat :=
  let top := (s.mem.capBytes - chanBytes) / 2 ^ 21
  if !s.mem.galUp || decide (2 ≤ (Store.get {} s.mem.chans ch : GalChan).st) then some 1
  else if 8 ≤ s.mem.retired.length then some 2
  else if s.ctx.capPages.any (fun p => decide (top ≤ p.1)) then some 3
  else if s.img.strict && (s.sch.job == .running || s.sch.job == .rewinding) then some 4
  else if s.pierSealed seq then some 5
  else if s.mem.retire.isSome then some 6
  else none

/-- A channel's state changed. -/
def State.setChan (s : State) (ch st : Nat) : State :=
  { s with mem := { s.mem with
    chans := Store.set {} s.mem.chans ch { (Store.get {} s.mem.chans ch : GalChan) with st := st } } }

/-- GAL_RETIRE (R302). While a retirement runs, its own state stays in GAL_RET_STAT and only REFUSE changes (log 46). -/
def execGalRetire (m : Master) (s : State) : Host.Outcome State Fault Refusal :=
  .next (s.lk m pgGAL 0x40 (fun s =>
    let ch := fld (s.reg pgGAL 0x40) 4 5
    let seq := s.reg64 pgGAL 0x48 % 2 ^ 48
    match s.retireRefusal ch seq with
    | some code =>
      (if s.mem.retire.isSome then { s with mem := { s.mem with retRefuse := code } }
       else { s with mem := { s.mem with retState := 4, retRefuse := code, retChan := ch } }).galRefuse ch
    | none =>
      ({ s with mem := { s.mem with
        retire := some ⟨ch, seq, false, s.aon⟩, retState := 1, retRefuse := 0, retChan := ch } }).setChan ch 1))

/-- GAL_ABORT (R302, R306): a retirement that is migrating or pending ends. -/
def execGalAbort (m : Master) (s : State) : Host.Outcome State Fault Refusal :=
  .next (s.lk m pgGAL 0x40 (fun s =>
    match s.mem.retire with
    | none => s.galRefuse 0
    | some r =>
      let s1 := { s with mem := { s.mem with retire := none, retState := 5 } }
      (if (Store.get {} s1.mem.chans r.chan : GalChan).st = 1 then s1.setChan r.chan 0 else s1).setInt pgGAL 5))

/-- MIGRATION_DONE (R302): pending at its pier, or in effect at once where no job runs. -/
def execMigrationDone (s : State) : Host.Outcome State Fault Refusal :=
  .next (match s.mem.retire with
    | none => s
    | some r =>
      if r.migrated then s
      else
        ({ s with mem := { s.mem with retire := some { r with migrated := true }, retState := 2 } }).retireQuiet)

/-- The temperature of a channel's devices as its refresh finds it: a measurement (R306; log 49). -/
def State.measureChan (s : State) (ch : Nat) : State :=
  let f := s.free
  let m := f.2.mem
  { f.2 with mem := { m with
    chans := Store.set {} m.chans ch { (Store.get {} m.chans ch : GalChan) with temp := f.1.toNat % 256 } } }

/-- GAL_REFRESH (R301; log 34): the channel's window opens, at frame offset 64 times its number. -/
def execGalRefresh (ch : Fin 32) (s : State) : Host.Outcome State Fault Refusal :=
  .next (
    let t := s.tick / 2048 * 2048 + 64 * ch.val
    (elapseTo (if s.tick ≤ t then t else t + 2048) s).measureChan ch)

/-- CHANNEL_FAILED (R302, R381): the device of a job that is armed, runs or is parked withdraws. -/
def execChannelFailed (ch : Fin 32) (s : State) : Host.Outcome State Fault Refusal :=
  .next (
    let s1 := (s.setChan ch 3).setInt pgGAL 0
    match s1.sch.job with
    | .armed => s1.raiseWithdraw 6 s1.devId
    | .running => s1.raiseWithdraw 6 s1.devId
    | .rewinding => s1.raiseWithdraw 6 s1.devId
    | .parked => s1.raiseWithdraw 6 s1.devId
    | _ => s1)

/-! The host's aperture. -/

/-- Why an aperture access is denied (R422): cause 0x1 beyond user capacity, 0x2 not permitted. -/
def State.b2Cause (s : State) (a n : Nat) (write : Bool) : Option Nat :=
  let ctx := fld (s.reg pgHIF 0x44) 16 10
  let pages := (upTo ((a + n - 1) / 2 ^ 21 + 1 - a / 2 ^ 21)).map (fun i => a / 2 ^ 21 + i)
  if s.mem.devExtent < a + n then some 1
  else if !bitAt (s.reg pgHIF 0x40) 0 then some 2
  else if ctx = 0 then
    if pages.all (fun p => s.pageFree 1 p || (match Store.find s.ctx.devPages p with
      | some g => g.ctx == 0
      | none => false)) then none else some 2
  else if s.pageOk false ctx a n write then none else some 2

/-- A denied access, with its BAR offset (R422, R443). -/
def State.b2Deny (s : State) (cause off : Nat) : State :=
  ((s.logErr pgHIF (cause * 2 ^ 24) (off % 2 ^ 32) (off / 2 ^ 32)).cnt pgHIF 0x74 1).setInt pgHIF 3

/-- The RAW sidecar of a granule (R45, R289): its EXP, SAT, SR and ZERO are free values (log 21). -/
def State.rawSide (s : State) (g0 : Nat) (data : List Byte) : State × List Byte :=
  let f := s.free
  let w := f.1.toNat
  let c : Sidecar := { exp := sext 8 (w % 256), fmt := fmtRaw, sat := bitAt w 8, sr := bitAt w 9, zero := bitAt w 10, tag := 0 }
  (f.2, ({ c with crc := storedCrc data c g0 } : Sidecar).bytes)

/-- The lines of a granule that a write covers only in part, merged by read-modify-write; whether one cannot be corrected (R286,
R424). -/
def State.b2Lines (s : State) (g0 g a n : Nat) : State × Bool :=
  (upTo ((g0 + g - 1) / 64 + 1 - g0 / 64)).foldl (fun p i =>
    let m := lineMask (g0 / 64 + i) a n
    if m = fullMask then p
    else
      let r := p.1.rmwLine (g0 / 64 + i) m
      (r.1, p.2 || r.2)) (s, false)

/-- The lines that a host write covers in part, data and sidecars, merged granule by granule from `g0` on; whether one cannot be corrected
(R286, R289, R424). -/
def State.b2Merge : Nat → State → Nat → Nat → Nat → State × Bool
  | 0, s, _, _, _ => (s, false)
  | f + 1, s, g0, a, n =>
    if a + n ≤ g0 then (s, false)
    else
      let g := s.mem.granule false g0
      match s.mem.slot false g0 g with
      | none => (s, false)
      | some slot =>
        let r := s.b2Lines g0 g a n
        let h := r.1.mergeLines (fun z => z.rmwLine) (s.mem.userBytes + slot * 8) 8
        let q := State.b2Merge f h.1 (g0 + g) a n
        (q.1, r.2 || !h.2.isEmpty || q.2)

/-- Host bytes merged into the granules they touch, from granule `g0` on, each line with its commit tick now, after the loads of this tick
(R289, R291, R424). -/
def State.b2Granules : Nat → State → Nat → Nat → List Byte → State
  | 0, s, _, _, _ => s
  | n + 1, s, g0, a, data =>
    if a + data.length ≤ g0 then s
    else
      let g := s.mem.granule false g0
      match s.mem.slot false g0 g with
      | none => s
      | some slot =>
        let z := s.afterLoads false g0 g slot
        let old := z.memBytes false g0 g
        let new := (upTo g).map (fun i => if a ≤ g0 + i then data.getD (g0 + i - a) (old.getD i 0#8) else old.getD i 0#8)
        let side := z.rawSide g0 new
        State.b2Granules n (side.1.commitBlock false g0 slot new side.2 0) (g0 + g) a data

/-- A permitted host write reaches HBM, whole or, where a line that it covers in part cannot be corrected, not at all (R422 to R424). -/
def State.b2Apply (s : State) (a : Nat) (data : List Byte) : State :=
  if data.isEmpty then s
  else
    let f := data.length / 32 + 2
    let g0 := s.mem.granStart false a
    let m := State.b2Merge f s g0 a data.length
    if m.2 then m.1 else State.b2Granules f m.1 g0 a data

/-- A permitted host read reaches HBM: its bytes, or a poisoned completion (R422). -/
def State.b2Fetch (s : State) (a n : Nat) : State :=
  let r := (s.stampLoad false a n noSlot).readLines false a n
  r.1.emit (.b2Data a (if r.2 then none else some (r.1.givenBytes false a n)))

/-- Whether aperture accesses wait for a pier frame (R423). -/
def State.b2Waits (s : State) : Bool :=
  s.img.strict && (s.sch.job == .rewinding || (s.sch.job == .running && !s.inPierFrame))

/-- Gathered writes and waiting reads reach HBM (R423). -/
def State.b2Drain (s : State) : State :=
  let s1 := { s with host := { s.host with wbuf := [], rwait := [] } }
  s.host.rwait.foldl (fun z r => z.b2Fetch r.1 r.2) (s.host.wbuf.foldl (fun z w => z.b2Apply w.1 w.2) s1)

/-- Whether BAR decoding is on and the aperture answers (R425, R426). -/
def State.barOn (s : State) : Bool := s.pwr.mainOk && !s.host.d3hot && s.allUp

/-- Device memory offset of an aperture byte (R422). -/
def State.b2Addr (s : State) (off : Nat) : Nat := s.reg pgHIF 0x44 % 2 ^ 9 * 2 ^ 30 + off

/-- Whether an access of `n` bytes lies in the 16 GiB of the aperture, with BAR decoding on (R422, R425). -/
def State.b2Reaches (s : State) (off n : Nat) : Bool := s.barOn && n != 0 && decide (off + n ≤ 16 * 2 ^ 30)

/-- A permitted write gathered while the aperture waits; one that finds the buffer full is held off by credits and has not
arrived (R423, R424). -/
def State.b2Gather (s : State) (a : Nat) (data : List Byte) : State :=
  if ((s.host.wbuf.map (fun w => w.2.length)).foldl (· + ·) 0) + data.length ≤ 2 ^ 20 then
    { s with host := { s.host with wbuf := s.host.wbuf ++ [(a, data)] } }
  else s

/-- BAR2_WRITE (R422 to R424). -/
def execBar2Write (off : Nat) (data : List Byte) (s : State) : Host.Outcome State Fault Refusal :=
  .next (
    if s.b2Reaches off data.length then
      match s.b2Cause (s.b2Addr off) data.length true with
      | some c => s.b2Deny c off
      | none => if s.b2Waits then s.b2Gather (s.b2Addr off) data else s.b2Drain.b2Apply (s.b2Addr off) data
    else s)

/-- A permitted read that waits for a pier frame (R423). -/
def State.b2Wait (s : State) (a n : Nat) : State := { s with host := { s.host with rwait := s.host.rwait ++ [(a, n)] } }

/-- BAR2_READ (R422, R423). -/
def execBar2Read (off len : Nat) (s : State) : Host.Outcome State Fault Refusal :=
  .next (
    if s.b2Reaches off len then
      match s.b2Cause (s.b2Addr off) len false with
      | some c => (s.b2Deny c off).emit (.b2Data (s.b2Addr off) (some (List.replicate len 0#8)))
      | none => if s.b2Waits then s.b2Wait (s.b2Addr off) len else s.b2Drain.b2Fetch (s.b2Addr off) len
    else s)

/-- HOST_WRITE_DRAIN (R423): once the work of a span has ended, in its pier frame. -/
def execHostWriteDrain (s : State) : Host.Outcome State Fault Refusal :=
  .next (
    let z := if s.sch.job == .running && s.sch.place == .pier then elapseTo s.pierFirst s else s
    if z.b2Waits then s else z.b2Drain)

end Sys2Proof.Machine
end

