-- ==== Sys2Proof/Machine/Context.lean ====
section
/-! DEFINITION. The context commands (R393 to R407, R415, R416): CTX_CMD, page zeroing and the end of a quarantine. -/

namespace Sys2Proof.Machine

open Sys2Proof

/-- CTX_CMD as its registers spell it (R415). -/
def State.ctxCmd (s : State) (op : Nat) : CtxCmd :=
  ⟨op, s.reg pgCTX 0x44, s.reg pgCTX 0x48, s.reg pgCTX 0x4C, s.reg pgCTX 0x50, s.reg64 pgCTX 0x58 % 2 ^ 48⟩

/-- Whether the pier that a command names has sealed (R416). -/
def State.ctxLate (s : State) (seq : Nat) : Bool :=
  if seq = 0 then (s.sch.job == .armed || s.sch.job == .running || s.sch.job == .rewinding) && (s.sch.p0Sealed || s.sch.adopted)
  else s.pierSealed seq

/-- Why a command is not accepted: of 0x01, 0x05, 0x06, 0x07 and 0x08 the lowest that applies (R405, R416; log 48). -/
def State.ctxAccept (s : State) (c : CtxCmd) : Option Nat :=
  if s.sch.job = .loading then some 1
  else if !c.now && s.ctxLate c.seq then some 5
  else if c.now && c.op == 1 && s.img.strict && (s.sch.job == .running || s.sch.job == .rewinding) then some 6
  else if s.ctx.cmd.isSome then some 7
  else if c.badRange then some 8
  else none

/-- CTX_CMD with GO (R405, R416): it takes effect at once, or waits for its pier. -/
def State.ctxGo (s : State) (op : Nat) : State :=
  let c := s.ctxCmd op
  match s.ctxAccept c with
  | some code => s.ctxRefuse code
  | none =>
    if c.now || (s.quietJob && c.seq == 0) then s.ctxRun c s.tick
    else { s with ctx := { s.ctx with cmd := some c } }

/-- CTX_CLOSE (R403, R405, R415). -/
def execCtxClose (m : Master) (s : State) : Host.Outcome State Fault Refusal := .next (s.lk m pgCTX 0x40 (fun s => s.ctxGo 1))

/-- CTX_PARK (R407, R415). -/
def execCtxPark (m : Master) (s : State) : Host.Outcome State Fault Refusal := .next (s.lk m pgCTX 0x40 (fun s => s.ctxGo 2))

/-- CTX_UNPARK (R407, R415). -/
def execCtxUnpark (m : Master) (s : State) : Host.Outcome State Fault Refusal := .next (s.lk m pgCTX 0x40 (fun s => s.ctxGo 3))

/-- CTX_SET_QUOTA (R398, R415). -/
def execCtxSetQuota (m : Master) (s : State) : Host.Outcome State Fault Refusal := .next (s.lk m pgCTX 0x40 (fun s => s.ctxGo 4))

/-- CTX_GRANT (R397, R415). -/
def execCtxGrant (m : Master) (s : State) : Host.Outcome State Fault Refusal := .next (s.lk m pgCTX 0x40 (fun s => s.ctxGo 5))

/-- CTX_RETURN (R415). -/
def execCtxReturn (m : Master) (s : State) : Host.Outcome State Fault Refusal := .next (s.lk m pgCTX 0x40 (fun s => s.ctxGo 6))

/-- CTX_GRANT_KEY (R408, R415). -/
def execCtxGrantKey (m : Master) (s : State) : Host.Outcome State Fault Refusal := .next (s.lk m pgCTX 0x40 (fun s => s.ctxGo 7))

/-- CTX_RETURN_KEY (R415). -/
def execCtxReturnKey (m : Master) (s : State) : Host.Outcome State Fault Refusal := .next (s.lk m pgCTX 0x40 (fun s => s.ctxGo 8))

/-! Page zeroing (R404). -/

/-- KiB of a space that the engine may zero now: all of them, or under STRICT in a running or rewinding job what the pier
frame has left, pier 0's and a resume's among them. -/
def State.zeroBudget (s : State) (cap : Bool) : Nat :=
  if !(s.sch.job == .running || s.sch.job == .rewinding) || !s.img.strict then 2048
  else if s.inPierFrame then
    if cap then s.img.zeroCapKib - s.ctx.zeroed.2 else s.img.zeroDevKib - s.ctx.zeroed.1
  else 0

/-- The page being zeroed in a space, or the lowest that waits. -/
def State.zeroNext (s : State) (cap : Bool) : Option (Nat × Nat) :=
  match if cap then s.ctx.zeroCap else s.ctx.zeroDev with
  | some x => some x
  | none =>
    match (s.ctx.zeroQ.filter (fun z => z.1 == cap)).map (·.2.1) with
    | [] => none
    | p :: l => some (l.foldl (fun a b => if b < a then b else a) p, 0)

/-- What a rewind or a Sump close would still write over bytes that the engine zeroes: the records of undo logs and areas and the open
entries, which a zeroing write leaves behind, for a rewind does not undo it (R344, R404). -/
def State.zeroUndo (s : State) (cap : Bool) (a n : Nat) : State :=
  let keep := fun (r : DevRec) => !(r.capacity == cap && decide (a ≤ r.addr) && decide (r.addr < a + n))
  let inside := fun (e : SumpEntry) => decide (a ≤ e.line * 64) && decide (e.line * 64 < a + n)
  { s with
    cores := Store.mapVals (fun _ k => { k with undo := { k.undo with devs := k.undo.devs.filter keep } }) s.cores
    train := { s.train with
      engines := Store.mapVals (fun _ e => { e with undo := e.undo.filter keep, subst := e.subst.filter keep }) s.train.engines }
    mem := { s.mem with sump := if cap then s.mem.sump else s.mem.sump.filter (fun e => !inside e) } }

/-- Bytes zeroed with ZEROED sidecars: neither is listed any more (R45, R404). -/
def State.zeroBytes (s0 : State) (cap : Bool) (a n : Nat) : State :=
  let s := s0.zeroUndo cap a n
  let g := s.mem.granule cap a
  let m := s.mem.healLines cap a n
  let m1 :=
    match s.mem.slot cap a g with
    | none => m
    | some k => if cap then { m with capSide := Store.clearRange m.capSide k (n / g) }
      else { m with devSide := Store.clearRange m.devSide k (n / g) }
  { s with mem := if cap then { m1 with cap := Store.clearRange m1.cap a n } else { m1 with dev := Store.clearRange m1.dev a n } }

/-- A page all of whose bytes are zeroed leaves the queue, and may end a teardown (R403, R404). -/
def State.zeroEnd (s : State) (cap : Bool) (p : Nat) : State :=
  let owners := (s.ctx.zeroQ.filter (fun q => q.1 == cap && q.2.1 == p)).map (·.2.2)
  let s1 := ({ s with ctx := { s.ctx with zeroQ := s.ctx.zeroQ.filter (fun q => !(q.1 == cap && q.2.1 == p)) } }).cnt pgCTX 0x90 1
  owners.foldl (fun x id => x.finishTeardown id) s1

/-- The page being zeroed in a space and how far, with `n` KiB more zeroed in this pier frame. -/
def State.zeroAt (s : State) (cap : Bool) (cur : Option (Nat × Nat)) (n : Nat) : State :=
  let z := s.ctx.zeroed
  if cap then { s with ctx := { s.ctx with zeroCap := cur, zeroed := (z.1, z.2 + n) } }
  else { s with ctx := { s.ctx with zeroDev := cur, zeroed := (z.1 + n, z.2) } }

/-- One turn of the engine on a space: as much of the page as it may zero; a page done leaves the queue. -/
def State.zeroTurn (s : State) (cap : Bool) (p done : Nat) : State :=
  let b := s.zeroBudget cap
  let n := if b < 2048 - done then b else 2048 - done
  let s1 := s.zeroBytes cap (p * 2 ^ 21 + done * 1024) (n * 1024)
  if done + n < 2048 then s1.zeroAt cap (some (p, done + n)) n else (s1.zeroAt cap none n).zeroEnd cap p

/-- A space's turn, where a page of it waits and the engine may zero. -/
def State.zeroSpace (s : State) (cap : Bool) : State :=
  match s.zeroNext cap with
  | none => s
  | some x => if s.zeroBudget cap = 0 then s else s.zeroTurn cap x.1 x.2

/-- The duplicated zeroing engine compared as it works: a mismatch is a hardware fault, with the owner of the page (R417 cause 0x1;
log 56). -/
def State.zeroCompare (s : State) : State :=
  match s.takeSlip pgCTX with
  | (none, _) => s
  | (some _, z) => (z.ctxLog 1 1 (((z.ctx.zeroQ.map (·.2.2))).headD 0)).raiseHw

/-- ZERO_PAGE (R404): the engine zeroes device pages and capacity pages side by side; a command gives each its turn. -/
def execZeroPage (s : State) : Host.Outcome State Fault Refusal :=
  .next (if s.ctx.zeroQ.isEmpty then s else (s.zeroCompare.zeroSpace false).zeroSpace true)

/-- QUARANTINE_END (R403 steps 5 and 7). -/
def execQuarantineEnd (id : Fin 1024) (s : State) : Host.Outcome State Fault Refusal :=
  .next (
    let x := s.ctxOf id
    if x.st ≠ .closing ∨ x.quarOver = true then s
    else
      let s1 := elapseTo x.quarEnd s
      (s1.setCtx id { s1.ctxOf id with quarOver := true }).finishTeardown id)

end Sys2Proof.Machine
end

