-- ==== Sys2Proof/Machine/Flowstone.lean ====
section
/-! DEFINITION. The commands of Flowstone (R99, R104, R106, R107, R112): RUN, LDTAB, their completions, and the write point
of a guarded command of any unit. -/

namespace Sys2Proof.Machine

open Sys2Proof

/-- CMD_START or CMD_DONE of a chain (R487). -/
def State.trcChain (s : State) (ty c : Nat) (q : ChainCmd) (squashed : Bool) : State :=
  s.trcCmd ty c 2 q.iss.thread q.iss.ctx q.iss.gen q.iss.addr squashed

/-- The head chain taken from the queue. -/
def State.popChain (s : State) (c : Nat) : State :=
  s.modCore c (fun k => { k with fls := { k.fls with queue := k.fls.queue.tail } })

/-- A started chain kept until it completes. -/
def State.addChainRun (s : State) (c : Nat) (r : ChainRun) : State :=
  (s.modCore c (fun k => { k with fls := { k.fls with runs := k.fls.runs ++ [r] } })).settleFls c

/-- Blocks of a chain that enter by its write point: none of them can read what the chain itself writes (R106, R131). -/
def blocksBefore (q : ChainCmd) : Nat :=
  let n := (4 + chainLatency q.stages) / chainPeriod q.head + 1
  if fhCount q.head < n then fhCount q.head else n

/-- Flowstone's due and past writes after some blocks of a chain. -/
def State.setDue (s : State) (c : Nat) (due : List DueWrite) (past : List (Nat × Nat × Wide)) : State :=
  s.modCore c (fun k => { k with fls := { k.fls with due := due, past := past } })

/-- A RUN that starts: its consumers take their use ordinals and its blocks pass, those after its write point once a PENDING binding
has resolved (R95 to R106, R109 to R112, R131). -/
def State.startRun (s : State) (c : Nat) (q : ChainCmd) : State :=
  let h := q.head
  let cons := chainConsumers h q.stages
  let k := s.core c
  let base := Store.get 0 k.fls.uses (fhStream h)
  let s1 := if cons.isEmpty then s else s.setCore c
    { k with fls := { k.fls with uses := Store.set 0 k.fls.uses (fhStream h) (base + cons.length) } }
  let live := decide (q.iss.bind = .resolved true)
  let wait := q.iss.bind.isPending
  let e : ChainEnv :=
    { cmd := q, v0 := k.fls.atStart, ords := (upTo cons.length).map (fun i => (cons.getD i 0, base + i))
      live := live || wait, heed := decide (q.iss.bind ≠ .resolved false), lead := 1 }
  let b := s1.stageErrs c e
  let r := b.1.chainBlocks c e { due := k.fls.due, past := if k.fls.runs.isEmpty then [] else k.fls.past }
    (if wait then blocksBefore q else fhCount h)
  let a := r.2
  let mine := a.due.filter (fun w => w.serial == q.serial)
  let s2 := r.1.setDue c (if wait then a.due.filter (fun w => w.serial != q.serial) else a.due) a.past
  let errs := a.errs ++ b.2
  let run : ChainRun :=
    { cmd := q, sats := a.sats, rngs := a.rngs
      todo := if wait then some (e, { a with due := mine, errs := [], sats := 0, rngs := 0 }) else none }
  match a.stop with
  | none => (s2.raiseFlsErrs c q errs).addChainRun c { run with sum := if wait then none else some (a.summary h) }
  | some f =>
    if live then
      (((s2.flushDue c q.serial).flsCounts c a.sats a.rngs).raiseFlsErrs c q (errs ++ [f])).chainEnd c q.serial none
    else
      ((s2.raiseFlsErrs c q errs).addChainRun c
        { run with stopped := true, fault := some ⟨f.cause, 0, f.block, f.pos⟩ }).chainEnd c q.serial none

/-- The later blocks of run `i` of Flowstone, whose binding has resolved: they read, and write or do not, as their core cycles come
(R107, R112). -/
def State.resumeRun (s : State) (c i : Nat) : State :=
  let k := s.core c
  match k.fls.runs[i]? with
  | none => s
  | some r =>
    match r.todo with
    | none => s
    | some (e, a) =>
      let go := decide (r.cmd.iss.bind = .resolved true)
      let e1 := { e with live := go, heed := go }
      let p := s.chainBlocks c e1 { a with due := if go then dueMerge k.fls.due a.due else k.fls.due, past := k.fls.past }
        (fhCount r.cmd.head - a.blocks)
      let b := p.2
      let s1 := p.1.setDue c b.due b.past
      let keep := fun (z : State) => z.modCore c (fun k => { k with fls := { k.fls with runs := modAt (fun x =>
        { x with todo := none, sum := if go then some (b.summary r.cmd.head) else none }) k.fls.runs i } })
      match b.stop with
      | none => keep ((s1.raiseFlsErrs c r.cmd b.errs).flsCounts c (if go then b.sats else 0) (if go then b.rngs else 0))
      | some f =>
        (((s1.modCore c (fun k => { k with fls := { k.fls with runs := k.fls.runs.eraseIdx i } })).flushDue c r.cmd.serial).flsCounts c
          b.sats b.rngs).raiseFlsErrs c r.cmd (b.errs ++ [f]) |>.chainEnd c r.cmd.serial none

/-- Every started chain whose binding has resolved carried on to its last block, oldest first; `n` bounds the chains. -/
def State.resumeFls : Nat → State → Nat → State
  | 0, s, _ => s
  | n + 1, s, c =>
    match firstIdx (fun r => r.todo.isSome && !r.cmd.iss.bind.isPending && !r.stopped) (s.core c).fls.runs 0 with
    | none => s
    | some i => State.resumeFls n (s.resumeRun c i) c

/-- The started chains of a core carried on. -/
def State.carryOn (s : State) (c : Nat) : State := s.resumeFls (s.core c).fls.runs.length c

/-- The head of the chain queue, if it may start now. -/
def State.chainReady (s : State) (c op : Nat) : Option ChainCmd :=
  let k := s.core c
  match k.fls.queue with
  | [] => none
  | q :: _ =>
    if s.arrRuns c && !k.fls.stall && fhOp q.head == op && k.fls.mayStart q && !(op == 1 && k.bankWaits q) then some q
    else none

/-- RUN: the head chain starts, unless a table it looks up has not become valid (R106, R108). -/
def execRun (c : Fin 256) (s0 : State) : Host.Outcome State Fault Refusal :=
  let s := if s0.arrRuns c then s0.carryOn c else s0
  match s.chainReady c 1 with
  | none => .next s
  | some q =>
    if (s.core c).fls.tablesOk q.stages q.serial false then .next ((((s.popChain c).trcChain 1 c q false).startRun c q).checkChainHead c)
    else .next (s.flsStall c q 0xA)

/-- LDTAB: the table image is read (R99). -/
def execLdtab (c : Fin 256) (s : State) : Host.Outcome State Fault Refusal :=
  match s.chainReady c 2 with
  | none => .next s
  | some q =>
    .next (((s.popChain c).trcChain 1 c q false).cmRead c (fhSrc q.head) tableBytes q.iss.reader (fun s1 =>
      let bs := s1.cmBytes c (fhSrc q.head) tableBytes
      (s1.addChainRun c { cmd := q, table := if tableCrcOk bs then some (Table.ofBytes bs) else none }).checkChainHead c))

/-- The write point of Flowstone's run `i`: a binding still PENDING is a schedule fault, and every write is withheld
(R131). -/
def State.flsWritePoint (s : State) (c i : Nat) : State :=
  match (s.core c).fls.runs[i]? with
  | none => s
  | some r =>
    let upd := fun (f : ChainRun → ChainRun) => s.modCore c (fun k =>
      { k with fls := { k.fls with runs := modAt f k.fls.runs i } })
    match r.cmd.iss.bind with
    | .resolved _ => upd (fun x => { x with pastWrite := true })
    | .pending .. =>
      ((upd (fun x => { x with pastWrite := true, squashed := true, sats := 0, rngs := 0, sum := none
                               cmd := { x.cmd with iss := { x.cmd.iss with bind := .resolved false } } })).missBinding c
        r.cmd.iss.bind).unresolved c r.cmd.iss

/-- The digest of a thread after a chain (R103). -/
def ChainSum.digestOn (m : ChainSum) (old : Nat) : Nat :=
  match m.digest with
  | some (cont, bs) => crc64 (if cont then old else 0) bs
  | none => old

/-- Whether the summary continues the digest of its thread. -/
def ChainSum.continues (m : ChainSum) : Bool :=
  match m.digest with
  | some (cont, _) => cont
  | none => false

/-- The summary of a completed chain handed on (R102 to R104). A digest that is continued is read: an error in it that cannot be
corrected is a hardware fault of thread state (R117). -/
def State.handSummary (s0 : State) (c : Nat) (q : ChainCmd) (m : ChainSum) : State :=
  let x := s0.thread c q.iss.thread
  let d := m.digestOn x.digest
  let s := if m.continues && x.damaged digestWords then
    s0.coreFault c .hw 0 2 q.iss.thread q.iss.ctx q.iss.gen q.iss.pc q.iss.addr else s0
  let s1 := s.setThread c q.iss.thread { x with sum0 := m.sum0, sum1 := m.sum1, sum2 := d, sum3 := m.sum3, digest := d
                                                ecc := x.ecc.filter (fun p => decide (p.1 < 34)) }
  let s2 := match m.amax with
    | some (t, v, e) => s1.amaxHand t v.natAbs e
    | none => s1
  if m.absurd then s2.absurd (fhTensor q.head) q.iss.ctx else s2

/-- The oldest run of Flowstone, if it is of OP `op` and has not stopped. -/
def FlsState.first (f : FlsState) (op : Nat) : Option ChainRun :=
  match f.runs with
  | r :: _ => if fhOp r.cmd.head == op && !r.stopped then some r else none
  | [] => none

/-- The oldest run removed. -/
def State.dropRun (s : State) (c : Nat) : State :=
  s.modCore c (fun k => { k with fls := { k.fls with runs := k.fls.runs.tail } })

/-- LDTAB_DONE: the table becomes valid if its CRC is right, and invalid if it is not (R99, R112). It writes no summary, so a guard
bound to its IFS resolves FALSE, as one bound to a chain that was stopped does (R129; DESIGN CHOICE, log 58). -/
def execLdtabDone (c : Fin 256) (s : State) : Host.Outcome State Fault Refusal :=
  if !(s.arrRuns c) then .next s
  else
    let s1 := if ((s.core c).fls.first 2).isSome then s.flsWritePoint c 0 else s
    match (s1.core c).fls.first 2 with
    | none => .next s
    | some r =>
      let n := fhDst r.cmd.head
      let s2 := (s1.dropRun c).trcChain 2 c r.cmd r.squashed
      let s3 := if r.squashed then s2.cnt (pgFLS c) 0x58 1
        else s2.modCore c (fun k => { k with fls := { k.fls with
          tables := (match r.table with
            | some t => Store.insert k.fls.tables n t
            | none => Store.erase k.fls.tables n)
          tabPar := k.fls.tabPar.filter (fun p => p / 256 != n) } })
      let s4 := if r.table = none then s3.flsFault c r.cmd .hw 6 0 else s3
      .next (s4.chainEnd c r.cmd.serial none)

/-- CHAIN_DONE: the oldest chain completes and writes its thread's summary registers; a squashed one only counts (R104,
R112). -/
def execChainDone (c : Fin 256) (s : State) : Host.Outcome State Fault Refusal :=
  if !(s.arrRuns c) then .next s
  else
    match (s.core c).fls.first 1 with
    | none => .next s
    | some q =>
      let s1 := (s.flsWritePoint c 0).carryOn c
      match ((s1.core c).fls.first 1).filter (fun r => r.cmd.serial == q.cmd.serial) with
      | none => .next s1
      | some r =>
      let s2 := ((s1.flushDue c r.cmd.serial).dropRun c).trcChain 2 c r.cmd r.squashed
      match r.squashed, r.sum with
      | false, some m => .next ((s2.handSummary c r.cmd m).chainEnd c r.cmd.serial (some m.sum0))
      | _, _ => .next ((s2.cnt (pgFLS c) 0x58 1).chainEnd c r.cmd.serial none)

/-- WRITE_POINT: the oldest started command of a unit that has not stopped or passed its write point passes it (R131). -/
def execWritePoint (c : Fin 256) (u : CmdUnit) (s : State) : Host.Outcome State Fault Refusal :=
  if !(s.arrRuns c) then .next s
  else
    let arr := fun (op : Nat) =>
      match firstIdx (fun r => arrOp r.cmd.word == op && !r.stopped && !r.pastWrite) (s.core c).arr.runs 0 with
      | some i => s.arrWritePoint c i
      | none => s
    match u with
    | .load => .next (arr 1)
    | .stream => .next (arr 2)
    | .fls =>
      match firstIdx (fun r => !r.stopped && !r.pastWrite) (s.core c).fls.runs 0 with
      | some i => .next (s.flsWritePoint c i)
      | none => .next s

end Sys2Proof.Machine
end

