-- ==== Sys2Proof/Machine/Tick.lean ====
section
/-! DEFINITION. The fabric tick's alignment (R189, R192 to R198, R214, R215) and the meanings of its commands. Times of an
exchange are in units of 1/16 tick. -/

namespace Sys2Proof.Machine

open Sys2Proof

/-- A record of the TCK page's log (R214): cause, port, state after the event. -/
def State.tckLog (s : State) (cause port : Nat) : State :=
  s.logErr pgTCK (cause * 2 ^ 24 + port % 32 * 2 ^ 16 + s.tck.state.code) 0 0

/-- Whether a correction may step: job state IDLE or LOADED (R195). -/
def State.mayStep (s : State) : Bool := s.sch.job == .idle || s.sch.job == .loaded

/-- A port's asymmetry in units of 62.5 ps: round(TCK_ASYMn / 125), half to even (R193). -/
def State.tckAsym (s : State) (p : Nat) : Int :=
  let x := sext 16 (s.reg pgTCK (0x80 + 4 * p))
  let q := x / 125
  let r := x % 125
  if 62 < r then q + 1 else q

/-- Sum of the kept offsets, and of the kept delays. -/
def TckState.sumA (k : TckState) : Int := (k.hist.map (·.1)).foldl (· + ·) 0
def TckState.sumD (k : TckState) : Int := (k.hist.map (·.2)).foldl (· + ·) 0

/-- The mean offset, in units of 1/16 tick, rounded down (R193; log 35). -/
def TckState.meanA (k : TckState) : Int := k.sumA / (k.hist.length : Int)

/-- Whether an exchange is discarded (R193): retransmitted, later than 4 frames, or a delay more than 250 ps from the mean. -/
def TckState.discards (k : TckState) (t1 t4 : Nat) (d : Int) (retx : Bool) : Bool :=
  retx || decide (t1 + 4 * 2048 * 16 < t4) ||
    (!k.hist.isEmpty && decide (4 * (k.hist.length : Int) < (d * (k.hist.length : Int) - k.sumD).natAbs))

/-- The count and its fraction moved by `n` sixteenths, all at once (R189). -/
def State.stepTick (s : State) (n : Int) : State :=
  let v := ((s.tick * 16 + s.frac : Nat) : Int) + n
  let w := v.toNat % 2 ^ 68
  ({ s with tick := w / 16, frac := w % 16 }).cnt pgTCK 0x70 1 |>.setInt pgTCK 0

/-- One slewed correction: the time scale moves by 62.5 ps, at most once in a frame, and the count only through it (R189, R195;
log 35). -/
def State.slewTick (s : State) (n : Int) : State :=
  if n = 0 ∨ s.tck.slewFrame = some (s.tick / 2048) then s
  else { s with tck := { s.tck with slewed := s.tck.slewed + (if 0 < n then 1 else -1), slewFrame := some (s.tick / 2048) } }

/-- The filtered values as the registers show them, in ps; the rate correction is left open (log 35). -/
def State.tckFilter (s : State) : State :=
  let k := s.tck
  let n : Int := k.hist.length
  let f := s.free
  { f.2 with tck := { k with offset := k.sumA * 125 / (2 * n), delay := (k.sumD * 125 / (2 * n)).toNat, rate := sext 32 f.1.toNat } }

/-- A state entered. -/
def State.tckEnter (s : State) (a : Align) : State := { s with tck := { s.tck with state := a } }

/-- The correction after a kept exchange (R195): a step in FREE or ACQUIRING of an idle or loaded device, else a slew. -/
def State.tckCorrect (s : State) : State :=
  let m := s.tck.meanA
  if s.tck.state = .acquiring ∧ s.mayStep = true then
    if m = 0 then s
    else (({ s with tck := { s.tck with hist := s.tck.hist.map (fun (x : Int × Int) => (x.1 - m, x.2)) } }).stepTick (-m))
  else s.slewTick (-m)

/-- ALIGNED entered (R194). The spec gives a device no way to learn its depth in the tree: DEPTH is then a free value of 1 to 128, or
0xFF for unknown (R214; log 35). -/
def State.tckAligned (s : State) : State :=
  let f := s.free
  let d := f.1.toNat % 129
  ({ f.2 with tck := { f.2.tck with state := .aligned, depth := if d = 0 then 0xFF else d } }).setInt pgTCK 1

/-- The state after a kept exchange of offset `a` (R194, R197). -/
def State.tckJudge (s : State) (a : Int) (port : Nat) : State :=
  let good := if a.natAbs ≤ 4 then satAt 0xFFFF (s.tck.good + 1) else 0
  let s1 := { s with tck := { s.tck with good := good } }
  match s1.tck.state with
  | .aligned => if 16 < a.natAbs then (s1.tckEnter .acquiring).tckLog 3 port else s1
  | .acquiring => if 16 ≤ good then s1.tckAligned else s1
  | .holdover => if 16 ≤ good then s1.tckAligned else s1
  | _ => s1

/-- One exchange on a port (R193). -/
def State.tckExchange (s : State) (port t1 t2 t3 t4 : Nat) (retx : Bool) : State :=
  let a0 : Int := (((t4 : Int) - t3) - ((t2 : Int) - t1)) / 2 + s.tckAsym port
  let d : Int := (((t2 : Int) - t1) + ((t4 : Int) - t3)) / 2
  if s.tck.discards t1 t4 d retx then
    let s1 := s.cnt pgTCK 0x68 1
    if t1 + 4 * 2048 * 16 < t4 then s1.tckLog 2 port else s1
  else
    let s1 := { s with tck := { s.tck with hist := ((a0, d) :: s.tck.hist).take 16, lastKept := s.tick } }
    (((s1.cnt pgTCK 0x64 1).tckFilter).tckJudge a0 port).tckCorrect

/-- Exchanges begin anew with another parent (R197). -/
def State.tckReparent (s : State) (backup : Bool) : State :=
  (({ s with tck := { s.tck with usingBackup := backup, hist := [], good := 0, depth := 0xFF, lastKept := s.tick } }).cnt pgTCK 0x6C
    1).setInt pgTCK 3

/-- Whether a frame of an exchange carried a retransmission on the port (R267). -/
def OptPort.spoilt (o : OptPort) (x : Exchange) : Bool :=
  o.retxFrames.contains (x.t1 / 16 / 2048) || o.retxFrames.contains (x.t4 / 16 / 2048)

/-- The tick by which the last half-slot of the frame of an exchange's reply has come: 116 half-slots after the one whose framing word gave
t4 (R267). -/
def Exchange.over (x : Exchange) : Nat := x.t4 / 16 + 116 * 16 + 1

/-- The exchange that a port's framing words have brought, taken from it; one whose words did not come as half-slots is as the command
measured it (R193, R267; log 35). -/
def State.takeExchange (s : State) (p : Nat) (e : Exchange) : State × Exchange :=
  let q := (s.pmap p).phys
  let o := s.oport q
  match o.exch with
  | some x =>
    let s1 := if x.bad then s else elapseTo x.over s
    (s1.setOport q { s1.oport q with exch := none }, { x with bad := x.bad || (s1.oport q).spoilt x })
  | none => (s, e)

/-- TICK_EXCHANGE (R193 to R195, R267). -/
def execTickExchange (t1 t2 t3 t4 : Nat) (retx : Bool) (s : State) : Host.Outcome State Fault Refusal :=
  .next (match s.tckPort, s.tck.state with
    | none, _ => s
    | some _, .root => s
    | some _, .lost => s
    | some p, st =>
      let r := s.takeExchange p ⟨t1, t2, t3, t4, retx⟩
      (if st = .free then r.1.tckEnter .acquiring else r.1).tckExchange p r.2.t1 r.2.t2 r.2.t3 r.2.t4 r.2.bad)

/-- TICK_HOLDOVER (R197): the parent link has yielded no kept exchange for 2 frames. ROOT_BACKUP stands on a child of the root,
so its loss is the root's: the device enters ROOT without stepping. -/
def execTickHoldover (s : State) : Host.Outcome State Fault Refusal :=
  .next (match s.tckPort with
    | none => s
    | some p =>
      if s.tck.state ≠ .aligned ∧ s.tck.state ≠ .acquiring then s
      else
        let s1 := elapseTo (s.tck.lastKept + 4096) s
        let cfg := s1.reg pgTCK 0x48
        if bitAt cfg 11 then ({ s1 with tck := { s1.tck with state := .root, depth := 0 } }).tckLog 5 p
        else
          let s2 := (({ s1 with tck := { s1.tck with state := .holdover, holdSince := s1.tick, good := 0 } }).tckLog 1 p).setInt
            pgTCK 2
          if !s2.tck.usingBackup && decide (tckBackup cfg < 16) then s2.tckReparent true else s2)

/-- TICK_LOST (R194, R197). -/
def execTickLost (s : State) : Host.Outcome State Fault Refusal :=
  .next (
    if s.tck.state ≠ .holdover then s
    else
      let s1 := ((elapseTo (s.tck.holdSince + 5000000) s).tckEnter .lost)
      let s2 := (s1.tckLog 4 (s1.tckPort.getD 31)).setInt pgTCK 4
      match s2.sch.job with
      | .armed => s2.raiseWithdraw 1 s2.devId
      | .running => s2.raiseWithdraw 1 s2.devId
      | .rewinding => s2.raiseWithdraw 1 s2.devId
      | .parked => s2.raiseWithdraw 1 s2.devId
      | .idle => s2.lostReturns
      | .loaded => s2.lostReturns
      | _ => s2)

/-- The effect of a TCK_CFG write (R192, R215): ROOT and ROOT_BACKUP only in IDLE or LOADED, PARENT and BACKUP at once. A parent that
changes, a backup in use that does, and a backup named while the parent has failed are re-parents; with no parent left the device is
FREE (R194, R197). -/
def State.writeTckCfg (s : State) (v : Nat) : State :=
  let old := s.reg pgTCK 0x48
  let top := if s.mayStep then fld v 10 2 else fld old 10 2
  let new := v % 2 ^ 10 + top * 2 ^ 10
  let s1 := s.setReg pgTCK 0x48 new
  let failed := s.tck.state = .holdover ∧ tckParent new = tckParent old ∧ tckBackup new < 16
  let moved := tckParent new ≠ tckParent old ∨ ((s.tck.usingBackup = true ∨ failed) ∧ tckBackup new ≠ tckBackup old)
  if bitAt new 10 then
    { s1 with tck := { s1.tck with state := .root, depth := 0, usingBackup := false, hist := [], good := 0 } }
  else
    let s2 := if bitAt old 10 then { s1 with tck := { s1.tck with state := .free, depth := 0xFF } } else s1
    let s3 := if moved then s2.tckReparent (tckParent new == tckParent old && decide (tckBackup new < 16)) else s2
    match s3.tck.state, s3.tckPort with
    | .root, _ => s3
    | _, none => { s3 with tck := { s3.tck with state := .free, depth := 0xFF, hist := [], good := 0 } }
    | .free, some _ => s3.tckEnter .acquiring
    | .aligned, _ =>
      if moved then (({ s3 with tck := { s3.tck with state := .holdover, holdSince := s3.tick } }).setInt pgTCK 2) else s3
    | _, _ => s3

/-- TCK_REPARENT (R197, R215). -/
def execTckReparent (m : Master) (v : Word) (s : State) : Host.Outcome State Fault Refusal :=
  .next (s.lk m pgTCK 0x48 (fun s => s.writeTckCfg v.toNat))

end Sys2Proof.Machine
end

