-- ==== Sys2Proof/Machine/ViaductOps.lean ====
section
/-! DEFINITION. What the Viaduct's commands share: occupancy of the A-class buffers (R244), and delivery with the order of A-class
flits (R222, R233). -/

namespace Sys2Proof.Machine

open Sys2Proof

/-! A-class buffers. -/

/-- A-class buffers in use on an input port. -/
def State.occNow (s : State) (p : Nat) : Nat := (s.vdt.abuf.filter (fun f => f.port == p)).length

/-- `n` buffers in use from `occAt` up to tick `now`. -/
def VPort.occPass (v : VPort) (n now : Nat) : VPort :=
  let f1 := now / 2048
  let f0 := if v.occAt / 2048 + 64 < f1 then f1 - 64 else v.occAt / 2048
  let log := (upTo (f1 + 1 - f0)).foldl (fun m i =>
    let f := f0 + i
    let lo := if v.occAt < f * 2048 then f * 2048 else v.occAt
    let hi := if now < (f + 1) * 2048 then now else (f + 1) * 2048
    let e := Store.get (0, 0) m f
    Store.set (0, 0) m f (if e.1 < n then n else e.1, e.2 + n * (hi - lo))) v.occLog
  { v with occAt := now, occLog := log.filter (fun p => decide (f1 ≤ p.1 + 64)) }

/-- The buffers of an input port counted up to now. -/
def State.occTouch (s : State) (p : Nat) : State := s.setVport p ((s.vport p).occPass (s.occNow p) s.tick)

/-- An A-class flit put into an input port's buffers. -/
def State.bufferA (s : State) (f : AFlit) : State :=
  let s1 := s.occTouch f.port
  let s2 := { s1 with vdt := { s1.vdt with abuf := s1.vdt.abuf ++ [f] } }
  s2.occTouch f.port

/-- An A-class flit taken out of its buffer, whose credit goes back (R231, R265). -/
def State.unbufferA (s : State) (f : AFlit) : State :=
  let s1 := s.occTouch f.port
  ({ s1 with vdt := { s1.vdt with abuf := s1.vdt.abuf.erase f } }).freeCredit f.port (fltVc f.flit.head) f.cls

/-! Log fields (R243). -/

/-- PORT, VC, SLOT and CTX of a VDT record. -/
def State.vdtPos (s : State) (p h : Nat) : Nat :=
  p % 32 * 2 ^ 19 + (if fltAclass h then fltVc h else 0) * 2 ^ 16 + s.tick % 2048 / 32 * 2 ^ 10 + fltCtx h

/-- SRC_ID and DEST_ID of a VDT record. -/
def vdtIds (h : Nat) : Nat := fltSrcId h * 2 ^ 16 + fltDest h

/-! Delivery (R222 step 4, R233). -/

/-- The SEND that a delivered flit belongs to, as it stands with the flit: one whose flits have ended where this one begins, or a new
one. -/
def State.colRun (s : State) (h : Nat) : ColRun :=
  let at_ := fun (r : ColRun) => r.src == fltSrcId h && r.tag == fltTag h && r.core == fltCore h && r.next == fltOffset h
  let r := (s.vdt.runs.find? at_).getD ⟨fltSrcId h, fltTag h, fltCore h, fltOffset h, fltOffset h⟩
  { r with next := fltOffset h + fltLen h }

/-- The SENDs under delivery once a flit has come: its last flit ends its own. -/
def State.colRuns (s : State) (h : Nat) : List ColRun :=
  let rest := s.vdt.runs.filter (fun r =>
    !(r.src == fltSrcId h && r.tag == fltTag h && r.core == fltCore h && r.next == fltOffset h))
  if fltLast h then rest else s.colRun h :: rest

/-- Blocks of a delivered SEND: its bytes by the size of a block of the format that the sidecar of its first block names, where the
transit check of that block verifies (R163, R257; log 42). -/
def State.blocksOf (s : State) (r : ColRun) : Option Nat :=
  let n := r.next - r.start
  let fits := fun (f : Fmt) =>
    let data := s.cmBytes r.core r.start f.bytes
    n % f.coreBytes == 0 && coreBlockCheck f data (s.cmBytes r.core (r.start + f.bytes) 8) == 0
  (((upTo 8).filterMap Fmt.ofCode).find? fits).map (fun f => n / f.coreBytes)

/-- A keyed SEND delivered whole: measured, and its ARRIVE made (R168, R257). What its bytes do not tell of their blocks is left open. -/
def State.delivered (s : State) (p : Nat) (h : Nat) (r : ColRun) : State :=
  let f := match s.blocksOf r with
    | some n => (n, s)
    | none => (s.free.1.toNat, s.free.2)
  (f.2.colDelivery p (fltKey h) (fltCore h) (fltCtx h) f.1).keyRemote (fltKey h) (fltCtx h) (fltSrcId h)

/-- A flit dropped for its context, with the count its teardown reports (R222 step 3, R406). -/
def State.dropCtx (s : State) (h : Nat) : State :=
  let x := s.ctxOf (fltCtx h)
  let s1 := s.cnt pgVDT 0xA8 1
  if x.st = .closing then s1.setCtx (fltCtx h) { x with tdFlits := satAt max32 (x.tdFlits + 1) } else s1

/-- A flit of a context delivered to its core: written below the carve-out, its last flit arriving on its keystone. -/
def State.deliver (s : State) (p : Nat) (f : Flit) : State :=
  let h := f.head
  let c := fltCore h
  if !s.tagOpen (fltTag h) then s.dropCtx h
  else if !s.corePresent c || (s.core c).inReset then s.cnt pgVDT 0xB0 1
  else if !s.cmIn (fltOffset h) (fltLen h) then s.vdtFault .ctx 9 (s.vdtPos p h) 0 (vdtIds h) (fltCtx h)
  else
    let s1 := (s.cnt64 pgVDT (if fltAclass h then 0x98 else 0x90) 1).cmPut c (fltOffset h) (f.body.take (fltLen h))
    let s2 := { s1 with vdt := { s1.vdt with runs := s1.colRuns h } }
    if fltLast h && fltKeyEn h then s2.delivered p h (s1.colRun h) else s2

/-- Number of a source and VC. -/
def flowKey (h : Nat) : Nat := fltSrcId h * 8 + fltVc h

/-- The expected flit of a source and VC delivered, and then every later one that is held, each as of the port it came on; `n` bounds
them. -/
def State.deliverA : Nat → State → Nat → Flit → State
  | 0, s, p, f => s.deliver p f
  | n + 1, s, p, f =>
    let key := flowKey f.head
    let s1 := s.deliver p f
    let next := (Store.get 0 s1.vdt.expect key + 1) % 2 ^ 16
    let s2 := { s1 with vdt := { s1.vdt with expect := Store.set 0 s1.vdt.expect key next } }
    let due := fun (g : Flit) => flowKey g.head == key && fltSeq g.head == next
    match s2.vdt.reorder.find? (fun x => due x.2) with
    | some x =>
      State.deliverA n { s2 with vdt := { s2.vdt with reorder := s2.vdt.reorder.erase x } } x.1 x.2
    | none =>
      match s2.vdt.abuf.find? (fun a => fltDest a.flit.head == s2.devId && fltCtx a.flit.head != 0 && due a.flit) with
      | some a => State.deliverA n (s2.unbufferA a) a.port a.flit
      | none => s2

/-- The gap of a source and VC: open while a later flit waits for the expected one. -/
def State.gapCheck (s : State) (key : Nat) (moved : Bool) : State :=
  let waits := s.vdt.reorder.any (fun x => flowKey x.2.head == key) ||
    s.vdt.abuf.any (fun a => fltDest a.flit.head == s.devId && fltCtx a.flit.head != 0 && flowKey a.flit.head == key)
  let g := s.vdt.gapSince
  let g1 := if !waits then Store.erase g key else if moved || (Store.find g key).isNone then Store.insert g key s.tick else g
  { s with vdt := { s.vdt with gapSince := g1 } }

/-- Whether an A-class flit from a source is accepted: an RX entry (R233). -/
def State.rxEntry (s : State) (src : Nat) : Bool := bitAt (Store.get 0 s.vdt.routes src) 42

/-- An A-class flit of a context that has reached its device, against a credit for a class (R233): one that takes no buffer of its
port gives the credit back at once, one that is withheld keeps it. -/
def State.arriveA (s : State) (p cls : Nat) (f : Flit) : State :=
  let h := f.head
  let key := flowKey h
  let d := (fltSeq h + 2 ^ 16 - Store.get 0 s.vdt.expect key) % 2 ^ 16
  let s1 := s.freeCredit p (fltVc h) cls
  if !s.rxEntry (fltSrcId h) then s1.cnt pgVDT 0xB0 1
  else if d = 0 then (s1.deliverA (s.vdt.reorder.length + s.vdt.abuf.length) p f).gapCheck key true
  else if d ≤ 255 ∧ s.vdt.reorder.length < 4096 then
    ({ s1 with vdt := { s1.vdt with reorder := s1.vdt.reorder ++ [(p, f)] } }).gapCheck key false
  else (s.bufferA ⟨f, p, cls, s.tick⟩).gapCheck key false

/-- A flit sent to a hop on physical port `p`, position `pos` of the slot at `t`. -/
def State.sendHop (s : State) (p t pos l cls : Nat) (sprayed : Bool) (f : Flit) : State :=
  let vc := fltVc f.head
  let s1 := (s.spend p vc cls).sendFlit p t pos f
  if sprayed then { s1 with vdt := { s1.vdt with spray := Store.set 0 s1.vdt.spray vc ((l + 1) % 16) } } else s1

end Sys2Proof.Machine
end

