-- ==== Sys2Proof/Machine/Viaduct.lean ====
section
/-! DEFINITION. Flits as they arrive (R222), slots as they are transmitted (R223 to R225, R230), and the gap of an A-class
sequence (R233). -/

namespace Sys2Proof.Machine

open Sys2Proof

/-- A context-0 flit handed to the device engine that DEST_CORE names (R222 step 4). -/
def State.engineTake (s : State) (p : Nat) (f : Flit) : State :=
  let h := f.head
  let bytes := f.body.take (fltLen h)
  match fltCore h with
  | 0xFB => s.takeCloseFlit p f.body
  | 0xFC =>
    -- storage acknowledges on the export port alone (R332)
    if p = (s.pmap (16 + fld (s.reg pgSEEP 0x40) 4 2)).phys then s.takeSeepFlit bytes else s.cnt pgVDT 0xB0 1
  | 0xFD => s.takeBuddyFlit p (fltOffset h) bytes
  | 0xFE => s.takeStateFlit p (fltSrcId h) (fltOffset h) (fltLast h) bytes
  | 0xFF => s.takeSealFlit p f.body
  | _ => s.cnt pgVDT 0xB0 1

/-- Whether a flit may come over an EXPORT port, which carries nothing but the traffic of storage: Seep acknowledgements and state
streams, A-class flits of context 0 (R24, R218, R332, R376). -/
def exportFlit (h : Nat) : Bool := fltCtx h == 0 && fltAclass h && (fltCore h == 0xFC || fltCore h == 0xFE)

/-- A flit put into a FIFO after every flit that came no later (R268). -/
def fifoInsert (q : QFlit) : List QFlit → List QFlit
  | [] => [q]
  | x :: l => if q.came < x.came then q :: x :: l else x :: fifoInsert q l

/-- An S-class flit for another device, whose first bit came at tick `arr`: into its input port's FIFO, or an overrun (R222 step 5,
R223, R225). -/
def State.enqueueS (s : State) (p came arr : Nat) (f : Flit) : State :=
  let v := s.vport p
  if 128 ≤ v.fifo.length then s.slotError 3 (s.vdtPos p f.head) 0 (vdtIds f.head)
  else s.setVport p { v with fifo := fifoInsert ⟨f, arr + 50, came⟩ v.fifo }

/-- The credit of an A-class flit that its device takes or drops without holding it goes back (R231). -/
def State.noBuffer (s : State) (p cls h : Nat) : State := if fltAclass h then s.freeCredit p (fltVc h) cls else s

/-- The upset that the duplicated Viaduct logic meets next: a hardware fault with cause 0x1, counted, while DUP_EN is 1 (R242, R245; log
56). -/
def State.vdtCompare (s : State) : State :=
  match s.takeSlip pgVDT with
  | (none, _) => s
  | (some _, s1) => if bitAt (s1.reg pgVDT 0x40) 0 then (s1.cnt pgVDT 0xB8 1).vdtFault .hw 1 0 0 0 0 else s1

/-- A flit with a verified CRC on a port, by the steps of R222 in order: `arr` is the tick at which its first bit came, `came` that of
its first transmission, `cls` the buffer class of the credit it was sent against (R231). A retired port carries framing and alarms only
(R244). -/
def State.takeFlit (s : State) (p came arr h cls : Nat) (body : List Byte) : State :=
  let f : Flit := ⟨h, (body ++ List.replicate 240 0#8).take 240⟩
  if fltLen h = 0 then s
  else if (s.vport p).retire || !(s.inPart p || (s.isExport p && exportFlit h)) then s.cnt pgVDT 0xA0 1
  else if s.sch.job == .rewinding || fltEpoch h != s.vdt.epoch then s.cnt pgVDT 0xA4 1
  else if !s.tagOpen (fltTag h) then (s.noBuffer p cls h).dropCtx h
  else if fltDest h = s.devId then
    if fltCtx h = 0 then (s.noBuffer p cls h).engineTake p f
    else if fltAclass h then s.arriveA p cls f
    else s.deliver p f
  else if fltAclass h then s.bufferA ⟨f, p, cls, arr + 50⟩
  else s.enqueueS p came arr f

/-- FLIT_RECEIVE (R218, R222): a flit of a half-slot whose check has verified, with its first bit now. -/
def execFlitReceive (p : Fin 20) (head : FlitHead) (body : List Byte) (s : State) : Host.Outcome State Fault Refusal :=
  .next (s.vdtCompare.takeFlit p s.tick s.tick head.bits.toNat head.cls body)

/-! Slots. -/

/-- The index in its port's table of the slot entry at tick `t` of the span's frames (R190). -/
def State.slotIndex (s : State) (t : Nat) : Nat := (s.curDesc.map (·.slotBase)).getD 0 + (t - s.sch.first) / 32

/-- The slot entry of a port's table at slot `t` of the span's frames, if there is one (R190). -/
def State.slotEntry (s : State) (l t : Nat) : Option Nat :=
  match s.sch.job, s.curDesc with
  | .running, some d =>
    if s.sch.first ≤ t ∧ t < s.sch.first + 2048 * d.frames ∧ (s.sch.place = .span ∨ s.sch.place = .pier) then
      (Store.get [] s.vdt.slots l)[s.slotIndex t]?
    else none
  | _, _ => none

/-- The outcome of a slot's S-class part: the positions from here on are spare. -/
structure SlotRun where
  s : State
  /-- First position that is spare. -/
  spare : Nat
  deriving DecidableEq, Repr

/-- The flits of entry `idx`, with SRC 0, from position `j`; `n` is the number still to take (R224, R225). -/
def State.takeLocal : Nat → State → Nat → Nat → Nat → Nat → Nat → Nat → SlotRun
  | 0, s, _, _, _, _, _, j => ⟨s, j⟩
  | n + 1, s, p, t, key, ctx, idx, j =>
    let pos := p * 2 ^ 19 + t % 2048 / 32 * 2 ^ 10 + ctx
    match Store.get [] s.vdt.inject key with
    | [] => ⟨s.slotError 2 pos idx (s.devId * 2 ^ 16), j + n + 1⟩
    | (f, ends) :: rest =>
      if fltCtx f.head ≠ ctx then ⟨s.vdtFault .sched 0xA pos idx (vdtIds f.head) 0, j + n + 1⟩
      else if fltAclass f.head then ⟨s, j⟩
      else
        State.takeLocal n
          ((({ s with vdt := { s.vdt with inject := Store.set [] s.vdt.inject key rest } }).sendFlit p t j f).colSent p ends)
          p t key ctx idx (j + 1)

/-- The head flits of a FIFO whose context is not OPEN are discarded (R225). -/
def State.dropClosed (s : State) (l : List QFlit) : List QFlit := l.dropWhile (fun q => !s.tagOpen (fltTag q.flit.head))

/-- The flits of entry `idx`, with SRC 1 from input port `q`, from position `j` (R225, R227). -/
def State.takeThrough : Nat → State → Nat → Nat → Nat → Nat → Nat → Nat → SlotRun
  | 0, s, _, _, _, _, _, j => ⟨s, j⟩
  | n + 1, s, p, t, q, ctx, idx, j =>
    let v := s.vport q
    let pos := q * 2 ^ 19 + t % 2048 / 32 * 2 ^ 10 + ctx
    match s.dropClosed v.fifo with
    | [] => ⟨(s.setVport q { v with fifo := [] }).slotError 2 pos idx 0, j + n + 1⟩
    | f :: rest =>
      let h := f.flit.head
      if posTick t j < f.eligible then
        ⟨(s.setVport q { v with fifo := f :: rest }).slotError 2 pos idx (vdtIds h), j + n + 1⟩
      else if fltCtx h ≠ ctx then
        ⟨(s.setVport q { v with fifo := f :: rest }).vdtFault .hw 5 (s.vdtPos q h) idx (vdtIds h) 0, j + n + 1⟩
      else
        let slack := posTick t j - f.eligible
        let s1 := s.setVport q { v with fifo := rest, slack := if slack < v.slack then slack else v.slack }
        State.takeThrough n ((s1.sendFlit p t j f.flit).cnt64 pgVDT 0x90 1) p t q ctx idx (j + 1)

/-- Whether a hop leads to physical port `p`. -/
def State.goesOn (s : State) (p : Nat) : Hop → Bool
  | .go l _ _ => (s.pmap l).phys == p
  | _ => false

/-- The local stream whose head A-class flit goes out on port `p`, if a span's frames run (R230, R239). -/
def State.localTo (s : State) (p : Nat) : Option (Nat × Flit × Nat × List (Flit × Nat)) :=
  if s.inSpan && !s.isExport p then
    s.localHeads.find? (fun x => s.tagOpen (fltTag x.2.1.head) && s.goesOn p (s.hop x.2.1.head none))
  else none

/-- The buffered flit that may go out on port `p` in a position that begins at tick `t`, if there is one; an EXPORT port carries context 0
alone (R218). -/
def State.passingTo (s : State) (p t : Nat) : Option AFlit :=
  s.vdt.abuf.find? (fun a =>
    fltDest a.flit.head != s.devId && decide (a.eligible ≤ t) && (!s.isExport p || fltCtx a.flit.head == 0) && s.goesOn p (s.hopOf a))

/-- What one position may carry: the first A-class flit that goes to this port, in the order transfer flits of the port, buffered
flits, local streams (R230; log 38). -/
def State.sendSpare (s : State) (p t pos : Nat) : Option State :=
  let v := s.vport p
  match v.xfer with
  | f :: rest =>
    if s.credit p (fltVc f.head) 0 then
      some (((s.setVport p { v with xfer := rest }).spend p (fltVc f.head) 0).sendFlit p t pos f)
    else none
  | [] =>
    match s.passingTo p (posTick t pos), s.localTo p with
    | some a, _ =>
      (match s.hopOf a with
       | .go l cls spr => some (((s.unbufferA a).sendHop p t pos l cls spr a.flit).cnt64 pgVDT 0x98 1)
       | _ => none)
    | none, some (key, f, ends, rest) =>
      (match s.hop f.head none with
       | .go l cls spr =>
         some ((({ s with vdt := { s.vdt with inject := Store.set [] s.vdt.inject key rest } }).sendHop p t pos l cls spr f).colSent
           p ends)
       | _ => none)
    | none, none => none

/-- The spare positions of a list. -/
def State.spareFrom (s : State) (p t : Nat) (l : List Nat) : State := l.foldl (fun a pos => (a.sendSpare p t pos).getD a) s

/-- Buffered flits that no port will ever carry are discarded (R232). -/
def State.discardA (s : State) : State :=
  (s.vdt.abuf.filter (fun a => fltDest a.flit.head != s.devId && s.hopOf a == .discard)).foldl
    (fun z a => (z.unbufferA a).cnt pgVDT 0xB0 1) s

/-- Local A-class flits that no port will ever carry are discarded (R232). -/
def State.discardLocal (s : State) : State :=
  (s.localHeads.filter (fun x => s.hop x.2.1.head none == .discard)).foldl (fun z x =>
    ({ z with vdt := { z.vdt with inject := Store.set [] z.vdt.inject x.1 x.2.2.2 } }).cnt pgVDT 0xB0 1) s

/-- The S-class part of the slot at `t` of the port that carries logical port `l`: what its entry takes (R190, R224, R225, R241). No
entry acts on an EXPORT port, which carries nothing of the partition (R218). -/
def State.slotEntryRun (s : State) (p l t : Nat) : SlotRun :=
  let w := if s.isExport p then 0 else (s.slotEntry l t).getD 0
  let ctx := fld w 25 10
  let n := fld w 20 5
  let q := (s.pmap (fld w 15 5)).phys
  if !bitAt w 0 then ⟨s, 0⟩
  else if (s.ctxOf ctx).st ≠ .open_ then
    if bitAt w 1 then ⟨s.setVport q { s.vport q with fifo := s.dropClosed (s.vport q).fifo }, n⟩ else ⟨s, n⟩
  else if bitAt w 1 then s.takeThrough n p t q ctx (s.slotIndex t) 0
  else s.takeLocal n p t (fld w 2 8 * 32 + fld w 10 5) ctx (s.slotIndex t) 0

/-- Whether a port carries flits in its slots: one of the partition or to storage that is not retired, outside a rewind (R218, R219,
R240, R244). -/
def State.carriesFlits (s : State) (p : Nat) : Bool :=
  !(s.vport p).retire && (s.inPart p || s.isExport p) && s.sch.job != .rewinding

/-- REORDER_TIMEOUT (R233): the gap of a source and VC has stayed open for REORDER_US. -/
def execReorderTimeout (src : Nat) (vc : Fin 8) (s : State) : Host.Outcome State Fault Refusal :=
  .next (
    let key := src * 8 + vc
    match Store.find s.vdt.gapSince key with
    | none => s
    | some t =>
      let us := fld (s.reg pgVDT 0x40) 8 8
      let s1 := elapseTo (t + 1000 * (if us = 0 then 1 else us)) s
      ({ s1 with vdt := { s1.vdt with gapSince := Store.erase s1.vdt.gapSince key } }).vdtFault .hw 6 (vc * 2 ^ 16) 0
        (src % 2 ^ 16 * 2 ^ 16 + s1.devId) 0)

end Sys2Proof.Machine
end

