-- ==== Sys2Proof/Machine/Link.lean ====
section
/-! DEFINITION. The half-slot stream as a port sends it (R261 to R268): code words, the half-slot check, the framing word with its credit
and control content, retransmissions, and the slots that carry flits (R223 to R225, R230). -/

namespace Sys2Proof.Machine

open Sys2Proof

/-- Engine and local port of a physical port (R260). -/
def engOf (p : Nat) : Nat := p % 4
def locOf (p : Nat) : Nat := p / 4

/-! Code words (R262). -/

/-- A code word: a cell in bits [1023:0] and its check bits in bits [1055:1024] (R262; log 44). -/
def bchWord (cell : BitVec 1024) : BitVec 1056 := Config.bchCheck cell ++ cell

/-- Whether a word is a code word. -/
def bchOk (w : BitVec 1056) : Bool := bchWord (w.setWidth 1024) == w

/-- The code word that a word is with exactly `k` wrong bits among its first `n`, if there is one. -/
def bchFlips : Nat → Nat → BitVec 1056 → Option (BitVec 1056)
  | 0, _, w => if bchOk w then some w else none
  | _ + 1, 0, _ => none
  | k + 1, n + 1, w =>
    match bchFlips k n (w ^^^ BitVec.ofNat 1056 (2 ^ n)) with
    | some v => some v
    | none => bchFlips (k + 1) n w

/-- A received word decoded: the code word within 3 bit errors of it, and the number of errors; none where it is uncorrectable. -/
def bchDecode (w : BitVec 1056) : Option (BitVec 1056 × Nat) :=
  (upTo 4).findSome? (fun k => (bchFlips k 1056 w).map (fun v => (v, k)))

/-! The stream (R261, R263). -/

/-- The 256 bytes of a flit (R220). -/
def flitBytes (f : Flit) : List Byte := leBytes 16 f.head ++ (f.body ++ List.replicate 240 0#8).take 240

/-- The idle flit (R261). -/
def idleFlit : Flit := ⟨0, []⟩

/-- The 15 flits of a half-slot from those in its positions; the others are idle. -/
def halfFlits (l : List (Nat × Flit)) : List Flit := (upTo 15).map (fun j => ((l.find? (fun x => x.1 == j)).map (·.2)).getD idleFlit)

/-- The half-slot check (R263). -/
def halfCheck (l : List Flit) : Nat := l.foldl (fun a f => a ^^^ crc32c (flitBytes f)) 0

/-- The 30 code words of 15 flits. -/
def halfWords (l : List Flit) : List (BitVec 1056) :=
  l.flatMap (fun f =>
    let n := leNat (flitBytes f)
    [bchWord (BitVec.ofNat 1024 n), bchWord (BitVec.ofNat 1024 (n / 2 ^ 1024))])

/-- The 31,744 bits of a half-slot: code words, check, framing word (R261). -/
def halfStream (words : List (BitVec 1056)) (check framing : Nat) : Nat :=
  words.foldr (fun w a => w.toNat + 2 ^ 1056 * a) (check % 2 ^ 32 + framing % 2 ^ 32 * 2 ^ 32)

/-- The bits of each data line in time order: stream bit k on line k mod 31 at bit time k div 31 (R261). -/
def halfLines (stream : Nat) : List Nat :=
  (upTo 31).map (fun l => (upTo 1024).foldr (fun i a => b2n (bitAt stream (31 * i + l)) + 2 * a) 0)

/-! Framing words (R264 to R267). -/

/-- A framing word of 24 bits of content, with its CRC-8 (R264). -/
def framingOf (c : Nat) : Nat :=
  c % 2 ^ 24 * 2 ^ 8 + crc8 [BitVec.ofNat 8 (c / 2 ^ 16), BitVec.ofNat 8 (c / 2 ^ 8), BitVec.ofNat 8 c]

/-- Number of the half-slot that begins at or contains a tick, mod 512 (log 44). -/
def halfSeq (t : Nat) : Nat := t / 16 % 512

/-- Departure of the first framing bit of a half-slot that begins at tick `t`, in 1/16 tick (R223, R267; log 35). -/
def State.departs (s : State) (t : Nat) : Nat := (t + 25) * 16 + s.frac + 255

/-- Feed of an engine: 0 none, 1 K0, 2 K1. -/
def OptState.feedOf (o : OptState) (e : Nat) : Nat := fld o.feed (2 * e) 2

/-- Whether power weighting is on: WEIGHT_EN, which reads 1 under LONG (R276). -/
def OptPort.weights (o : OptPort) : Bool := o.weightEn || o.reach == 2

/-- Whether a port sends framing words at a tick: in IDENT and UP, and in TRAIN from the frame after the one that found the half-slot
boundary (R266, R270). -/
def State.framingOn (s : State) (p t : Nat) : Bool :=
  let o := s.oport p
  o.st == .ident || o.st == .up || (o.st == .train && o.aligned && decide (o.alignedAt < t / 2048))

/-- The credit word of the half-slot at `t`, and the state once it is sent: the combinations of VC and CLASS in turn, and the
retransmission that the half-slot carries, else a NACK that is due (R265, R266). -/
def State.creditContent (s : State) (p t : Nat) (retx : Option Nat) : Nat × State :=
  let o := s.oport p
  let train := o.st == .train
  let cred := if train then 3 * 2 ^ 19 else o.turn / 3 * 2 ^ 21 + o.turn % 3 * 2 ^ 19 + Store.get 0 o.freed o.turn % 2 ^ 8 * 2 ^ 11
  let o1 := if train then o else { o with turn := (o.turn + 1) % 24 }
  match retx, o.nackDue with
  | some seq, _ => (cred + seq % 512 * 2 + 1, s.setOport p o1)
  | none, seq :: rest => (cred + 2 ^ 10 + seq % 512 * 2, s.setOport p { o1 with nackDue := rest })
  | none, [] => (cred + halfSeq t * 2, s.setOport p o1)

/-- Control word 2 of the half-slot at `t`: PROBE towards a parent, REPLY to a probe of an earlier frame, with t2 and t3 kept for the words
that follow (R267). -/
def State.exchangeContent (s : State) (p t : Nat) : Nat × State :=
  let o := s.oport p
  let probe := s.tckPort.map (fun l => (s.pmap l).phys) == some p && s.tck.state != .root
  let o1 := if probe then { o with probes := (s.departs t :: o.probes).take 4 } else o
  match o.probed with
  | some t2 =>
    if t2 / 16 / 2048 < t / 2048 then
      (b2n probe + 2, s.setOport p { o1 with probed := none, replies := some (t2, s.departs t) })
    else (b2n probe, s.setOport p { o1 with replies := none })
  | none => (b2n probe, s.setOport p { o1 with replies := none })

/-- Control word `c` of the half-slot at `t`, and the state once it is sent (R266). -/
def State.controlContent (s : State) (p t c : Nat) : Nat × State :=
  let o := s.oport p
  let pwr := fun (i : Nat) => if i < 31 then Store.get 0 o.rxPwr i % 2 ^ 8 else 0
  match c with
  | 0 => (s.partId % 2 ^ 16 + (s.lport p).getD 31 * 2 ^ 16, s)
  | 1 => (s.devId + s.opt.feedOf (engOf p) * 2 ^ 16, s)
  | 2 => s.exchangeContent p t
  | 19 => (o.st.code + b2n (s.vport p).retire * 2 ^ 4 + b2n o.weights * 2 ^ 5, s)
  | _ =>
    let r := o.replies.getD (0, 0)
    if c < 6 then (fld r.1 (24 * (c - 3)) 24, s)
    else if c < 8 then (fld (r.2 - r.1) (24 * (c - 6)) 24, s)
    else if c < 19 then (pwr (3 * (c - 8)) + pwr (3 * (c - 8) + 1) * 2 ^ 8 + pwr (3 * (c - 8) + 2) * 2 ^ 16, s)
    else (0, s)

/-- The content of the framing word of the half-slot at `t` (R264). -/
def State.framingContent (s : State) (p t : Nat) (retx : Option Nat) : Nat × State :=
  let h := t % 2048 / 16
  if h % 4 = 3 then s.controlContent p t (h / 4) else s.creditContent p t retx

/-! Half-slots. -/

/-- Whether retry is used on a port's engine (R206, R207, R268). -/
def State.retryOn (s : State) (p : Nat) : Bool := bitAt (s.reg (pgTRS (engOf p)) 0x40) 0 && !s.compiled

/-- The flits sent on a port in half `i` of the slot at `t`, each with its position in the half-slot. -/
def State.sentIn (s : State) (p t i : Nat) : List (Nat × Flit) :=
  s.out.filterMap (fun o => match o with
    | .flit q u pos f => if q = p ∧ u = posTick t pos ∧ pos / 15 = i then some (pos % 15, f) else none
    | _ => none)

/-- A half-slot that begins at `t` sent: its bits on the data lines, and its flits kept under retry (R261, R268). -/
def State.sendHalf (s : State) (p t : Nat) (flits : List (Nat × Flit)) (retx : Option Nat) : State :=
  let r := s.framingContent p t retx
  let l := halfFlits flits
  let s1 := r.2.emit (.halfSlot p t (halfLines (halfStream (halfWords l) (halfCheck l) (framingOf r.1))))
  if s1.retryOn p then
    let o := s1.oport p
    s1.setOport p { o with sentHalf := ((halfSeq t, flits) :: o.sentHalf).take 64 }
  else s1

/-- The half-slots kept for NACKs that are to go out again, in order: number and flits. -/
def State.toResend (s : State) (p : Nat) : List (Nat × List (Nat × Flit)) :=
  let o := s.oport p
  if !s.retryOn p then [] else o.resend.filterMap (fun n => o.sentHalf.find? (fun x => x.1 == n))

/-- The halves of the slot at `t` that carry the retransmissions which wait, where the entry leaves the positions from `spare` on: those
with a credit word, and with 15 spare positions, which no engine's flit has taken either (R268). -/
def State.resendHalves (s : State) (p t spare : Nat) : List Nat :=
  ((upTo 2).filter (fun i => (t / 16 + i) % 4 != 3 && decide (spare ≤ 15 * i) && (s.sentIn p t i).isEmpty)).take (s.toResend p).length

/-- A retransmission counted as it leaves, in a frame whose exchange it spoils (R267, R281). -/
def State.resent (s : State) (p t seq : Nat) : State :=
  let o := s.oport p
  s.setOport p { o with resend := o.resend.erase seq, retryCnt := satAt max32 (o.retryCnt + 1)
                        retxFrames := (t / 2048 :: o.retxFrames).take 8 }

/-- Half `i` of the slot at `t`: the retransmission that waits longest if this half carries one, else the flits in its positions. -/
def State.transmitHalf (s : State) (p t : Nat) (again : List Nat) (i : Nat) : State :=
  match again.contains i, s.toResend p with
  | true, (seq, flits) :: _ => (s.resent p t seq).sendHalf p (t + 16 * i) flits (some seq)
  | _, _ => s.sendHalf p (t + 16 * i) (s.sentIn p t i) none

/-- The flits of the slot at `t` of a port that carries them: those of its entry, then A-class flits in the spare positions that no
engine's flit and no retransmission takes; with the halves that carry retransmissions. -/
def State.fillSlot (s : State) (p l t : Nat) : State × List Nat :=
  let run := ((s.discardA).discardLocal).slotEntryRun p l t
  let again := run.s.resendHalves p t run.spare
  let free := (upTo 30).filter (fun pos => decide (run.spare ≤ pos) && !again.contains (pos / 15) &&
    !(run.s.sentIn p t (pos / 15)).any (fun x => x.1 == pos % 15))
  (run.s.spareFrom p t free, again)

/-- The slot at `t` of a port that sends framing words. -/
def State.transmitSlot (s : State) (p t : Nat) : State :=
  let r := match s.lport p with
    | some l => if s.carriesFlits p then s.fillSlot p l t else (s, s.resendHalves p t 0)
    | none => (s, s.resendHalves p t 0)
  (r.1.transmitHalf p t r.2 0).transmitHalf p t r.2 1

/-- SLOT_TRANSMIT (R190, R223 to R225, R230, R240, R241, R261): the next slot of an output port: the flits of its entry, then A-class flits
in the spare positions, sent as two half-slots. -/
def execSlotTransmit (p : Fin 20) (s : State) : Host.Outcome State Fault Refusal :=
  .next (
    let v := s.vport p
    let up := ceilDiv s.tick 32 * 32
    let t := if up < v.nextSlot then v.nextSlot else up
    if !s.framingOn p t then s
    else
      let s0 := elapseTo t s
      ((s0.setVport p { s0.vport p with nextSlot := t + 32 }).vdtCompare).transmitSlot p t)

end Sys2Proof.Machine
end

