-- ==== Sys2Proof/Machine/TrestleOps.lean ====
section
/-! DEFINITION. What the optical commands share: port states with what follows from them (R219, R269), ring banks and heater
drive (R271 to R274), weights (R275), framing words as they arrive (R264 to R267) and comb feeds (R277 to R279). -/

namespace Sys2Proof.Machine

open Sys2Proof

/-- A record of a TRS page's log (R281). -/
def State.trsLog (s : State) (p cls cause line hseq : Nat) : State :=
  s.logErr (pgTRS (engOf p)) (cls * 2 ^ 28 + cause * 2 ^ 24 + locOf p * 2 ^ 21 + line % 32 * 2 ^ 16) (hseq % 2 ^ 9) 0

/-- A change of a port's link followed up: a port that enters or leaves partition, and the port mask (R17, R219, R243). -/
def State.partCheck (s : State) (p : Nat) (was : Bool) : State :=
  (if s.inPart p = was then s else s.setInt pgVDT 0).refreshMask

/-- A port put into a state (R269, R281). -/
def State.setPort (s : State) (p : Nat) (st : PortSt) : State :=
  let o := s.oport p
  if o.st = st then s
  else
    let was := s.inPart p
    let pg := pgTRS (engOf p)
    let s1 := s.setOport p { o with
      st := st
      relockAt := if st = .relock then s.tick else o.relockAt
      relockCnt := if st = .relock then satAt max32 (o.relockCnt + 1) else o.relockCnt
      aligned := if st = .ident ∨ st = .up then o.aligned else false
      reportMask := 0
      reports := []
      lossAt := if st = .up ∨ st = .off ∨ st = .fail then none else o.lossAt
      wasUp := if st = .up then true else if st = .off then false else o.wasUp
      idWord0 := if st = .up then o.idWord0 else none
      idFrames := if st = .up then o.idFrames else 0
      credits := if st = .up then [] else o.credits
      freed := if st = .up then [] else o.freed
      turn := if st = .up then 0 else o.turn
      sentHalf := if st = .up then [] else o.sentHalf
      nacked := if st = .up then [] else o.nacked
      resend := if st = .up then [] else o.resend
      failed := if st = .up then [] else o.failed
      nackDue := if st = .up then [] else o.nackDue
      probes := if st = .ident ∨ st = .up then o.probes else []
      probed := if st = .ident ∨ st = .up then o.probed else none
      replies := if st = .ident ∨ st = .up then o.replies else none
      replyAt := if st = .ident ∨ st = .up then o.replyAt else none }
    let s2 := if st = .relock then s1.setInt pg 4 else s1
    let s3 :=
      if st = .up then
        ({ s2 with
          vdt := { s2.vdt with credit := Store.clearRange s2.vdt.credit (24 * p) 24 }
          buddy := { s2.buddy with dark := Store.erase s2.buddy.dark (s2.vport p).nbr } }).setInt pg 3
      else if o.st = .up then (s2.trsLog p 0 5 0 0).setInt pg 2
      else s2
    s3.partCheck p was

/-! Banks of rings. -/

/-- The bank of a port: receive or transmit. -/
def OptPort.bank (o : OptPort) (rx : Bool) : Bank := if rx then o.rx else o.tx

/-- The bank of a port replaced. -/
def OptPort.setBank (o : OptPort) (rx : Bool) (b : Bank) : OptPort := if rx then { o with rx := b } else { o with tx := b }

/-- All 32 rings. -/
def allRings : Nat := 2 ^ 32 - 1

/-- Coefficient of row `i` and diagonal `d` (0 to 8) of a matrix; the identity where none is stored (R272). -/
def coef (m : Store Int) (i d : Nat) : Int := Store.get (if d = 4 then 16384 else 0) m (i * 9 + d)

/-- Element (i, j) of a banded matrix. -/
def coefAt (m : Store Int) (i j : Nat) : Int := if j + 4 < i ∨ i + 4 < j then 0 else coef m i (j + 4 - i)

/-- The accumulator of one ring's drive, an s32 (R272). -/
def driveAcc (m u : Store Int) (i : Nat) : Int :=
  sext 32 (toBits 32 (((upTo 9).map (fun d =>
    if 4 ≤ i + d ∧ i + d - 4 < 32 then coef m i d * Store.get 0 u (i + d - 4) else 0)).foldl (· + ·) 0))

/-- The heater drive of one ring before the clamp (R272). -/
def driveSum (m u : Store Int) (i : Nat) : Int := 2048 + roundShift none (driveAcc m u i) 14

/-- The heater drives of a bank from its requests, and the number of clamps. -/
def Bank.drive (b : Bank) : Store Nat × Nat :=
  (upTo 32).foldl (fun a i =>
    let v := driveSum b.m b.u i
    let h := clampI 0 4095 v
    (Store.set 0 a.1 i h.toNat, if v = h then a.2 else a.2 + 1)) ([], 0)

/-- M from K: I − K′ + K′², cut to the band (R273; log 43). -/
def matrixOf (k : Store Int) : Store Int :=
  let kp := fun (i j : Nat) => coefAt k i j - (if i = j then 16384 else 0)
  (upTo 288).foldl (fun m n =>
    let i := n / 9
    let d := n % 9
    if 4 ≤ i + d ∧ i + d - 4 < 32 then
      let j := i + d - 4
      let sq := roundShift none (((upTo 32).map (fun l => kp i l * kp l j)).foldl (· + ·) 0) 14
      Store.insert m n (clampI (-32768) 32767 ((if i = j then 16384 else 0) - kp i j + sq))
    else m) []

/-- A quotient rounded to the nearest integer, half to even. -/
def divRne (n d : Int) : Int :=
  let n1 := if d < 0 then -n else n
  let d1 := if d < 0 then -d else d
  let q := n1 / d1
  let r := n1 - q * d1
  if d1 < 2 * r ∨ (2 * r = d1 ∧ q % 2 = 1) then q + 1 else q

/-- One coefficient of K from a row's measured shifts, normalised to 16,384 on the diagonal (R273; log 43). -/
def calCoef (l : List Int) (n : Nat) : Int :=
  let x := l.getD n 0
  let diag := l.getD (n / 9 * 9 + 4) 0
  if n % 9 = 4 then 16384
  else clampI (-32768) 32767 (if diag = 0 then Config.calFree n x else divRne (x * 16384) diag)

/-- K from a calibration's list of 288 measured shifts, row by row. -/
def calMatrix (l : List Int) : Store Int := (upTo 288).foldl (fun m n => Store.insert m n (calCoef l n)) []

/-- A bank whose search begins. -/
def Bank.search (b : Bank) : Bank := { b with locked := 0 }

/-- A port restarted from LOCK (R269, R270, R273). -/
def State.restartPort (s : State) (p : Nat) : State :=
  let s1 := s.setPort p .lock
  let o := s1.oport p
  s1.setOport p { o with tx := o.tx.search, rx := o.rx.search, leftOff := s.tick, wasUp := false, combFrom := none }

/-- What holds a port in OFF (R269, R270): PWR_OFF, or an engine with no comb that is LOCKED. -/
def State.heldOff (s : State) (p : Nat) : Bool :=
  let f := s.opt.feedOf (engOf p)
  (s.oport p).pwrOff || f == 0 || (if f = 1 then s.opt.k0 else s.opt.k1) != .locked

/-- Received power and margin of a port's lines measured: 32 values that the spec leaves open (R281; log 49). -/
def State.measureLines (s : State) (p : Nat) : State :=
  let byte := fun (k i : Nat) => (Config.freeWord (s.freeCtr + i)).toNat / 2 ^ (8 * k) % 2 ^ 8
  let all := fun (k : Nat) => (upTo 32).foldl (fun m i => Store.set 0 m i (byte k i)) []
  ({ s with freeCtr := s.freeCtr + 32 }).setOport p { s.oport p with rxPwr := all 0, margin := all 1 }

/-! Weights (R275). -/

/-- The weight that a line should have. -/
def OptPort.weightOf (o : OptPort) (i : Nat) : Nat :=
  if !o.weights then 0
  else
    let r := fun (j : Nat) => sext 8 (Store.get 0 o.peerPwr j)
    let low := (upTo 31).foldl (fun m j => if r j < m then r j else m) (r 0)
    (clampI 0 15 (r i - low)).toNat

/-- Every weight set anew. -/
def OptPort.applyWeights (o : OptPort) : OptPort :=
  { o with tx := { o.tx with w := (upTo 31).foldl (fun m i => Store.set 0 m i (o.weightOf i)) [] } }

/-- Every weight moved by at most one step. -/
def OptPort.stepWeights (o : OptPort) : OptPort :=
  { o with tx := { o.tx with w := (upTo 31).foldl (fun m i =>
      let now := Store.get 0 o.tx.w i
      let due := o.weightOf i
      Store.set 0 m i (if now < due then now + 1 else if due < now then now - 1 else now)) [] } }

/-- Whether a job is RUNNING or REWINDING. -/
def State.jobLive (s : State) : Bool := s.sch.job == .running || s.sch.job == .rewinding

/-- The weights of a port brought up to date, once a frame; while a job runs, by one step in each pier frame. -/
def State.reweigh (s : State) (p : Nat) : State :=
  let o := s.oport p
  let f := some (s.tick / 2048)
  if o.weightFrame = f then s
  else if !s.jobLive then s.setOport p { o.applyWeights with weightFrame := f }
  else if s.inPierFrame then s.setOport p { o.stepWeights with weightFrame := f }
  else s

/-! Framing words (R264 to R267). -/

/-- Whether the CRC-8 of a framing word verifies (R264). -/
def framingOk (w : Nat) : Bool :=
  crc8 [BitVec.ofNat 8 (w / 2 ^ 24), BitVec.ofNat 8 (w / 2 ^ 16), BitVec.ofNat 8 (w / 2 ^ 8)] == w % 2 ^ 8

/-- A credit word's content (R265): freed buffers give their credits back, and a NACK is kept for retransmission. -/
def State.creditWord (s : State) (p w : Nat) : State :=
  let o := s.oport p
  let vc := fld w 21 3
  let cls := fld w 19 2
  let n := vc * 3 + cls
  let s1 :=
    if cls = 3 then s
    else
      let freed := (fld w 11 8 + 256 - Store.get 0 o.credits n) % 256
      let k := creditKey p vc cls
      let s2 := s.setOport p { o with credits := Store.set 0 o.credits n (fld w 11 8) }
      { s2 with vdt := { s2.vdt with credit := Store.set 0 s2.vdt.credit k (Store.get 0 s2.vdt.credit k - freed) } }
  let q := s1.oport p
  if bitAt w 10 && !bitAt w 0 && s1.retryOn p && !q.nacked.contains (fld w 1 9) then
    s1.setOport p { q with nacked := q.nacked ++ [fld w 1 9] }
  else s1

/-- The peer's identity after four equal frames (R219, R267, R270): it is taken, and a port in IDENT enters UP. -/
def State.identify (s : State) (p : Nat) : State :=
  let o := s.oport p
  if o.idFrames < 4 then s
  else
    let was := s.inPart p
    let v := s.vport p
    let s1 := s.setVport p { v with
      peerPart := o.idWords.1 % 2 ^ 16, peerLport := fld o.idWords.1 16 5, peerId := o.idWords.2 % 2 ^ 16 }
    (if o.st = .ident then s1.setPort p .up else s1).partCheck p was

/-- Words 0 and 1 of the sender's frame `f` (R267): the frames counted in which they were the same as in the frame before. -/
def State.identWords (s : State) (p f w0 w1 : Nat) : State :=
  let o := s.oport p
  let same := o.idFrames != 0 && o.idWords == (w0, w1) && o.idFrame + 1 == f
  (s.setOport p { o with idWord0 := none, idWords := (w0, w1), idFrame := f
                         idFrames := if same then satAt 4 (o.idFrames + 1) else 1 }).identify p

/-- Whether a physical port is the one whose exchanges align this device (R192). -/
def State.isParent (s : State) (p : Nat) : Bool := s.tckPort.map (fun l => (s.pmap l).phys) == some p

/-- The exchange whose last word has come: the reply's words, and the newest probe that can have led to it (R193, R267). -/
def OptPort.exchange (o : OptPort) (t4 : Nat) : Option Exchange :=
  let w := fun (c : Nat) => Store.get 0 o.words c
  let t2 := w 3 + w 4 * 2 ^ 24 + w 5 * 2 ^ 48
  let turn := w 6 + w 7 * 2 ^ 24
  (o.probes.find? (fun t1 => decide (t1 + turn ≤ t4))).map (fun t1 => ⟨t1, t2, t2 + turn, t4, false⟩)

/-- Control word `c` with content `w`, of the sender's frame `f`, whose first bit arrived at `at_` in 1/16 tick (R266, R267). -/
def State.controlWord (s : State) (p c w f at_ : Nat) : State :=
  let o := { s.oport p with words := Store.set 0 (s.oport p).words c w }
  match c with
  | 0 => s.setOport p { o with idWord0 := some w }
  | 1 =>
    match o.idWord0 with
    | none => s.setOport p { o with idFrames := 0 }
    | some w0 => (s.setOport p o).identWords p f w0 w
  | 2 => s.setOport p { o with probed := if bitAt w 0 then some at_ else o.probed
                               replyAt := if bitAt w 1 && s.isParent p then some at_ else none }
  | 7 =>
    match o.replyAt with
    | none => s.setOport p o
    | some t4 => s.setOport p { o with replyAt := none, exch := o.exchange t4 }
  | _ =>
    if 8 ≤ c ∧ c ≤ 18 then
      let i := 3 * (c - 8)
      let put := fun (m : Store Nat) (k : Nat) => if i + k < 31 then Store.set 0 m (i + k) (fld w (8 * k) 8) else m
      let mask := (if c = 8 then 0 else o.reportMask) ||| 2 ^ (c - 8)
      let whole := o.st == .train && c == 18 && mask == 2 ^ 11 - 1
      let s1 := s.setOport p { o with peerPwr := put (put (put o.peerPwr 0) 1) 2, reportMask := mask
                                      reports := if whole then (o.reports ++ [s.tick / 2048]).take 4 else o.reports }
      if c = 18 ∧ (o.st = .up ∨ o.st = .ident) then s1.reweigh p else s1
    else s.setOport p o

/-- A framing word of half-slot `h` that fails its CRC-8 (R264): identity frames begin anew, and an exchange that waits for the word is
discarded (R267). -/
def State.badWord (s : State) (p h at_ : Nat) : State :=
  let o := s.oport p
  let spoils := h % 4 == 3 && decide (2 ≤ h / 4) && decide (h / 4 ≤ 7) && s.isParent p && !o.probes.isEmpty
  s.setOport p { o with
    frmCnt := satAt max32 (o.frmCnt + 1)
    idFrames := if h = 3 ∨ h = 7 then 0 else o.idFrames
    idWord0 := if h = 3 then none else o.idWord0
    replyAt := if spoils then none else o.replyAt
    exch := if spoils then some ⟨at_, at_, at_, at_, true⟩ else o.exch }

/-- A framing word of half-slot `h` of the sender's frame `f` (R264). -/
def State.framingWord (s : State) (p h w f at_ : Nat) : State :=
  if !framingOk w then s.badWord p h at_
  else if h % 4 = 3 then s.controlWord p (h / 4) (w / 2 ^ 8) f at_
  else s.creditWord p (w / 2 ^ 8)

/-! Combs (R277 to R279, R282). -/

/-- State of a comb. -/
def OptState.comb (o : OptState) (k : Nat) : CombSt := if k = 0 then o.k0 else o.k1

/-- A comb's state replaced. -/
def OptState.setComb (o : OptState) (k : Nat) (c : CombSt) : OptState := if k = 0 then { o with k0 := c } else { o with k1 := c }

/-- Engines whose feed is `v`. -/
def OptState.engines (o : OptState) (v : Nat) : List Nat := (upTo 4).filter (fun e => o.feedOf e == v)

/-- A mask of engines. -/
def engMask (es : List Nat) : Nat := es.foldl (fun m e => m + 2 ^ e) 0

/-- The engines of a mask. -/
def engList (m : Nat) : List Nat := setBits 4 m

/-- The feeds of a list of engines set as a word of feeds gives them. -/
def OptState.takeFeeds (o : OptState) (es : List Nat) (feeds : Nat) : OptState :=
  { o with feed := es.foldl (fun f e => setFld f (2 * e) 2 (fld feeds (2 * e) 2)) o.feed }

/-- The feeds of a mode (R277): PAIRED feeds E0 and E1 from K0, E2 and E3 from K1; a single comb feeds all four. -/
def modeFeeds (mode : Nat) : Nat :=
  match mode with
  | 0 => 0b10100101
  | 1 => 0b01010101
  | 2 => 0b10101010
  | _ => 0

/-- Whether a word of feeds has an engine on comb `k`. -/
def feedsUse (feeds k : Nat) : Bool := (upTo 4).any (fun e => fld feeds (2 * e) 2 == k + 1)

/-- Whether every comb that some engines' feeds name is LOCKED. -/
def OptState.feedsReady (o : OptState) (es : List Nat) (feeds : Nat) : Bool :=
  es.all (fun e => fld feeds (2 * e) 2 == 0 || o.comb (fld feeds (2 * e) 2 - 1) == .locked)

/-- The physical ports of an engine. -/
def portsOf (e : Nat) : List Nat := (upTo 5).map (fun j => 4 * j + e)

/-- A record of the CMB page's log (R282). -/
def State.cmbLog (s : State) (cls cause k engines : Nat) : State :=
  s.logErr pgCMB (cls * 2 ^ 28 + cause * 2 ^ 24 + k * 2 ^ 22 + engines % 16 * 2 ^ 18) 0 0

/-- Temperature, pump drive and line power of a comb measured: values that the spec leaves open (R282; log 49). -/
def State.measureComb (s : State) (k : Nat) : State :=
  let f := s.free
  let v := f.1.toNat / 2 ^ 8
  { f.2 with opt := if k = 0 then { f.2.opt with meas0 := v } else { f.2.opt with meas1 := v } }

/-- A port whose feed switches, `loss` where a comb loss is the cause: it enters RELOCK, to return to the state it was in (R269, R278; log
63). -/
def State.feedPort (s : State) (loss : Bool) (p : Nat) : State :=
  let o := s.oport p
  if o.st = .off ∨ o.st = .fail then s
  else
    let from_ := o.combFrom.getD o.st
    let s1 := s.setPort p .relock
    let q := s1.oport p
    s1.setOport p { q with combFrom := some from_, lossAt := if loss then some s.tick else q.lossAt }

/-- A port held in OFF (R269). -/
def State.darkPort (s : State) (p : Nat) : State :=
  if (s.oport p).st = .off then s
  else
    let s1 := s.setPort p .off
    let o := s1.oport p
    (s1.setOport p { o with tx := o.tx.search, rx := o.rx.search, combFrom := none }).emit (.light p false)

/-- The mode changed (R282). -/
def State.setMode (s : State) (m : Nat) : State :=
  if s.opt.mode = m then s else ({ s with opt := { s.opt with mode := m } }).setInt pgCMB 2

/-- A failover or mode change that ends: combs that its mode does not use are turned off (R277, R282). -/
def State.endFailover (s : State) (f : Failover) : State :=
  let o := { s.opt with failover := none }
  let rest := fun (o : OptState) (k : Nat) => if feedsUse o.feed k || o.comb k == .failed then o else o.setComb k .off
  let o1 := if f.mode = 0 then o else rest (rest o 0) 1
  ({ s with opt := o1 }).setMode f.mode

/-- Some engines begin to move to their new feeds: the failover `f`, which is done with them and with those of a change that runs. -/
def State.moveFeeds (s : State) (es : List Nat) (f : Failover) : State :=
  let s1 := { s with opt := { s.opt.takeFeeds es f.feeds with failover := some { f with since := s.tick } } }
  (es.flatMap portsOf).foldl (fun a p => a.feedPort f.loss p) s1

/-- Engines left with no comb: their ports are in OFF, and with no engine fed there is no comb mode (R269, R277). -/
def State.darkEngines (s : State) (es : List Nat) : State :=
  let s1 := (es.flatMap portsOf).foldl (fun a p => a.darkPort p) { s with opt := s.opt.takeFeeds es 0 }
  if s1.opt.feed = 0 then s1.setMode 3 else s1

/-- Both combs are lost: every port leaves UP (R279). -/
def State.noComb (s : State) (k engines : Nat) : State :=
  (({ s with opt := { s.opt with failover := none, waiting := none } }).darkEngines (upTo 4)).cmbLog 1 4 k engines

end Sys2Proof.Machine
end

