-- ==== Sys2Proof/Machine/Trestle.lean ====
section
/-! DEFINITION. The commands of the optical ports and combs (R260 to R282). -/

namespace Sys2Proof.Machine

open Sys2Proof

/-- A hardware fault of a port's link (R268). -/
def State.trsFault (s : State) (p cause hseq : Nat) : State :=
  ((s.trsLog p 1 cause 0 hseq).setInt (pgTRS (engOf p)) 5).raiseHw

/-- A failed half-slot (R268): its NACK falls due under retry until three retransmissions have failed; a fault at once without retry,
while a job runs. -/
def State.halfFailed (s : State) (p seq cause : Nat) : State :=
  if s.retryOn p then
    let o := s.oport p
    let tries := ((o.failed.find? (fun x => x.1 == seq)).map (·.2)).getD 0
    let rest := o.failed.filter (fun x => x.1 != seq)
    if 3 ≤ tries then (s.setOport p { o with failed := rest }).trsFault p cause seq
    else s.setOport p { o with failed := rest ++ [(seq, tries + 1)], nackDue := o.nackDue ++ [seq] }
  else if s.jobLive then s.trsFault p cause seq
  else s

/-- The tick at which the half-slot numbered `seq` last began, at or before `t`. -/
def halfTick (t seq : Nat) : Nat := (t / 16 - (t / 16 + 512 - seq) % 512) * 16

/-- The tick at which half-slot `h` of a frame last began, at or before `t`: its transmission, as the sender's frame stands (R261). -/
def halfSent (t h : Nat) : Nat := t - (t + 2048 - 16 * h) % 2048

/-- A cell of a decoded word; none of an uncorrectable one is used. -/
def cellOf (r : Option (BitVec 1056 × Nat)) : Nat :=
  match r with
  | some x => x.1.toNat % 2 ^ 1024
  | none => 0

/-- The flits that decoded words spell, two words each (R262). -/
def flitsOf : List (Option (BitVec 1056 × Nat)) → List Flit
  | a :: b :: l =>
    let bs := leBytes 128 (cellOf a) ++ leBytes 128 (cellOf b)
    ⟨leNat (bs.take 16), bs.drop 16⟩ :: flitsOf l
  | _ => []

/-- The flits of a half-slot that verified, to the Viaduct, each with the tick of its first bit (R223): `back` is how much earlier those of
a retransmission first came. -/
def State.halfFlitsTaken (s : State) (p : Nat) (h : HalfSlot) (flits : List Flit) (back : Nat) : State :=
  (upTo 15).foldl (fun a j =>
    let f := flits.getD j idleFlit
    let arr := s.tick + 32 * (15 * (h.h % 2) + j) / 30 - 16 * (h.h % 2)
    a.takeFlit p (arr - back) arr f.head (h.cls.getD j 0) f.body) s

/-- HALF_SLOT_RECEIVE (R262 to R268, R280): code words are decoded and counted, the check is made, the framing word is taken, and on a port
that is UP the flits of a half-slot that verified go to the Viaduct. -/
def execHalfSlotReceive (p : Fin 20) (h : HalfSlot) (s : State) : Host.Outcome State Fault Refusal :=
  .next (
    let o := s.oport p
    if !(o.aligned && (o.st == .train || o.st == .ident || o.st == .up)) then s
    else
      let words := h.words.map bchDecode
      let lost := (words.filter (·.isNone)).length
      let fixed := (words.filter (fun r => match r with
        | some x => x.2 != 0
        | none => false)).length
      let flits := flitsOf words
      let bad := lost == 0 && halfCheck flits != h.check.toNat
      let s0 := s.setOport p { o with
        cwCnt := (o.cwCnt + 30) % 2 ^ 64, corrCnt := satAt max32 (o.corrCnt + fixed)
        uncorrCnt := satAt max32 (o.uncorrCnt + lost)
        chkCnt := if bad then satAt max32 (o.chkCnt + 1) else o.chkCnt }
      let w := h.framing.toNat
      let sent := halfSent s.tick h.h
      let again := framingOk w && h.h % 4 != 3 && bitAt w 8
      let q := s0.oport p
      let s1 := if again then s0.setOport p { q with retxFrames := (sent / 2048 :: q.retxFrames).take 8 } else s0
      let retx := again && s.retryOn p
      let seq := if retx then fld w 9 9 else halfSeq sent
      -- a mismatch of the duplicated encoder, decoder and check logic is a failed half-slot
      let slip := s1.takeSlip (pgTRS (engOf p))
      let s2 := slip.2.framingWord p h.h w (sent / 2048) (s.tick * 16 + h.sub + 255)
      if o.st ≠ .up then s2
      else if bad || decide (0 < lost) || slip.1.isSome then s2.halfFailed p seq (if 0 < lost then 1 else 2)
      else
        let q := s2.oport p
        let s3 := if retx then s2.setOport p { q with failed := q.failed.filter (fun x => x.1 != seq) } else s2
        s3.vdtCompare.halfFlitsTaken p h flits (if retx then sent - halfTick sent seq else 0))

/-- HALF_SLOT_RETRANSMIT (R268): the first half-slot NACKed is to go out again, in the first suitable half-slot; one that is no longer kept
is not. -/
def execHalfSlotRetransmit (p : Fin 20) (s : State) : Host.Outcome State Fault Refusal :=
  .next (
    let o := s.oport p
    match o.nacked with
    | [] => s
    | seq :: rest =>
      if o.st ≠ .up ∨ s.retryOn p = false then s
      else
        let kept := o.sentHalf.any (fun x => x.1 == seq) && !o.resend.contains seq
        s.setOport p { o with nacked := rest, resend := if kept then o.resend ++ [seq] else o.resend })

/-- PORT_LEAVE_OFF (R270): the transmit rings begin their search. -/
def execPortLeaveOff (p : Fin 20) (s : State) : Host.Outcome State Fault Refusal :=
  .next (
    if (s.oport p).st = .off ∧ s.heldOff p = false then s.restartPort p else s)

/-- What follows when a bank has locked: TRAIN when both hold lock, else light is awaited (R270, R271). -/
def State.bankLocked (s : State) (p : Nat) (rx : Bool) : State :=
  let o := s.oport p
  let s0 := s.setOport p (o.setBank rx { o.bank rx with locked := allRings })
  let s1 := if rx then s0.measureLines p else s0
  let q := s1.oport p
  let s2 := if rx then s1 else s1.emit (.light p true)
  if q.tx.locked = allRings ∧ q.rx.locked = allRings then s2.setPort p .train
  else if o.st = .lock ∧ q.lit = false then s2.setPort p .dark
  else s2

/-- RINGS_LOCKED (R270, R271). -/
def execRingsLocked (p : Fin 20) (rx found : Bool) (s : State) : Host.Outcome State Fault Refusal :=
  .next (
    let o := s.oport p
    if !(o.st == .lock || o.st == .relock) || (o.bank rx).locked == allRings || o.recal ||
        (rx && o.tx.locked != allRings && o.st == .lock) then s
    else if found then s.bankLocked p rx
    else (s.setOport p { o with lit := o.lit && !rx }).setPort p .fail)

/-- LIGHT_FROM_PEER (R270): a port that waits for light searches with its receive rings; one whose transmit rings do not hold lock yet does
so once they do. -/
def execLightFromPeer (p : Fin 20) (s : State) : Host.Outcome State Fault Refusal :=
  .next (
    let s1 := s.setOport p { s.oport p with lit := true }
    if (s.oport p).st = .dark then s1.setPort p .lock else s1)

/-- HALF_SLOT_ALIGNMENT (R270). -/
def execHalfSlotAlignment (p : Fin 20) (s : State) : Host.Outcome State Fault Refusal :=
  .next (
    let o := s.oport p
    if o.st = .train ∧ o.aligned = false then s.setOport p { o with aligned := true, alignedAt := s.tick / 2048 } else s)

/-- TRAIN_DONE (R270, R275): after 4 frames of power reports and one frame to apply weights, which a running job keeps from it, IDENT
begins. -/
def execTrainDone (p : Fin 20) (s : State) : Host.Outcome State Fault Refusal :=
  .next (
    let o := s.oport p
    match o.st == .train && o.aligned, o.reports with
    | true, [_, _, _, f] => ((elapseTo (2048 * (f + 2)) s).reweigh p).setPort p .ident
    | _, _ => s)

/-- A port that has not been UP since it left OFF fails 50 ms after it did (R269, R270). -/
def State.failLate (s : State) (p : Nat) : State :=
  let o := s.oport p
  if o.wasUp then s else (elapseTo (o.leftOff + 50000000) s).setPort p .fail

/-- A port that a comb loss took from UP and that is not UP 1 ms after the loss fails, with a record of the CMB page that names the comb
lost (R269, R278). -/
def State.failLost (s : State) (p t : Nat) : State :=
  let s1 := elapseTo (t + 1000000) s
  let k := if s1.opt.feedOf (engOf p) = 2 then 0 else 1
  ((s1.setOport p { s1.oport p with combFrom := none }).setPort p .fail).cmbLog 0 3 k (2 ^ engOf p)

/-- PORT_FAIL_TIMEOUT (R269, R270, R278): 50 ms after leaving OFF with UP not reached, or the limit of RELOCK: 10 ms, or 1 ms after a comb
loss. -/
def execPortFailTimeout (p : Fin 20) (s : State) : Host.Outcome State Fault Refusal :=
  .next (
    let o := s.oport p
    match o.lossAt, o.st with
    | some t, _ => s.failLost p t
    | none, .lock => s.failLate p
    | none, .dark => s.failLate p
    | none, .train => s.failLate p
    | none, .ident => s.failLate p
    | none, .relock =>
      let s1 := elapseTo (o.relockAt + 10000000) s
      (s1.setOport p { s1.oport p with combFrom := none }).setPort p .fail
    | none, _ => s)

/-- RING_LOOP_UPDATE (R271, R272, R274): new requests, and the heater drives they give through M. -/
def execRingLoopUpdate (p : Fin 20) (rx : Bool) (u : List Int) (s : State) : Host.Outcome State Fault Refusal :=
  .next (
    let o := s.oport p
    let b := o.bank rx
    if o.st = .off ∨ o.st = .fail ∨ b.frozen = true then s
    else
      let b1 := { b with u := (upTo 32).foldl (fun m i => Store.set 0 m i (clampI (-32768) 32767 (u.getD i 0))) [] }
      let d := b1.drive
      let s1 := s.setOport p { o.setBank rx { b1 with h := d.1 } with hsatCnt := satAt max32 (o.hsatCnt + d.2) }
      if rx then s1.measureLines p else s1)

/-- RING_LOCK_LOST (R271). -/
def execRingLockLost (p : Fin 20) (rx : Bool) (ring : Fin 32) (s : State) : Host.Outcome State Fault Refusal :=
  .next (
    let o := s.oport p
    let b := o.bank rx
    if !bitAt b.locked ring then s
    else
      let s1 := (s.setOport p (o.setBank rx { b with locked := clrBit b.locked ring })).trsLog p 0 3 ring 0
      if o.st = .up ∨ o.st = .ident ∨ o.st = .train then s1.setPort p .relock else s1)

/-- The physical port that TRS_PSEL names on an engine; none for a reserved value. -/
def State.trsPort (s : State) (e : Nat) : Option Nat :=
  let j := fld (s.reg (pgTRS e) 0x44) 0 3
  if j < 5 then some (4 * j + e) else none

/-- TRS_RELOCK (R270). A port in OFF stays there. -/
def execTrsRelock (m : Master) (e : Fin 4) (s : State) : Host.Outcome State Fault Refusal :=
  .next (s.lk m (pgTRS e) 0x48 (fun s =>
    match s.trsPort e with
    | none => s
    | some p => if (s.oport p).st = .off then s else s.restartPort p))

/-- TRS_CAL (R273). A port that PWR_OFF, or the want of a comb, holds in OFF stays there (R269, R281). -/
def execTrsCal (m : Master) (e : Fin 4) (s : State) : Host.Outcome State Fault Refusal :=
  .next (s.lk m (pgTRS e) 0x48 (fun s =>
    match s.trsPort e with
    | none => s
    | some p =>
      if (s.oport p).st = .ident ∨ (s.oport p).st = .up then s.trsLog p 0 6 0 0
      else if (s.oport p).st = .off ∧ s.heldOff p = true then s
      else s.setPort p .cal))

/-- CAL_DONE (R273, R274): K as measured, M computed from it, and the port restarts from LOCK. -/
def execCalDone (p : Fin 20) (ktx krx : List Int) (s : State) : Host.Outcome State Fault Refusal :=
  .next (
    let o := s.oport p
    if o.st ≠ .cal ∧ (o.recal = false ∨ o.st = .off) then s
    else
      let bank := fun (b : Bank) (l : List Int) => { b with k := calMatrix l, m := matrixOf (calMatrix l), frozen := false, parityAt := none }
      ((s.setOport p { o with tx := bank o.tx ktx, rx := bank o.rx krx, recal := false }).restartPort p).setInt (pgTRS (engOf p)) 1)

/-- MATRIX_PARITY (R274). -/
def execMatrixParity (p : Fin 20) (rx inK : Bool) (s : State) : Host.Outcome State Fault Refusal :=
  .next (
    let o := s.oport p
    let b := o.bank rx
    let again := match b.parityAt with
      | none => false
      | some t => decide (s.tick ≤ t + 100000)
    let s1 := (s.trsLog p 0 4 0 0).setInt (pgTRS (engOf p)) 0
    if inK || again then
      -- a port in OFF is calibrated once it leaves OFF
      let s2 := if o.st = .off then s1 else s1.setPort p .relock
      s2.setOport p { s2.oport p with recal := true }
    else s1.setOport p (o.setBank rx { b with frozen := true, parityAt := some s.tick }))

/-- MATRIX_RECOMPUTED (R274). -/
def execMatrixRecomputed (p : Fin 20) (rx : Bool) (s : State) : Host.Outcome State Fault Refusal :=
  .next (
    let o := s.oport p
    let b := o.bank rx
    if b.frozen then s.setOport p (o.setBank rx { b with m := matrixOf b.k, frozen := false }) else s)

/-- The feeds that the engines are to have: those of a change that waits or runs, else those of the mode (R277, R279). -/
def OptState.dueFeeds (o : OptState) : Nat :=
  match o.waiting, o.failover with
  | some m, _ => modeFeeds m
  | none, some f => f.feeds
  | none, none => modeFeeds o.mode

/-- Engines with no feed take the one they are to have, where its comb is LOCKED (R270, R277). -/
def OptState.feedDark (o : OptState) : OptState :=
  let due := o.dueFeeds
  o.takeFeeds ((o.engines 0).filter (fun e => fld due (2 * e) 2 != 0 && o.comb (fld due (2 * e) 2 - 1) == .locked)) due

/-- Engines whose feed is another one than a word of feeds gives them. -/
def OptState.otherFeeds (o : OptState) (feeds : Nat) : List Nat := (upTo 4).filter (fun e => o.feedOf e != fld feeds (2 * e) 2)

/-- A mode change that waits begins once its combs are LOCKED and no other change runs: the engines that have another feed move, and with
none to move the mode is in effect (R279). -/
def State.changeReady (s : State) : State :=
  match s.opt.waiting, s.opt.failover with
  | some mode, none =>
    let feeds := modeFeeds mode
    let es := s.opt.otherFeeds feeds
    let s1 := { s with opt := { s.opt with waiting := none } }
    if es.isEmpty then s1.endFailover ⟨feeds, 0, s.tick, mode, false⟩
    else if s.opt.feedsReady es feeds then s1.moveFeeds es ⟨feeds, engMask es, s.tick, mode, false⟩
    else s
  | _, _ => s

/-- COMB_LOCKED (R277 to R279): the comb feeds the engines of its mode, and a mode change that waited for it begins. -/
def execCombLocked (k : Fin 2) (s : State) : Host.Outcome State Fault Refusal :=
  .next (
    let c := s.opt.comb k
    if (c ≠ .off ∧ c ≠ .warming) ∨ feedsUse s.opt.dueFeeds k = false then s
    else
      let o := { s.opt.setComb k .locked with lost := clrBit s.opt.lost k }
      (({ s with opt := o.feedDark }).measureComb k).changeReady)

/-- The failover of engines that have lost their comb to the other one (R278). -/
def State.failoverTo (s : State) (other : Nat) (es : List Nat) : State :=
  let feeds := es.foldl (fun f e => setFld f (2 * e) 2 (other + 1)) s.opt.feed
  let all := (upTo 4).filter (fun e => es.contains e || (s.opt.failover.map (fun f => bitAt f.engines e)).getD false)
  s.moveFeeds es ⟨feeds, engMask all, s.tick, other + 1, true⟩

/-- COMB_LOSS (R278, R279, R350): a failover, or engines left with no comb; a loss during a failover, or with the other comb lost as well,
loses both. A comb that feeds nothing only changes its state. The raise of a failover may propose while a rewind is agreed. -/
def execCombLoss (k : Fin 2) (failed : Bool) (s : State) : Host.Outcome State Fault Refusal :=
  .next (
    let es := s.opt.engines (k + 1)
    let other := 1 - k.val
    let gone := (s.opt.setComb k (if failed then .failed else .off))
    let s1 := ({ s with opt := { gone with lost := setBit gone.lost k } }).measureComb k
    if es.isEmpty then (if failed then s1 else s)
    else
      let cls := if s.sch.job = .running then 1 else 0
      let s2 := ((s1.cnt pgCMB 0x58 1).setInt pgCMB 0).cmbLog cls (if failed then 2 else 1) k (engMask es)
      let running := (s.opt.failover.map (·.loss)).getD false
      if running || s.opt.comb other == .failed || bitAt s.opt.lost other then (s2.noComb k (engMask es)).raiseHw
      else if bitAt (s2.reg pgCMB 0x40) 0 && s2.opt.comb other == .locked then
        (s2.failoverTo other es).raiseWith { tick := s.tick, second := true }
      else (s2.darkEngines es).raiseHw)

/-- A port that the failover is done with: UP again, or back in the state that it was in (R278; log 63). -/
def State.feedSettled (s : State) (p : Nat) : State :=
  let o := s.oport p
  match o.combFrom with
  | none => s
  | some st =>
    if o.st ≠ .relock then s.setOport p { o with combFrom := none }
    else if st = .up then
      (s.setOport p { o with combFrom := none, aligned := true, tx := { o.tx with locked := allRings }
                             rx := { o.rx with locked := allRings } }).setPort p .up
    else (s.setOport p { o with combFrom := none }).setPort p st

/-- FAILOVER_DONE (R278, R279): 16,000 ticks after the loss or the command, the affected ports are UP again. -/
def execFailoverDone (s : State) : Host.Outcome State Fault Refusal :=
  .next (match s.opt.failover with
    | none => s
    | some f =>
      let s1 := elapseTo (f.since + 16000) s
      let s2 := (((engList f.engines).flatMap portsOf).foldl (fun a p => a.feedSettled p) s1).endFailover f
      let s3 := (s2.measureComb 0).measureComb 1
      (if f.loss then (s3.cnt pgCMB 0x54 1).setInt pgCMB 1 else s3).changeReady)

/-- The ports that a comb loss took from UP and that are not UP again, with the tick of the loss. -/
def State.lostPorts (s : State) : List (Nat × Nat) := (upTo 20).filterMap (fun p => (s.oport p).lossAt.map (fun t => (p, t)))

/-- FAILOVER_TIMEOUT (R278): 1 ms after the loss; a failover that still runs ends. -/
def execFailoverTimeout (s : State) : Host.Outcome State Fault Refusal :=
  .next (
    let s1 := s.lostPorts.foldl (fun a x => a.failLost x.1 x.2) s
    match s.opt.failover with
    | some f => if f.loss then ((elapseTo (f.since + 1000000) s1).endFailover f).changeReady else s1
    | none => s1)

/-- A comb that a mode change needs is turned on (R277, R279). -/
def State.warmComb (s : State) (feeds k : Nat) : State :=
  if feedsUse feeds k && s.opt.comb k == .off then { s with opt := s.opt.setComb k .warming } else s

/-- CMB_CMD with an OP (R279): refused outside IDLE, LOADED and PARKED. A change that still waits is superseded; a new one waits for one that
runs, and for its combs (log 63). -/
def State.cmbChange (s : State) (mode : Nat) : State :=
  if ¬ (s.sch.job = .idle ∨ s.sch.job = .loaded ∨ s.sch.job = .parked) then s.cmbLog 0 5 0 0
  else
    let feeds := modeFeeds mode
    ((({ s with opt := { s.opt with waiting := some mode } }).warmComb feeds 0).warmComb feeds 1).changeReady

/-- CMB_PAIRED (R279). -/
def execCmbPaired (m : Master) (s : State) : Host.Outcome State Fault Refusal :=
  .next (s.lk m pgCMB 0x44 (fun s => s.cmbChange 0))

/-- CMB_SINGLE_K0 (R279). -/
def execCmbSingleK0 (m : Master) (s : State) : Host.Outcome State Fault Refusal :=
  .next (s.lk m pgCMB 0x44 (fun s => s.cmbChange 1))

/-- CMB_SINGLE_K1 (R279). -/
def execCmbSingleK1 (m : Master) (s : State) : Host.Outcome State Fault Refusal :=
  .next (s.lk m pgCMB 0x44 (fun s => s.cmbChange 2))

end Sys2Proof.Machine
end

