-- ==== Sys2Proof/Machine/Update.lean ====
section
/-! DEFINITION. The commands of the update engines (R318 to R328) and of the Seep (R332, R333). -/

namespace Sys2Proof.Machine

open Sys2Proof

/-- SWEEP_START (R316, R321; log 47): the group's sweep begins on every engine of a stack in service. -/
def execSweepStart (g : Fin 1024) (s : State) : Host.Outcome State Fault Refusal :=
  .next (
    let b := s.updGroup g
    let k := ugDelay b
    let due := s.inSpan && decide (g.val < s.upd.groups.length) &&
      (s.sch.seq - 1) % s.img.spans.length == ugStart b && decide (k < s.train.step)
    let free := (upTo 8).all (fun e =>
      let p := (s.eng e).pos
      !p.active && !(p.group == g.val && p.step + k == s.train.step && p.startSpan == s.sch.seq))
    if !(due && free) then s
    else s.mem.stacks.foldl (fun a e =>
      (a.modEng e (fun x => { x with pos := { x.pos with
        active := true, group := g, step := s.train.step - k, startSpan := s.sch.seq, bank := 0, block := 0, done := 0
        faulted := [], delay := 0 } })).sweepEnd e) s)

/-- A withheld block: it keeps its place and makes no record; a skipped bank's version bit still follows the step (R324). -/
def State.withholdBlock (s : State) (e v i : Nat) (skip : Bool) : State :=
  let g := s.engGroup e
  let s1 := if skip then s.setVersion e g v i (s.eng e).pos.step else s
  (s1.countWithheld e v 1).sweepEnd e

/-- BLOCK_START (R320 to R325): the next block of the engine's share, at its sweep tick if time has not passed it, is withheld, or its
reads are made; one whose place is in a later span does not begin. -/
def execBlockStart (e : Fin 8) (s : State) : Host.Outcome State Fault Refusal :=
  .next (
    let x := s.eng e
    let p := x.pos
    let g := s.updGroup p.group
    if !s.inSpan || !p.active || decide (64 ≤ x.reading) || x.jreplay || decide (s.workEnd ≤ s.tick + ugLead g + 128) then s
    else match s.mem.nextShare g e p.bank p.block, s.blockTick p g with
    | none, _ => s.sweepEnd e
    | some _, none => s
    | some (v, i), some t =>
      if 2 ^ 28 ≤ p.done then s.updFault e .sched 9 0 p.group i 0 v 0
      else
        let s0 := elapseTo t s
        let s1 := s0.modEng e (fun y => { y with pos := { y.pos with bank := v, block := i + 1, done := p.done + 1 } })
        let skip := s1.bankSkipped g v p.step
        if skip || (s1.ctxOf (ugCtx g + v)).st != .open_ || p.faulted.contains v then s1.withholdBlock e v i skip
        else
          let u := s1.versionRead e g v i
          if u.2 == (p.step % 2 == 1) then u.1.withholdBlock e v i false
          else
            let r := u.1.updReadAll e g v i p.step
            let b : UpdBlock := { bank := v, block := i, ordinal := p.done, ins := r.2, runs := s0.tick + ugLead g }
            r.1.modEng e (·.push b))

/-- The first slot of a block that only the Seep reads and whose checks failed: the others have theirs at their LD. -/
def State.seepBad (s : State) (e : Nat) (b : UpdBlock) : Option (Nat × UpdIn) :=
  b.ins.find? (fun k => k.2.bad != 0 && !(uiLoads (s.updProg (s.engGroup e))).contains k.1)

/-- An operand that had not arrived: under STRICT a schedule fault; otherwise the engine waits some ticks, by which all that follows is
delayed (R322; log 47). -/
def State.lateOperand (s : State) (e k : Nat) : State :=
  if s.compiled then s.blockFault e .sched 7 k
  else
    let f := s.free
    let n := 1 + f.1.toNat % 1024
    (elapse n f.2).modEng e (fun x => { x with
      cur := x.cur.map (fun b => { b with runs := b.runs + n }), ahead := x.ahead.map (fun b => { b with runs := b.runs + n })
      pos := { x.pos with delay := x.pos.delay + n } })

/-- UPD_LD (R318, R322, R323): `late` says that the operand had not arrived. -/
def execUpdLd (e : Fin 8) (late : Bool) (s : State) : Host.Outcome State Fault Refusal :=
  .next (s.updDo e 1 (fun z b w =>
    let k := uiSlot w
    let i : UpdIn := Store.get {} b.ins k
    (if late then z.lateOperand e k else z).readFault e i.bad k (fun z =>
      let x := z.eng e
      z.setEng e (x.result (x.cur.getD b) w (i.wide ((Fmt.ofCode (ugFmt (z.engGroup e) k)).getD .s4)) (List.replicate 64 false)))))

/-- UPD_ST (R319): the block RA becomes, its stored CRC bound to its address; its address is checked as that of a read is
(R323; log 47). -/
def execUpdSt (e : Fin 8) (s : State) : Host.Outcome State Fault Refusal :=
  .next (s.updDo e 2 (fun z b w =>
    let g := s.engGroup e
    let k := uiSlot w
    let cap := ugSpace g k == 2
    let f := (Fmt.ofCode (ugFmt g k)).getD .s4
    let x := z.eng e
    let a := ugAddr g k b.bank b.block x.pos.step
    let ctx := ugCtx g + b.bank
    -- a block of a context that has ended meets no fault of its own: it will write nothing (R403)
    if (s.ctxOf ctx).st == .open_ && ((s.mem.slot cap a f.bytes).isNone || !s.pageOk cap ctx a f.bytes true) then z.bankFault e 5 k
    else
      let v := x.reg (uiRa w)
      let o := rescale v f (uiPolicy w) (uiFix w) (s.amaxFloor (ugTensor g)) (uiRnd w) (s.updGen e b)
      let data := packBlock f o.m
      let side := (o.sidecar f (uiRnd w) (v.sat.any id) (ctx + (s.ctxOf ctx).gen * 2 ^ 10)).bytes
      let out := (data, withCrc side (flipCrc (sideCrc side) (checkAddr cap a)))
      z.setEng e { x with cur := some { b with
        pc := b.pc + 1, uses := b.uses + b2n (uiDraws w), outs := Store.insert b.outs k out } }))

/-- UPD_ADD (R318, R97). -/
def execUpdAdd (e : Fin 8) (s : State) : Host.Outcome State Fault Refusal :=
  .next (s.updCalc e 0x03 (fun x y _ _ => wideAdd x 48 y 48))

/-- UPD_SUB (R318, R97). -/
def execUpdSub (e : Fin 8) (s : State) : Host.Outcome State Fault Refusal :=
  .next (s.updCalc e 0x04 (fun x y _ _ => wideSub x 48 y 48))

/-- UPD_MUL (R318, R97, R320). -/
def execUpdMul (e : Fin 8) (s : State) : Host.Outcome State Fault Refusal :=
  .next (s.updCalc e 0x05 (fun x y b w => wideMul x y (s.updRnd e b w)))

/-- UPD_MULK (R318, R319). -/
def execUpdMulk (e : Fin 8) (s : State) : Host.Outcome State Fault Refusal :=
  .next (s.updCalcK e 0x06 (fun x k => wideMul x (immBlock k.1 k.2) none))

/-- UPD_ADDK (R318, R319). -/
def execUpdAddk (e : Fin 8) (s : State) : Host.Outcome State Fault Refusal :=
  .next (s.updCalcK e 0x07 (fun x k => wideAdd x 48 (immBlock k.1 k.2) 24))

/-- UPD_SHR (R318, R320). -/
def execUpdShr (e : Fin 8) (s : State) : Host.Outcome State Fault Refusal :=
  .next (s.updCalc e 0x08 (fun x _ b w => wideShr x (uiN w) (s.updRnd e b w)))

/-- UPD_SHL (R318). -/
def execUpdShl (e : Fin 8) (s : State) : Host.Outcome State Fault Refusal :=
  .next (s.updCalc e 0x09 (fun x _ _ w => wideShl x (uiN w)))

/-- UPD_MIN (R318). -/
def execUpdMin (e : Fin 8) (s : State) : Host.Outcome State Fault Refusal :=
  .next (s.updCalc e 0x0A (fun x y _ _ => widePick x 48 y 48 (fun _ p q => if q < p then q else p)))

/-- UPD_MAX (R318). -/
def execUpdMax (e : Fin 8) (s : State) : Host.Outcome State Fault Refusal :=
  .next (s.updCalc e 0x0B (fun x y _ _ => widePick x 48 y 48 (fun _ p q => if p < q then q else p)))

/-- UPD_ABS (R318). -/
def execUpdAbs (e : Fin 8) (s : State) : Host.Outcome State Fault Refusal :=
  .next (s.updCalc e 0x0C (fun x _ _ _ => wideAbs x))

/-- UPD_NEG (R318). -/
def execUpdNeg (e : Fin 8) (s : State) : Host.Outcome State Fault Refusal :=
  .next (s.updCalc e 0x0D (fun x _ _ _ => wideNeg x))

/-- UPD_CMPGT (R318): RD takes RA's values, and P per lane is RA > RB. -/
def execUpdCmpgt (e : Fin 8) (s : State) : Host.Outcome State Fault Refusal :=
  .next (s.updExec e 0x0E (fun x _ w => (x.reg (uiRa w), wideGt (x.reg (uiRa w)) (x.reg (uiRb w)))))

/-- UPD_SEL (R318): lanes of RA where RA's P is set, else of RB. -/
def execUpdSel (e : Fin 8) (s : State) : Host.Outcome State Fault Refusal :=
  .next (s.updExec e 0x0F (fun x _ w =>
    let p := x.pred (uiRa w)
    (widePick (x.reg (uiRa w)) 48 (x.reg (uiRb w)) 48 (fun j a b => if p.getD j false then a else b), p)))

/-- UPD_LUT (R318, R100): a table of the UPDATE section. -/
def execUpdLut (e : Fin 8) (s : State) : Host.Outcome State Fault Refusal :=
  .next (s.updCalc e 0x10 (fun x _ _ w => (wideLut (Table.ofBytes (s.upd.tables.getD (uiTable w) [])) x).1))

/-- UPD_CLIP (R318): with a negative K the interval is empty, and the lanes are free values (log 47). -/
def execUpdClip (e : Fin 8) (s : State) : Host.Outcome State Fault Refusal :=
  .next (s.updDo e 0x11 (fun z b w =>
    let c := z.updConst e b.bank (uiK w)
    let k := c.2
    let z := c.1
    let x := z.eng e
    let a := x.reg (uiRa w)
    if 0 ≤ k.1 then z.setEng e (x.result b w (clipWide a k.1 k.2) (x.pred (uiRa w)))
    else
      let f := z.freeLanes
      f.1.setEng e (x.result b w { clipWide a 0 k.2 with v := f.2 } (x.pred (uiRa w)))))

/-- UPD_END (R318): the block's commit is due, and the engine turns to the next one. -/
def execUpdEnd (e : Fin 8) (s : State) : Host.Outcome State Fault Refusal :=
  .next (s.updDo e 0x12 (fun z b _ =>
    let ends := fun (y : State) => y.modEng e (fun x => { x with tail := x.tail ++ [{ b with endAt := y.tick }] }.turn)
    match z.seepBad e b with
    | some k => z.readFault e k.2.bad k.1 ends
    | none => ends z))

/-- A block whose context has ended since it began: it is withheld, and writes nothing (R324, R403 step 1, R405). -/
def State.withheldTail (s : State) (e : Nat) (b : UpdBlock) : State :=
  ((s.modEng e (fun x => { x with tail := x.tail.drop 1 })).countWithheld e b.bank 1).sweepEnd e

/-- BLOCK_COMMIT (R321, R325, R326, R329, R341): 64 ticks after END. -/
def execBlockCommit (e : Fin 8) (s : State) : Host.Outcome State Fault Refusal :=
  .next (match s.inSpan, (s.eng e).tail with
    | true, b :: _ =>
      let s1 := elapseTo (b.endAt + 64) s
      if (s1.ctxOf (ugCtx (s1.engGroup e) + b.bank)).st = .open_ then s1.commitUpd e b else s1.withheldTail e b
    | _, _ => s)

/-- JOURNAL_REPLAY (R327). -/
def execJournalReplay (e : Fin 8) (s : State) : Host.Outcome State Fault Refusal :=
  .next (if (s.eng e).jreplay then s.replayJournal e else s)

/-! The Seep. -/

/-- RETX_US in ticks; 0 acts as 1 (R335). -/
def State.seepRetx (s : State) : Nat :=
  let us := fld (s.reg pgSEEP 0x40) 8 8
  (if us = 0 then 1 else us) * 1000

/-- The flit of the next bytes of the stream queued on a port (R332). -/
def State.seepFlit (s : State) (cfg p : Nat) (body : List Byte) : State :=
  let t := s.train
  let f := engineFlit (s.engineHead (cfg / 2 ^ 16) 0xFC true 7 (t.seepPos + t.seepNext) body.length false) body
  ({ s with train := { t with
      seepNext := t.seepNext + body.length
      seepLastAck := if t.seepNext = 0 then s.tick else t.seepLastAck } }).queueXfer p f

/-- SEEP_SEND (R332): the next bytes of the stream leave on the export port. -/
def execSeepSend (s : State) : Host.Outcome State Fault Refusal :=
  .next (
    let cfg := s.reg pgSEEP 0x40
    let m := s.pmap (16 + fld cfg 4 2)
    let n := min 240 (seepBytes s.train.seepRing - s.train.seepNext)
    if !s.train.seepEn || n == 0 then s
    else if m.mode ≠ 2 ∨ s.linkUp m.phys = false then s.seepLog 3
    else
      let r := s.ringGet (s.train.seepPos + s.train.seepNext) n
      r.1.seepFlit cfg m.phys r.2)

/-- SEEP_ACK (R332). -/
def execSeepAck (n : Nat) (s : State) : Host.Outcome State Fault Refusal := .next (s.seepAcked n)

/-- SEEP_RESEND (R332): RETX_US after the last progress. -/
def execSeepResend (s : State) : Host.Outcome State Fault Refusal :=
  .next (
    if !s.train.seepEn || s.train.seepNext == 0 then s
    else
      let s1 := elapseTo (s.train.seepLastAck + s.seepRetx) s
      ((({ s1 with train := { s1.train with seepNext := 0, seepLastAck := s1.tick } }).cnt pgSEEP 0x74 1).seepLog 2).setInt
        pgSEEP 1)

/-- SEEP_GAP (R333). -/
def execSeepGap (s : State) : Host.Outcome State Fault Refusal := .next s.seepGapEnd

end Sys2Proof.Machine
end

