-- ==== Sys2Proof/Machine/RegView.lean ====
section
/-! DEFINITION. What each register reads as (R9, R471 to R483 and the register tables of every chapter): a register that the
block computes is a view of the state, and every other one is stored. Measured values and core cycle counts that the
model does not keep are drawn free by the read itself, in Machine/RegIO.lean (log 49). -/

namespace Sys2Proof.Machine

open Sys2Proof

/-- A sum of one-bit flags by index. -/
def bitsOf (n : Nat) (f : Nat → Bool) : Nat := (upTo n).foldl (fun a i => if f i then a + 2 ^ i else a) 0

/-- Low and high half of a value, by the register's offset. -/
def half (v o lo : Nat) : Nat := if o = lo then v % 2 ^ 32 else v / 2 ^ 32 % 2 ^ 32

/-- A signed value in 32 bits. -/
def s32 (v : Int) : Nat := toBits 32 v

/-! Core pages (R140, R90, R115, R156, R179). -/

/-- Whether a reset in progress contains a core (R461). -/
def State.coreInReset (s : State) (c : Nat) : Bool :=
  s.rst.runs.any (fun r => r.dom == .warm || (r.dom == .die && r.target == dieOf c) || (r.dom == .core && r.target == c))

/-- Whether a reset in progress contains a die (R461). -/
def State.dieInReset (s : State) (d : Nat) : Bool := s.rst.runs.any (fun r => r.dom == .warm || (r.dom == .die && r.target == d))

/-- Whether a page takes writes: it answers, and the core it belongs to is in no reset (R478). -/
def State.takes (s : State) (page : Nat) : Bool :=
  s.answers page && (decide (page < 0x80) || !s.coreInReset ((page - 0x80) / 16))

/-- Physical core, of its die, that serves a logical core: a spare where one has taken over (R18, R462). -/
def State.physCore (s : State) (c : Nat) : Nat := Store.get (c / 16 % 8 * 8 + c % 8) s.rst.coreMap c

/-- Reset-free reading of a thread's guard (R140). -/
def Guard.code : Guard → Nat
  | .ff => 0 | .tt => 1 | .pending .. => 2

/-- Register of the CORE page (R140). -/
def State.viewCore (s : State) (c o : Nat) : Nat :=
  let k := s.core c
  let t := k.thread (s.reg (pgCORE c) 0x50)
  let st := fun (b : Nat) => (upTo 8).foldl (fun a i => a + (k.thread (b + i)).a.st.code * 2 ^ (4 * i)) 0
  match k.faultQ, o with
  | _, 0x0C => bitsOf 16 (fun i => (k.thread i).a.st == .faulted) * 2 ^ 16 + k.faultQ.length
  | r :: _, 0x20 => FaultRec.log0 r
  | r :: _, 0x24 => r.pc % 2 ^ 23
  | r :: _, 0x28 => r.addr % 2 ^ 23
  | r :: _, 0x2C => r.tick % 2 ^ 32
  | r :: _, 0x30 => r.tick / 2 ^ 32
  | r :: _, 0x34 => r.span % 2 ^ 32
  | r :: _, 0x38 => r.span / 2 ^ 32 % 2 ^ 16
  | _, 0x3C => k.dropped * 2 ^ 16
  | _, 0x44 => dieOf c * 2 ^ 8 + b2n (decide (64 ≤ s.physCore c)) * 2 ^ 7 + s.physCore c
  | _, 0x48 => st 0
  | _, 0x4C => st 8
  | _, 0x54 => t.a.pc
  | _, 0x58 =>
    match t.ctx with
    | some (id, gen) => 2 ^ 31 + gen * 2 ^ 10 + id
    | none => 0
  | _, 0x5C =>
    match t.a.st, t.held with
    | .wait, some h => h.reason * 2 ^ 28 + (if h.reason = 5 then h.key else 0)
    | _, _ => 0
  | _, 0x60 => t.pwin
  | _, 0x64 => t.pcnt
  | _, 0x68 =>
    b2n t.a.fl.dz * 2 ^ 20 + b2n t.a.fl.n * 2 ^ 19 + b2n t.a.fl.z * 2 ^ 18 + b2n t.a.fl.c * 2 ^ 17 + b2n t.a.fl.v * 2 ^ 16 +
      (upTo 7).foldl (fun a i => a + (Store.get .ff t.a.q (i + 1) : Guard).code * 2 ^ (2 * (i + 1))) 0
  | _, _ => s.reg (pgCORE c) o

/-- Register of the MXA page (R90). -/
def State.viewMxa (s : State) (c o : Nat) : Nat :=
  let a := (s.core c).arr
  let s32 := match a.buf0 with
    | some t => t.fmt == .s32
    | none => false
  match o with
  | 0x0C => a.own * 2 ^ 16 + a.loadQ.length * 2 ^ 11 + a.streamQ.length * 2 ^ 8 + b2n s32 * 2 ^ 4 +
      b2n (s32 || a.buf1.isSome) * 2 ^ 3 + b2n a.buf0.isSome * 2 ^ 2 + b2n a.frozen * 2 + b2n (!a.runs.isEmpty)
  | _ => s.reg (pgMXA c) o

/-- Register of the FLS page (R115): a bank has a pending access while a queued or running chain names it (log 51). DESIGN CHOICE
(log 58): BUSY counts a chain that stopped at a context failure while its binding is PENDING, and WAIT_BANK looks at the head of the
queue alone. -/
def State.viewFls (s : State) (c o : Nat) : Nat :=
  let k := s.core c
  match o with
  | 0x0C => bitsOf 8 (fun i => (Store.find k.fls.tables i).isSome) * 2 ^ 16 +
      bitsOf 4 (fun b => k.fls.pendingAccess b k.chains) * 2 ^ 12 + k.fls.queue.length * 2 ^ 8 +
      b2n (match k.fls.queue with
        | q :: _ => !k.fls.stall && fhOp q.head == 1 && k.bankWaits q
        | [] => false) * 2 + b2n (!k.fls.runs.isEmpty)
  | _ => s.reg (pgFLS c) o

/-- Register of the DMA page (R179). -/
def State.viewDma (s : State) (c o : Nat) : Nat :=
  let e := (s.core c).dma
  let sel := e.stream (s.reg (pgDMA c) 0x4C)
  match o with
  | 0x0C => (e.streams.map (fun p => p.2.length)).foldl (· + ·) 0 * 2 ^ 8 +
      b2n (e.streams.any (fun p => p.2.any (fun d => d.started && !d.moved)))
  | 0x44 => s.img.undoKib
  | 0x48 => bitsOf 32 (fun i => !(e.stream i).isEmpty)
  | 0x50 =>
    match sel with
    | d :: _ => sel.length * 2 ^ 29 + d.ctx * 2 ^ 16 + d.done % 2 ^ 16
    | [] => 0
  | _ => s.reg (pgDMA c) o

/-- Register of the TIL page (R156, R158). -/
def State.viewTil (s : State) (c o : Nat) : Nat :=
  let m := (s.core c).dma.walks
  match o with
  | 0x0C => m.length
  | 0x44 => bitsOf 32 (fun i => (Store.find m i).isSome)
  | _ => s.reg (pgTIL c) o

/-! The schedule and the fabric tick (R213 to R215). -/

/-- Register of the SCH page (R213). -/
def State.viewSch (s : State) (o : Nat) : Nat :=
  let running := s.sch.job == .running
  match o with
  | 0x0C => s.sch.refuse * 2 ^ 8 + b2n s.sch.load.isSome * 2 ^ 4 + s.sch.job.code
  | 0x54 => s.sch.phase.code * 2 + b2n s.img.strict
  | 0x58 => s.sch.loadErr
  | 0x5C => s.sch.p0Err
  | 0x60 => s.sch.start % 2 ^ 32
  | 0x64 => s.sch.start / 2 ^ 32
  | 0x68 => s.img.digest % 2 ^ 32
  | 0x6C => s.img.digest / 2 ^ 32
  | 0x70 => s.sch.seq % 2 ^ 32
  | 0x74 => s.sch.seq / 2 ^ 32 % 2 ^ 16
  | 0x78 =>
    let desc := s.descIndex
    match running, s.sch.place with
    | true, .span => (s.tick - s.sch.first) / 2048 % 16 * 2 ^ 12 + desc
    | true, .pier =>
      if s.inPierFrame then 2 ^ 16 + s.curFrames % 16 * 2 ^ 12 + desc else (s.tick - s.sch.first) / 2048 % 16 * 2 ^ 12 + desc
    | true, .pier0 => 2 ^ 16 + desc
    | _, _ => desc
  | 0x7C =>
    let next := match running, s.curDesc with
      | true, some d => if !d.vfKeep && d.vfNext != s.pwr.point then 2 ^ 7 + d.vfNext * 2 ^ 4 else 0
      | _, _ => 0
    next + s.pwr.point
  | _ => s.reg pgSCH o

/-- Register of the TCK page (R215). TCK_NOW_HI here is the count's own high half. -/
def State.viewTck (s : State) (o : Nat) : Nat :=
  let k := s.tck
  match o with
  | 0x0C => k.good * 2 ^ 16 + k.depth % 2 ^ 8 * 2 ^ 8 + b2n k.usingBackup * 2 ^ 4 + k.state.code
  | 0x40 => s.tick % 2 ^ 32
  | 0x44 => s.tick / 2 ^ 32
  | 0x50 => s32 k.offset
  | 0x54 => k.delay % 2 ^ 32
  | 0x58 => s32 k.rate
  | 0x60 => if k.state = .holdover then satAt max32 (s.tick - k.holdSince) else 0
  | _ => s.reg pgTCK o

/-! The fabric (R244, R258). -/

/-- STATE of VDT_PSTAT (R244). -/
def State.portCode (s : State) (p : Nat) : Nat :=
  if !s.linkUp p then 0
  else if (s.vport p).retire then 3
  else if s.isExport p then 4
  else if s.inPart p then 2 else 1

/-- A port's occupancy by frames, counted up to now. -/
def State.occNowLog (s : State) (p : Nat) : Store (Nat × Nat) := ((s.vport p).occPass (s.occNow p) s.tick).occLog

/-- Congestion level of a port: the largest number of buffers in use in the last whole frame (R244). -/
def State.congestion (s : State) (p : Nat) : Nat :=
  let m := if s.tick < 2048 then 0 else (Store.get (0, 0) (s.occNowLog p) (s.tick / 2048 - 1)).1
  if m = 0 then 0 else if m ≤ 31 then 1 else if m ≤ 95 then 2 else 3

/-- Register of the VDT page (R244): VDT_PMAP of the logical port that VDT_PSEL names, the others of the physical port. -/
def State.viewVdt (s : State) (o : Nat) : Nat :=
  let p := s.reg pgVDT 0x6C
  let v := s.vport p
  match o with
  | 0x0C => s.vdt.epoch * 2 ^ 24 + bitsOf 20 (fun i => s.inPart i)
  | 0x50 => s.vdt.routes.length
  | 0x68 => s.vdt.patchState * 2 ^ 29 + s.vdt.patchRec % 2 ^ 16 * 2 ^ 8 + s.vdt.patchCheck
  | 0x70 => if 20 ≤ p then 0 else (s.pmap p).mode * 2 ^ 5 + (s.pmap p).phys
  | 0x74 => if 20 ≤ p then 0 else b2n v.retire * 2 ^ 16 + v.nbr
  | 0x78 => if 20 ≤ p then 0 else if !s.linkUp p then 0 else v.peerId * 2 ^ 16 + v.peerLport % 2 ^ 5 * 2 ^ 6 + s.portCode p
  | 0x7C =>
    if 20 ≤ p then 0
    else
      let log := (s.occNowLog p).filter (fun e => decide (e.1 < s.tick / 2048))
      let sum := (log.map (fun e => e.2.2)).foldl (· + ·) 0
      let top := (log.map (fun e => e.2.1)).foldl (fun a b => if a < b then b else a) 0
      sum / (64 * 2048) % 2 ^ 8 * 2 ^ 16 + top % 2 ^ 8 * 2 ^ 8 + s.occNow p % 2 ^ 8
  | 0x80 => if 20 ≤ p then 0xFFFF else v.slack
  | 0x84 => (upTo 16).foldl (fun a i => a + s.congestion i * 4 ^ i) 0
  | 0x88 => (upTo 4).foldl (fun a i => a + s.congestion (16 + i) * 4 ^ i) 0
  | 0x8C => s.vdt.allow
  | _ => s.reg pgVDT o

/-- Register of the COL page (R258, R259), of the group that COL_ASEL names. -/
def State.viewCol (s : State) (o : Nat) : Nat :=
  let g := s.colOf (s.reg pgCOL 0x44)
  match o with
  | 0x0C => s.colPend.length
  | 0x48 => half g.rx o 0x48
  | 0x4C => half g.rx o 0x48
  | 0x50 => half g.tx o 0x50
  | 0x54 => half g.tx o 0x50
  | 0x58 => g.slack
  | 0x5C => g.dlv
  | 0x60 => g.late
  | _ => s.reg pgCOL o

/-! Optics (R281, R282). -/

/-- Register of the TRS page of engine `e` (R281), of the local port that TRS_PSEL names. -/
def State.viewTrs (s : State) (e o : Nat) : Nat :=
  let j := s.reg (pgTRS e) 0x44
  let x := s.oport (4 * j + e)
  let ls := s.reg (pgTRS e) 0x58
  let ms := s.reg (pgTRS e) 0x60
  let lb := x.bank (bitAt ls 5)
  let mb := x.bank (bitAt ms 5)
  let sel := fun (v : Nat) => if 5 ≤ j then 0 else v
  match o with
  | 0x0C => bitsOf 5 (fun i => s.linkUp (4 * i + e))
  | 0x48 => sel (b2n x.pwrOff * 2 ^ 3 + b2n x.weights * 2 ^ 2 + x.reach)
  | 0x4C => sel x.st.code
  | 0x50 => sel x.tx.locked
  | 0x54 => sel x.rx.locked
  | 0x5C => sel (Store.get 0 lb.h (ls % 32) % 2 ^ 12 * 2 ^ 20 + (if bitAt ls 5 then 0 else Store.get 0 lb.w (ls % 32) % 2 ^ 4 * 2 ^ 16) +
      Store.get 0 x.rxPwr (ls % 32) % 2 ^ 8 * 2 ^ 8 + Store.get 0 x.margin (ls % 32) % 2 ^ 8)
  | 0x64 =>
    let d := fld ms 8 4
    sel (if 9 ≤ d then 0 else toBits 16 (coef (if bitAt ms 12 then mb.k else mb.m) (ms % 32) d))
  | 0x70 => sel (half x.cwCnt o 0x70)
  | 0x74 => sel (half x.cwCnt o 0x70)
  | 0x78 => sel x.corrCnt
  | 0x7C => sel x.uncorrCnt
  | 0x80 => sel x.chkCnt
  | 0x84 => sel x.frmCnt
  | 0x88 => sel x.retryCnt
  | 0x8C => sel x.relockCnt
  | 0x90 => sel x.hsatCnt
  | _ => s.reg (pgTRS e) o

/-- Register of the CMB page (R282). -/
def State.viewCmb (s : State) (o : Nat) : Nat :=
  match o with
  | 0x0C => b2n (s.opt.failover.isSome || s.opt.waiting.isSome) * 2 ^ 2 + s.opt.mode
  | 0x48 => s.opt.feed
  | 0x4C => s.opt.meas0 % 2 ^ 24 * 2 ^ 8 + s.opt.k0.code
  | 0x50 => s.opt.meas1 % 2 ^ 24 * 2 ^ 8 + s.opt.k1.code
  | _ => s.reg pgCMB o

/-! Memory (R304 to R306). -/

/-- Hard repair rows left in the bank of HBM_RADDR and spare lanes left in its channel (R304; log 45). -/
def State.viewSpare (s : State) (n : Nat) : Nat :=
  let a := s.reg (pgHBM n) 0x54
  let x := s.stk n
  let left := fun (op : Nat) (used : List Nat) =>
    Config.spares n op (spareUnit op a) - (used.filter (fun u => spareUnit op u == spareUnit op a)).length
  left 4 x.hard % 2 ^ 16 * 2 ^ 16 + left 5 x.lanes % 2 ^ 8 * 2 ^ 8

/-- Register of the HBM page of a stack (R304). -/
def State.viewHbm (s : State) (n o : Nat) : Nat :=
  let x := s.stk n
  match o with
  | 0x0C => x.temp % 2 ^ 8 * 2 ^ 24 + b2n x.hot * 2 ^ 4 + b2n (s.mem.initDone && !x.lost) * 2 ^ 3 + b2n x.trained * 2 ^ 2 +
      b2n x.cmd.isSome * 2 + b2n x.inService
  | 0x58 => s.viewSpare n
  | 0x44 => if n = 0 then s.reg (pgHBM 0) 0x44 else 0
  | 0x48 => if n = 0 then s.reg (pgHBM 0) 0x48 else 0
  | 0x4C => if n = 0 then Store.get 1 s.mem.granCfg (s.reg (pgHBM 0) 0x48) else 0
  | _ => s.reg (pgHBM n) o

/-- Register of the SMP page (R305). -/
def State.viewSmp (s : State) (o : Nat) : Nat :=
  let c := s.reg pgSMP 0x44
  match o with
  | 0x0C => b2n s.mem.relaxed * 2 ^ 16 + s.mem.sump.length % 2 ^ 16
  | 0x48 => Store.get 0 s.mem.sumpMax c % 2 ^ 16 * 2 ^ 16 + (s.mem.sump.filter (fun e => e.core == c)).length % 2 ^ 16
  | _ => s.reg pgSMP o

/-- Register of the GAL page (R306). -/
def State.viewGal (s : State) (o : Nat) : Nat :=
  let c := s.reg pgGAL 0x54
  let x : GalChan := Store.get {} s.mem.chans c
  match o with
  | 0x0C => if s.mem.galUp then bitsOf 32 (fun i => decide ((Store.get {} s.mem.chans i : GalChan).st ≤ 1)) else 0
  | 0x50 => s.mem.retState * 2 ^ 29 + s.mem.retChan * 2 ^ 24 +
      (match s.mem.retState, s.mem.retire with
        | 1, some r => Config.migrated (s.aon - r.since) % 101
        | 2, _ => 100
        | 3, _ => 100
        | _, _ => 0) * 2 ^ 16 + s.mem.retRefuse
  | 0x58 => x.temp % 2 ^ 8 * 2 ^ 24 + x.st
  | _ => s.reg pgGAL o

/-! Training state (R334, R335). -/

/-- Register of the UPD page of an engine (R334): the amax registers stand in instance 0 alone. -/
def State.viewUpd (s : State) (e o : Nat) : Nat :=
  let p := (s.eng e).pos
  let k := s.reg (pgUPD e) 0x54
  let a := s.reg (pgUPD 0) 0x5C
  let t := fld a 0 12
  let x : Amax := Store.get {} s.train.amax t
  let h := x.hist.getD (fld a 12 4) (0, -256)
  let amax := fun (v : Nat) => if e = 0 then v else 0
  match o with
  | 0x04 => s.reg (pgUPD e) 0x04 + (if e = 0 then 2 else 0)
  | 0x0C => s.updState e
  | 0x44 => s.train.step
  | 0x48 => if p.active then 2 ^ 31 + ugDelay (s.engGroup e) % 8 * 2 ^ 28 + p.group % 2 ^ 10 * 2 ^ 16 else 0
  | 0x4C => p.done
  | 0x50 => p.head % 2 ^ 8 * 2 ^ 16 + p.applied % 2 ^ 8
  | 0x58 =>
    let v := if bitAt k 7 then s.train.skip else s.train.agreed.getD (fld k 5 2) 0
    v / 2 ^ (32 * (k % 32)) % 2 ^ 32
  | 0x5C => amax a
  | 0x60 => amax (toBits 8 x.floor * 2 ^ 24 + x.fmt % 2 ^ 4 * 2 ^ 20 + x.drop % 2 ^ 4 * 2 ^ 16 + x.valid % 2 ^ 5 * 2 ^ 11 +
      b2n (Store.find s.train.amax t).isSome * 2 ^ 10)
  | 0x68 => amax (h.1 % 2 ^ 32)
  | 0x6C => amax (toBits 16 h.2 * 2 ^ 16 + h.1 / 2 ^ 32 % 2 ^ 16)
  | _ => s.reg (pgUPD e) o

/-- Register of the SEEP page (R335). -/
def State.viewSeep (s : State) (o : Nat) : Nat :=
  let t := s.train
  match o with
  | 0x0C => b2n t.seepGap * 2 ^ 2 + b2n (!t.seepHeld.isEmpty) * 2 +
      b2n (s.isExport (s.pmap (16 + fld (s.reg pgSEEP 0x40) 4 2)).phys)
  | 0x50 => half t.seepSeq o 0x50
  | 0x54 => half t.seepSeq o 0x50
  | 0x58 => half t.seepAck o 0x58
  | 0x5C => half t.seepAck o 0x58
  | 0x60 => t.seepFill / 1024
  | _ => s.reg pgSEEP o

/-! Replay, contexts and keystones (R366, R367, R417, R418). -/

/-- Register of the PIE page (R366, R367). -/
def State.viewPie (s : State) (o : Nat) : Nat :=
  let p := s.pie
  let r := s.img.retain
  let u := (s.core (s.reg pgPIE 0x5C)).undo
  match o with
  | 0x0C => p.replays % 16 * 2 ^ 8 + b2n (!p.votes.isEmpty) * 2 ^ 3 + b2n (p.stress == 2) * 2 ^ 2 +
      b2n (s.sch.job == .rewinding && !p.restored) * 2 + b2n p.agreed.isSome
  | 0x48 => r.restore % 2 ^ 16 * 2 ^ 16 + r.flood % 2 ^ 16
  | 0x4C => s.img.undoKib % 2 ^ 11 * 2 ^ 21 + r.dmemKib % 2 ^ 7 * 2 ^ 14 + (if s.sch.image.isSome then r.roundSlots % 2 ^ 6 else 0)
  | 0x50 => half p.lastRtick o 0x50
  | 0x54 => half p.lastRtick o 0x50
  | 0x58 => p.lastRec + p.replays % 16 * 2 ^ 12
  | 0x60 => ceilDiv (72 * u.maxLines) 1024 % 2 ^ 16 + ceilDiv u.maxDev 1024 % 2 ^ 16 * 2 ^ 16
  | 0x68 => match p.votes with
    | v :: _ => v.engines % 2 ^ 8 * 2 ^ 24 + fld p.voteLast 8 16 * 2 ^ 8 + v.stage
    | [] => p.voteLast
  | 0x70 => p.stress * 2 ^ 29 + p.stressTemp % 2 ^ 8 * 2 ^ 16 + p.stressFails * 2 ^ 8
  | _ => s.reg pgPIE o

/-- Register of the KEY page (R418), of the keystone that KEY_SEL names. -/
def State.viewKey (s : State) (o : Nat) : Nat :=
  let k := s.key (s.reg pgKEY 0x40)
  match o with
  | 0x0C => (s.cores.map (fun p => (p.2.threads.filter (fun t => t.2.onKey)).length)).foldl (· + ·) 0 % 2 ^ 13
  | 0x44 => half k.cfg o 0x44
  | 0x48 => half k.cfg o 0x44
  | 0x4C => k.value
  | 0x50 => k.phase
  | 0x54 => k.last % 2 ^ 15 * 2 ^ 16 + k.first % 2 ^ 15
  | 0x58 => k.src
  | 0x5C => k.late
  | _ => s.reg pgKEY o

/-- Register of the CTX page (R417), of the context that CTX_SEL names. -/
def State.viewCtx (s : State) (o : Nat) : Nat :=
  let x := s.ctxOf (s.reg pgCTX 0x60)
  let waiting := fun (cap : Bool) => (s.ctx.zeroQ.filter (fun z => z.1 == cap)).length
  match o with
  | 0x0C => s.ctx.refuse * 2 ^ 24 + b2n s.ctx.cmd.isSome
  | 0x64 => x.grace % 2 ^ 8 * 2 ^ 18 + x.overPiers % 2 ^ 8 * 2 ^ 10 + b2n x.overQ * 2 ^ 9 + x.gen * 2 ^ 3 + x.st.code
  | 0x68 => x.devUse
  | 0x6C => x.devQ
  | 0x70 => x.capUse
  | 0x74 => x.capQ
  | 0x78 => x.keyQ % 2 ^ 14 * 2 ^ 16 + x.keyUse % 2 ^ 14
  | 0x7C => x.tdFlits
  | 0x80 => x.tdBlocks
  | 0x84 => s.pageCount 1 - s.ctx.devPages.length - waiting false
  | 0x88 => s.pageCount 2 - s.ctx.capPages.length - waiting true
  | 0x8C => s.ctx.zeroQ.length
  | _ => s.reg pgCTX o

/-! Identity, host interface, clocks, power and resets (R443 to R445, R467 to R470, R482, R483). -/

/-- Register of the GEN page (R482, R483). -/
def State.viewGen (s : State) (o : Nat) : Nat :=
  if 0x100 ≤ o ∧ o < 0x180 then leAt s.shape (o - 0x100) 4
  else match o with
  | 0x0C => b2n (s.answers pgGEN && s.answers pgSCH)
  | 0x44 => Config.stepping * 2 ^ 24 + s.bin * 2 ^ 16 + 0x101
  | 0x48 => half s.host.serial o 0x48
  | 0x4C => half s.host.serial o 0x48
  | 0x50 => s.descGen
  | 0x54 => 41 + 5 * (256 - s.rst.absent.length)
  | _ => s.reg pgGEN o

/-- Register of the MD page (R467). -/
def State.viewMd (s : State) (o : Nat) : Nat :=
  match o with
  | 0x0C => b2n s.rst.fwRun
  | 0x44 => s.rst.fw % 2 ^ 16
  | 0x48 => if s.rst.dump.isSome then 2 ^ 31 + s.rst.dumpType * 2 ^ 24 + s.rst.dumpRecs else 0
  | 0x50 => match s.rst.dump with
    | some b => leAt b (4 * s.reg pgMD 0x4C) 4
    | none => 0
  | _ => s.reg pgMD o

/-- Frequency in kHz of a selection of CLK_OBS; none where it is reserved. A strobe counts as 0 (R452). -/
def State.obsKhz (s : State) (sel : Nat) : Option Nat :=
  if sel = 1 then some 1000000
  else if sel = 2 then some 100000
  else if sel = 3 then some 25000
  else if sel = 4 then some 1000
  else if 5 ≤ sel ∧ sel ≤ 8 then some (s.coreM * 31250)
  else if sel < 0xB then some 0
  else none

/-- Whether CLK_OBS asks for what the observation output does not drive: a reserved SEL, or more than 125 MHz (R452). -/
def State.obsBad (s : State) : Bool :=
  let obs := s.reg pgCLK 0x50
  match s.obsKhz (fld obs 4 4) with
  | none => true
  | some f => decide (125000 * 2 ^ fld obs 0 4 < f)

/-- What the observation output drives: a selection and its divider, or nothing (R452). -/
def State.obsDrive (s : State) : Option (Nat × Nat) :=
  let obs := s.reg pgCLK 0x50
  if s.obsBad || fld obs 4 4 == 0 then none else some (fld obs 4 4, fld obs 0 4)

/-- The level of the output while it drives a strobe: the frame strobe through the first 32 ticks of a frame, the pier strobe through
a pier frame (R452). -/
def State.obsStrobe (s : State) : Option Bool :=
  match s.obsDrive with
  | some (9, _) => some (decide (s.tick % 2048 < 32))
  | some (10, _) => some s.inPierFrame
  | _ => none

/-- Register of the CLK page (R468). -/
def State.viewClk (s : State) (o : Nat) : Nat :=
  let k := s.clk
  match o with
  | 0x0C => k.coreLock % 16 * 2 ^ 8 + b2n k.tickLock * 2 ^ 7 + b2n s.obsBad * 2 ^ 6 + k.src * 2 ^ 4 + b2n k.rcQ * 2 ^ 2 + b2n k.xtalQ * 2 + b2n k.refQ
  | 0x44 => k.qRefx
  | 0x48 => k.qXrc
  | 0x4C => k.qRefrc
  | 0x54 => (upTo 4).foldl (fun a i => a + (if bitAt k.coreLock i then s.coreM else 0) * 2 ^ (8 * i)) 0
  | _ => s.reg pgCLK o

/-- Whether a change of the V/F point is in progress (R455, R456). -/
def State.seqBusy (s : State) : Bool :=
  match s.sch.job, s.curDesc with
  | .running, some d =>
    !d.vfKeep && (s.sch.place == .span || s.sch.place == .pier) && (d.vfNext != s.pwr.point || s.pwr.due.isSome) &&
      decide (s.pierFirst ≤ s.tick + 2048) && decide (s.tick < s.pierFirst + 1056)
  | .rewinding, _ =>
    match s.pie.agreed with
    | some r => s.pwr.failed.isSome && decide (r ≤ s.tick + 2048)
    | none => false
  | _, _ => false

/-- Register of the PWR page (R469). -/
def State.viewPwr (s : State) (o : Nat) : Nat :=
  let p := s.reg pgPWR 0x44
  match o with
  | 0x0C => b2n s.pwr.alert * 2 ^ 7 + b2n (decide (s.pwr.point < s.pwr.ceiling)) * 2 ^ 6 + b2n s.seqBusy * 2 ^ 5 +
      b2n s.pwr.mainOk * 2 ^ 4 + b2n s.pwr.stress * 2 ^ 3 + s.pwr.point
  | 0x48 => Config.fusedMv s.bin p % 2 ^ 10 * 2 ^ 16 + (Config.vfM s.bin).getD p 0
  | 0x4C => s.pwr.tmax % 2 ^ 8 * 2 ^ 24 + s.pwr.watts % 2 ^ 16
  | 0x54 => Store.get 0 s.pwr.rails (s.reg pgPWR 0x50)
  | 0x58 => half s.pwr.energy o 0x58
  | 0x5C => half s.pwr.energy o 0x58
  | _ => s.reg pgPWR o

/-- RST STAT.PHASE from the recovery that runs (R466, R470). -/
def State.rstPhase (s : State) : Nat :=
  if s.rst.phase = 5 then 5
  else match s.rst.runs.find? (fun r => r.dom == .warm) with
  | some r =>
    if s.tick < r.since + 1000000 then 1
    else if s.tick < r.since + 100000000 then 3 else 4
  | none => if s.rst.runs.isEmpty then 0 else 2

/-- Register of the RST page (R470). -/
def State.viewRst (s : State) (o : Nat) : Nat :=
  match o with
  | 0x0C => s.rst.refuse * 2 ^ 24 + s.rst.last * 2 ^ 21 + s.rstPhase * 2 ^ 18 + b2n (!s.rst.runs.isEmpty)
  | 0x48 => s.rst.spares
  | _ => s.reg pgRST o

/-- What a mailbox's status register reads (R443, R444). -/
def Mailbox.stat (m : Mailbox) : Nat :=
  m.last * 2 ^ 16 + (if m.st = .done then m.status % 2 ^ 8 else 0) * 2 ^ 8 + m.refuse * 2 ^ 4 + m.st.code

/-- A word of the MSI-X table (R420). -/
def MsixEntry.word (e : MsixEntry) (i : Nat) : Nat :=
  match i with
  | 0 => e.lo
  | 1 => e.hi
  | 2 => e.data
  | _ => e.ctl

/-- Register of the HIF page (R420, R443). A response is read while it is held. -/
def State.viewHif (s : State) (o : Nat) : Nat :=
  let m := s.host.mbx0
  if 0x200 ≤ o ∧ o < 0x300 then (if m.st = .done then m.rsp.getD ((o - 0x200) / 4) 0 else 0)
  else if 0x800 ≤ o ∧ o < 0xA00 then (Store.get {} s.host.msix ((o - 0x800) / 16) : MsixEntry).word ((o - 0x800) / 4 % 4)
  else match o with
  | 0xA00 => s.host.pba % 2 ^ 32
  | 0xA04 => 0
  -- L0P_ACTIVE needs L0P_EN
  | 0x0C => (if bitAt (s.reg pgHIF 0x40) 1 then s.host.pcieLink else clrBit s.host.pcieLink 0) % 2 ^ 11 * 2 ^ 9 + b2n s.host.wakeOut * 2 ^ 8 + (if s.host.d3hot then 3 else 0)
  | 0x4C => Store.get 0x20 s.host.vmap (s.reg pgHIF 0x48)
  | 0x68 => m.stat
  | _ => s.reg pgHIF o

/-- Register of the MGT page (R444), the counters of the key slot that MGT_KSEL names. -/
def State.viewMgt (s : State) (o : Nat) : Nat :=
  let k : KeySlot := Store.get {} s.host.slots (s.reg pgMGT 0x5C)
  match o with
  | 0x0C => s.host.nodeId * 2 ^ 24 + b2n (s.host.nodeId == 0 && bitAt (s.reg pgMGT 0x40) 0) * 2 ^ 2 +
      b2n (s.host.plca && bitAt (s.reg pgMGT 0x40) 0) * 2 + b2n s.host.linkUp
  | 0x54 => half s.host.mac o 0x54
  | 0x58 => half s.host.mac o 0x54
  | 0x60 => half k.rxFloor o 0x60
  | 0x64 => half k.rxFloor o 0x60
  | 0x68 => half k.txCtr o 0x68
  | 0x6C => half k.txCtr o 0x68
  | 0x70 => s.host.mbx1.stat
  | _ => s.reg pgMGT o

/-- Layout of LOCK (R441): OWNER. -/
def State.owner (s : State) (key : Nat) : Nat := Store.get 0 s.host.locks key

/-- Register of the SEM page (R445): SEM_GPn is kept at 0x4000 + n. -/
def State.viewSem (s : State) (o : Nat) : Nat :=
  let held := fun (m : Nat) => (s.host.locks.filter (fun p => p.1 < 0x4000 && p.2 == m)).length
  if 0x80 ≤ o ∧ o < 0xC0 then s.owner (0x4000 + (o - 0x80) / 4)
  else match o with
  | 0x0C => held 2 * 2 ^ 16 + held 1
  | _ => s.reg pgSEM o

/-! Trace and test (R496, R497). -/

/-- Register of the TRC page (R496). -/
def State.viewTrc (s : State) (o : Nat) : Nat :=
  match o with
  | 0x0C => ceilDiv (s.trace.buf.length * 32) 1024 * 2 ^ 16 + b2n s.trace.full * 2 ^ 2 +
      b2n (bitAt (s.reg pgTRC 0x40) 0 && decide (s.reg64 pgTRC 0x58 ≤ s.tick) &&
        (s.reg64 pgTRC 0x60 == 0 || decide (s.tick < s.reg64 pgTRC 0x60))) * 2 + b2n s.trace.snap
  | 0x68 => s.trace.wr
  | _ => s.reg pgTRC o

/-- Register of the TST page (R497). -/
def State.viewTst (s : State) (o : Nat) : Nat :=
  let f := Store.get 0 s.trace.fails (s.reg pgTST 0x48)
  match o with
  | 0x0C => b2n (s.sch.phase == .test) * 2 ^ 3 + b2n s.trace.extest * 2 ^ 2 + b2n s.trace.test.isSome * 2
  | 0x44 => s.trace.tstState * 2 ^ 29 + s.trace.tstRefuse * 2 ^ 16 + s.trace.tstOp
  | 0x4C => f % 2 ^ 32
  | 0x50 => f / 2 ^ 32 % 2 ^ 32
  | 0x54 => f / 2 ^ 64 % 4
  | _ => s.reg pgTST o

/-! Every page. -/

/-- Whether a page is implemented (R471, R473, R474). -/
def State.implemented (s : State) (page : Nat) : Bool :=
  pageType page != 0 && (decide (page < 0x80) || s.corePresent ((page - 0x80) / 16))

/-- Instance of a page (R473, R474). -/
def pageInstance (page : Nat) : Nat :=
  if 0x80 ≤ page then (page - 0x80) / 16
  else if 0x20 ≤ page ∧ page < 0x24 then page - 0x20
  else if 0x28 ≤ page ∧ page < 0x30 then page - 0x28
  else if 0x30 ≤ page ∧ page < 0x38 then page - 0x30 else 0

/-- Register of a page of the device region. -/
def State.viewDevice (s : State) (page o : Nat) : Nat :=
  match page with
  | 0x00 => s.viewGen o
  | 0x01 => s.viewMd o
  | 0x02 => s.viewClk o
  | 0x03 => s.viewPwr o
  | 0x04 => s.viewRst o
  | 0x05 => s.viewHif o
  | 0x06 => s.viewMgt o
  | 0x07 => s.viewSem o
  | 0x08 => s.viewSch o
  | 0x09 => s.viewTck o
  | 0x0A => s.viewVdt o
  | 0x0B => s.viewCol o
  | 0x0C => s.viewCmb o
  | 0x0D => s.viewSmp o
  | 0x0E => s.viewGal o
  | 0x0F => s.viewPie o
  | 0x10 => s.viewKey o
  | 0x11 => s.viewCtx o
  | 0x12 => s.viewSeep o
  | 0x13 => s.viewTrc o
  | 0x14 => s.viewTst o
  | _ =>
    let i := pageInstance page
    match pageType page with
    | 0x11 => s.viewTrs i o
    | 0x13 => s.viewHbm i o
    | 0x16 => s.viewUpd i o
    | _ => s.reg page o

/-- Register of a page of the core region. -/
def State.viewCorePage (s : State) (page o : Nat) : Nat :=
  let c := (page - 0x80) / 16
  match (page - 0x80) % 16 with
  | 0 => s.viewCore c o
  | 1 => s.viewMxa c o
  | 2 => s.viewFls c o
  | 3 => s.viewDma c o
  | 4 => s.viewTil c o
  | _ => 0

/-- What a register of an implemented page that answers reads as (R475, R476, R479). -/
def State.regView (s : State) (page o : Nat) : Nat :=
  if o = 0 then pageType page * 2 ^ 16 + pageInstance page * 2 ^ 8 + 1
  else if o = 0x18 then s.reg page 0x10
  else if o = 0x1C then s.owner page
  else if page < 0x80 then s.viewDevice page o else s.viewCorePage page o

end Sys2Proof.Machine
end

