-- ==== Sys2Proof/Machine/Host.lean ====
section
/-! DEFINITION. Mailboxes (R429 to R433) with the commands this chapter defines, and the management port (R434 to R440): frames
and their tests, responses, notifications and key rotation. -/

namespace Sys2Proof.Machine

open Sys2Proof

/-! Mailboxes. -/

/-- HIF_MBX_REQ as it stands. -/
def State.hifReq (s : State) : List Nat := (upTo 64).map (fun i => s.reg pgHIF (0x100 + 4 * i))

/-- Whether a write of a master reaches mailbox 0: PCIe alone, with BAR decoding on and the page answering (R426, R442, R466). -/
def State.hifOpen (s : State) (m : Master) : Bool :=
  m == .pcie && s.reaches m && s.answers pgHIF

/-- HIF_MBX_DB (R430). -/
def execHifMbxDb (m : Master) (seq : BitVec 16) (s : State) : Host.Outcome State Fault Refusal :=
  .next (if s.hifOpen m then s.mbxRing 0 seq.toNat s.hifReq 0 0 (regAt pgHIF 0x60) else s)

/-- HIF_MBX_ACK (R432). -/
def execHifMbxAck (m : Master) (seq : BitVec 16) (s : State) : Host.Outcome State Fault Refusal :=
  .next (if s.hifOpen m then s.mbxAck 0 seq.toNat 0 (regAt pgHIF 0x64) else s)

/-- MBX_DONE (R431, R432): the running command, once its response is formed, completes. -/
def execMbxDone (s : State) : Host.Outcome State Fault Refusal := .next s.mbxDone

/-- SHAPE (R16, R429). -/
def execShape (s : State) : Host.Outcome State Fault Refusal :=
  .next (match s.mbxRuns 0x01 with
    | none => s
    | some n => s.mbxReply n 0 ((upTo 32).map (fun i => leAt s.shape (4 * i) 4)))

/-- ECHO (R429). -/
def execEcho (s : State) : Host.Outcome State Fault Refusal :=
  .next (match s.mbxRuns 0x02 with
    | none => s
    | some n => s.mbxReply n 0 (s.mbx n).req.tail)

/-- A key slot. -/
def State.slot (s : State) (k : Nat) : KeySlot := Store.get {} s.host.slots k

/-- A key slot replaced. -/
def State.setSlot (s : State) (k : Nat) (x : KeySlot) : State := { s with host := { s.host with slots := Store.set {} s.host.slots k x } }

/-- KEY_ROTATE (R440): words of the argument by log 39. -/
def execKeyRotate (s : State) : Host.Outcome State Fault Refusal :=
  .next (match s.mbxRuns 0x10 with
    | none => s
    | some n =>
      let w := s.mbxArg n 1
      let t := fld w 0 8
      let p := fld w 8 8
      if n = 0 ∨ t = 0 ∨ 3 < t ∨ 3 < p ∨ t = (s.mbx n).kslot then
        -- the record holds what the frame that rang the mailbox named (R444)
        let m := s.mbx n
        (s.logErr pgMGT (5 * 2 ^ 24 + m.pos) (m.who % 2 ^ 32) (m.who / 2 ^ 32 % 2 ^ 16)).mbxReply n 1 []
      else
        let nonce := (upTo 8).flatMap (fun i => leBytes 4 (s.mbxArg n (2 + i)))
        let key := hmacSha256 (s.slot p).key (nonce ++ [BitVec.ofNat 8 t])
        ((s.setSlot t { s.slot t with key := key }).setInt pgMGT 4).mbxReply n 0 [])

/-! Frames (R435, R436). -/

def frVer (b : List Byte) : Nat := leAt b 0 1
def frType (b : List Byte) : Nat := leAt b 1 1
def frSlot (b : List Byte) : Nat := leAt b 2 1
def frDev (b : List Byte) : Nat := leAt b 4 2
def frSeq (b : List Byte) : Nat := leAt b 6 2
def frCounter (b : List Byte) : Nat := leAt b 8 8
def frAddr (b : List Byte) : Nat := leAt b 16 4
def frWords (b : List Byte) : Nat := leAt b 20 2
/-- Payload word `i`. -/
def frWord (b : List Byte) (i : Nat) : Nat := leAt b (24 + 4 * i) 4

/-- The tag of a frame under a key: the first 16 bytes of the HMAC over the header and the payload. -/
def frTag (key b : List Byte) : List Byte := (hmacSha256 key (b.take (24 + 4 * frWords b))).take 16

/-- Whether a frame fails the first three tests (R435). -/
def State.foreign (s : State) (f : Frame) : Bool :=
  !f.fcsOk || f.dst != s.host.mac || f.etype != fld (s.reg pgMGT 0x40) 16 16

/-- Whether a frame names this device and an enabled slot: VER, DEVICE_ID and KSLOT of the fourth test (R435). -/
def State.addressed (s : State) (b : List Byte) : Bool :=
  frVer b == 1 && frDev b == s.devId && decide (frSlot b < 4) && bitAt (s.reg pgMGT 0x40) (8 + frSlot b)

/-- Whether a frame's tag verifies (R435, R436). -/
def State.authentic (s : State) (b : List Byte) : Bool :=
  decide (24 + 4 * frWords b + 16 ≤ b.length) && (b.drop (24 + 4 * frWords b)).take 16 == frTag (s.slot (frSlot b)).key b

/-- The position fields of a record of the MGT log (R444). -/
def frPos (b : List Byte) : Nat := frSlot b % 4 * 2 ^ 22 + frSeq b

/-- A record of the MGT log for a frame. -/
def State.mgtLog (s : State) (cause : Nat) (f : Frame) : State :=
  s.logErr pgMGT (cause * 2 ^ 24 + frPos f.bytes) (f.src % 2 ^ 32) (f.src / 2 ^ 32 % 2 ^ 16)

/-- A reservation raised above a counter, where it must be (R437). The non-volatile write may fail, which a free value decides
(log 53). -/
def reserve (s : State) (resv n : Nat) : Option Nat × State :=
  if n ≤ resv then (some resv, s)
  else
    let f := s.free
    (if bitAt f.1.toNat 0 then none else some (n + 2 ^ 24), f.2)

/-- Without PLCA the port runs CSMA/CD, and a frame may meet collisions on the segment before it is sent: their number is free, and at the
sixteenth the frame is given up, as IEEE 802.3 has it (R434, R444; log 53). True where the frame goes out. -/
def State.collide (s : State) : State × Bool :=
  if s.host.plca && bitAt (s.reg pgMGT 0x40) 0 then (s, true)
  else
    let f := s.free
    let n := f.1.toNat % 17
    (f.2.cnt pgMGT 0x94 n, decide (n < 16))

/-- A frame sent under a slot: its counter, its tag, and its reservation (R436, R437). `body` is the header and the payload
with the counter still to be put in. -/
def State.sendFrame (s : State) (k mac : Nat) (body : List Byte) : State :=
  let x := s.slot k
  let n := x.txCtr + 1
  let r := reserve s x.txResv n
  match r.1 with
  | none => r.2.logErr pgMGT (6 * 2 ^ 24 + k * 2 ^ 22 + frSeq body) (mac % 2 ^ 32) (mac / 2 ^ 32 % 2 ^ 16)
  | some v =>
    let b := body.take 8 ++ leBytes 8 n ++ body.drop 16
    let c := (r.2.setSlot k { x with txCtr := n, txResv := v }).collide
    if c.2 then c.1.emit (.frame mac (b ++ frTag x.key b)) else c.1

/-- The header and payload of a frame of this device, the counter 0. -/
def State.frameBody (s : State) (type k rseq status : Nat) (words : List Nat) : List Byte :=
  leBytes 1 1 ++ leBytes 1 type ++ leBytes 1 k ++ leBytes 1 0 ++ leBytes 2 s.devId ++ leBytes 2 rseq ++ leBytes 8 0 ++ leBytes 4 0 ++
    leBytes 2 words.length ++ leBytes 2 status ++ words.flatMap (fun w => leBytes 4 w)

/-- A request executed: the state, the response's STATUS and its payload. -/
abbrev Reply := State × Nat × List Nat

/-- An accepted request (R436, R438): a repeated one is answered from the cache; another is executed by `run` and answered. -/
def State.answerFrame (s : State) (f : Frame) (run : State → Frame → Reply) : State :=
  let k := frSlot f.bytes
  let q := frSeq f.bytes
  if (s.slot k).lastRseq = some q then (s.cnt pgMGT 0x98 1).sendFrame k f.src (s.slot k).cached
  else
    let r := run s f
    let body := r.1.frameBody 0x81 k q r.2.1 r.2.2
    (r.1.setSlot k { r.1.slot k with lastRseq := some q, cached := body }).sendFrame k f.src body

/-- A frame that passes the first four tests: its counter against the floor and the reservation (R435, R437). -/
def State.acceptFrame (s : State) (f : Frame) (serve : State → State) : State :=
  let k := frSlot f.bytes
  let n := frCounter f.bytes
  let x := s.slot k
  if n ≤ x.rxFloor then ((s.cnt pgMGT 0x8C 1).mgtLog 2 f).setInt pgMGT 3
  else
    let r := reserve s x.rxResv n
    match r.1 with
    | none => r.2.mgtLog 6 f
    | some v => serve ((r.2.setSlot k { x with rxFloor := n, rxResv := v }).cnt pgMGT 0x80 1)

/-- Whether the management port works: the always-on domain and its firmware run (R434, R501). -/
def State.portOn (s : State) : Bool := s.pwr.auxOk && !s.rst.mrstLow && s.rst.fwRun

/-- A frame received (R435): each test in turn; a frame that fails one is discarded with no response. One that names another version,
device or slot is counted nowhere, for it has failed neither of the first three tests nor its tag. -/
def State.takeFrame (s : State) (f : Frame) (serve : State → State) : State :=
  if !s.portOn then s
  else if s.foreign f then s.cnt pgMGT 0x84 1
  else if !s.addressed f.bytes then s
  else if !s.authentic f.bytes then ((s.cnt pgMGT 0x88 1).mgtLog 1 f).setInt pgMGT 3
  else s.acceptFrame f serve

/-- A request that is malformed: STATUS 2 and a record (R436, R444). -/
def State.malformed (s : State) (f : Frame) : Reply := (s.mgtLog 3 f, 2, [])

/-- MBX executed: the request written and mailbox 1 rung as one action. -/
def runMbx (s : State) (f : Frame) : Reply :=
  let n := frWords f.bytes
  if n = 0 ∨ 64 < n then s.malformed f
  else
    let s1 := s.mbxRing 1 (frAddr f.bytes % 2 ^ 16) ((upTo n).map (frWord f.bytes)) (frSlot f.bytes) (frPos f.bytes) (f.src % 2 ^ 48)
    if s1.host.engineQ = s.host.engineQ then (s1, 1, [s1.host.mbx1.refuse]) else (s1, 0, [s1.host.mbx1.stat])

/-- MBX_ACK executed; a refused ACK is reported as a refused doorbell is (log 53). -/
def runMbxAck (s : State) (f : Frame) : Reply :=
  let s1 := s.mbxAck 1 (frAddr f.bytes % 2 ^ 16) (frPos f.bytes) (f.src % 2 ^ 48)
  if s.host.mbx1.st = .done ∧ s1.host.mbx1.st = .idle then (s1, 0, [s1.host.mbx1.stat]) else (s1, 1, [s1.host.mbx1.refuse])

/-- MBX_POLL executed: the mailbox status and any held response. -/
def runMbxPoll (s : State) (_f : Frame) : Reply :=
  let m := s.host.mbx1
  (s, 0, m.stat :: (if m.st = .done then m.rsp else []))

/-- MBX (R436). -/
def execMbx (f : Frame) (s : State) : Host.Outcome State Fault Refusal :=
  .next (if frType f.bytes = 3 then s.takeFrame f (fun z => z.answerFrame f runMbx) else s)

/-- MBX_ACK (R432, R436). -/
def execMbxAck (f : Frame) (s : State) : Host.Outcome State Fault Refusal :=
  .next (if frType f.bytes = 4 then s.takeFrame f (fun z => z.answerFrame f runMbxAck) else s)

/-- MBX_POLL (R436). -/
def execMbxPoll (f : Frame) (s : State) : Host.Outcome State Fault Refusal :=
  .next (if frType f.bytes = 5 then s.takeFrame f (fun z => z.answerFrame f runMbxPoll) else s)

/-- FOREIGN_FRAME (R435, R444): a frame of the segment that is not this device's, or whose TYPE is no request. -/
def execForeignFrame (f : Frame) (s : State) : Host.Outcome State Fault Refusal :=
  .next (if s.foreign f || frType f.bytes == 0 || decide (5 < frType f.bytes) then s.takeFrame f (fun z => z.mgtLog 3 f) else s)

/-- NOTIFY (R439): a risen line reported to the controller under slot 0, at least 10 ms after the last one for its block. -/
def execNotify (b : Fin 32) (s : State) : Host.Outcome State Fault Refusal :=
  let n : Nat := b
  .next (
    if !bitAt s.host.notifyDue n || !s.portOn then s
    else
      let s1 := match Store.find s.host.notifyAt n with
        | none => s
        | some t => elapseTo (t + 10000000) s
      let s2 : State := { s1 with host := { s1.host with
        notifyDue := clrBit s1.host.notifyDue n, notifyAt := Store.insert s1.host.notifyAt n s1.tick } }
      (s2.cnt pgMGT 0x90 1).sendFrame 0 ((s2.reg64 pgMGT 0x48) % 2 ^ 48) (s2.frameBody 0x82 0 0 0 [n]))

/-- Whether beacons are met where PLCA starts on a link that is up: always by their coordinator, else as a free value decides (R434, R444;
log 49). -/
def State.plcaStart (s : State) : State :=
  let f := s.free
  { f.2 with host := { f.2.host with
    plca := f.2.host.linkUp && bitAt (f.2.reg pgMGT 0x40) 0 && (f.2.host.nodeId == 0 || bitAt f.1.toNat 0) } }

/-- What identifies the PCIe function in its configuration space (R419): vendor and device at 0x00, the class code in bits [31:8] at 0x08.
No command reaches configuration space (log 53). -/
def pcieIdentity (o : Nat) : Option Nat :=
  if o = 0 then some (0x5A20 * 2 ^ 16 + 0x1E5C) else if o = 8 then some (0x120000 * 2 ^ 8) else none

/-- Whether configuration space returns Request Retry Status: until the first pages answer (R425; log 53). -/
def State.configRetry (s : State) : Bool := !s.firstUp

/-- MGT_LINK_CHANGE (R444): PLCA, where it is on, starts on a link that comes up. -/
def execMgtLinkChange (up : Bool) (s : State) : Host.Outcome State Fault Refusal :=
  .next (
    if s.host.linkUp = up then s
    else ({ s with host := { s.host with linkUp := up } }).plcaStart.setInt pgMGT 0)

end Sys2Proof.Machine
end

