-- ==== Sys2Proof/Machine/Power.lean ====
section
/-! DEFINITION. Clock sources and their qualification (R448 to R451), alerts and the governor (R457, R458), and the progress,
core and partition watchdogs (R134, R464). -/

namespace Sys2Proof.Machine

open Sys2Proof

/-! Clock sources. -/

/-- A record of the CLK log (R468). -/
def State.clkLog (s : State) (cls cause die : Nat) : State :=
  s.logErr pgCLK (cls * 2 ^ 28 + cause * 2 ^ 24 + die * 2 ^ 22) 0 0

/-- The reference the tick PLL follows: REF while it is qualified and enabled, except that one running from XTAL comes back to
it under AUTO_BACK alone; then XTAL; none of them otherwise (R450). -/
def ClkState.choose (k : ClkState) (cfg : Nat) : Nat :=
  if k.refQ && bitAt cfg 0 && (bitAt cfg 1 || k.src != 1 || !k.xtalQ) then 0 else if k.xtalQ then 1 else 3

/-- The tick PLL brought up to date with its sources (R450). -/
def State.selectRef (s : State) : State :=
  let v := s.clk.choose (s.reg pgCLK 0x40)
  if v = s.clk.src then s
  else
    let s1 := { s with clk := { s.clk with src := v } }
    if v = 3 then s1.clkLog 0 4 0 else ((s1.cnt pgCLK 0x58 1).clkLog 0 7 0).setInt pgCLK 0

/-- A source's qualification changed: INT_STAT for a gain or a loss, and a record of a loss (R449, R468). -/
def State.qualify (s : State) (was now : Bool) (cause : Nat) : State :=
  if now && !was then s.setInt pgCLK 1
  else if was && !now then (s.clkLog 0 cause 0).setInt pgCLK 2
  else s

/-- Consecutive passing windows. -/
def passRun (n : Nat) (pass : Bool) : Nat := if pass then n + 1 else 0

/-- The qualification rules of R449 in their order, from what passed: REF–XTAL, XTAL–RC, REF–RC, and whether REF is absent. -/
def ClkState.window (k : ClkState) (refx xrc refrc absent : Bool) : ClkState :=
  let out := !xrc && !refrc && refx
  let rcRun := if out then 0 else passRun k.rcPass (xrc || refrc)
  let rcQ := !out && (k.rcQ || decide (4 ≤ rcRun))
  let rcOut := !rcQ && (out || k.rcOut)
  let xPass := if rcOut then refx || absent else xrc
  let xRun := passRun k.xtalPass xPass
  let xtalQ := xPass && (k.xtalQ || decide (4 ≤ xRun) || (rcOut && absent))
  let rPass := refrc && (!xtalQ || refx) && !(!refx && xrc)
  let rRun := passRun k.refPass rPass
  { k with
    rcQ := rcQ, rcOut := rcOut, rcPass := rcRun
    xtalQ := xtalQ, xtalPass := xRun
    refQ := rPass && (k.refQ || decide (4 ≤ rRun)), refPass := rRun }

/-- What the module measures, once a millisecond: power, temperature, energy and the rails, whose values the spec leaves to the part and
its load (R458, R469; log 49). A stress test keeps its highest temperature (R365). -/
def State.measure (s : State) : State :=
  if !s.pwr.mainOk then s
  else
    let f := s.free
    let g := f.2.free
    let t := f.1.toNat % 2 ^ 8
    let s1 := { g.2 with
      pwr := { g.2.pwr with tmax := t, watts := f.1.toNat / 2 ^ 16, energy := (g.2.pwr.energy + g.1.toNat) % 2 ^ 64 }
      pie := if s.pie.stress = 2 ∧ s.pie.stressTemp < t then { g.2.pie with stressTemp := t } else g.2.pie }
    (upTo 9).foldl (fun a r =>
      let h := a.free
      { h.2 with pwr := { h.2.pwr with rails := Store.set 0 h.2.pwr.rails r h.1.toNat } }) s1

/-- QUAL_WINDOW (R448, R449, R450): the counts of the three pairs, at the end of a window of a millisecond. Every PLL with a qualified
source is locked from then on (log 53). -/
def execQualWindow (refx xrc refrc : Nat) (s : State) : Host.Outcome State Fault Refusal :=
  let pRefx := decide (99980 ≤ refx ∧ refx ≤ 100020)
  let pXrc := decide (23750 ≤ xrc ∧ xrc ≤ 26250)
  let pRefrc := decide (95000 ≤ refrc ∧ refrc ≤ 105000)
  let k := s.clk
  let k1 : ClkState := { k.window pRefx pXrc pRefrc (decide (refx = 0 ∧ refrc = 0)) with
              qRefx := refx % 2 ^ 17, qXrc := xrc % 2 ^ 15, qRefrc := refrc % 2 ^ 17 }
  let s0 : State := { s with clk := k1 }
  let s1 := s0.cnt pgCLK 0x5C (b2n (!pRefx) + b2n (!pXrc) + b2n (!pRefrc))
  let s2 := ((s1.qualify k.rcQ k1.rcQ 3).qualify k.xtalQ k1.xtalQ 2).qualify k.refQ k1.refQ 1
  let s3 := s2.selectRef
  .next (if s3.clk.src = 3 then s3 else { s3 with clk := { s3.clk with tickLock := true, coreLock := 15, standbyLock := 15 } }).measure

/-- The clocks after PLL `n` loses lock: 0 to 3 the running core PLL of dies C0 to C3, 4 the tick PLL, 5 to 8 the standby core PLL of
dies C0 to C3 (R447, R451). -/
def ClkState.unlock (k : ClkState) (n : Nat) : ClkState :=
  if n < 4 then { k with coreLock := clrBit k.coreLock n }
  else if n = 4 then { k with tickLock := false }
  else { k with standbyLock := clrBit k.standbyLock (n - 5) }

/-- PLL_UNLOCK (R451). -/
def execPllUnlock (pll : Fin 9) (s : State) : Host.Outcome State Fault Refusal :=
  let n : Nat := pll
  let live := s.sch.job == .running || s.sch.job == .rewinding
  let s1 := ((({ s with clk := s.clk.unlock n }).cnt pgCLK 0x60 1).clkLog (b2n live) (if n = 4 then 5 else 6)
    (if n = 4 then 0 else n % 5)).setInt pgCLK 3
  .next (if live then s1.raiseHw else s1)

/-! Alerts and the governor. -/

/-- A record of the PWR log (R469). -/
def State.pwrLog (s : State) (cause rail : Nat) : State := s.logErr pgPWR (cause * 2 ^ 24 + rail * 2 ^ 20) 0 0

/-- POWER_ALERT (R458): module input power averaged over 1 ms and the hottest compute die, of which one must pass its limit. -/
def execPowerAlert (watts tmax : Nat) (s : State) : Host.Outcome State Fault Refusal :=
  let cfg := s.reg pgPWR 0x40
  let power := decide (fld cfg 16 16 < watts)
  .next (
    if s.pwr.alert || !s.pwr.mainOk || !(power || decide (fld cfg 8 8 < tmax)) then s
    else
      let s1 := ({ s with pwr := { s.pwr with alert := true, watts := watts % 2 ^ 16, tmax := tmax % 2 ^ 8 } }).cnt pgPWR 0x68 1
      ((s1.pwrLog (if power then 3 else 4) 0).setInt pgPWR 3).emit (.alert true))

/-- ALERT_END (R458): the condition clears. ALERT# stays low from a trip until main power comes up (R500). -/
def execAlertEnd (s : State) : Host.Outcome State Fault Refusal :=
  .next (if !s.pwr.alert then s
    else
      let s1 := { s with pwr := { s.pwr with alert := false } }
      if s.pwr.tripped then s1 else s1.emit (.alert false))

/-- The governor's change to a point, at a slot boundary no earlier than `gap` ticks after its last one (R457, R458;
log 53). -/
def State.govern (s : State) (p gap : Nat) : State :=
  let s1 := elapseTo (if s.pwr.govAt = 0 then 0 else s.pwr.govAt + gap) s
  let s2 := (elapseTo (ceilDiv s1.tick 32 * 32) s1).seqAgrees p
  ((({ s2 with pwr := { s2.pwr with govAt := s2.tick } }).pointTo p 2).cnt pgPWR 0x64 1).setInt pgPWR 2

/-- GOVERNOR_STEP (R457, R458): one point down every millisecond while an alert lasts, then one up every 10 ms, to the point the
image set. -/
def execGovernorStep (s : State) : Host.Outcome State Fault Refusal :=
  .next (
    if !bitAt (s.reg pgPWR 0x40) 0 || s.img.strict || !s.pwr.mainOk then s
    else if s.pwr.alert then
      if s.pwr.point = 0 then s else s.govern (s.pwr.point - 1) 1000000
    else if s.pwr.point < s.pwr.ceiling then s.govern (s.pwr.point + 1) 10000000
    else s)

/-! Watchdogs. -/

/-- A record of the RST log (R470). -/
def State.rstLog (s : State) (cls cause die core : Nat) : State :=
  s.logErr pgRST (cls * 2 ^ 28 + cause * 2 ^ 24 + die * 2 ^ 22 + core * 2 ^ 8) 0 0

/-- PROGRESS_EXPIRY (R134): a thread's progress counter reaches its window, a hardware fault the first time and a schedule
fault in a replay of the span. A second expiry of a thread in one run of a span counts as one in a replay (DESIGN CHOICE, log 59). -/
def execProgressExpiry (c : Fin 256) (t : Fin 16) (s : State) : Host.Outcome State Fault Refusal :=
  let k := s.core c
  let x := s.thread c t
  .next (
    if !(s.inSpan && bitAt (s.reg (pgCORE c) 0x40) 0 && k.clocked && !k.inReset && x.counts && decide (x.pcnt ≤ x.pwin) &&
        decide (0 < x.pwin) && !(x.pcnt == x.pwin && x.expiredAt == some s.tick)) then s
    else
      let s1 := elapse (x.pwin - x.pcnt) s
      let y := s1.thread c t
      let s2 := ((s1.setThread c t { y with expired := some s1.sch.seq, expiredAt := some s1.tick }).cnt (pgCORE c) 0x84 1).setInt (pgCORE c) 3
      if y.expired = some s1.sch.seq then
        (s2.coreFault c .sched 0 9 t y.tag.1 y.tag.2 y.a.pc 0).setInt (pgCORE c) 4
      else s2.coreFault c .hw 0 1 t y.tag.1 y.tag.2 y.a.pc 0)

/-- The response to a core watchdog, as a progress counter's expiry: the span of a first one is remembered (R464). -/
def State.coreBarks (s : State) (c die : Nat) : State :=
  let again := Store.find s.rst.coreWdSpan c == some s.sch.seq
  let s1 := ((({ s with rst := { s.rst with coreWdSpan := Store.insert s.rst.coreWdSpan c s.sch.seq } }).cnt pgRST 0x60 1).rstLog
    (if again then 3 else 1) (if again then 2 else 1) die c).setInt pgRST 3
  if again then s1.raiseSched else s1.raiseHw

/-- CORE_WATCHDOG (R464): a thread of the core has waited on a keystone for WD_CORE µs with no keystone operation of the core
complete. -/
def execCoreWatchdog (c : Fin 256) (s : State) : Host.Outcome State Fault Refusal :=
  let limit := fld (s.reg pgRST 0x44) 0 16 * 1000
  let k := s.core c
  .next (
    if limit = 0 ∨ !(k.threads.any (fun p => p.2.onKey)) ∨ k.inReset ∨ limit < k.wd then s
    else
      let s1 := elapse (limit - k.wd) s
      (s1.modCore c (fun k => { k with wd := limit + 1 })).coreBarks c (c % 16 / 8 + 2 * (c / 128)))

/-- PARTITION_WATCHDOG (R464): no pier has sealed for WD_PART ms of RUNNING or REWINDING, and the device raises STOP. -/
def execPartitionWatchdog (s : State) : Host.Outcome State Fault Refusal :=
  let limit := fld (s.reg pgRST 0x44) 16 8 * 1000000
  .next (
    if limit = 0 ∨ !(s.sch.job == .running || s.sch.job == .rewinding) ∨ limit < s.rst.wdPart then s
    else
      let s1 := elapse (limit - s.rst.wdPart) s
      (((({ s1 with rst := { s1.rst with wdPart := limit + 1 } }).cnt pgRST 0x60 1).rstLog 0 3 0 0).setInt pgRST 3).raiseStop)

end Sys2Proof.Machine
end

