-- ==== Sys2Proof/Machine/Counters.lean ====
section
/-! DEFINITION. The counters of every page (R476, R489): where they stand, and what CTL.CNT_CLR clears. -/

namespace Sys2Proof.Machine

open Sys2Proof

/-- Counters of a block type: offset, and whether the counter has 64 bits, in ascending offset. -/
def counters : Nat → List (Nat × Bool)
  | 0x02 => [(0x54, false)]
  | 0x03 => [(0x58, false), (0x5C, false), (0x60, false)]
  | 0x04 => [(0x60, false), (0x64, false), (0x68, false)]
  | 0x05 => [(0x50, false), (0x54, false), (0x58, false), (0x5C, false), (0x60, false)]
  | 0x06 => [(0x70, false), (0x74, false), (0x78, false), (0x7C, false)]
  | 0x07 => [(0x80, false), (0x84, false), (0x88, false), (0x8C, false), (0x90, false), (0x94, false), (0x98, false)]
  | 0x08 => [(0x70, true), (0x78, true), (0x80, false), (0x84, false)]
  | 0x09 => [(0x48, true), (0x50, true), (0x58, true), (0x60, false), (0x64, false), (0x68, false), (0x6C, false)]
  | 0x0A => [(0x48, true), (0x50, true), (0x58, false), (0x5C, false), (0x60, false), (0x64, false), (0x68, false), (0x6C, false)]
  | 0x0B => [(0x58, true), (0x60, true), (0x68, false), (0x6C, false), (0x70, false), (0x74, false)]
  | 0x0C => [(0x48, true), (0x50, true), (0x58, false), (0x5C, false)]
  | 0x0D => [(0x80, false), (0x84, false), (0x88, false)]
  | 0x0E => [(0x64, false), (0x68, false), (0x6C, false), (0x70, false)]
  | 0x0F => [(0x90, true), (0x98, true), (0xA0, false), (0xA4, false), (0xA8, false), (0xAC, false), (0xB0, false), (0xB4, false),
      (0xB8, false)]
  | 0x10 => [(0x48, true), (0x50, true), (0x5C, false), (0x60, false), (0x64, false)]
  | 0x11 => [(0x70, true), (0x78, false), (0x7C, false), (0x80, false), (0x84, false), (0x88, false), (0x8C, false), (0x90, false)]
  | 0x12 => [(0x54, false), (0x58, false)]
  | 0x13 => [(0x60, false), (0x64, false), (0x68, false), (0x6C, false)]
  | 0x14 => [(0x50, true), (0x58, true), (0x60, false), (0x64, false), (0x68, false)]
  | 0x15 => [(0x60, false), (0x64, false), (0x68, false), (0x6C, false)]
  | 0x16 => [(0x70, true), (0x78, false), (0x7C, false), (0x80, false), (0x84, false), (0x88, false)]
  | 0x17 => [(0x80, false), (0x84, false), (0x88, false), (0x8C, false), (0x90, false), (0x94, false), (0x98, false), (0x9C, false)]
  | 0x18 => [(0x5C, false), (0x60, true), (0x68, false), (0x6C, false)]
  | 0x19 => [(0x7C, false), (0x80, false), (0x90, false), (0x94, false)]
  | 0x1A => [(0x68, true), (0x70, false), (0x74, false)]
  | 0x1C => [(0x78, true), (0x80, false)]
  | 0x1D => [(0x60, false), (0x64, false)]
  | _ => []

/-- A counter of a page with its width applied. -/
def State.readCounter (s : State) (page : Nat) (c : Nat × Bool) : Nat :=
  if c.2 then s.regView page c.1 + s.regView page (c.1 + 4) * 2 ^ 32 else s.regView page c.1

/-- Core cycles of `n` ticks that a counter counts: a free number, no larger than the core cycles they can hold (log 7). -/
def State.drawCycles (s : State) (n : Nat) : State × Nat :=
  if n = 0 then (s, 0)
  else
    let f := s.free
    (f.2, f.1.toNat % (n * 5 / 4 + 2))

/-- The counters of core cycles of a page brought up to date: bubbles and freezes of the array (R80, R91), waits of Flowstone for a
bank (R94, R116), waits of the ports on bank conflicts (R162, R181). -/
def State.meterPage (s : State) (page : Nat) : State :=
  let c := (page - 0x80) / 16
  let k := s.core c
  match pageType page with
  | 0x09 =>
    let a := s.drawCycles k.runTicks
    let b := a.1.drawCycles k.frozenTicks
    ((b.1.modCore c (fun k => { k with runTicks := 0, frozenTicks := 0 })).cnt64 page 0x50 a.2).cnt64 page 0x58 b.2
  | 0x0A =>
    let a := s.drawCycles k.waitTicks
    (a.1.modCore c (fun k => { k with waitTicks := 0 })).cnt64 page 0x50 a.2
  | 0x0B =>
    let a := s.drawCycles k.bankTicks
    (a.1.modCore c (fun k => { k with bankTicks := 0 })).cnt page 0x74 a.2
  | _ => s

/-- A register read as it stands, its page's counters of core cycles brought up to date. -/
def State.regDraw (s : State) (page o : Nat) : State × Nat :=
  let z := s.meterPage page
  (z, z.regView page o)

/-- A counter read. -/
def State.counterDraw (s : State) (page : Nat) (c : Nat × Bool) : State × Nat :=
  let lo := s.regDraw page c.1
  if c.2 then
    let hi := lo.1.regDraw page (c.1 + 4)
    (hi.1, lo.2 + hi.2 * 2 ^ 32)
  else lo

/-- Counters of an optical port cleared. -/
def OptPort.clearCounts (x : OptPort) : OptPort :=
  { x with cwCnt := 0, corrCnt := 0, uncorrCnt := 0, chkCnt := 0, frmCnt := 0, retryCnt := 0, relockCnt := 0, hsatCnt := 0 }

/-- What CNT_CLR clears beside stored registers: what counters of core cycles are formed from, the counts of ports, groups, keystones
and contexts, and the extremes that the tables name with it (R140, R244, R258, R281, R305, R366). -/
def State.clearKept (s : State) (page : Nat) : State :=
  match pageType page with
  | 0x08 => s.modCore ((page - 0x80) / 16) (fun k => { k with dropped := 0 })
  | 0x09 => s.modCore ((page - 0x80) / 16) (fun k => { k with runTicks := 0, frozenTicks := 0 })
  | 0x0A => s.modCore ((page - 0x80) / 16) (fun k => { k with waitTicks := 0 })
  | 0x0B => s.modCore ((page - 0x80) / 16) (fun k => { k with bankTicks := 0 })
  | 0x0F => { s with vdt := { s.vdt with ports := Store.mapVals (fun _ v => { v with slack := 0xFFFF }) s.vdt.ports } }
  | 0x10 => { s with colGroups := [] }
  | 0x11 => { s with opt := { s.opt with
      ports := Store.mapVals (fun p x => if p % 4 = pageInstance page then x.clearCounts else x) s.opt.ports } }
  | 0x14 => { s with mem := { s.mem with
      sumpMax := (upTo 256).foldl (fun m c => Store.set 0 m c (s.mem.sump.filter (fun e => e.core == c)).length) [] } }
  | 0x17 => { s with cores := Store.mapVals (fun _ k =>
      { k with undo := { k.undo with maxLines := k.undo.lines.length, maxDev := devRecBytes k.undo.devs } }) s.cores }
  | 0x18 => { s with ctx := { s.ctx with keys := Store.mapVals (fun _ k => { k with late := 0 }) s.ctx.keys } }
  | 0x19 => { s with ctx := { s.ctx with ctxs := Store.mapVals (fun _ x => { x with tdFlits := 0, tdBlocks := 0 }) s.ctx.ctxs } }
  | _ => s

/-- CTL.CNT_CLR (R90, R476). The base of the suspect window follows the counters it sums (R363). -/
def State.clearCounters (s : State) (page : Nat) : State :=
  let before := s.corrections
  let s1 := (counters (pageType page)).foldl (fun a c => if c.2 then a.setReg64 page c.1 0 else a.setReg page c.1 0) s
  let s2 := { s1 with pie := { s1.pie.count 0 0 (before - s1.pie.corrBase) with corrBase := s1.corrections } }
  s2.clearKept page

/-- CTL.LOG_REL (R89, R476); in a CORE page the head record leaves the queue (R140). -/
def State.releaseLog (s : State) (page : Nat) : State :=
  if pageType page = 8 then s.modCore ((page - 0x80) / 16) (fun k => { k with faultQ := k.faultQ.tail })
  else (upTo 8).foldl (fun a i => a.setReg page (0x20 + 4 * i) 0) s

end Sys2Proof.Machine
end

