-- ==== Sys2Proof/Machine/Replay.lean ====
section
/-! DEFINITION. The exchanges of the seal unit, replica checks and votes, and the stress command (R357 to R362, R365, R400). -/

namespace Sys2Proof.Machine

open Sys2Proof

/-- SKIP_ROUND (R357): the accumulated vector is sent on every in-partition torus port, and every vector received in the round,
with those of `rx`, is merged. -/
def execSkipRound (rx : List (Nat × Nat)) (s : State) : Host.Outcome State Fault Refusal :=
  .next (
    if !s.exchangeOn || !s.isStepSpan || decide (s.rounds ≤ s.pie.round) then s
    else
      let t := s.cutoff + s.pie.round * s.roundTicks
      let s1 := (elapseTo t s).sealCompare
      let ports := s1.torusPorts
      let s2 := ports.foldl (fun a p => a.sendFlit p t 29 (s1.sealFlit p false)) s1
      let got := (s1.pie.seenPorts ++ rx).filter (fun x => ports.contains x.1)
      let v := got.foldl (fun a x => a ||| (x.2 % 2 ^ 1024)) s1.agreedVector
      let s3 := { s2 with
        train := { s2.train with skipAcc := v }
        pie := { s2.pie with round := s2.pie.round + 1, seenPorts := [] } }
      match ports.find? (fun p => !(got.any (fun x => x.1 == p))) with
      | none => s3
      | some p =>
        if s3.pie.roundFault then s3
        else ({ s3 with pie := { s3.pie with roundFault := true } }).missing p (t + s.roundTicks))

/-- CLOSE_ROUND (R399, R400). -/
def execCloseRound (rx : List (Nat × List Nat)) (s : State) : Host.Outcome State Fault Refusal :=
  .next (
    if !s.exchangeOn || !s.carriesClose || decide (s.rounds ≤ s.pie.closeRound) then s
    else
      let t := s.cutoff + s.pie.closeRound * s.roundTicks
      let s0 := (elapseTo t s).sealCompare
      let s1 := if s0.pie.closeRound = 0 then { s0 with ctx := { s0.ctx with merged := s0.ctx.entries.take closeMax } } else s0
      let ports := s1.torusPorts
      let s2 := ports.foldl (fun a p => a.sendFlit p t 28 (s1.closeFlit p)) s1
      let got := (s1.pie.closeSeen ++ rx).filter (fun x => ports.contains x.1)
      let m := got.foldl (fun a x => closeMerge a x.2) s1.ctx.merged
      let s3 := { s2 with
        ctx := { s2.ctx with merged := m }
        pie := { s2.pie with closeRound := s2.pie.closeRound + 1, closeSeen := [] } }
      match ports.find? (fun p => !(got.any (fun x => x.1 == p))) with
      | none => s3
      | some p =>
        if s3.pie.closeFault then s3
        else ({ s3 with pie := { s3.pie with closeFault := true } }).missing p (t + s.roundTicks))

/-- REPLICA_DIGEST_SEND (R360): digests go out on the Y ports at P + 256, and those from Y− are compared. -/
def execReplicaDigestSend (peer : Option (List Nat)) (s : State) : Host.Outcome State Fault Refusal :=
  .next (
    if s.sch.job ≠ .running ∨ s.sch.place ≠ .pier ∨ s.replicaPier = false ∨ s.extentY < 2 ∨ s.pie.compared = true then s
    else
      let t := s.pierFirst + 256
      let s1 := (elapseTo t s).sealCompare
      let s2 := (s1.physOf (yPlus ++ yMinus)).foldl (fun a p => a.sendFlit p t 29 (s1.sealFlit p true)) s1
      let s3 := { s2 with pie := { s2.pie with compared := true } }
      match (match s3.pie.peerDigests with
        | some d => some d
        | none => peer) with
      | none => s3.cnt pgPIE 0x9C 1
      | some ds =>
        match s3.physOf yMinus with
        | [] => s3.cnt pgPIE 0x9C 1
        | p :: _ => s3.replicaMismatch (s3.mismatches ds) (s3.vport p).peerId true)

/-- The vote of the given stage that may do the work of the current pier: of two, the one that started first (R361; log 37). -/
def State.voteAt (s : State) (stage : Nat) : Option Vote :=
  if s.sch.job == .running && s.sch.place == .pier then
    s.pie.votes.find? (fun v => v.stage == stage && decide (v.pier < s.sch.seq))
  else none

/-- The windows of an engine that the peer's digests do not match: an own window without one of the peer's does not (log 37). -/
def UpdPos.badWindows (p : UpdPos) (e : Nat) (peer : List (Nat × Nat × Nat)) : List Nat :=
  (upTo p.lastWindows.length).filter (fun w =>
    (peer.find? (fun x => x.1 == e && x.2.1 == w)).map (·.2.2) != some (p.lastWindows.getD w 0))

/-- VOTE_WINDOWS (R361): window digests of the mismatching engines are exchanged, the peer's each as engine, window and digest; the blocks of
the windows that do not match are to be compared. -/
def execVoteWindows (peer : List (Nat × Nat × Nat)) (s : State) : Host.Outcome State Fault Refusal :=
  .next (match s.voteAt 1 with
    | none => s
    | some v =>
      let es := (upTo 8).filter (fun e => bitAt v.engines e)
      let pos := fun (e : Nat) => (Store.get {} s.train.engines e).pos
      let bad := es.map (fun e => (e, (pos e).badWindows e peer))
      let s1 := es.foldl (fun a e => a.emit (.voteWindows (s.votePort v) e (pos e).lastWindows)) s
      s1.putVote { v with
        stage := 2, pier := s.sch.seq
        windows := bad.flatMap (fun x => x.2.map (fun w => (x.1, w)))
        todo := bad.flatMap (fun x => (pos x.1).windowBlocks x.2) })

/-- VOTE_BLOCKS (R361): the sidecar CRCs of the next 8,192 blocks of the mismatching windows are exchanged and compared; one of which none came
is compared at a later pier, and the stage ends with the last (log 37). -/
def execVoteBlocks (peer : List VoteItem) (s : State) : Host.Outcome State Fault Refusal :=
  .next (match s.voteAt 2 with
    | none => s
    | some v =>
      let own := s.voteCopies (v.todo.take 8192)
      let come := own.2.filterMap (fun x => (peer.find? (fun i => voteBlock i == x.1)).map (fun i => (x.1, x.2.2, i.side)))
      let bad := (come.filter (fun x => sideCrc x.2.1 != sideCrc x.2.2)).map (·.1)
      let todo := v.todo.filter (fun b => !(come.any (fun x => x.1 == b)))
      let s1 := own.1.emit (.voteCrcs (s.votePort v) (own.2.map (fun x => (x.1, sideCrc x.2.2))))
      s1.putVote { v with stage := if todo.isEmpty then 3 else 2, pier := s.sch.seq, todo := todo, blocks := v.blocks ++ bad })

/-- One block of a vote: own copy, the peer's and the buddy copy; whether this device writes it and what it says of the pair:
0 agree, 1 this device is the minority, 2 the peer is, 3 all differ (R362). -/
def voteVerdict (own : List Byte × List Byte) (i : VoteItem) : Nat :=
  let peer := (i.data, i.side)
  let buddy := (i.buddyData, i.buddySide)
  if copyAgree own peer then 0
  else if copyAgree buddy peer then 1
  else if copyAgree buddy own then 2
  else 3

/-- The blocks that a device sends the peer of a vote: y − 1 each differing block, y its own where the buddy copy equals it (R361,
R362). -/
def State.voteSend (s : State) (v : Vote) (l : List (VoteItem × (List Byte × List Byte) × Nat)) : State :=
  l.foldl (fun a x =>
    if !v.isY || x.2.2 == 2 then a.emit (.voteBlock (s.votePort v) (voteBlock x.1) x.2.1.1 x.2.1.2) else a) s

/-- VOTE_WRITE (R361, R362): at a replica pier after the last comparison the majority of each differing block is written, or
the vote rolls the job back. A vote of which a block has not come waits for a later replica pier (log 37). -/
def execVoteWrite (copies : List VoteItem) (s : State) : Host.Outcome State Fault Refusal :=
  .next (match s.voteAt 3 with
    | none => s
    | some v =>
      if s.replicaPier = false then s
      else
        let own := s.voteCopies v.blocks
        let verdicts := own.2.filterMap (fun x =>
          (copies.find? (fun i => voteBlock i == x.1)).map (fun i => (i, x.2, voteVerdict x.2 i)))
        let z := own.1.voteSend v verdicts
        let crowded := (upTo 8).find? (fun e => decide (16 < (v.blocks.filter (fun b => b.engine == e)).length))
        let torn := (verdicts.find? (fun x => x.2.2 == 3)).map (fun x => x.1.engine)
        match (match crowded with
          | some e => some e
          | none => torn) with
        | some e =>
          (((((z.voteEnd v 0 6).setInt pgPIE 5).pieErr 0 9 (e % 8 * 2 ^ 16) v.peer).suspect 0).raiseStop)
        | none =>
          let mine := verdicts.filter (fun x => x.2.2 == 1)
          let theirs := verdicts.filter (fun x => x.2.2 == 2)
          let s1 := mine.foldl (fun a x => a.voteStore (voteBlock x.1) x.1.data x.1.side) z
          let s2 := if mine.isEmpty then s1 else (s1.cnt pgPIE 0x94 mine.length).suspect 0
          if verdicts.length < v.blocks.length then z.putVote { v with pier := s.sch.seq }
          else if mine.isEmpty && theirs.isEmpty then s2.voteEnd v 0 5
          else s2.voteEnd v (mine.length + theirs.length) 4)

/-- PIE_STRESS_GO (R365, R367). -/
def execPieStressGo (m : Master) (s : State) : Host.Outcome State Fault Refusal :=
  .next (s.lk m pgPIE 0x6C (fun s =>
    let cmd := s.reg pgPIE 0x6C
    if s.sch.phase = .test ∧ s.sch.job = .loaded ∧ s.img.strict = true ∧ fld cmd 8 4 ≤ 8 then
      { s with pie := { s.pie with stress := 1, stressCmd := cmd, stressFails := 0, stressTemp := 0 } }
    else { s with pie := { s.pie with stress := 5 } }))

end Sys2Proof.Machine
end

