-- ==== Sys2Proof/Machine/Sem.lean ====
section
/-! DEFINITION. Page ownership between the two masters (R441, R442, R445, R479 to R481): LOCK, the semaphores, leases and bulk
commands. -/

namespace Sys2Proof.Machine

open Sys2Proof

/-- An owner written: of a page, or of semaphore n under key 0x4000 + n. -/
def State.setOwner (s : State) (key m : Nat) : State :=
  { s with host := { s.host with locks := Store.set 0 s.host.locks key m } }

/-- A claim granted, with its tick. -/
def State.grantLock (s : State) (m : Master) (key : Nat) : State :=
  let s1 := s.setOwner key (masterCode m)
  { s1 with host := { s1.host with claims := Store.insert s1.host.claims key (s.tick + 1) } }

/-- Whether a claim meets one of the other master granted at the same tick, management-die cycles being ticks while the tick PLL runs
(R12, R441; log 52). -/
def State.contends (s : State) (m : Master) (key : Nat) : Bool :=
  s.owner key != 0 && s.owner key != masterCode m && Store.get 0 s.host.claims key == s.tick + 1 && s.pwr.mainOk

/-- A CLAIM (R441). One that meets management's of the same cycle loses, and SEM records it. -/
def State.claim (s : State) (m : Master) (key : Nat) : State :=
  if s.owner key = 0 then s.grantLock m key
  else if s.contends m key then s.setInt pgSEM 0
  else s

/-- A RELEASE (R441). -/
def State.unclaim (s : State) (m : Master) (key : Nat) : State := if s.owner key = masterCode m then s.setOwner key 0 else s

/-- A write of a LOCK register (R441): one with both bits set has no effect. -/
def State.writeLock (s : State) (m : Master) (key v : Nat) : State :=
  match bitAt v 8, bitAt v 9 with
  | true, false => s.claim m key
  | false, true => s.unclaim m key
  | _, _ => s

/-- Every lock of a master released: pages and semaphores. -/
def State.releaseAll (s : State) (code : Nat) : State :=
  { s with host := { s.host with locks := s.host.locks.filter (fun p => p.2 != code), lockCycle := none } }

/-- A release that the SEM page logs (R442, R445): of one page, or of all. -/
def State.semLog (s : State) (cause code : Nat) (page : Option Nat) : State :=
  s.logErr pgSEM (cause * 2 ^ 24 + code * 2 ^ 16 + (match page with | some p => p % 2 ^ 14 | none => 2 ^ 14)) 0 0

/-- The locks of PCIe that a PCIe reset releases (R425, R442). -/
def State.pcieUnlock (s : State) : State := (s.releaseAll 1).semLog 3 1 none

/-! GEN_BULK (R480 to R482). -/

def bulkOp (v : Nat) : Nat := fld v 28 2
def bulkStride (v : Nat) : Nat := fld v 23 5
def bulkCount (v : Nat) : Nat := fld v 14 9
def bulkFirst (v : Nat) : Nat := fld v 0 14

/-- Whether a command is malformed. -/
def bulkBad (v : Nat) : Bool :=
  bulkOp v == 0 || bulkOp v == 3 || bulkCount v == 0 || decide (256 < bulkCount v) || bulkStride v == 0 ||
    decide (16 < bulkStride v) || decide (0x3FFF < bulkFirst v + (bulkCount v - 1) * bulkStride v)

/-- The implemented pages of the set, in ascending order. -/
def State.bulkPages (s : State) (v : Nat) : List Nat :=
  ((upTo (bulkCount v)).map (fun i => bulkFirst v + i * bulkStride v)).filter (fun p => s.implemented p)

/-- The result of a bulk command reported (R480, R482). -/
def State.bulkStat (s : State) (m : Master) (result holder page : Nat) : State :=
  let s1 := s.setReg pgGEN (if m = .pcie then 0xC4 else 0xC8) (result * 2 ^ 30 + masterCode m * 2 ^ 26 + holder * 2 ^ 24 + page)
  (if result = 1 then s1 else s1.logErr pgGEN (3 * 2 ^ 24 + masterCode m * 2 ^ 22 + 2 ^ 21) 0xC0 0).setInt pgGEN 1

/-- A bulk command (R480). -/
def State.genBulk (s : State) (m : Master) (v : Nat) : State :=
  if bulkBad v then s.bulkStat m 3 0 0
  else
    let ps := s.bulkPages v
    if bulkOp v = 2 then (ps.foldl (fun a p => a.unclaim m p) s).bulkStat m 1 0 0
    else match ps.find? (fun p => s.owner p != 0) with
    | some p => (if s.contends m p then s.setInt pgSEM 0 else s).bulkStat m 2 (s.owner p) p
    | none => (ps.foldl (fun a p => a.claim m p) s).bulkStat m 1 0 0

/-! The two masters in one cycle (R481). -/

/-- A lock operation of a master. -/
def State.lockOp (s : State) (m : Master) : LockOp → State
  | .page key v => s.writeLock m key v
  | .bulk v => s.genBulk m v

/-- What PCIe owns. -/
def State.pcieKeys (s : State) : List Nat := (s.host.locks.filter (fun p => p.2 == 1)).map (·.1)

/-- PCIe's lock operations of the present cycle, with what stood before them; none yet as of now. -/
def State.cycleNow (s : State) : LockCycle :=
  let fresh : LockCycle :=
    ⟨s.tick, s.pcieKeys, s.host.claims, s.reg pgGEN 0xC4, (upTo 8).map (fun i => s.reg pgGEN (0x20 + 4 * i)), []⟩
  match s.host.lockCycle with
  | some c => if c.tick = s.tick then c else fresh
  | none => fresh

/-- Owners, claims, GEN_BULK_STATP and the GEN log as they stood before PCIe's operations of the cycle, none of which changes what
management owns. -/
def State.beforePcie (s : State) (c : LockCycle) : State :=
  let z := c.pcie.foldl (fun a k => a.setOwner k 1) (s.releaseAll 1)
  let s1 := { z with host := { z.host with claims := c.claims } }
  (upTo 8).foldl (fun a i => a.setReg pgGEN (0x20 + 4 * i) (c.log.getD i 0)) (s1.setReg pgGEN 0xC4 c.stat)

/-- A lock operation of a master. Within a cycle management's take effect before any of PCIe, so one that is taken after some of
PCIe's is put before them (R481; log 52). -/
def State.lockTurn (s : State) (m : Master) (op : LockOp) : State :=
  let c := s.cycleNow
  if !s.pwr.mainOk then s.lockOp m op
  else match m with
    | .pcie =>
      let s1 := s.lockOp .pcie op
      { s1 with host := { s1.host with lockCycle := some { c with ops := c.ops ++ [op] } } }
    | .mgt =>
      if c.ops.isEmpty then s.lockOp .mgt op
      else
        let s1 := (s.beforePcie c).lockOp .mgt op
        let c1 := { c with
          pcie := s1.pcieKeys, claims := s1.host.claims
          log := (upTo 8).map (fun i => s1.reg pgGEN (0x20 + 4 * i)) }
        let s2 := c.ops.foldl (fun a o => a.lockOp .pcie o) s1
        { s2 with host := { s2.host with lockCycle := some c1 } }

/-- A LOCK write by its key: a page that is empty logs the access, and one that does not answer discards it (R471, R479). -/
def State.lockWrite (s : State) (m : Master) (key v : Nat) : State :=
  if !s.reaches m then s
  else if 0x4000 ≤ key then (if s.answers pgSEM then s.lockTurn m (.page key v) else s)
  else if !s.implemented key then s.genLog 1 m true (regAt key 0x1C)
  else if !s.takes key then s
  else s.lockTurn m (.page key v)

/-- LOCK_CLAIM (R441). -/
def execLockClaim (m : Master) (page : Nat) (s : State) : Host.Outcome State Fault Refusal := .next (s.lockWrite m page (2 ^ 8))

/-- LOCK_RELEASE (R441). -/
def execLockRelease (m : Master) (page : Nat) (s : State) : Host.Outcome State Fault Refusal := .next (s.lockWrite m page (2 ^ 9))

/-- GEN_BULK_CLAIM (R480). -/
def execGenBulkClaim (m : Master) (v : Word) (s : State) : Host.Outcome State Fault Refusal :=
  .next (if s.reaches m && s.answers pgGEN then s.lockTurn m (.bulk (setFld v.toNat 28 2 1)) else s)

/-- GEN_BULK_RELEASE (R480). -/
def execGenBulkRelease (m : Master) (v : Word) (s : State) : Host.Outcome State Fault Refusal :=
  .next (if s.reaches m && s.answers pgGEN then s.lockTurn m (.bulk (setFld v.toNat 28 2 2)) else s)

/-! Leases (R442). -/

/-- A master's lease begins anew. -/
def State.beat (s : State) (m : Master) : State :=
  match m with
  | .pcie => { s with host := { s.host with hbPcie := s.tick } }
  | .mgt => { s with host := { s.host with hbMgt := s.tick } }

/-- SEM_HB (R442). -/
def execSemHb (m : Master) (s : State) : Host.Outcome State Fault Refusal := .next (if s.reaches m && s.answers pgSEM then s.beat m else s)

/-- A write of SEM_FORCE: a MASTER of 1 or 2 loses its locks (R442, R445). -/
def State.force (s : State) (v : Nat) : State :=
  let code := fld v 16 2
  if code = 0 ∨ code = 3 then s
  else if bitAt v 31 then ((s.releaseAll code).semLog 2 code none).setInt pgSEM 2
  else
    let p := fld v 0 14
    let s1 := { s with host := { s.host with lockCycle := none } }
    ((if s.owner p = code then s1.setOwner p 0 else s1).semLog 2 code (some p)).setInt pgSEM 2

/-- SEM_FORCE (R442). -/
def execSemForce (m : Master) (v : Word) (s : State) : Host.Outcome State Fault Refusal :=
  .next (if s.reaches m && s.answers pgSEM then s.force v.toNat else s)

/-- LEASE_EXPIRY (R442): the lease runs out a period after it was set or renewed, and a new period begins. -/
def execLeaseExpiry (m : Master) (s : State) : Host.Outcome State Fault Refusal :=
  .next (
    let cfg := s.reg pgSEM 0x40
    let ms := match m with
      | .pcie => fld cfg 0 16
      | .mgt => fld cfg 16 16
    let since := match m with
      | .pcie => s.host.hbPcie
      | .mgt => s.host.hbMgt
    if ms = 0 then s
    else
      let s1 := elapseTo (since + ms * 1000000) s
      (((s1.releaseAll (masterCode m)).semLog 1 (masterCode m) none).setInt pgSEM 1).beat m)

end Sys2Proof.Machine
end

