-- ==== Sys2Proof/Machine/ResetOps.lean ====
section
/-! DEFINITION. What resets do to the state: core and die resets (R88, R113, R139, R155, R177), the warm reset (R211, R242, R280,
R303, R311, R327, R367, R386, R508), the cold reset (R394, R426, R432, R437, R479), what each of them keeps (R460), and the
crash dump (R463). What a reset reports of itself, a count, a record or an interrupt, it makes after its own clearing
(log 54). -/

namespace Sys2Proof.Machine

open Sys2Proof

/-! The crash dump. -/

/-- A number put into an ascending list without repeats. -/
def putAsc (n : Nat) : List Nat → List Nat
  | [] => [n]
  | x :: l => if n < x then n :: x :: l else if n = x then x :: l else x :: putAsc n l

/-- Pages whose ERR_LOG0 is VALID, ascending. -/
def State.loggedPages (s : State) : List Nat :=
  let dev := (s.regs.filter (fun p => p.1 % 0x1000 == 0x20)).map (fun p => p.1 / 0x1000)
  let core := (s.cores.filter (fun p => !p.2.faultQ.isEmpty)).map (fun p => pgCORE p.1)
  (core.foldl (fun l p => putAsc p l) dev).filter (fun p => s.implemented p && bitAt (s.regView p 0x20) 31)

/-- Records the dump has room for. -/
def dumpRoom : Nat := 1819

/-- The crash dump written: its header and a record of each page (R463). `type` is coded as RST STAT.LAST. -/
def State.writeDump (s : State) (type : Nat) : State :=
  let pages := s.loggedPages
  let n := if dumpRoom < pages.length then dumpRoom else pages.length
  let lost := pages.length - n
  let head := leBytes 4 0x504D5544 ++ leBytes 2 n ++ leBytes 2 lost ++ leBytes 4 type ++ leBytes 8 s.tick ++ leBytes 8 s.sch.seq ++
    leBytes 4 0
  let recs := (pages.take n).flatMap (fun p => leBytes 4 p ++ (upTo 8).flatMap (fun i => leBytes 4 (s.regView p (0x20 + 4 * i))))
  { s.markSet pgMD 0x48 31 with rst := { s.rst with dump := some (head ++ recs), dumpType := type, dumpRecs := n } }

/-- What the MD page reports of a dump (R467). -/
def State.dumpDone (s : State) : State :=
  let lost := leAt (s.rst.dump.getD []) 6 2
  (if lost = 0 then s else s.logErr pgMD (3 * 2 ^ 24) 0 0).setInt pgMD 0

/-! Cores and dies. -/

/-- A core as a reset leaves it, its memory and undo log kept: every thread at reset, but that one whose context has ended stays
INACTIVE for the rest of the job (R119, R139). -/
def State.coreAfterReset (s : State) (c : Nat) : Core :=
  let k := s.core c
  { k.clearUnits with threads := Store.mapVals (fun _ x => { ended := x.ended }) (k.threads.filter (fun p => p.2.ended))
                      faultQ := [], dropped := 0, clocked := true, wakeAt := none, runTicks := 0, frozenTicks := 0
                      waitTicks := 0, bankTicks := 0 }

/-- Every register of a core's five pages at its reset value (R88, R113, R139, R155, R177). -/
def State.clearCorePages (s : State) (c : Nat) : State :=
  { s with regs := s.regs.filter (fun p => decide (p.1 / 0x1000 < pgCORE c) || decide (pgTIL c < p.1 / 0x1000)) }

/-- A core put into reset, until its reset is complete (R460); any reset begins the start-up phase anew (R207). -/
def State.resetCore (s : State) (c : Nat) : State :=
  let s1 := s.setCore c { s.coreAfterReset c with inReset := true }
  let s2 := { s1 with mesh := s1.mesh.filter (fun m => m.src != c && m.dst != c)
                      sch := { s1.sch with phase := if s1.sch.phase == Phase.test then Phase.test else .startUp } }
  (((((s2.clearCorePages c).refreshLine 8).refreshLine 9).refreshLine 0xA).refreshLine 0xB).refreshLine 0xC

/-- The logical cores of a die. -/
def dieCores (d : Nat) : List Nat := (upTo 256).filter (fun c => dieOf c == d)

/-- A die put into reset. -/
def State.resetDie (s : State) (d : Nat) : State := (dieCores d).foldl (fun a c => a.resetCore c) s

/-- A die's core memory zeroed (R490, R492). -/
def State.zeroDie (s : State) (d : Nat) : State :=
  { s with cores := Store.mapVals (fun c k => if dieOf c = d then { k with mem := [], ecc := [] } else k) s.cores }

/-- A stack's contents lost to a test: INIT_DONE reads 0 until the next INIT (R490, R492). -/
def State.loseStack (s : State) (n : Nat) : State :=
  let m := s.mem
  let kept := fun (o : Nat) => (m.hbmMap o).1 != n
  { s with mem := { m with
    stack := Store.set {} m.stack n { (Store.get {} m.stack n : Stack) with lost := true }
    dev := m.dev.filter (fun p => kept p.1), devSide := m.devSide.filter (fun p => kept (m.userBytes + p.1 * 8))
    devBad := m.devBad.filter (fun p => kept (p.1 * 64)) } }

/-! A self-test that a reset cuts off. -/

/-- What an abandoned test leaves: a die under test with its core memory zeroed, a stack with INIT_DONE clear (R492). -/
def State.cutTest (s : State) : State :=
  match s.trace.test with
  | none => s
  | some (op, target) =>
    if op = 3 ∨ op = 4 then s.zeroDie target
    else if op = 6 then s.loseStack target else s

/-- The report of an abandoned test: STATE 5 and a record (R492, R497). -/
def State.reportCut (s : State) (test : Option (Nat × Nat)) : State :=
  match test with
  | none => s
  | some (op, target) =>
    ({ s with trace := { s.trace with tstState := 5, tstRefuse := 0, tstOp := op } }).logErr pgTST (3 * 2 ^ 24) (op + target * 2 ^ 8) 0

/-! Warm reset. -/

/-- Whether a warm reset keeps a register (R215, R242, R280, R303, R327, R330, R335, R367, R467 to R470, R482, R488). -/
def warmKeeps (page o : Nat) : Bool :=
  match pageType page with
  | 0x0E => true
  | 0x0F => decide (0x40 ≤ o ∧ o < 0x50)
  | 0x11 => o == 0x40
  | 0x12 => o == 0x40
  | 0x13 => decide (0x40 ≤ o ∧ o < 0x50)
  | 0x03 => o == 0x40 || o == 0x50
  | 0x04 => o == 0x40
  | 0x05 => o == 0x44 || o == 0x5C
  | 0x17 => o == 0x40 || o == 0x44 || o == 0x64
  | 0x1A => decide (0x40 ≤ o ∧ o < 0x50)
  | 0x1C => decide (0x40 ≤ o ∧ o < 0x70)
  | 0x02 => o == 0x40
  | 0x06 => o == 0x50 || decide (0x100 ≤ o ∧ o < 0x200)
  | _ => false

/-- Registers after a reset that keeps those of `f`; an interrupt line stays at 1 where what it keeps still holds it there (R421, R476). -/
def State.keepRegs (s : State) (f : Nat → Nat → Bool) : State :=
  let s1 := { s with regs := s.regs.filter (fun p => f (p.1 / 0x1000) (p.1 % 0x1000)) }
  let lines := (setBits 32 s.host.lines).filter s1.lineUp
  { s1 with host := { s1.host with lines := lines.foldl setBit 0 } }

/-- An update engine after a warm reset: its pier copy, both ring pointers and the sweep's step stay for the journal replay
(R327); its position stands as at load (R508). -/
def UpdEngine.warm (e : UpdEngine) : UpdEngine :=
  { copy := e.copy, jreplay := true
    pos := { group := e.pos.group, step := e.pos.step, startSpan := e.pos.startSpan, head := e.pos.head, applied := e.pos.applied } }

/-- Training state after a warm reset: as a load leaves it until ADOPT or SELF_RESTORE (R508), with what those need kept (R311,
R327, R330, R333). -/
def State.warmTrain (s : State) : State :=
  let t := s.train
  let s1 := s.loadTrain
  let step := if s.sch.image.isSome then 1 else 0
  { s1 with train := { s1.train with
    step := step, stepCopy := step
    keptAmax := if t.keptAmax.isEmpty then t.amax else t.keptAmax
    engines := Store.mapVals (fun _ e => e.warm) t.engines } }

/-- A keystone with the VALUE and PHASE it has at load (R408, R508). -/
def Keystone.atLoad (k : Keystone) : Keystone :=
  let v := if k.kind = 3 then k.target else 0
  { cfg := k.cfg, value := v, sealedValue := v }

/-- The Viaduct after a warm reset (R242). -/
def VdtState.warm (v : VdtState) : VdtState :=
  { pmap := v.pmap, patched := v.patched, routes := v.routes, slots := v.slots, allow := v.allow
    patchState := if v.checking.isSome || v.patch.isSome then 6 else 0
    ports := Store.mapVals (fun _ p => { retire := p.retire, nbr := p.nbr, peerPart := p.peerPart, peerId := p.peerId,
                                         peerLport := p.peerLport, nextSlot := p.nextSlot }) v.ports }

/-- The seal unit after a warm reset (R367). -/
def PieState.warm (p : PieState) : PieState := { votes := p.votes, voteLast := if p.votes.isEmpty then 0 else p.voteLast }

/-- An optical port after a warm reset: its counters cleared and no half-slot held (R280), and its peer's identity to be reported anew for
4 frames, which is its re-verification (R270, R466). -/
def OptPort.warm (x : OptPort) : OptPort := { x.clearCounts.rewound with idFrames := 0 }

/-- The sequencer after a warm reset (R207, R211). -/
def SchState.warm (x : SchState) : SchState :=
  let img := if x.job = .loading then none else x.image
  { job := if img.isSome then .loaded else .idle, image := img, phase := .recovery }

/-- A retirement at a warm reset: one that has migrated takes effect, one still migrating is discarded (R302, R303). -/
def State.warmRetire (s : State) : State :=
  match s.mem.retire with
  | none => s
  | some r =>
    if r.migrated then s.retireSwitch
    else { s with mem := { s.mem with
      retire := none, retState := 6
      chans := Store.set {} s.mem.chans r.chan { (Store.get {} s.mem.chans r.chan : GalChan) with st := 0 } } }

/-- WITHDRAW flooded before a warm reset of a device whose job runs or is parked (R386). -/
def State.warmWithdraw (s : State) : State :=
  match s.sch.job with
  | .running => (s.raiseAlarm (alarmWord 2 s.devId (4 + s.eventSpan % 256 * 2 ^ 8 + s.devId * 2 ^ 16))).wakeReason 6
  | .rewinding => (s.raiseAlarm (alarmWord 2 s.devId (4 + s.eventSpan % 256 * 2 ^ 8 + s.devId * 2 ^ 16))).wakeReason 6
  | .parked => (s.raiseAlarm (alarmWord 2 s.devId (4 + s.eventSpan % 256 * 2 ^ 8 + s.devId * 2 ^ 16))).wakeReason 6
  | _ => s

/-- Open Sump entries at a warm reset: every store has reached its commit tick when its command ends, so all are applied
(R295). -/
def State.sumpFlush (s : State) : State := s.mem.sump.foldl (fun a e => a.sumpCloseEntry e) s

/-- Everything a warm reset clears or keeps (R460). -/
def State.warmClear (s : State) : State :=
  let s0 := (s.sumpFlush.cutTest).keepRegs warmKeeps
  let loading := s0.sch.job == .loading
  let s1 := { s0 with
    sch := s0.sch.warm
    -- PIE_CUNDO at its reset value (R367)
    cores := Store.mapVals (fun c k => { s0.coreAfterReset c with undo := { k.undo with maxLines := 0, maxDev := 0 } }) s0.cores }
  let s2 := s1.warmTrain
  let s3 := { s2 with
    cores := Store.mapVals (fun _ k => { k with inReset := false }) s2.cores
    mesh := [], colGroups := [], colPend := []
    vdt := if loading then { s2.vdt.warm with routes := [], slots := [], allow := 0 } else s2.vdt.warm
    pie := s2.pie.warm
    opt := { s2.opt with ports := Store.mapVals (fun _ x => x.warm) s2.opt.ports }
    ctx := { s2.ctx with
      refuse := 0, cmd := none, entries := [], entriesCopy := [], merged := [], zeroed := (0, 0)
      keys := Store.mapVals (fun _ k => k.atLoad) s2.ctx.keys
      ctxs := Store.mapVals (fun _ x => { x with tdFlits := 0, tdBlocks := 0 }) s2.ctx.ctxs }
    mem := { s2.mem with
      sump := [], sumpMax := [], sumpOvf := false, recent := [], loads := [], initPlan := none, galCmd := none, galXrefSpan := none
      retState := 0, retRefuse := 0
      stack := Store.mapVals (fun _ x => { x with cmd := none, xrefSpan := none, trained := false }) s2.mem.stack }
    host := { s2.host with wbuf := [], rwait := [], vmap := [], notifyDue := 0 }
    pwr := { s2.pwr with point := 0, imagePoint := 0, due := none, failed := none, stress := false, govAt := 0 }
    rst := { s2.rst with wdPart := 0, coreWdSpan := [], refuse := 0 }
    buddy := { s2.buddy with dark := [] }
    trace := { s2.trace with buf := [], dropped := 0, firstDrop := 0, full := false, snap := false, drained := 0, test := none } }
  -- a patch that the reset discards is reported (R242, R243)
  let s4 := if s3.vdt.patchState = 6 then s3.setInt pgVDT 2 else s3
  (s4.warmRetire).refreshMask

/-- A warm reset taken: the withdrawal, the dump, the clearing, and the recovery that follows (R386, R459, R463, R466). `say`
is what the reset's cause reports of it. -/
def State.warm (s : State) (say : State → State) : State :=
  let test := s.trace.test
  let s1 := ((s.warmWithdraw).writeDump 3).warmClear
  let s2 := { s1 with rst := { s1.rst with
    runs := [⟨.warm, 0, s1.tick⟩], last := 3, firstAnswer := false, allAnswer := false, coldAt := none } }
  say (((s2.cnt pgRST 0x58 1).dumpDone).reportCut test)

/-! Cold reset and loss of power. -/

/-- A key slot after a cold reset: both floors start at their reservations (R437). -/
def KeySlot.cold (k : KeySlot) : KeySlot :=
  { key := k.key, rxFloor := k.rxResv, txCtr := k.txResv, rxResv := k.rxResv, txResv := k.txResv }

/-- A stack after a cold reset: permanent repairs stay (R298, R303). -/
def Stack.cold (x : Stack) : Stack := { hard := x.hard, lanes := x.lanes }

/-- What stands outside every reset: fuses and non-volatile stores, the scan port, and the model's own fields. -/
def State.bare (s : State) : State :=
  { pending := s.pending, out := s.out, freeCtr := s.freeCtr, bin := s.bin, aon := s.aon
    host := { slots := Store.mapVals (fun _ k => k.cold) s.host.slots, mac := s.host.mac, nodeId := s.host.nodeId, serial := s.host.serial }
    mem := { stack := Store.mapVals (fun _ x => x.cold) s.mem.stack }
    rst := { coreMap := s.rst.coreMap, spares := s.rst.spares, absent := s.rst.absent, fw := s.rst.fw }
    trace := { tap := s.trace.tap, boundary := s.trace.boundary, extest := s.trace.extest }
    pwr := { mainOk := s.pwr.mainOk, auxOk := s.pwr.auxOk } }

/-- Whether a cold reset keeps a register (R460, R470). -/
def coldKeeps (page o : Nat) : Bool :=
  match pageType page with
  | 0x02 => o == 0x40
  | 0x05 => o == 0x44 || o == 0x5C
  | 0x06 => o == 0x50
  | _ => false

/-- The reset value of PWR_CFG that depends on the bin: LIMIT_W, its TDP (R469). -/
def State.binLimit (s : State) : State :=
  if s.bin = 1 then s.setReg pgPWR 0x40 (Config.tdpW 1 * 2 ^ 16 + 0x5F00) else s

/-- Everything a cold reset clears or keeps (R394, R432, R460, R479); a wake request outstanding is answered by a resume alone
(R428). From its end, which is the release of MRST# where that holds the device in reset, the pages answer as the interfaces come up (R478,
R500; log 53). -/
def State.coldClear (s : State) : State :=
  let b := (s.cutTest).bare
  let keep := bitAt (s.reg pgMD 0x40) 0
  State.binLimit { b with
    regs := s.regs.filter (fun p => coldKeeps (p.1 / 0x1000) (p.1 % 0x1000))
    host := { b.host with linkUp := s.host.linkUp, plca := s.host.plca, pmeStatus := s.host.pmeStatus, wakeOut := s.host.wakeOut
                          resuming := s.host.resuming }
    rst := { b.rst with
      last := s.rst.last, fwRun := s.rst.fwRun, mrstLow := s.rst.mrstLow
      firstAnswer := false, allAnswer := false, coldAt := if s.rst.mrstLow then none else some s.aon
      dump := if keep then s.rst.dump else none, dumpType := s.rst.dumpType, dumpRecs := s.rst.dumpRecs }
    pwr := { b.pwr with tripped := s.pwr.tripped } }

/-- A cold reset taken (R459, R470): LAST names its cause. -/
def State.cold (s : State) (last : Nat) : State :=
  let test := s.trace.test
  let s1 := s.coldClear
  let s2 := { s1 with rst := { s1.rst with last := last } }
  (s2.cnt pgRST 0x5C 1).reportCut test

/-- A cold reset by command or by the module reset input, with its dump (R463). -/
def State.coldDump (s : State) (last : Nat) : State :=
  let s1 := (s.writeDump last).cold last
  if s1.rst.dump.isSome then s1.dumpDone else s1

/-- A page that the always-on domain serves (R425, R453). -/
def alwaysOn (page : Nat) : Bool :=
  page == pgHIF || page == pgMGT || page == pgSEM || page == pgGEN || page == pgRST || page == pgMD

/-- The main rails cut: the always-on domain remains, its pages alone answer, in a recovery that the cut ends as well, and its tick stands
still (R426, R453, R458). -/
def State.mainCut (s : State) : State :=
  let b := s.bare
  { b with
    tick := s.tick, frac := s.frac, descGen := s.descGen, buddy := s.buddy
    regs := s.regs.filter (fun p => alwaysOn (p.1 / 0x1000))
    host := { s.host with
      wbuf := [], rwait := [], msix := [], pba := 0, d3hot := false, l1 := false, resuming := false, pcieLink := 0
      lines := s.host.lines &&& 0x80000E6 }
    rst := { s.rst with
      runs := [], phase := 0, refuse := 0, wdPart := 0, coreWdSpan := [], allAnswer := false
      firstAnswer := !s.rst.mrstLow && (s.rst.firstAnswer || s.rst.coldAt.isNone) }
    trace := { b.trace with tstState := if s.trace.test.isSome then 5 else 0, tstOp := (s.trace.test.getD (0, 0)).1 }
    pwr := { b.pwr with mainOk := false, alert := s.pwr.alert, tripped := s.pwr.tripped } }

end Sys2Proof.Machine
end

