-- ==== Sys2Proof/Machine/Reset.lean ====
section
/-! DEFINITION. Resets (R425, R459 to R466, R500), the firmware watchdog (R464), power (R426 to R428, R501, R502), trips (R458)
and device power states. -/

namespace Sys2Proof.Machine

open Sys2Proof

/-! Requests. -/

/-- RST_CMD's TARGET. -/
def State.rstTarget (s : State) : Nat := fld (s.reg pgRST 0x40) 8 8

/-- A command of RST_CMD refused: REFUSE, a record and INT_STAT (R470). -/
def State.rstRefuse (s : State) (code die core : Nat) : State :=
  (({ s with rst := { s.rst with refuse := code } }).rstLog 0 8 die core).setInt pgRST 1

/-- A request for a domain that a reset in progress contains: counted, with no further effect (R461). -/
def State.rstAbsorb (s : State) (counter : Nat) : State := ({ s with rst := { s.rst with refuse := 4 } }).cnt pgRST counter 1

/-- Whether a job state takes core and die resets (R459). -/
def State.resetJob (s : State) : Bool := s.sch.job == .idle || s.sch.job == .loaded || s.sch.job == .stopped

/-- Whether the die is under a self-test (R492). -/
def State.dieTested (s : State) (d : Nat) : Bool := s.trace.test == some (3, d) || s.trace.test == some (4, d)

/-- A reset that has begun, in place of those its domain contains (R461). -/
def State.beginReset (s : State) (dom : Dom) (target last counter : Nat) : State :=
  let inside := fun (r : ResetRun) => dom == .die && r.dom == .core && dieOf r.target == target
  let s1 : State := { s with rst := { s.rst with
    runs := s.rst.runs.filter (fun r => !inside r) ++ [⟨dom, target, s.tick⟩], last := last, refuse := 0 } }
  s1.cnt pgRST counter 1

/-- A core reset taken. -/
def State.takeCoreReset (s : State) (c : Nat) : State := (s.resetCore c).beginReset .core c 1 0x50

/-- A die reset taken. -/
def State.takeDieReset (s : State) (d : Nat) : State := (s.resetDie d).beginReset .die d 2 0x54

/-- A request for a warm reset. One that a recovery in progress, failed ones included, contains is absorbed (R461, R465). -/
def State.requestWarm (s : State) (say : State → State) : State :=
  if s.rst.runs.any (fun r => r.dom == .warm) then say (s.rstAbsorb 0x58) else s.warm say

/-- A crash dump in the writing is waited for (R461). -/
def State.afterDump (s : State) : State :=
  match s.rst.runs.find? (fun r => r.dom == .warm) with
  | none => s
  | some r => elapseTo (r.since + 1000000) s

/-! RST_CMD. -/

/-- RST_CORE (R459, R460, R461, R492). -/
def execRstCore (m : Master) (s : State) : Host.Outcome State Fault Refusal :=
  .next (s.lk m pgRST 0x40 (fun s =>
    let c := s.rstTarget
    if !s.resetJob || s.dieTested (dieOf c) then s.rstRefuse 1 (dieOf c) c
    else if !s.corePresent c then s.rstRefuse 2 (dieOf c) c
    else if s.coreInReset c then s.rstAbsorb 0x50
    else s.takeCoreReset c))

/-- RST_DIE (R459, R460, R461, R492). -/
def execRstDie (m : Master) (s : State) : Host.Outcome State Fault Refusal :=
  .next (s.lk m pgRST 0x40 (fun s =>
    let d := s.rstTarget
    if !s.resetJob || s.dieTested d then s.rstRefuse 1 (d % 4) 0
    else if 4 ≤ d then s.rstRefuse 2 (d % 4) 0
    else if s.dieInReset d then s.rstAbsorb 0x54
    else s.takeDieReset d))

/-- RST_WARM (R386, R459, R460, R463). -/
def execRstWarm (m : Master) (s : State) : Host.Outcome State Fault Refusal :=
  .next (s.lk m pgRST 0x40 (fun s => s.requestWarm id))

/-- RST_COLD (R459, R460, R463, R470). -/
def execRstCold (m : Master) (s : State) : Host.Outcome State Fault Refusal :=
  .next (s.lk m pgRST 0x40 (fun s => (s.afterDump.coldDump 4).setInt pgRST 0))

/-- RST_SPARE (R18, R462): the lowest-numbered unused spare of the die takes the logical coordinate, with its memory zero, and
then a core reset, which a reset in progress that contains it absorbs (R461). -/
def execRstSpare (m : Master) (s : State) : Host.Outcome State Fault Refusal :=
  .next (s.lk m pgRST 0x40 (fun s =>
    let c := s.rstTarget
    let d := dieOf c
    let used := fld s.rst.spares (2 * d) 2
    if s.sch.job ≠ .idle ∨ s.dieTested d then s.rstRefuse 1 d c
    else if 2 ≤ used then s.rstRefuse 2 d c
    else
      let back := s.rst.absent.contains c
      let s1 := { s with rst := { s.rst with
        spares := s.rst.spares + 2 ^ (2 * d), coreMap := Store.insert s.rst.coreMap c (64 + used)
        absent := s.rst.absent.filter (fun x => x != c) } }
      let s1 := s1.modCore c (fun k => { k with mem := [], ecc := [], undo := {} })
      let s2 := if s.coreInReset c then s1.rstAbsorb 0x50 else s1.takeCoreReset c
      if back then s2.descChanged else s2))

/-! Completion and escalation. -/

/-- RESET_DONE (R459, R470): a core reset, or a die reset, completes. -/
def execResetDone (die : Bool) (target : Nat) (s : State) : Host.Outcome State Fault Refusal :=
  let mine := fun (r : ResetRun) => r.target == target && r.dom == (if die then .die else .core)
  .next (
    if !s.rst.runs.any mine then s
    else
      let s1 := { s with
        rst := { s.rst with runs := s.rst.runs.filter (fun r => !mine r) }
        cores := Store.mapVals (fun c k => if (if die then dieOf c == target else c == target) then { k with inReset := false } else k) s.cores }
      s1.setInt pgRST 0)

/-- WARM_RECOVERY_DONE (R466): no earlier than the tick at which the first pages answer. -/
def execWarmRecoveryDone (s : State) : Host.Outcome State Fault Refusal :=
  .next (match s.rst.runs.find? (fun r => r.dom == .warm) with
    | none => s
    | some r =>
      if s.rst.phase = 5 then s
      else
        let s1 := elapseTo (r.since + 100000000) s
        ({ s1 with rst := { s1.rst with runs := [], firstAnswer := true, allAnswer := s1.pwr.mainOk } }).setInt pgRST 0)

/-- The tick by which a reset must be complete (R465, R466). -/
def ResetRun.limit (r : ResetRun) : Nat :=
  r.since + (match r.dom with | .core => 1000000 | .die => 10000000 | .warm => 2000000000 | .cold => 0)

/-- The reset in progress that overruns first. -/
def overrun (l : List ResetRun) : Option ResetRun :=
  l.foldl (fun b r => match b with
    | none => some r
    | some x => if r.limit < x.limit then some r else some x) none

/-- A record and the interrupt of an escalation (R465). -/
def State.escalates (s : State) (cause die core : Nat) : State := (s.rstLog 0 cause die core).setInt pgRST 2

/-- RESET_ESCALATION (R465): the reset in progress that overruns first becomes one of the next domain. A dump precedes it
(R463). -/
def execResetEscalation (s : State) : Host.Outcome State Fault Refusal :=
  .next (match bitAt (s.reg pgRST 0x44) 31, overrun s.rst.runs with
    | true, some r =>
      let s1 := elapseTo (r.limit + 1) s
      match r.dom with
      | .core =>
        let d := dieOf r.target
        let s2 := (s1.escalates 4 d r.target).writeDump 2
        if s2.dieInReset d then { s2.dumpDone with rst := { s2.dumpDone.rst with runs := s2.dumpDone.rst.runs.filter (fun x => x != r) } }
        else s2.dumpDone.takeDieReset d
      | .die => (s1.rstLog 0 5 r.target 0).warm (fun z => z.escalates 5 r.target 0)
      | .warm =>
        if s.rst.phase = 5 then s
        else ((({ s1 with rst := { s1.rst with phase := 5 } }).escalates 6 0 0).writeDump 3).dumpDone
      | .cold => s
    | _, _ => s)

/-! The firmware watchdog. -/

/-- A command that the engine runs completes with STATUS 0xFF, and a transfer of it ends (R464). -/
def State.mbxAbort (s : State) : State :=
  match s.host.engineQ with
  | [] => s
  | n :: _ =>
    let s1 : State := { s with buddy := { s.buddy with tx := none, rxOn := false } }
    (s1.mbxReply n 0xFF []).mbxDone

/-- What the expiry reports of itself. -/
def State.fwBarks (s : State) : State :=
  ((s.logErr pgMD (1 * 2 ^ 24) 0 0).setInt pgMD 1).rstLog 0 7 0 0 |>.setInt pgRST 4

/-- FIRMWARE_WATCHDOG (R464): firmware restarts from ROM; the third expiry within 10 s takes a warm reset, whose clearing of the MD page its
own count and record outlast. -/
def execFirmwareWatchdog (s : State) : Host.Outcome State Fault Refusal :=
  .next (
    if !s.rst.fwRun then s
    else
      let late := s.rst.fwExp.filter (fun t => decide (s.aon ≤ t + 10000000000))
      let s1 := ({ s with rst := { s.rst with fwExp := (s.aon :: late).take 3 } }).mbxAbort
      let s2 := ((s1.cnt pgMD 0x54 1).cnt pgRST 0x60 1).fwBarks
      if 2 ≤ late.length then
        let taken := !(s2.rst.runs.any (fun r => r.dom == .warm))
        ({ s2 with rst := { s2.rst with fwExp := [] } }).requestWarm (fun z => if taken then (z.cnt pgMD 0x54 1).fwBarks else z)
      else s2)

/-! Resets from the host. -/

/-- The PCIe link trained: WIDTH, SPEED and L0P_ACTIVE are what the host's port negotiates (R419, R443; log 49). -/
def State.trainPcie (s : State) : State :=
  let f := s.free
  let w := f.1.toNat
  let l0p := bitAt w 0 && bitAt (s.reg pgHIF 0x40) 1
  { f.2 with host := { f.2.host with pcieLink := 2 ^ (w / 2 % 5) * 2 ^ 5 + (1 + w / 16 % 6) * 2 + b2n l0p } }

/-- What a PCIe reset does beside the warm reset: the configuration space and the PCIe controller reset, PCIe's locks released,
the reset counted and recorded with its RTYPE (R425, R442, R443). -/
def State.pcieReset (rtype : Nat) (s : State) : State :=
  let s0 := s.trainPcie
  let s1 := { s0 with host := { s0.host with d3hot := false, l1 := false, msix := [], pba := 0 } }
  ((s1.pcieUnlock.cnt pgHIF 0x7C 1).logErr pgHIF (5 * 2 ^ 24 + rtype * 2 ^ 16) 0 0).setInt pgHIF 4

/-- CONVENTIONAL_RESET (R425): with main power present throughout. -/
def execConventionalReset (s : State) : Host.Outcome State Fault Refusal :=
  .next (if !s.pwr.mainOk || s.rst.mrstLow then s else s.requestWarm (State.pcieReset 0))

/-- HOT_RESET (R425). -/
def execHotReset (s : State) : Host.Outcome State Fault Refusal :=
  .next (if !s.pwr.mainOk || s.rst.mrstLow then s else s.requestWarm (State.pcieReset 1))

/-- FUNCTION_LEVEL_RESET (R425). -/
def execFunctionLevelReset (s : State) : Host.Outcome State Fault Refusal :=
  .next (if !s.pwr.mainOk || s.rst.mrstLow then s else s.requestWarm (State.pcieReset 2))

/-- MRST (R461, R463, R500): a cold reset that lasts while the pin is low. -/
def execMrst (s : State) : Host.Outcome State Fault Refusal :=
  .next (
    if !s.pwr.auxOk || s.rst.mrstLow then s
    else
      let s1 := s.afterDump.coldDump 5
      { s1 with rst := { s1.rst with mrstLow := true, coldAt := none } })

/-- MRST_RELEASE (R470, R500): the cold reset completes. -/
def execMrstRelease (s : State) : Host.Outcome State Fault Refusal :=
  .next (
    if !s.rst.mrstLow then s
    else ({ s with rst := { s.rst with mrstLow := false, coldAt := some s.aon } }).setInt pgRST 0)

/-! Power. -/

/-- AUX_POWER_UP (R467, R501, R503): the always-on domain and its firmware start; whether the firmware's image passes its check is the
part's (log 49). -/
def execAuxPowerUp (s : State) : Host.Outcome State Fault Refusal :=
  .next (
    if s.pwr.auxOk then s
    else
      let f := s.free
      let s1 := { f.2 with pwr := { f.2.pwr with auxOk := true }, rst := { f.2.rst with fwRun := true, coldAt := some s.aon } }
      if bitAt f.1.toNat 0 then s1.logErr pgMD (2 * 2 ^ 24) 0 0 else s1)

/-- AUX_POWER_LOSS (R463, R501): every rail is cut and all but fuses and non-volatile stores is lost, Z12_RETAIN with it. -/
def execAuxPowerLoss (s : State) : Host.Outcome State Fault Refusal :=
  .next (
    if !s.pwr.auxOk then s
    else
      let b := s.bare
      { b with
        pwr := { mainOk := false, auxOk := false }
        trace := {}
        aon := 0
        rst := { b.rst with fwRun := false, firstAnswer := false, allAnswer := false, coldAt := none } })

/-- MAIN_POWER_UP (R426, R458, R459, R470, R500, R501): held off until the always-on domain has started; the rails rise and a cold
reset is performed. ALERT# is released after a trip. -/
def execMainPowerUp (s : State) : Host.Outcome State Fault Refusal :=
  .next (
    if s.pwr.mainOk || !s.pwr.auxOk then s
    else
      let s0 : State := { s with pwr := { s.pwr with mainOk := true } }
      let s1 := s0.cold (if s.pwr.tripped then 6 else 0)
      let s2 : State := { s1.trainPcie with pwr := { s1.pwr with tripped := false } }
      let s3 := if s.pwr.tripped || s.pwr.alert then s2.emit (.alert false) else s2
      (s3.setInt pgPWR 0).setInt pgRST 0)

/-- MAIN_POWER_LOSS (R426, R463, R501): every main rail is cut, with no dump. -/
def execMainPowerLoss (s : State) : Host.Outcome State Fault Refusal :=
  .next (if !s.pwr.mainOk then s else
    let s1 := if s.pwr.alert then s.emit (.alert false) else s
    { s1.mainCut with pwr := { s1.mainCut.pwr with alert := false } })

/-- A trip (R458, R500): the dump, the rails cut, ALERT# low until main power next comes up. -/
def State.tripNow (s : State) : State :=
  let s1 := if s.pwr.alert then s else s.emit (.alert true)
  let s2 := ((s1.writeDump 6).mainCut).dumpDone
  { s2 with pwr := { s2.pwr with alert := false, tripped := true } }

/-- TRIP (R458): the hottest compute die at 110 °C, or input power above 1.25 × TDP for 1 ms; a hot HBM stack at 105 °C. -/
def execTrip (watts tmax : Nat) (s : State) : Host.Outcome State Fault Refusal :=
  let hot := s.mem.stack.any (fun p => decide (105 ≤ p.2.temp))
  .next (
    if !s.pwr.mainOk || !(decide (110 ≤ tmax) || decide (Config.tdpW s.bin * 5 < watts * 4) || hot) then s
    else (({ s with pwr := { s.pwr with watts := watts % 2 ^ 16, tmax := tmax % 2 ^ 8 } }).pwrLog 6 0).tripNow)

/-- Whether a rail of one nominal voltage lies in its band (R502); the others carry two voltages and are not told apart. -/
def State.railOk (s : State) (r mv : Nat) : Bool :=
  if r ≤ 3 then
    let v := Config.fusedMv s.bin s.pwr.point - (if s.pwr.stress then 5 * fld s.pie.stressCmd 4 4 else 0)
    decide (v ≤ mv + 30) && decide (mv ≤ v + 30)
  else if r = 6 then decide (3135 ≤ mv) && decide (mv ≤ 3465)
  else if r = 8 then decide (727500 ≤ mv * 1000) && decide (mv * 1000 ≤ 772500)
  else false

/-- RAIL_FAULT (R502): a rail out of its band for 10 µs is logged and handled as a trip. -/
def execRailFault (r : Fin 9) (mv : Nat) (s : State) : Host.Outcome State Fault Refusal :=
  let n : Nat := r
  .next (
    if !s.pwr.mainOk || s.railOk n mv then s
    else (s.logErr pgPWR (1 * 2 ^ 28 + 2 * 2 ^ 24 + n * 2 ^ 20 + s.pwr.point * 2 ^ 17) 0 0).tripNow)

/-! Device power states. -/

/-- D3HOT_ENTRY (R419, R426): BAR decoding stops and the link enters L1; the job, the fabric and the management port go on. -/
def execD3hotEntry (s : State) : Host.Outcome State Fault Refusal :=
  .next (if s.pwr.mainOk && s.allUp then { s with host := { s.host with d3hot := true, l1 := true, resuming := false } } else s)

/-- The vectors that wait unmasked in the pending bit array sent (R421). -/
def State.sendPending (s : State) : State :=
  (setBits 32 s.host.pba).foldl (fun a v =>
    if bitAt (Store.get {} a.host.msix v).ctl 0 then a
    else ({ a with host := { a.host with pba := clrBit a.host.pba v } }).emit (a.message v)) s

/-- D0_RESUME (R428): PM_PME stops repeating and WAKE# is released; HIF_WAKE and PME_Status stay. -/
def execD0Resume (s : State) : Host.Outcome State Fault Refusal :=
  .next (
    if !(s.host.d3hot || s.host.wakeOut) || !s.pwr.mainOk then s
    else
      let s1 := (({ s with host := { s.host with d3hot := false, l1 := false, wakeOut := false, resuming := true } }).trainPcie).sendPending
      if s.host.wakeOut && !s.host.d3hot then s1.emit (.wake false) else s1)

/-- PME_REPEAT (R427): PM_PME repeats while a wake request is outstanding in D3hot. -/
def execPmeRepeat (s : State) : Host.Outcome State Fault Refusal :=
  .next (if s.host.d3hot && s.host.wakeOut && s.host.pmeStatus then (s.cnt pgHIF 0x78 1).emit .pme else s)

end Sys2Proof.Machine
end

