-- ==== Sys2Proof/Machine/Schedule.lean ====
section
/-! DEFINITION. The meanings of the schedule's commands: loading, arming, parking and stopping a job (R28 to R33, R185, R186,
R212), spans and piers (R138, R187, R345), wake comparators (R201 to R203), refresh windows (R199) and V/F changes (R204,
R455, R456). -/

namespace Sys2Proof.Machine

open Sys2Proof

/-- Back to IDLE, with the teardown of every OPEN and PARKED context (R394). -/
def State.unload (s : State) : State :=
  let ids := (s.ctx.ctxs.filter (fun p => p.2.st == .open_ || p.2.st == .parked)).map (·.1)
  let s1 := ids.foldl (fun a id => a.teardown id a.tick) s
  ({ s1 with sch := { s1.sch with image := none } }).setJob .idle

/-- An A-class flit of a job's context still undelivered as the pier seals is a hardware fault (R239). -/
def State.lateFlits (s : State) : State :=
  let l := s.vdt.abuf.map (fun a => (a.port, a.flit)) ++ s.vdt.reorder ++
    (((s.vdt.inject.flatMap (·.2)).map (·.1)).filter (fun f => fltAclass f.head)).map (fun f => (0, f))
  match l.find? (fun f => fltCtx f.2.head != 0) with
  | none => s
  | some (p, f) => s.vdtFault .hw 7 (p * 2 ^ 19 + fltVc f.head * 2 ^ 16 + s.lastSlot * 2 ^ 10 + fltCtx f.head) 0
    (fltSrcId f.head * 2 ^ 16 + fltDest f.head) 0

/-- SCH_LOAD (R185, R186). -/
def execSchLoad (m : Master) (s : State) : Host.Outcome State Fault Refusal :=
  .next (s.lk m pgSCH 0x40 (fun s =>
    let addr := s.schArg
    let len := s.reg pgSCH 0x50
    if s.sch.job ≠ .idle then s.schRefuse 1
    else if addr % 4096 ≠ 0 ∨ len < 64 then s.schRefuse 6
    else ({ s with sch := { s.sch with load := some (addr, len), loadErr := 0 } }).setJob .loading))

/-- IMAGE_LOAD_DONE (R185, R186, R512). -/
def execImageLoadDone (s : State) : Host.Outcome State Fault Refusal :=
  .next (match s.sch.job, s.sch.load with
    | .loading, some (addr, len) => s.loadEnd addr len
    | _, _ => s)

/-- SCH_ARM (R30, R198). -/
def execSchArm (m : Master) (s : State) : Host.Outcome State Fault Refusal :=
  .next (s.lk m pgSCH 0x40 (fun s =>
    if s.sch.job ≠ .loaded then s.schRefuse 1
    else match s.startRefusal s.schArg with
      | some code => s.schRefuse code
      | none => (({ s with sch := { s.sch with start := s.schArg, resume := false } }).stressStart).setJob .armed))

/-- SCH_DISARM (R29, R30). -/
def execSchDisarm (m : Master) (s : State) : Host.Outcome State Fault Refusal :=
  .next (s.lk m pgSCH 0x40 (fun s =>
    if s.sch.job = .armed ∧ s.tick < s.sch.start then
      ({ s with sch := { s.sch with resume := false } }).setJob .loaded
    else s.schRefuse 1))

/-- SCH_UNLOAD (R29, R212, R394). -/
def execSchUnload (m : Master) (s : State) : Host.Outcome State Fault Refusal :=
  .next (s.lk m pgSCH 0x40 (fun s =>
    match s.sch.job with
    | .loaded => s.unload
    | .stopped => s.unload
    | .running => s.raiseStop
    | .parked => s.raiseStop
    | _ => s.schRefuse 1))

/-- SCH_PARK (R29). -/
def execSchPark (m : Master) (s : State) : Host.Outcome State Fault Refusal :=
  .next (s.lk m pgSCH 0x40 (fun s =>
    if s.sch.job = .running then { s with sch := { s.sch with parkReq := true } } else s.schRefuse 1))

/-- SCH_RESUME (R30, R33, R198, R207). -/
def execSchResume (m : Master) (s : State) : Host.Outcome State Fault Refusal :=
  .next (s.lk m pgSCH 0x40 (fun s =>
    if s.sch.job ≠ .parked then s.schRefuse 1
    else match s.startRefusal s.schArg with
      | some code => s.schRefuse code
      | none =>
        ({ s with sch := { s.sch with start := s.schArg, resume := true
                                      phase := if s.sch.phase == Phase.test then Phase.test else .startUp } }).setJob .armed))

/-- SCH_STOP (R29, R234). -/
def execSchStop (m : Master) (s : State) : Host.Outcome State Fault Refusal :=
  .next (s.lk m pgSCH 0x40 (fun s =>
    match s.sch.job with
    | .running => s.raiseStop
    | .parked => s.raiseStop
    | .rewinding => s.raiseStop
    | _ => s.schRefuse 1))

/-- START_TICK (R29, R30, R204, R385). -/
def execStartTick (s : State) : Host.Outcome State Fault Refusal :=
  .next (
    if s.sch.job ≠ .armed ∨ s.sch.start < s.tick then s
    else
      let fresh := !s.sch.resume && !s.sch.adopted
      let s1 := elapseTo s.sch.start s
      let s2 := { s1 with
        sch := { s1.sch with place := .pier0, first := s1.sch.start, stops := if s1.sch.resume then s1.sch.stops else []
                             seq := if fresh then 0 else s1.sch.seq, p0Sealed := s1.sch.resume }
        pie := { s1.pie with words := [], agreed := none, restored := false, replays := 0, withdraw := none }
        vdt := { s1.vdt with epoch := 0 }
        train := { s1.train with keptAmax := [] }
        pwr := { s1.pwr with imagePoint := if fresh then s1.img.vfStart else s1.pwr.imagePoint }
        rst := { s1.rst with wdPart := 0 } }
      (s2.setPoint (if fresh then s2.img.vfStart else if s2.sch.resume then s2.pwr.point else s2.pwr.imagePoint)).setJob .running)

/-- PIER0_SEAL (R31, R33, R205). -/
def execPier0Seal (reports : List PierReport) (s : State) : Host.Outcome State Fault Refusal :=
  .next (
    if s.sch.job ≠ .running ∨ s.sch.place ≠ .pier0 then s
    else
      let s1 := elapseTo (s.sch.first + 2047) s
      match s1.p0Fault reports with
      | some (d, r) => s1.failStart d r
      | none => s1.sealStart)

/-- SPAN_START (R119, R187). -/
def execSpanStart (s : State) : Host.Outcome State Fault Refusal :=
  .next (
    if s.sch.job ≠ .running ∨ s.sch.place ≠ .none then s
    else ((elapseTo s.sch.first s).startSpan (s.sch.seq + 1) s.sch.first).schAgrees 0 0)

/-- SPAN_END (R138, R345, R346); an update engine's block never crosses a pier (R321). -/
def execSpanEnd (s : State) : Host.Outcome State Fault Refusal :=
  .next (
    if s.sch.job ≠ .running ∨ s.sch.place ≠ .span ∨ s.train.engines.any (fun e => e.2.busy) = true then s
    else ((elapseTo s.workEnd s).schAgrees 0 0).endWork)

/-- PIER_SEAL (R345, R510). A raise that the deadline still lets name this span is made before the seal (R348). -/
def execPierSeal (s : State) : Host.Outcome State Fault Refusal :=
  .next (
    if s.sch.job ≠ .running ∨ s.sch.place ≠ .pier ∨
        s.pie.raises.any (fun r => !r.next && decide (r.tick + 32 ≤ s.deadline)) = true then s
    else
      let s1 := (elapseTo (s.pierFirst + 2047) s).sealCompare
      if s1.sch.stops.contains (s1.sch.seq % 256) then (s1.trcPier 2).stopAtPier
      else ((s1.lateFlits.trcPier 1).seal).afterSeal)

/-- GATE (R202, R203): a GATE whose WAKE has fired by its slot is cancelled. -/
def execGate (c : Fin 256) (s : State) : Host.Outcome State Fault Refusal :=
  .next (
    let i := Store.get 0 s.sch.wakeIdx c
    match s.inFrames, (s.wakeOf c).drop i with
    | true, g :: rest =>
      if weWake g.2 then s
      else
        let s1 := (elapseTo (s.gateTick g.2) s).schAgrees (c.val + 1) g.1
        let s2 := { s1 with sch := { s1.sch with wakeIdx := Store.set 0 s1.sch.wakeIdx c (i + 1) } }
        match rest with
        | w :: _ => if s.wakeTick w.2 ≤ s.gateTick g.2 then s2 else s2.gateAt c g.1
        | [] => s2.gateAt c g.1
    | _, _ => s)

/-- WAKE (R202): the comparator fires; it may fire at or before its GATE, which it then cancels. -/
def execWake (c : Fin 256) (s : State) : Host.Outcome State Fault Refusal :=
  .next (
    let i := Store.get 0 s.sch.wakeIdx c
    let fire := fun (w : Nat × Nat) (n : Nat) =>
      let s1 := (s.wakeFires c w.2).schAgrees (c.val + 1) w.1
      { s1 with sch := { s1.sch with wakeIdx := Store.set 0 s1.sch.wakeIdx c n } }
    match s.inFrames, (s.wakeOf c).drop i with
    | true, g :: rest =>
      if weWake g.2 then fire g (i + 1)
      else match rest with
        | w :: _ => if s.wakeTick w.2 ≤ s.gateTick g.2 then fire w (i + 2) else s
        | [] => s
    | _, _ => s)

/-- The refreshes of a window of some ticks: one per 26, from the bank where the last window stopped (R296). Refreshing changes no
value (log 34). -/
def State.refreshBanks (s : State) (n g len : Nat) : State :=
  let k := n * 8 + g
  { s with mem := { s.mem with refPtr := Store.set 0 s.mem.refPtr k ((Store.get 0 s.mem.refPtr k + len / 26) % 64) } }

/-- REFRESH_WINDOW (R199, R296): the next window of the span's set that names the group opens. -/
def execRefreshWindow (n g : Fin 8) (s : State) : Host.Outcome State Fault Refusal :=
  .next (
    let l := s.refreshSet.filter (fun w => fld w 0 3 == n.val && bitAt (fld w 8 8) g)
    if !s.compiled then s
    else
      let base := s.tick / 2048 * 2048
      let next := fun (w : Nat) => if s.tick ≤ base + fld w 16 11 then base + fld w 16 11 else base + 2048 + fld w 16 11
      match l with
      | [] => s
      | w :: ws =>
        let o := ws.foldl (fun a x => if next x < next a then x else a) w
        elapseTo (next o) (s.refreshBanks n g (fld o 27 12)))

/-- VF_CHANGE (R204, R455, R456): in a pier frame the span's VF_NEXT, unless VF_KEEP; while a rewind is agreed, the repeat of a
raise that was not switched, once in each rewind (log 53). -/
def execVfChange (inBand : Bool) (s : State) : Host.Outcome State Fault Refusal :=
  .next (
    match s.sch.job, s.sch.place, s.pwr.failed with
    | .running, .pier, none =>
      match s.curDesc with
      | none => s
      | some d =>
        if d.vfKeep || s.pwr.due.isSome then s
        else if s.pwr.point < d.vfNext then
          let s1 := (elapseTo (s.pierFirst + 1024) s).seqAgrees d.vfNext
          if inBand then ({ s1 with pwr := { s1.pwr with due := some d.vfNext } }).setPoint d.vfNext
          else s1.vfFail d.vfNext
        else
          let s1 := (elapseTo (s.pierFirst + 64) s).seqAgrees d.vfNext
          ({ s1 with pwr := { s1.pwr with due := some d.vfNext } }).setPoint d.vfNext
    | .rewinding, _, some p =>
      match s.pie.agreed with
      | none => s
      | some r =>
        let s1 := (elapseTo (r - 1024) s).seqAgrees p
        if (s.pie.raises ++ s.pie.deferred).any (·.next) then s
        else if inBand then ({ s1 with pwr := { s1.pwr with failed := none, imagePoint := p } }).setPoint p
        else s1.vfFail p
    | _, _, _ => s)

end Sys2Proof.Machine
end

