-- ==== Sys2Proof/Machine/TraceTest.lean ====
section
/-! DEFINITION. The trace drain and the counter snapshot (R484 to R489), self-tests and the test phase (R490 to R493), and the
test access port (R494, R495). -/

namespace Sys2Proof.Machine

open Sys2Proof

/-! The trace ring. -/

/-- Bytes of the trace ring, its base, and TRC_RD. -/
def State.ringBytes (s : State) : Nat := s.reg pgTRC 0x4C % 2 ^ 12 * 2 ^ 20
def State.ringBase (s : State) : Nat := s.reg64 pgTRC 0x50

/-- Records that may be drained now (R484, R496): under STRICT only in pier frames, within DRAIN_KIB. -/
def State.drainRoom (s : State) : Nat :=
  let kib := fld (s.reg pgTRC 0x40) 21 11
  let most := 32 * (if kib = 0 then 1 else if 1024 < kib then 1024 else kib)
  let live := s.sch.job == .running || s.sch.job == .rewinding
  if s.img.strict && live then
    if s.sch.place == .pier || s.sch.place == .pier0 then most - s.trace.drained else 0
  else traceRoom

/-- Whether the next record would pass TRC_RD under STOP_FULL (R488; log 50). -/
def State.ringStops (s : State) : Bool :=
  let d := (s.reg pgTRC 0x6C + s.ringBytes - s.trace.wr % s.ringBytes) % s.ringBytes
  bitAt (s.reg pgTRC 0x40) 1 && decide (0 < d) && decide (d ≤ 32)

/-- The drain stopped at TRC_RD. -/
def State.ringFull (s : State) : State :=
  if s.trace.full then s
  else (({ s with trace := { s.trace with full := true } }).logErr pgTRC (3 * 2 ^ 24) 0 0).setInt pgTRC 1

/-- Records written to the ring, `n` at most (R488). -/
def State.drainSome : Nat → State → State
  | 0, s => s
  | n + 1, s =>
    match s.trace.buf with
    | [] => s
    | r :: rest =>
      if s.ringStops then s.ringFull
      else
        let s1 := s.b2Apply (s.ringBase + s.trace.wr) r
        let s2 : State := { s1 with trace := { s1.trace with
          buf := rest, wr := (s1.trace.wr + 32) % s.ringBytes, full := false, drained := s1.trace.drained + 1 } }
        State.drainSome n (s2.cnt64 pgTRC 0x78 1)

/-- The LOST record, once space has returned (R484, R487). -/
def State.lostRecord (s : State) : State :=
  if s.trace.dropped = 0 ∨ traceRoom ≤ s.trace.buf.length ∨ bitAt (s.reg pgTRC 0x40) 0 = false then s
  else
    let p := leBytes 4 s.trace.dropped ++ leBytes 8 s.trace.firstDrop
    let s1 : State := { s with trace := { s.trace with dropped := 0, firstDrop := 0 } }
    s1.trcPut 0xB (traceSource pgTRC) p

/-- TRACE_DRAIN (R484, R488). -/
def execTraceDrain (s : State) : Host.Outcome State Fault Refusal :=
  .next (if s.ringBytes = 0 then s else (s.drainSome s.drainRoom).lostRecord)

/-! The snapshot. -/

/-- TRC_SNAP (R489): absorbed while one is pending. -/
def execTrcSnap (m : Master) (s : State) : Host.Outcome State Fault Refusal :=
  .next (s.lk m pgTRC 0x70 (fun s => { s with trace := { s.trace with snap := true } }))

/-- The implemented pages in ascending order. -/
def State.allPages (s : State) : List Nat :=
  (upTo 0x40).filter s.implemented ++ ((upTo 256).filter s.corePresent).flatMap (fun c => (upTo 5).map (fun i => pgCORE c + i))

/-- The COUNTER records of a page. -/
def State.snapPage (s : State) (page : Nat) : State :=
  (counters (pageType page)).foldl (fun a c =>
    let r := a.counterDraw page c
    r.1.trcPut 0xA (traceSource page) (leBytes 2 page ++ leBytes 2 c.1 ++ leBytes 4 0 ++ leBytes 8 r.2)) s

/-- Every counter latched (R489); no COUNTER record is produced while EN is 0 (R485). -/
def State.snapshot (s : State) : State :=
  let s1 : State := { s with trace := { s.trace with snap := false } }
  (if bitAt (s.reg pgTRC 0x40) 0 then s.allPages.foldl (fun a p => a.snapPage p) s1 else s1).setInt pgTRC 2

/-- SNAPSHOT_LATCH (R489): at the first tick of the next pier frame, or at once where no job runs. -/
def execSnapshotLatch (s : State) : Host.Outcome State Fault Refusal :=
  .next (
    if !s.trace.snap then s
    else match s.sch.job with
    | .running =>
      if (s.sch.place == .pier || s.sch.place == .pier0) && decide (s.tick ≤ s.pierFirst) then (elapseTo s.pierFirst s).snapshot else s
    | .rewinding => s
    | _ => s.snapshot)

/-! Self-test. -/

/-- TST_CMD's TARGET. -/
def State.tstTarget (s : State) : Nat := fld (s.reg pgTST 0x40) 8 4

/-- A TST_CMD refused: STATE 4 with its code and a record (R490, R497). -/
def State.tstRefused (s : State) (op target code : Nat) : State :=
  (({ s with trace := { s.trace with tstState := 4, tstRefuse := code, tstOp := op } }).logErr pgTST (2 * 2 ^ 24)
    (op + target * 2 ^ 8) 0).setInt pgTST 1

/-- A test requested: refused with the lowest code that applies, or started (R490). `size` bounds TARGET. -/
def State.tstStart (s : State) (op target size : Nat) : State :=
  if s.sch.job ≠ .idle then s.tstRefused op target 1
  else if s.trace.test.isSome then s.tstRefused op target 2
  else if size ≤ target then s.tstRefused op target 3
  else { s with trace := { s.trace with tstState := 1, tstRefuse := 0, tstOp := op, test := some (op, target) } }

/-- The phase set by ENTER_TEST or LEAVE_TEST; a running test's STATE stays (R493). -/
def State.tstPhase (s : State) (op : Nat) (p : Phase) : State :=
  { s with
    sch := { s.sch with phase := p }
    trace := { s.trace with tstState := if s.trace.test.isSome then s.trace.tstState else 0, tstRefuse := 0, tstOp := op } }

/-- ENTER_TEST (R207, R493). -/
def execEnterTest (m : Master) (s : State) : Host.Outcome State Fault Refusal :=
  .next (s.lk m pgTST 0x40 (fun s =>
    if s.sch.job = .idle then s.tstPhase 1 .test else s.tstRefused 1 s.tstTarget 1))

/-- LEAVE_TEST (R493). -/
def execLeaveTest (m : Master) (s : State) : Host.Outcome State Fault Refusal :=
  .next (s.lk m pgTST 0x40 (fun s =>
    if s.sch.job = .idle ∨ s.sch.job = .loaded then s.tstPhase 2 .startUp else s.tstRefused 2 s.tstTarget 1))

/-- LBIST (R490). -/
def execLbist (m : Master) (s : State) : Host.Outcome State Fault Refusal :=
  .next (s.lk m pgTST 0x40 (fun s => s.tstStart 3 s.tstTarget 4))

/-- MBIST_DIE (R490). -/
def execMbistDie (m : Master) (s : State) : Host.Outcome State Fault Refusal :=
  .next (s.lk m pgTST 0x40 (fun s => s.tstStart 4 s.tstTarget 4))

/-- MBIST_DEVICE (R490): it takes no TARGET. -/
def execMbistDevice (m : Master) (s : State) : Host.Outcome State Fault Refusal :=
  .next (s.lk m pgTST 0x40 (fun s => s.tstStart 5 s.tstTarget 16))

/-- HBM_TEST (R490). -/
def execHbmTest (m : Master) (s : State) : Host.Outcome State Fault Refusal :=
  .next (s.lk m pgTST 0x40 (fun s => s.tstStart 6 s.tstTarget 8))

/-- A die as its test leaves it: reset, with core memory zeroed (R490). -/
def State.dieAfterTest (s : State) (d : Nat) : State :=
  let s1 := (s.resetDie d).zeroDie d
  { s1 with cores := Store.mapVals (fun c k => if dieOf c = d then { k with undo := {}, inReset := false } else k) s1.cores }

/-- The device blocks as their test leaves them: Sump and Viaduct buffers empty, buddy store and trace buffer cleared (R490). -/
def State.devAfterTest (s0 : State) : State :=
  let s := s0.sumpFlush
  { s with
    mem := { s.mem with sump := [] }
    vdt := { s.vdt with abuf := [], reorder := [], gapSince := [], inject := [], credit := [], runs := []
                        ports := Store.mapVals (fun _ p => { p with fifo := [], xfer := [] }) s.vdt.ports }
    buddy := { s.buddy with ownPending := none, ownSealed := none, buddyPending := [], buddyGot := 0, buddySealed := none, buddyHist := [] }
    trace := { s.trace with buf := [], dropped := 0, firstDrop := 0 } }

/-- What a test leaves behind, failing cores recorded (R490, R491). A stack test's contents are gone until the next INIT, which
writes all of device memory. -/
def State.afterTest (s : State) (op target fails : Nat) : State :=
  if op = 3 ∨ op = 4 then
    let s1 := s.dieAfterTest target
    { s1 with trace := { s1.trace with fails := Store.set 0 s1.trace.fails target (fails % 2 ^ 66) } }
  else if op = 5 then s.devAfterTest
  else s.loseStack target

/-- The records of a failed test; the place of a failing row or lane is a measurement (R491, R497; log 49). -/
def State.logFailed (s : State) (op target : Nat) : State :=
  let l1 := op + target * 2 ^ 8
  if op = 6 then
    let f := s.free
    let g := f.2.free
    let h := g.2.free
    let s1 := h.2.logErr (pgHBM target) (1 * 2 ^ 24 + fld f.1.toNat 0 6 * 2 ^ 18 + fld f.1.toNat 6 6 * 2 ^ 10) (g.1.toNat % 2 ^ 20) (h.1.toNat % 72)
    s1.logErr pgTST (4 * 2 ^ 24) l1 0
  else s.logErr pgTST (1 * 2 ^ 24) l1 0

/-- TEST_DONE (R491): the running test ends; `fails` has a bit for each failing physical core, or is not 0 where a test of a
device block failed. -/
def execTestDone (fails : Nat) (s : State) : Host.Outcome State Fault Refusal :=
  .next (match s.trace.test with
    | none => s
    | some (op, target) =>
      let s1 := s.afterTest op target fails
      let s2 : State := { s1 with trace := { s1.trace with
        test := none, tstState := if fails = 0 then 2 else 3, tstRefuse := 0, tstOp := op } }
      let s3 := (s2.cnt pgTST 0x60 1).setInt pgTST 0
      if fails = 0 then s3 else ((s3.cnt pgTST 0x64 1).logFailed op target).setInt pgTST 2)

/-! The test access port. -/

/-- A TAP instruction put into effect, leaving the one before it: one that drove the pins ends in a cold reset (R495; log 54). -/
def State.tapSelect (s : State) (n : Nat) : State :=
  let s1 := if s.trace.extest then s.cold 5 else s
  { s1 with trace := { s1.trace with tap := n, extest := false } }

/-- An instruction that drives the pins: in any state but an untested IDLE it acts as BYPASS (R495). -/
def State.tapDrive (s : State) (n : Nat) : State :=
  let s1 := s.tapSelect 0
  if s1.sch.job = .idle ∧ s1.trace.test = none then { s1 with trace := { s1.trace with tap := n, extest := true } } else s1

/-- BYPASS (R494). -/
def execBypass (s : State) : Host.Outcome State Fault Refusal := .next (s.tapSelect 0)

/-- IDCODE (R494). -/
def execIdcode (s : State) : Host.Outcome State Fault Refusal := .next ((s.tapSelect 1).emit (.scan 0x15A209C7))

/-- SAMPLE_PRELOAD (R494, R495): the pins observed are shifted out, and the boundary register takes what is shifted in. -/
def execSamplePreload (pins drv : Nat) (s : State) : Host.Outcome State Fault Refusal :=
  let s1 := (s.tapSelect 2).emit (.scan pins)
  .next { s1 with trace := { s1.trace with boundary := drv } }

/-- EXTEST (R494, R495). -/
def execExtest (s : State) : Host.Outcome State Fault Refusal := .next (s.tapDrive 3)

/-- EXTEST_PULSE (R494, R495). -/
def execExtestPulse (s : State) : Host.Outcome State Fault Refusal := .next (s.tapDrive 4)

/-- EXTEST_TRAIN (R494, R495). -/
def execExtestTrain (s : State) : Host.Outcome State Fault Refusal := .next (s.tapDrive 5)

/-- TEST_LOGIC_RESET (R494, R495, R500). -/
def execTestLogicReset (s : State) : Host.Outcome State Fault Refusal := .next (s.tapSelect 1)

end Sys2Proof.Machine
end

