-- ==== Sys2Proof/Machine/RegIO.lean ====
section
/-! DEFINITION. Register accesses (R9 to R13, R436, R471 to R479): what a read returns, and what a write of each register does.
A write that names a command of its own calls that command's meaning. -/

namespace Sys2Proof.Machine

open Sys2Proof

/-- The state a command's meaning goes on in. -/
def State.after (s : State) (o : Host.Outcome State Fault Refusal) : State :=
  match o with
  | .next t => t
  | _ => s

/-! Reads. -/

/-- A 32-bit read of TCK_NOW_LO captures the high half for the master's next read of TCK_NOW_HI (R214). -/
def State.readNowLo (s : State) (m : Master) : State × Nat :=
  ({ s with tck := { s.tck with capHi := Store.insert s.tck.capHi (masterCode m) (s.tick / 2 ^ 32) } }, s.tick % 2 ^ 32)

/-- A 32-bit read of TCK_NOW_HI (R214). -/
def State.readNowHi (s : State) (m : Master) : State × Nat :=
  match Store.find s.tck.capHi (masterCode m) with
  | some h => ({ s with tck := { s.tck with capHi := Store.erase s.tck.capHi (masterCode m) } }, h)
  | none => (s, s.tick / 2 ^ 32)

/-- A 32-bit read of a page that answers. -/
def State.read32 (s : State) (m : Master) (page o : Nat) : State × Nat :=
  if page = pgTCK ∧ o = 0x40 then s.readNowLo m
  else if page = pgTCK ∧ o = 0x44 then s.readNowHi m
  else s.regDraw page o

/-- A 64-bit read of a page that answers: both halves at one tick (R13). -/
def State.read64 (s : State) (page o : Nat) : State × Nat :=
  let lo := s.regDraw page o
  let hi := lo.1.regDraw page (o + 4)
  (hi.1, lo.2 + hi.2 * 2 ^ 32)

/-- An access that is not a naturally aligned one of 32 or 64 bits is logged in the HIF page with cause 0x3 (R13, R443). -/
def State.badAccess (s : State) (off : Nat) : State := s.logErr pgHIF (3 * 2 ^ 24) (off % 2 ^ 32) (off / 2 ^ 32)

/-- Whether an access is naturally aligned and of 32 or 64 bits (R13). -/
def aligned (off len : Nat) : Bool := (len == 4 || len == 8) && off % len == 0

/-- A register read (R13, R471, R478). -/
def State.readReg (s : State) (m : Master) (off len : Nat) : State × Nat :=
  if !aligned off len then (s.badAccess off, 0)
  else if !s.implemented (off / 0x1000) then (s.genLog 1 m false off, 0)
  else if !s.answers (off / 0x1000) then (s, 0)
  else if len = 4 then s.read32 m (off / 0x1000) (off % 0x1000)
  else s.read64 (off / 0x1000) (off % 0x1000)

/-! Writes: what a register stores. -/

/-- The stored value with the bits of a mask replaced. -/
def merge (old v mask : Nat) : Nat := old - (old &&& mask) + (v &&& mask)

/-- RW fields of a register as the register table lists them. -/
def rwMask (page o : Nat) : Nat := (regRow (pageType page) o).lk

/-- RW fields stored (R9, R11). -/
def State.storeRw (s : State) (page o v : Nat) : State := s.setReg page o (merge (s.reg page o) v (rwMask page o))

/-- A write of a register with RW LK fields and no other effect; one that has none takes no write. -/
def State.writePlain (s : State) (m : Master) (page o v : Nat) : State :=
  if rwMask page o = 0 then s else s.lk m page o (fun z => z.storeRw page o v)

/-- A write where the bits of `gate` go to 0 in IDLE alone (R90, R115, R140, R158, R180, R244, R334). -/
def State.writeGated (s : State) (m : Master) (page o v gate : Nat) : State :=
  s.lk m page o (fun z =>
    let w := if z.sch.job = .idle then v else v ||| (z.reg page o &&& gate)
    z.storeRw page o w)

/-- A write of a command register: its fields are stored, and GO starts OP. -/
def State.writeCmd (s : State) (m : Master) (page o v : Nat) (go : State → State) : State :=
  s.lk m page o (fun z => if bitAt v 31 then go (z.storeRw page o v) else z.storeRw page o v)

/-! The common block (R476). -/

/-- CTL. -/
def State.writeCtl (s : State) (m : Master) (page v : Nat) : State :=
  s.lk m page 0x08 (fun z =>
    let z1 := if bitAt v 0 then z.releaseLog page else z
    if bitAt v 1 then z1.clearCounters page else z1)

/-- A W1C register: a 1 clears the bit, unless hardware sets it in the same cycle (R9, R12). -/
def State.writeW1c (s : State) (page o v : Nat) : State :=
  s.setReg page o (s.reg page o - (s.reg page o &&& s.clears page o v))

/-- INT_STAT. -/
def State.writeIntStat (s : State) (page v : Nat) : State := (s.writeW1c page 0x10 v).refreshLine (pageType page)

/-- INT_EN. -/
def State.writeIntEn (s : State) (m : Master) (page v : Nat) : State :=
  s.lk m page 0x14 (fun z => (z.storeRw page 0x14 v).refreshLine (pageType page))

/-- INT_SET: each bit written 1 is set as if hardware had recorded the event. -/
def State.writeIntSet (s : State) (m : Master) (page v : Nat) : State :=
  s.lk m page 0x18 (fun z =>
    (setBits 32 ((regRow (pageType page) 0x10).w1c &&& v)).foldl (fun a b => a.setInt page b) z)

/-! Registers of the pages of the device region. -/

/-- SCH_CMD (R212). -/
def State.goSch (s : State) (m : Master) (op : Nat) : State :=
  match op with
  | 0 => s
  | 1 => s.after (execSchLoad m s)
  | 2 => s.after (execSchArm m s)
  | 3 => s.after (execSchDisarm m s)
  | 4 => s.after (execSchUnload m s)
  | 5 => s.after (execSchPark m s)
  | 6 => s.after (execSchResume m s)
  | 7 => s.after (execSchStop m s)
  | _ => s.schRefuse 5

/-- CTX_CMD (R415, R416): a reserved OP is refused as any command out of range is. -/
def State.goCtx (s : State) (m : Master) (op : Nat) : State :=
  match op with
  | 0 => s.ctxGo 0
  | 1 => s.after (execCtxClose m s)
  | 2 => s.after (execCtxPark m s)
  | 3 => s.after (execCtxUnpark m s)
  | 4 => s.after (execCtxSetQuota m s)
  | 5 => s.after (execCtxGrant m s)
  | 6 => s.after (execCtxReturn m s)
  | 7 => s.after (execCtxGrantKey m s)
  | 8 => s.after (execCtxReturnKey m s)
  | _ => s.ctxGo op

/-- HBM_CMD (R304): a reserved OP starts nothing (log 55). -/
def State.goHbm (s : State) (m : Master) (n op : Nat) : State :=
  let k : Fin 8 := Fin.ofNat 8 n
  match op with
  | 1 => s.after (execHbmInit m k s)
  | 2 => s.after (execHbmTrain m k s)
  | 3 => s.after (execHbmRowSoft m k s)
  | 4 => s.after (execHbmRowHard m k s)
  | 5 => s.after (execHbmLane m k s)
  | _ => s

/-- GAL_CMD (R306): a reserved OP starts nothing (log 55). -/
def State.goGal (s : State) (m : Master) (op : Nat) : State :=
  match op with
  | 1 => s.after (execGalInit m s)
  | 2 => s.after (execGalRetire m s)
  | 3 => s.after (execGalAbort m s)
  | 4 => s.after (execGalTrain m s)
  | _ => s

/-- CMB_CMD (R279, R282). -/
def State.goCmb (s : State) (m : Master) (op : Nat) : State :=
  match op with
  | 1 => s.after (execCmbPaired m s)
  | 2 => s.after (execCmbSingleK0 m s)
  | 3 => s.after (execCmbSingleK1 m s)
  | _ => s

/-- VDT_PATCH_CMD (R237, R244): the reserved OP starts nothing (log 55). -/
def State.goPatch (s : State) (m : Master) (op : Nat) : State :=
  match op with
  | 1 => s.after (execPatchApply m s)
  | 2 => s.after (execPatchAbort m s)
  | _ => s

/-- RST_CMD (R470). -/
def State.goRst (s : State) (m : Master) (op : Nat) : State :=
  match op with
  | 0 => s
  | 1 => s.after (execRstCore m s)
  | 2 => s.after (execRstDie m s)
  | 3 => s.after (execRstWarm m s)
  | 4 => s.after (execRstCold m s)
  | 5 => s.after (execRstSpare m s)
  | _ => s.rstRefuse 3 0 0

/-- TST_CMD (R490, R493, R497). A reserved OP is refused with the lowest code that applies. -/
def State.goTst (s : State) (m : Master) (op target : Nat) : State :=
  match op with
  | 0 => s
  | 1 => s.after (execEnterTest m s)
  | 2 => s.after (execLeaveTest m s)
  | 3 => s.after (execLbist m s)
  | 4 => s.after (execMbistDie m s)
  | 5 => s.after (execMbistDevice m s)
  | 6 => s.after (execHbmTest m s)
  | _ => s.tstRefused op target (if s.sch.job ≠ .idle then 1 else if s.trace.test.isSome then 2 else 4)

/-- Registers of the MD page (R467). -/
def State.writeMd (s : State) (m : Master) (o v : Nat) : State :=
  if o = 0x48 then (if bitAt (s.clears pgMD o v) 31 then { s with rst := { s.rst with dump := none, dumpType := 0, dumpRecs := 0 } } else s)
  else s.writePlain m pgMD o v

/-- Registers of the CLK page (R450, R452, R468). -/
def State.writeClk (s : State) (m : Master) (o v : Nat) : State :=
  if o = 0x40 then s.lk m pgCLK o (fun z => (z.storeRw pgCLK o v).selectRef)
  else if o = 0x50 then s.lk m pgCLK o (fun z => (z.storeRw pgCLK o v).emit (.clkObs (z.storeRw pgCLK o v).obsDrive))
  else s.writePlain m pgCLK o v

/-- Registers of the MGT page (R444): setting PLCA_EN starts PLCA on a link that is up. -/
def State.writeMgt (s : State) (m : Master) (o v : Nat) : State :=
  if o = 0x40 then
    s.lk m pgMGT o (fun z =>
      let z1 := z.storeRw pgMGT o v
      if bitAt (z.reg pgMGT o) 0 = bitAt v 0 then z1 else z1.plcaStart)
  else s.writePlain m pgMGT o v

/-- An entry of the MSI-X table written (R420, R421): an unmasked entry sends the message its pending bit holds. -/
def State.writeMsix (s : State) (i w v : Nat) : State :=
  let e : MsixEntry := Store.get {} s.host.msix i
  let e1 : MsixEntry := match w with
    | 0 => { e with lo := v - v % 4 }
    | 1 => { e with hi := v }
    | 2 => { e with data := v }
    | _ => { e with ctl := v % 2 }
  let s1 : State := { s with host := { s.host with msix := Store.set {} s.host.msix i e1 } }
  if e1.ctl = 0 ∧ bitAt s1.host.pba i = true then
    ({ s1 with host := { s1.host with pba := clrBit s1.host.pba i } }).emit (s1.message i)
  else s1

/-- Registers of the HIF page (R420, R429, R443). The mailbox registers take no write from the management port (R442). -/
def State.writeHif (s : State) (m : Master) (o v : Nat) : State :=
  if 0x100 ≤ o ∧ o < 0x200 then (if m = .pcie then s.setReg pgHIF o v else s)
  else if 0x800 ≤ o ∧ o < 0xA00 then s.writeMsix ((o - 0x800) / 16) ((o - 0x800) / 4 % 4) v
  else match o with
  | 0x4C => s.lk m pgHIF o (fun z => { z with host := { z.host with
      vmap := Store.set 0x20 z.host.vmap (z.reg pgHIF 0x48) (v % 2 ^ 6) } })
  | 0x50 => if bitAt (s.clears pgHIF o v) 31 then s.setReg pgHIF o 0 else s
  | 0x60 => s.after (execHifMbxDb m (BitVec.ofNat 16 v) s)
  | 0x64 => s.after (execHifMbxAck m (BitVec.ofNat 16 v) s)
  | _ => s.writePlain m pgHIF o v

/-- Registers of the SEM page (R442, R445). A lease begins with the write that sets it. -/
def State.writeSem (s : State) (m : Master) (o v : Nat) : State :=
  if 0x80 ≤ o ∧ o < 0xC0 then s.lockTurn m (.page (0x4000 + (o - 0x80) / 4) v)
  else match o with
  | 0x40 =>
    -- of two writes in one cycle management's comes first (R477)
    if m == .mgt && s.host.semCfgAt == s.tick + 1 && s.pwr.mainOk then s
    else
    let old := s.reg pgSEM 0x40
    let s0 := if m = .pcie then { s with host := { s.host with semCfgAt := s.tick + 1 } } else s
    let s1 := s0.setReg pgSEM 0x40 v
    let s2 := if v % 2 ^ 16 = old % 2 ^ 16 then s1 else s1.beat .pcie
    if v / 2 ^ 16 = old / 2 ^ 16 then s2 else s2.beat .mgt
  | 0x44 => s.beat m
  | 0x48 => s.force v
  | _ => s

/-- Registers of the VDT page (R215, R244). -/
def State.writeVdt (s : State) (m : Master) (o v : Nat) : State :=
  let p := s.reg pgVDT 0x6C
  let quiet := fun (k : State → State) =>
    s.lk m pgVDT o (fun z => if z.mayStep then ((k z).portsMoved z.inPartMask).refreshMask else z)
  match o with
  | 0x40 => s.writeGated m pgVDT o v 1
  | 0x44 => quiet (fun z => z.storeRw pgVDT o v)
  | 0x48 => quiet (fun z => z.storeRw pgVDT o v)
  | 0x4C => quiet (fun z => z.storeRw pgVDT o v)
  | 0x54 => s.writeCmd m pgVDT o v (fun z => z.goPatch m (fld v 0 2))
  | 0x70 => quiet (fun z =>
      if 20 ≤ p then z
      else { z with vdt := { z.vdt with
        pmap := Store.insert z.vdt.pmap p ⟨fld v 5 2, fld v 0 5⟩, patched := z.vdt.patched.filter (fun l => l != p) } })
  | 0x74 => quiet (fun z => if 20 ≤ p then z else z.setVport p { z.vport p with retire := bitAt v 16, nbr := v % 2 ^ 16 })
  | _ => s.writePlain m pgVDT o v

/-- TRS_PCFG of a physical port (R273, R276, R281): PWR_OFF holds the port in OFF. -/
def State.writePcfg (s : State) (p v : Nat) : State :=
  let x := s.oport p
  let w := bitAt v 2 || (fld v 0 2 == 2 && x.weights)
  let y := { x with reach := fld v 0 2, weightEn := w, pwrOff := bitAt v 3 }
  -- with WEIGHT_EN clear every weight is 0; while a job runs the weights change in its piers alone (R275; log 63)
  let s1 := s.setOport p (if y.weights || s.jobLive then y else y.applyWeights)
  if bitAt v 3 then s1.darkPort p else s1

/-- Registers of a TRS page (R273, R281). -/
def State.writeTrs (s : State) (m : Master) (e o v : Nat) : State :=
  let page := pgTRS e
  let k : Fin 4 := Fin.ofNat 4 e
  match o with
  | 0x48 => s.lk m page o (fun z =>
      match z.trsPort e with
      | none => z
      | some p =>
        let z1 := z.writePcfg p v
        let z2 := if bitAt v 4 then z1.after (execTrsCal m k z1) else z1
        if bitAt v 5 then z2.after (execTrsRelock m k z2) else z2)
  | 0x64 => s.lk m page o (fun z =>
      let ms := z.reg page 0x60
      match z.trsPort e with
      | none => z
      | some p =>
        let x := z.oport p
        let rx := bitAt ms 5
        if bitAt ms 12 || x.st == .up || decide (9 ≤ fld ms 8 4) then z
        else
          let d := fld ms 8 4
          let b := x.bank rx
          z.setOport p (x.setBank rx { b with
            m := Store.insert b.m (ms % 32 * 9 + d) (sext 16 v) }))
  | _ => s.writePlain m page o v

/-- Registers of an HBM page (R287, R304): the sidecar configuration stands in instance 0 alone. -/
def State.writeHbm (s : State) (m : Master) (n o v : Nat) : State :=
  let page := pgHBM n
  match o with
  | 0x44 => if n = 0 then s.writePlain m page o v else s
  | 0x48 => if n = 0 then s.writePlain m page o v else s
  | 0x4C =>
    if n = 0 then s.lk m page o (fun z =>
      let u := z.reg page 0x48
      if 4352 ≤ u then z else { z with mem := { z.mem with granCfg := Store.set 1 z.mem.granCfg u (v % 4) } })
    else s
  | 0x50 => s.writeCmd m page o v (fun z => z.goHbm m n (fld v 0 4))
  | _ => s.writePlain m page o v

/-- Registers of a UPD page (R334): the amax selection stands in instance 0 alone. -/
def State.writeUpd (s : State) (m : Master) (e o v : Nat) : State :=
  match o with
  | 0x40 => s.writeGated m (pgUPD e) o v 3
  | 0x5C => if e = 0 then s.writePlain m (pgUPD e) o v else s
  | _ => s.writePlain m (pgUPD e) o v

/-- PIE_STRESS_CMD takes a write only where a stress test is accepted (R365, R367). -/
def State.stressOpen (s : State) : Bool := s.sch.phase == .test && s.sch.job == .loaded && s.img.strict

/-- Registers of the PIE page (R365 to R367). -/
def State.writePie (s : State) (m : Master) (o v : Nat) : State :=
  match o with
  | 0x64 => s.writeW1c pgPIE o v
  | 0x6C => s.lk m pgPIE o (fun z =>
      let z1 := if z.stressOpen then z.storeRw pgPIE o v else z
      if bitAt v 31 then z1.after (execPieStressGo m z1) else z1)
  | _ => s.writePlain m pgPIE o v

/-- Whether a ring lies on a multiple of 1 MiB in device memory granted to context 0 (R335, R488), its base even where its size is 0. -/
def State.ringOk (s : State) (base mib : Nat) : Bool :=
  base % 2 ^ 20 == 0 && decide (base + mib * 2 ^ 20 ≤ s.mem.devExtent) && decide (base < s.mem.devExtent) &&
    (upTo (ceilDiv (base % 2 ^ 21 + max mib 1 * 2 ^ 20) (2 ^ 21))).all (fun i =>
      match Store.find s.ctx.devPages (base / 2 ^ 21 + i) with
      | some g => g.ctx == 0
      | none => false)

/-- EN of the Seep after a write of its configuration: without a proper ring it does not take effect (R335). -/
def State.seepEnable (s : State) : State :=
  let cfg := s.reg pgSEEP 0x40
  if !bitAt cfg 0 then { s with train := { s.train with seepEn := false } }
  else if s.ringOk (s.reg64 pgSEEP 0x48) (s.reg pgSEEP 0x44) then { s with train := { s.train with seepEn := true } }
  else
    (({ s with train := { s.train with seepEn := false } }).setReg pgSEEP 0x40 (clrBit cfg 0)).logErr pgSEEP (5 * 2 ^ 24) 0 0

/-- Registers of the SEEP page (R335). -/
def State.writeSeep (s : State) (m : Master) (o v : Nat) : State :=
  if 0x40 ≤ o ∧ o ≤ 0x4C then
    s.lk m pgSEEP o (fun z =>
      if z.train.seepFill = 0 ∧ (z.sch.job = .idle ∨ z.sch.job = .loaded ∨ z.sch.job = .parked) then
        (z.storeRw pgSEEP o v).seepEnable
      else z)
  else s.writePlain m pgSEEP o v

/-- Registers of the TRC page (R488, R496): TRC_CFG, TRC_RING_MIB and TRC_RING take writes only while EN is 0. -/
def State.writeTrc (s : State) (m : Master) (o v : Nat) : State :=
  if o = 0x40 ∨ (0x4C ≤ o ∧ o ≤ 0x54) then
    s.lk m pgTRC o (fun z =>
      if bitAt (z.reg pgTRC 0x40) 0 then z
      else
        let z1 := z.storeRw pgTRC o v
        if o = 0x40 ∧ bitAt v 0 = true ∧ z1.ringOk z1.ringBase (z1.reg pgTRC 0x4C) = false then
          (z1.setReg pgTRC 0x40 (clrBit (z1.reg pgTRC 0x40) 0)).logErr pgTRC (2 * 2 ^ 24) 0 0
        else z1)
  else if o = 0x70 then (if bitAt v 0 then s.after (execTrcSnap m s) else s.lk m pgTRC o id)
  else s.writePlain m pgTRC o v

/-- Registers of the device region beside the common block. -/
def State.writeDevice (s : State) (m : Master) (page o v : Nat) : State :=
  match pageType page with
  | 0x01 => if o = 0xC0 ∧ bitAt v 31 = true then s.lockTurn m (.bulk v) else s
  | 0x02 => s.writeMd m o v
  | 0x03 => s.writeClk m o v
  | 0x05 => if o = 0x40 then s.writeCmd m page o v (fun z => z.goRst m (fld v 0 3)) else s.writePlain m page o v
  | 0x06 => s.writeHif m o v
  | 0x07 => s.writeMgt m o v
  | 0x0D => if o = 0x40 then s.writeCmd m page o v (fun z => z.goSch m (fld v 0 4)) else s.writePlain m page o v
  | 0x0E => if o = 0x48 then s.after (execTckReparent m (BitVec.ofNat 32 v) s) else s.writePlain m page o v
  | 0x0F => s.writeVdt m o v
  | 0x11 => s.writeTrs m (pageInstance page) o v
  | 0x12 => if o = 0x44 then s.writeCmd m page o v (fun z => z.goCmb m (fld v 0 2)) else s.writePlain m page o v
  | 0x13 => s.writeHbm m (pageInstance page) o v
  | 0x15 => if o = 0x40 then s.writeCmd m page o v (fun z => z.goGal m (fld v 0 4)) else s.writePlain m page o v
  | 0x16 => s.writeUpd m (pageInstance page) o v
  | 0x17 => s.writePie m o v
  | 0x19 => if o = 0x40 then s.writeCmd m page o v (fun z => z.goCtx m (fld v 0 4)) else s.writePlain m page o v
  | 0x1A => s.writeSeep m o v
  | 0x1B => s.writeSem m o v
  | 0x1C => s.writeTrc m o v
  | 0x1D => if o = 0x40 then s.writeCmd m page o v (fun z => z.goTst m (fld v 0 4) (fld v 8 4)) else s.writePlain m page o v
  | _ => s.writePlain m page o v

/-- Registers of a core's pages beside the common block (R90, R115, R140, R158, R180). -/
def State.writeCorePage (s : State) (m : Master) (page o v : Nat) : State :=
  if o = 0x40 then s.writeGated m page o v 3 else s.writePlain m page o v

/-- A 32-bit write of a page that takes it. -/
def State.write32 (s : State) (m : Master) (page o v : Nat) : State :=
  match o with
  | 0x08 => s.writeCtl m page v
  | 0x10 => s.writeIntStat page v
  | 0x14 => s.writeIntEn m page v
  | 0x18 => s.writeIntSet m page v
  | 0x1C => s.lockTurn m (.page page v)
  | _ => if page < 0x80 then s.writeDevice m page o v else s.writeCorePage m page o v

/-- A register write (R13, R471, R478): a 64-bit one is that of the low half and then the high half (log 55). -/
def State.writeReg (s : State) (m : Master) (off len v : Nat) : State :=
  let page := off / 0x1000
  if !aligned off len then s.badAccess off
  else if !s.implemented page then s.genLog 1 m true off
  else if !s.takes page then s
  else if len = 4 then s.write32 m page (off % 0x1000) (v % 2 ^ 32)
  else (s.write32 m page (off % 0x1000) (v % 2 ^ 32)).write32 m page (off % 0x1000 + 4) (v / 2 ^ 32 % 2 ^ 32)

/-! The commands. -/

/-- REGISTER_READ (R13, R214, R471): the data go out to the master. -/
def execRegisterRead (m : Master) (off len : Nat) (s : State) : Host.Outcome State Fault Refusal :=
  .next (if !s.reaches m then s
    else
      let r := s.readReg m off len
      r.1.emit (.readData (masterCode m) off r.2))

/-- REGISTER_WRITE (R9, R13). -/
def execRegisterWrite (m : Master) (off len v : Nat) (s : State) : Host.Outcome State Fault Refusal :=
  .next (if s.reaches m then s.writeReg m off len v else s)

/-- CNT_CLR (R89, R476). -/
def execCntClr (m : Master) (page : Nat) (s : State) : Host.Outcome State Fault Refusal :=
  .next (if s.reaches m then s.writeReg m (regAt page 0x08) 4 2 else s)

/-- LOG_REL (R89, R476). -/
def execLogRel (m : Master) (page : Nat) (s : State) : Host.Outcome State Fault Refusal :=
  .next (if s.reaches m then s.writeReg m (regAt page 0x08) 4 1 else s)

/-- CORE_LOG_REL (R140): the head record leaves the fault queue. -/
def execCoreLogRel (m : Master) (c : Fin 256) (s : State) : Host.Outcome State Fault Refusal :=
  .next (if s.reaches m then s.writeReg m (regAt (pgCORE c) 0x08) 4 1 else s)

/-- INT_SET (R476). -/
def execIntSet (m : Master) (page : Nat) (v : Word) (s : State) : Host.Outcome State Fault Refusal :=
  .next (if s.reaches m then s.writeReg m (regAt page 0x18) 4 v.toNat else s)

/-! READ and WRITE frames (R436). -/

/-- Whether the words a frame names are naturally aligned and in the window (log 53). -/
def frPlaced (b : List Byte) : Bool :=
  frAddr b % 4 == 0 && decide (frWords b ≤ 255) && decide (frAddr b + 4 * frWords b ≤ 0x4000000)

/-- The registers of a READ frame, in ascending address. -/
def runReads : Nat → Nat → State → State × List Nat
  | 0, _, s => (s, [])
  | n + 1, a, s =>
    let r := s.readReg .mgt a 4
    let t := runReads n (a + 4) r.1
    (t.1, r.2 :: t.2)

/-- READ executed. -/
def runMgtRead (s : State) (f : Frame) : Reply :=
  if !frPlaced f.bytes then s.malformed f
  else
    let r := runReads (frWords f.bytes) (frAddr f.bytes) s
    (r.1, 0, r.2)

/-- WRITE executed. -/
def runMgtWrite (s : State) (f : Frame) : Reply :=
  if !frPlaced f.bytes then s.malformed f
  else ((upTo (frWords f.bytes)).foldl (fun a i => a.writeReg .mgt (frAddr f.bytes + 4 * i) 4 (frWord f.bytes i)) s, 0, [])

/-- MGT_READ (R436). -/
def execMgtRead (f : Frame) (s : State) : Host.Outcome State Fault Refusal :=
  .next (if frType f.bytes = 1 then s.takeFrame f (fun z => z.answerFrame f runMgtRead) else s)

/-- MGT_WRITE (R436). -/
def execMgtWrite (f : Frame) (s : State) : Host.Outcome State Fault Refusal :=
  .next (if frType f.bytes = 2 then s.takeFrame f (fun z => z.answerFrame f runMgtWrite) else s)

end Sys2Proof.Machine
end

