-- ==== Sys2Proof/Machine/Threads.lean ====
section
/-! DEFINITION. The instructions of a thread (R122 to R134, R409): one meaning for each command of the control core. -/

namespace Sys2Proof.Machine

open Sys2Proof

/-- ALU: G[RD] := G[RA] op G[RB], with the flags of the operation (R124). -/
def execAlu (c : Fin 256) (t : Fin 16) (s : State) : Host.Outcome State Fault Refusal :=
  .next (s.instr c t 0x01 (fun z x w =>
    match aluOp (insFn w) (x.greg (insRa w)) (x.greg (insRb w)) x.a.fl with
    | some (some r, f) => z.done c t ((x.setGreg (insRd w) r).setFlags f)
    | some (none, f) => z.done c t (x.setFlags f)
    | none => z.insFault c t .sched 4 0))

/-- ALUI: G[RD] := G[RA] op IMM12, with the flags of the operation (R124). -/
def execAlui (c : Fin 256) (t : Fin 16) (s : State) : Host.Outcome State Fault Refusal :=
  .next (s.instr c t 0x02 (fun z x w =>
    match aluOp (insRb w) (x.greg (insRa w)) (insImm (insRb w) w) x.a.fl with
    | some (some r, f) => z.done c t ((x.setGreg (insRd w) r).setFlags f)
    | some (none, f) => z.done c t (x.setFlags f)
    | none => z.insFault c t .sched 4 0))

/-- LUI: G[RD] := IMM20 << 12 (R123). -/
def execLui (c : Fin 256) (t : Fin 16) (s : State) : Host.Outcome State Fault Refusal :=
  .next (s.instr c t 0x03 (fun z x w =>
    z.done c t (x.setGreg (insRd w) (BitVec.ofNat 32 (fld w 0 20 * 4096)))))

/-- LDW: G[RD] := the word at G[RA] + OFF (R123, R135). -/
def execLdw (c : Fin 256) (t : Fin 16) (s : State) : Host.Outcome State Fault Refusal :=
  .next (s.instr c t 0x04 (fun z x w =>
    let a := addr32 (x.gr (insRa w)) (insOff17 w)
    z.scalarAccess c t a false (fun z1 =>
      (z1.cmTouch c a 4 (x.reader t a)).done c t (x.setGreg (insRd w) (BitVec.ofNat 32 (z1.cmWord c a))))))

/-- STW: the word at G[RA] + OFF := G[RS] (R123, R128, R135). -/
def execStw (c : Fin 256) (t : Fin 16) (s : State) : Host.Outcome State Fault Refusal :=
  .next (s.instr c t 0x05 (fun z x w =>
    let a := addr32 (x.gr (insRa w)) (insOff17 w)
    z.scalarAccess c t a true (fun z1 =>
      (z1.cmPutWord c a (x.gr (insRd w))).done c t x)))

/-- BR: a branch to PC + 4 × OFF when COND holds (R123, R125). -/
def execBr (c : Fin 256) (t : Fin 16) (s : State) : Host.Outcome State Fault Refusal :=
  .next (s.instr c t 0x06 (fun z x w =>
    if condHolds (fld w 23 4) x.a.fl then z.jump c t (relTarget x.a.pc (insOff22 w)) x else z.done c t x))

/-- BSUM: waits for the thread's chains, then branches on a bit of SUM0 (R133). -/
def execBsum (c : Fin 256) (t : Fin 16) (s : State) : Host.Outcome State Fault Refusal :=
  .next (s.instr c t 0x07 (fun z x w => z.branchSum c t x w))

/-- JAL: G[RD] := PC + 4; a jump to PC + 4 × OFF (R123). -/
def execJal (c : Fin 256) (t : Fin 16) (s : State) : Host.Outcome State Fault Refusal :=
  .next (s.instr c t 0x08 (fun z x w =>
    z.jump c t (relTarget x.a.pc (insOff22 w)) (x.setGreg (insRd w) (BitVec.ofNat 32 (x.a.pc + 4)))))

/-- JALR: a jump to G[RA] + OFF; G[RD] := PC + 4 (R123). -/
def execJalr (c : Fin 256) (t : Fin 16) (s : State) : Host.Outcome State Fault Refusal :=
  .next (s.instr c t 0x09 (fun z x w =>
    z.jump c t (addr32 (x.gr (insRa w)) (insOff17 w)) (x.setGreg (insRd w) (BitVec.ofNat 32 (x.a.pc + 4)))))

/-- MFS: waits for the thread's chains, then copies half of a summary register (R133). -/
def execMfs (c : Fin 256) (t : Fin 16) (s : State) : Host.Outcome State Fault Refusal :=
  .next (s.instr c t 0x0A (fun z x w => z.moveSum c t x w))

/-- MFSYS: G[RD] := the system value SEL selects; SEL 0x5 captures the high half of the tick (R126). -/
def execMfsys (c : Fin 256) (t : Fin 16) (s : State) : Host.Outcome State Fault Refusal :=
  .next (s.instr c t 0x0B (fun z x w =>
    let v := BitVec.ofNat 32 (z.sysValue c t (fld w 0 4))
    let y := x.setGreg (insRd w) v
    z.done c t (if fld w 0 4 = 5 then { y with tickHi := z.tick / 2 ^ 32 % 2 ^ 32 } else y)))

/-- GSET: guard GD takes the value of COND (R129). -/
def execGset (c : Fin 256) (t : Fin 16) (s : State) : Host.Outcome State Fault Refusal :=
  .next (s.instr c t 0x0C (fun z x w =>
    z.done c t (x.setGuard (fld w 24 3) (guardOf (condHolds (fld w 20 4) x.a.fl)))))

/-- GBIND: guard GD waits on a bit of SUM0 of the thread's last chain, or takes its value at once (R129). -/
def execGbind (c : Fin 256) (t : Fin 16) (s : State) : Host.Outcome State Fault Refusal :=
  .next (s.instr c t 0x0D (fun z x w =>
    match x.lastIfs with
    | none => z.insFault c t .sched 6 0
    | some ch =>
      let g : Guard := match x.lastSum with
        | some v => guardOf (bindValue v (fld w 20 3) (bitAt w 23))
        | none => .pending ch (fld w 20 3) (bitAt w 23)
      z.done c t (x.setGuard (fld w 24 3) g)))

/-- KEY ARRIVE: VALUE + 1; G[RD] := PHASE before (R409), once the result has returned (R410). -/
def execKeyArrive (c : Fin 256) (t : Fin 16) (s : State) : Host.Outcome State Fault Refusal :=
  .next (s.keyInstr c t 0)

/-- KEY WAIT: until the PHASE changes or VALUE reaches the operand; G[RD] := VALUE (R409). -/
def execKeyWait (c : Fin 256) (t : Fin 16) (s : State) : Host.Outcome State Fault Refusal :=
  .next (s.keyInstr c t 1)

/-- KEY ARRIVE_WAIT: an arrival, then a wait; G[RD] := PHASE before (R409). -/
def execKeyArriveWait (c : Fin 256) (t : Fin 16) (s : State) : Host.Outcome State Fault Refusal :=
  .next (s.keyInstr c t 2)

/-- KEY ADD: VALUE + a, saturating; G[RD] := VALUE before (R409). -/
def execKeyAdd (c : Fin 256) (t : Fin 16) (s : State) : Host.Outcome State Fault Refusal :=
  .next (s.keyInstr c t 3)

/-- KEY READ: G[RD] := VALUE or PHASE (R409). -/
def execKeyRead (c : Fin 256) (t : Fin 16) (s : State) : Host.Outcome State Fault Refusal :=
  .next (s.keyInstr c t 4)

/-- KEY ACQUIRE: waits for the units and takes them; G[RD] := VALUE after (R409). -/
def execKeyAcquire (c : Fin 256) (t : Fin 16) (s : State) : Host.Outcome State Fault Refusal :=
  .next (s.keyInstr c t 5)

/-- KEY RELEASE: returns units; G[RD] := VALUE after (R409). -/
def execKeyRelease (c : Fin 256) (t : Fin 16) (s : State) : Host.Outcome State Fault Refusal :=
  .next (s.keyInstr c t 6)

/-- WAITT: waits until the span tick reaches G[RA] + IMM16 (R128). -/
def execWaitt (c : Fin 256) (t : Fin 16) (s : State) : Host.Outcome State Fault Refusal :=
  .next (s.instr c t 0x0F (fun z x w => z.waitTick c t x w))

/-- IMX: issues an array command (R130). -/
def execImx (c : Fin 256) (t : Fin 16) (s : State) : Host.Outcome State Fault Refusal :=
  .next (s.instr c t 0x10 (fun z x w => z.issueArray c t x w))

/-- IFS: issues a Flowstone chain (R130). -/
def execIfs (c : Fin 256) (t : Fin 16) (s : State) : Host.Outcome State Fault Refusal :=
  .next (s.instr c t 0x11 (fun z x w => z.issueChain c t x w))

/-- IDMA: hands a descriptor to the DMA engine (R128). -/
def execIdma (c : Fin 256) (t : Fin 16) (s : State) : Host.Outcome State Fault Refusal :=
  .next (s.instr c t 0x12 (fun z x w => z.issueDesc c t x w))

/-- ENDS: the thread is DONE and continues after ENDS in its next active span (R119). -/
def execEnds (c : Fin 256) (t : Fin 16) (s : State) : Host.Outcome State Fault Refusal :=
  .next (s.instr c t 0x13 (fun z x _ =>
    z.finish c t (({ x with a := { x.a with st := .done } }).next)))

/-- NOP: no effect but the PC (R122). -/
def execNop (c : Fin 256) (t : Fin 16) (s : State) : Host.Outcome State Fault Refusal :=
  .next (s.instr c t 0x14 (fun z x _ => z.done c t x))

/-- A thread in WAIT tests its condition again at an issue opportunity (R120), no earlier than its core's first core cycle (R202). -/
def execWaitRetest (c : Fin 256) (t : Fin 16) (s : State) : Host.Outcome State Fault Refusal :=
  .next ((s.awake c).retest c t)

end Sys2Proof.Machine
end

