-- ==== Sys2Proof/Machine/Dispatch.lean ====
section
/-! DEFINITION. The meaning of every command: one arm per constructor, each one direct call. -/

namespace Sys2Proof.Machine

/-- What a command does to everything but the queue. -/
def exec (i : Instr) (s : State) : Host.Outcome State Fault Refusal :=
  match i with
  | .alu c t => Sys2Proof.Machine.execAlu c t s
  | .alui c t => Sys2Proof.Machine.execAlui c t s
  | .lui c t => Sys2Proof.Machine.execLui c t s
  | .ldw c t => Sys2Proof.Machine.execLdw c t s
  | .stw c t => Sys2Proof.Machine.execStw c t s
  | .br c t => Sys2Proof.Machine.execBr c t s
  | .bsum c t => Sys2Proof.Machine.execBsum c t s
  | .jal c t => Sys2Proof.Machine.execJal c t s
  | .jalr c t => Sys2Proof.Machine.execJalr c t s
  | .mfs c t => Sys2Proof.Machine.execMfs c t s
  | .mfsys c t => Sys2Proof.Machine.execMfsys c t s
  | .gset c t => Sys2Proof.Machine.execGset c t s
  | .gbind c t => Sys2Proof.Machine.execGbind c t s
  | .keyArrive c t => Sys2Proof.Machine.execKeyArrive c t s
  | .keyWait c t => Sys2Proof.Machine.execKeyWait c t s
  | .keyArriveWait c t => Sys2Proof.Machine.execKeyArriveWait c t s
  | .keyAdd c t => Sys2Proof.Machine.execKeyAdd c t s
  | .keyRead c t => Sys2Proof.Machine.execKeyRead c t s
  | .keyAcquire c t => Sys2Proof.Machine.execKeyAcquire c t s
  | .keyRelease c t => Sys2Proof.Machine.execKeyRelease c t s
  | .waitt c t => Sys2Proof.Machine.execWaitt c t s
  | .imx c t => Sys2Proof.Machine.execImx c t s
  | .ifs c t => Sys2Proof.Machine.execIfs c t s
  | .idma c t => Sys2Proof.Machine.execIdma c t s
  | .ends c t => Sys2Proof.Machine.execEnds c t s
  | .nop c t => Sys2Proof.Machine.execNop c t s
  | .waitRetest c t => Sys2Proof.Machine.execWaitRetest c t s
  | .load c => Sys2Proof.Machine.execLoad c s
  | .stream c => Sys2Proof.Machine.execStream c s
  | .claim c => Sys2Proof.Machine.execClaim c s
  | .release c => Sys2Proof.Machine.execRelease c s
  | .loadDone c => Sys2Proof.Machine.execLoadDone c s
  | .streamDone c => Sys2Proof.Machine.execStreamDone c s
  | .writePoint c u => Sys2Proof.Machine.execWritePoint c u s
  | .run c => Sys2Proof.Machine.execRun c s
  | .ldtab c => Sys2Proof.Machine.execLdtab c s
  | .ldtabDone c => Sys2Proof.Machine.execLdtabDone c s
  | .chainDone c => Sys2Proof.Machine.execChainDone c s
  | .copy c st => Sys2Proof.Machine.execCopy c st s
  | .gather c st => Sys2Proof.Machine.execGather c st s
  | .scatter c st => Sys2Proof.Machine.execScatter c st s
  | .ingest c st => Sys2Proof.Machine.execIngest c st s
  | .send c st => Sys2Proof.Machine.execSend c st s
  | .transpose c st => Sys2Proof.Machine.execTranspose c st s
  | .walk c st => Sys2Proof.Machine.execWalk c st s
  | .descriptorDone c st => Sys2Proof.Machine.execDescriptorDone c st s
  | .meshDelivery c st => Sys2Proof.Machine.execMeshDelivery c st s
  | .walkStep c st => Sys2Proof.Machine.execWalkStep c st s
  | .emitCommand c st => Sys2Proof.Machine.execEmitCommand c st s
  | .walkDone c st => Sys2Proof.Machine.execWalkDone c st s
  | .schLoad m => Sys2Proof.Machine.execSchLoad m s
  | .imageLoadDone => Sys2Proof.Machine.execImageLoadDone s
  | .schArm m => Sys2Proof.Machine.execSchArm m s
  | .schDisarm m => Sys2Proof.Machine.execSchDisarm m s
  | .schUnload m => Sys2Proof.Machine.execSchUnload m s
  | .schPark m => Sys2Proof.Machine.execSchPark m s
  | .schResume m => Sys2Proof.Machine.execSchResume m s
  | .schStop m => Sys2Proof.Machine.execSchStop m s
  | .startTick => Sys2Proof.Machine.execStartTick s
  | .pier0Seal reports => Sys2Proof.Machine.execPier0Seal reports s
  | .spanStart => Sys2Proof.Machine.execSpanStart s
  | .spanEnd => Sys2Proof.Machine.execSpanEnd s
  | .pierSeal => Sys2Proof.Machine.execPierSeal s
  | .gate c => Sys2Proof.Machine.execGate c s
  | .wake c => Sys2Proof.Machine.execWake c s
  | .refreshWindow n g => Sys2Proof.Machine.execRefreshWindow n g s
  | .vfChange inBand => Sys2Proof.Machine.execVfChange inBand s
  | .tickExchange t1 t2 t3 t4 retx => Sys2Proof.Machine.execTickExchange t1 t2 t3 t4 retx s
  | .tickHoldover => Sys2Proof.Machine.execTickHoldover s
  | .tickLost => Sys2Proof.Machine.execTickLost s
  | .tckReparent m v => Sys2Proof.Machine.execTckReparent m v s
  | .flitReceive p head body => Sys2Proof.Machine.execFlitReceive p head body s
  | .slotTransmit p => Sys2Proof.Machine.execSlotTransmit p s
  | .reorderTimeout src vc => Sys2Proof.Machine.execReorderTimeout src vc s
  | .alarmReceive p w => Sys2Proof.Machine.execAlarmReceive p w s
  | .rewindRaise => Sys2Proof.Machine.execRewindRaise s
  | .restoreDone ok => Sys2Proof.Machine.execRestoreDone ok s
  | .rewindTick => Sys2Proof.Machine.execRewindTick s
  | .patchApply m => Sys2Proof.Machine.execPatchApply m s
  | .patchChecked => Sys2Proof.Machine.execPatchChecked s
  | .patchAbort m => Sys2Proof.Machine.execPatchAbort m s
  | .halfSlotReceive p h => Sys2Proof.Machine.execHalfSlotReceive p h s
  | .halfSlotRetransmit p => Sys2Proof.Machine.execHalfSlotRetransmit p s
  | .portLeaveOff p => Sys2Proof.Machine.execPortLeaveOff p s
  | .ringsLocked p rx found => Sys2Proof.Machine.execRingsLocked p rx found s
  | .trainDone p => Sys2Proof.Machine.execTrainDone p s
  | .portFailTimeout p => Sys2Proof.Machine.execPortFailTimeout p s
  | .ringLoopUpdate p rx u => Sys2Proof.Machine.execRingLoopUpdate p rx u s
  | .ringLockLost p rx ring => Sys2Proof.Machine.execRingLockLost p rx ring s
  | .trsRelock m e => Sys2Proof.Machine.execTrsRelock m e s
  | .trsCal m e => Sys2Proof.Machine.execTrsCal m e s
  | .calDone p ktx krx => Sys2Proof.Machine.execCalDone p ktx krx s
  | .matrixParity p rx inK => Sys2Proof.Machine.execMatrixParity p rx inK s
  | .matrixRecomputed p rx => Sys2Proof.Machine.execMatrixRecomputed p rx s
  | .combLocked k => Sys2Proof.Machine.execCombLocked k s
  | .combLoss k failed => Sys2Proof.Machine.execCombLoss k failed s
  | .failoverDone => Sys2Proof.Machine.execFailoverDone s
  | .failoverTimeout => Sys2Proof.Machine.execFailoverTimeout s
  | .cmbPaired m => Sys2Proof.Machine.execCmbPaired m s
  | .cmbSingleK0 m => Sys2Proof.Machine.execCmbSingleK0 m s
  | .cmbSingleK1 m => Sys2Proof.Machine.execCmbSingleK1 m s
  | .hbmInit m n => Sys2Proof.Machine.execHbmInit m n s
  | .hbmTrain m n => Sys2Proof.Machine.execHbmTrain m n s
  | .hbmRowSoft m n => Sys2Proof.Machine.execHbmRowSoft m n s
  | .hbmRowHard m n => Sys2Proof.Machine.execHbmRowHard m n s
  | .hbmLane m n => Sys2Proof.Machine.execHbmLane m n s
  | .hbmCmdDone n ok => Sys2Proof.Machine.execHbmCmdDone n ok s
  | .sumpClose c line => Sys2Proof.Machine.execSumpClose c line s
  | .galInit m => Sys2Proof.Machine.execGalInit m s
  | .galRetire m => Sys2Proof.Machine.execGalRetire m s
  | .galAbort m => Sys2Proof.Machine.execGalAbort m s
  | .galTrain m => Sys2Proof.Machine.execGalTrain m s
  | .migrationDone => Sys2Proof.Machine.execMigrationDone s
  | .galRefresh ch => Sys2Proof.Machine.execGalRefresh ch s
  | .channelFailed ch => Sys2Proof.Machine.execChannelFailed ch s
  | .bar2Write off data => Sys2Proof.Machine.execBar2Write off data s
  | .bar2Read off len => Sys2Proof.Machine.execBar2Read off len s
  | .hostWriteDrain => Sys2Proof.Machine.execHostWriteDrain s
  | .registerWrite m off len v => Sys2Proof.Machine.execRegisterWrite m off len v s
  | .sweepStart g => Sys2Proof.Machine.execSweepStart g s
  | .blockStart e => Sys2Proof.Machine.execBlockStart e s
  | .updLd e late => Sys2Proof.Machine.execUpdLd e late s
  | .updSt e => Sys2Proof.Machine.execUpdSt e s
  | .updAdd e => Sys2Proof.Machine.execUpdAdd e s
  | .updSub e => Sys2Proof.Machine.execUpdSub e s
  | .updMul e => Sys2Proof.Machine.execUpdMul e s
  | .updMulk e => Sys2Proof.Machine.execUpdMulk e s
  | .updAddk e => Sys2Proof.Machine.execUpdAddk e s
  | .updShr e => Sys2Proof.Machine.execUpdShr e s
  | .updShl e => Sys2Proof.Machine.execUpdShl e s
  | .updMin e => Sys2Proof.Machine.execUpdMin e s
  | .updMax e => Sys2Proof.Machine.execUpdMax e s
  | .updAbs e => Sys2Proof.Machine.execUpdAbs e s
  | .updNeg e => Sys2Proof.Machine.execUpdNeg e s
  | .updCmpgt e => Sys2Proof.Machine.execUpdCmpgt e s
  | .updSel e => Sys2Proof.Machine.execUpdSel e s
  | .updLut e => Sys2Proof.Machine.execUpdLut e s
  | .updClip e => Sys2Proof.Machine.execUpdClip e s
  | .updEnd e => Sys2Proof.Machine.execUpdEnd e s
  | .blockCommit e => Sys2Proof.Machine.execBlockCommit e s
  | .journalReplay e => Sys2Proof.Machine.execJournalReplay e s
  | .seepSend => Sys2Proof.Machine.execSeepSend s
  | .seepAck n => Sys2Proof.Machine.execSeepAck n s
  | .seepResend => Sys2Proof.Machine.execSeepResend s
  | .seepGap => Sys2Proof.Machine.execSeepGap s
  | .skipRound rx => Sys2Proof.Machine.execSkipRound rx s
  | .closeRound rx => Sys2Proof.Machine.execCloseRound rx s
  | .replicaDigestSend peer => Sys2Proof.Machine.execReplicaDigestSend peer s
  | .voteWindows peer => Sys2Proof.Machine.execVoteWindows peer s
  | .voteBlocks peer => Sys2Proof.Machine.execVoteBlocks peer s
  | .voteWrite copies => Sys2Proof.Machine.execVoteWrite copies s
  | .pieStressGo m => Sys2Proof.Machine.execPieStressGo m s
  | .buddySend => Sys2Proof.Machine.execBuddySend s
  | .stateSend => Sys2Proof.Machine.execStateSend s
  | .stateRecv => Sys2Proof.Machine.execStateRecv s
  | .stateAck n => Sys2Proof.Machine.execStateAck n s
  | .stateResend => Sys2Proof.Machine.execStateResend s
  | .adopt => Sys2Proof.Machine.execAdopt s
  | .selfRestore ok => Sys2Proof.Machine.execSelfRestore ok s
  | .probation => Sys2Proof.Machine.execProbation s
  | .stateStatus => Sys2Proof.Machine.execStateStatus s
  | .neighbourDark nbr => Sys2Proof.Machine.execNeighbourDark nbr s
  | .neighbourWithdraw nbr => Sys2Proof.Machine.execNeighbourWithdraw nbr s
  | .ctxClose m => Sys2Proof.Machine.execCtxClose m s
  | .ctxPark m => Sys2Proof.Machine.execCtxPark m s
  | .ctxUnpark m => Sys2Proof.Machine.execCtxUnpark m s
  | .ctxSetQuota m => Sys2Proof.Machine.execCtxSetQuota m s
  | .ctxGrant m => Sys2Proof.Machine.execCtxGrant m s
  | .ctxReturn m => Sys2Proof.Machine.execCtxReturn m s
  | .ctxGrantKey m => Sys2Proof.Machine.execCtxGrantKey m s
  | .ctxReturnKey m => Sys2Proof.Machine.execCtxReturnKey m s
  | .zeroPage => Sys2Proof.Machine.execZeroPage s
  | .quarantineEnd id => Sys2Proof.Machine.execQuarantineEnd id s
  | .hifMbxDb m seq => Sys2Proof.Machine.execHifMbxDb m seq s
  | .hifMbxAck m seq => Sys2Proof.Machine.execHifMbxAck m seq s
  | .mbxDone => Sys2Proof.Machine.execMbxDone s
  | .shape => Sys2Proof.Machine.execShape s
  | .echo => Sys2Proof.Machine.execEcho s
  | .keyRotate => Sys2Proof.Machine.execKeyRotate s
  | .mgtRead f => Sys2Proof.Machine.execMgtRead f s
  | .mgtWrite f => Sys2Proof.Machine.execMgtWrite f s
  | .mbx f => Sys2Proof.Machine.execMbx f s
  | .mbxAck f => Sys2Proof.Machine.execMbxAck f s
  | .mbxPoll f => Sys2Proof.Machine.execMbxPoll f s
  | .notify b => Sys2Proof.Machine.execNotify b s
  | .lockClaim m page => Sys2Proof.Machine.execLockClaim m page s
  | .lockRelease m page => Sys2Proof.Machine.execLockRelease m page s
  | .genBulkClaim m v => Sys2Proof.Machine.execGenBulkClaim m v s
  | .genBulkRelease m v => Sys2Proof.Machine.execGenBulkRelease m v s
  | .semHb m => Sys2Proof.Machine.execSemHb m s
  | .semForce m v => Sys2Proof.Machine.execSemForce m v s
  | .leaseExpiry m => Sys2Proof.Machine.execLeaseExpiry m s
  | .d3hotEntry => Sys2Proof.Machine.execD3hotEntry s
  | .d0Resume => Sys2Proof.Machine.execD0Resume s
  | .pmeRepeat => Sys2Proof.Machine.execPmeRepeat s
  | .conventionalReset => Sys2Proof.Machine.execConventionalReset s
  | .hotReset => Sys2Proof.Machine.execHotReset s
  | .functionLevelReset => Sys2Proof.Machine.execFunctionLevelReset s
  | .mrst => Sys2Proof.Machine.execMrst s
  | .auxPowerUp => Sys2Proof.Machine.execAuxPowerUp s
  | .auxPowerLoss => Sys2Proof.Machine.execAuxPowerLoss s
  | .mainPowerUp => Sys2Proof.Machine.execMainPowerUp s
  | .mainPowerLoss => Sys2Proof.Machine.execMainPowerLoss s
  | .rstCore m => Sys2Proof.Machine.execRstCore m s
  | .rstDie m => Sys2Proof.Machine.execRstDie m s
  | .rstWarm m => Sys2Proof.Machine.execRstWarm m s
  | .rstCold m => Sys2Proof.Machine.execRstCold m s
  | .rstSpare m => Sys2Proof.Machine.execRstSpare m s
  | .warmRecoveryDone => Sys2Proof.Machine.execWarmRecoveryDone s
  | .resetEscalation => Sys2Proof.Machine.execResetEscalation s
  | .progressExpiry c t => Sys2Proof.Machine.execProgressExpiry c t s
  | .coreWatchdog c => Sys2Proof.Machine.execCoreWatchdog c s
  | .partitionWatchdog => Sys2Proof.Machine.execPartitionWatchdog s
  | .firmwareWatchdog => Sys2Proof.Machine.execFirmwareWatchdog s
  | .qualWindow refx xrc refrc => Sys2Proof.Machine.execQualWindow refx xrc refrc s
  | .pllUnlock pll => Sys2Proof.Machine.execPllUnlock pll s
  | .powerAlert watts tmax => Sys2Proof.Machine.execPowerAlert watts tmax s
  | .governorStep => Sys2Proof.Machine.execGovernorStep s
  | .trip watts tmax => Sys2Proof.Machine.execTrip watts tmax s
  | .railFault r mv => Sys2Proof.Machine.execRailFault r mv s
  | .traceDrain => Sys2Proof.Machine.execTraceDrain s
  | .trcSnap m => Sys2Proof.Machine.execTrcSnap m s
  | .snapshotLatch => Sys2Proof.Machine.execSnapshotLatch s
  | .enterTest m => Sys2Proof.Machine.execEnterTest m s
  | .leaveTest m => Sys2Proof.Machine.execLeaveTest m s
  | .lbist m => Sys2Proof.Machine.execLbist m s
  | .mbistDie m => Sys2Proof.Machine.execMbistDie m s
  | .mbistDevice m => Sys2Proof.Machine.execMbistDevice m s
  | .hbmTest m => Sys2Proof.Machine.execHbmTest m s
  | .testDone fails => Sys2Proof.Machine.execTestDone fails s
  | .bypass => Sys2Proof.Machine.execBypass s
  | .idcode => Sys2Proof.Machine.execIdcode s
  | .samplePreload pins drv => Sys2Proof.Machine.execSamplePreload pins drv s
  | .extest => Sys2Proof.Machine.execExtest s
  | .extestPulse => Sys2Proof.Machine.execExtestPulse s
  | .extestTrain => Sys2Proof.Machine.execExtestTrain s
  | .testLogicReset => Sys2Proof.Machine.execTestLogicReset s
  | .cntClr m page => Sys2Proof.Machine.execCntClr m page s
  | .logRel m page => Sys2Proof.Machine.execLogRel m page s
  | .coreLogRel m c => Sys2Proof.Machine.execCoreLogRel m c s
  | .intSet m page v => Sys2Proof.Machine.execIntSet m page v s
  | .registerRead m off len => Sys2Proof.Machine.execRegisterRead m off len s
  | .lightFromPeer p => Sys2Proof.Machine.execLightFromPeer p s
  | .halfSlotAlignment p => Sys2Proof.Machine.execHalfSlotAlignment p s
  | .hbmHot n temp => Sys2Proof.Machine.execHbmHot n temp s
  | .refreshOutsideWindows gallery n => Sys2Proof.Machine.execRefreshOutsideWindows gallery n s
  | .galCmdDone => Sys2Proof.Machine.execGalCmdDone s
  | .hbmTrainingDone good => Sys2Proof.Machine.execHbmTrainingDone good s
  | .resetDone die target => Sys2Proof.Machine.execResetDone die target s
  | .mrstRelease => Sys2Proof.Machine.execMrstRelease s
  | .alertEnd => Sys2Proof.Machine.execAlertEnd s
  | .mgtLinkChange up => Sys2Proof.Machine.execMgtLinkChange up s
  | .foreignFrame f => Sys2Proof.Machine.execForeignFrame f s

end Sys2Proof.Machine
end

