-- ==== Sys2Proof/Safety.lean ====
section
/-! DEFINITION. The terms the statements use: what a safe run is, when a thread issues an instruction and what an instruction
that ends leaves, when a command of a master is taken, what resets and a cut of main power leave, and the invariants. -/

namespace Sys2Proof

open Machine

/-- A step that goes on to a next state. -/
def Runs (o : Host.Outcome Machine.State Machine.Fault Machine.Refusal) : Prop :=
  ∃ s, o = .next s

/-- `n` steps from `s`, none of which stops, lead to `t`. -/
def Steps : Nat → Machine.State → Machine.State → Prop
  | 0, s, t => s = t
  | n + 1, s, t => ∃ u, Machine.step s = .next u ∧ Steps n u t

/-! Threads. -/

/-- No uncorrectable error stands in what thread `t` of core `c` reads to execute `w`, and no mismatch of the core's duplicated logic
is due (R117, R135 causes 0x2 and 0x3). -/
structure Sound (s : State) (c t w : Nat) : Prop where
  state : (s.thread c t).damaged ([32, 33] ++ insReads w) = false
  agrees : Store.find s.slips (pgCORE c) = none

/-- Thread `t` of core `c` executes the word `w` at the core's first core cycle or later: it is READY and has an issue opportunity,
its PC is aligned and lies in core memory below the carve-out, the word there is a legal instruction, and what it reads is sound
(R117 to R123, R135, R202). -/
structure Issues (s : State) (c t w : Nat) : Prop where
  can : (s.awake c).canIssue c = true
  ready : ((s.awake c).thread c t).a.st = .ready
  aligned : ((s.awake c).thread c t).a.pc % 4 = 0
  inside : (s.awake c).cmIn ((s.awake c).thread c t).a.pc 4 = true
  word : (s.awake c).cmWord c ((s.awake c).thread c t).a.pc = w
  legal : insLegal w = true
  sound : Sound (s.awake c) c t w

/-- The state once the instruction has been fetched: time stands at the core's first core cycle or later, and a wrong bit of the word
read has been corrected and counted (R161, R202). -/
def fetched (s : State) (c t : Nat) : State := ((s.awake c).cmCorrect c ((s.awake c).thread c t).a.pc 4).1

/-- An instruction whose own effect leaves `z`: the record of a fetched word that cannot be corrected enters the core's fault queue
after those of the effect, and the fault is raised (R137, R161). -/
def lands (s : State) (c t : Nat) (z : State) : State :=
  let x := (s.awake c).thread c t
  z.cmFaults c (x.reader t x.a.pc) ((s.awake c).cmCorrect c x.a.pc 4).2

/-- A thread that goes on, READY, at the address `pc`, with nothing held and its progress count at 0; the PC written holds no wrong
bit (R117, R119, R120, R134). -/
def goesTo (x : Thread) (pc : Nat) : Thread :=
  { x with a := { x.a with st := .ready, pc := pc % 2 ^ 23 }, ecc := Store.erase x.ecc 32, held := none, pcnt := 0, emitted := 0 }

/-- A thread that goes on at the next instruction. -/
def goesOn (x : Thread) : Thread := goesTo x (x.a.pc + 4)

/-- An instruction that ends: thread `t` of core `c` stands as `x`, and the core's instruction counter has counted it (R140). -/
def retire (s : State) (c t : Nat) (x : Thread) : State := (s.setThread c t x).cnt64 (pgCORE c) 0x70 1

/-- A thread that waits holding its instruction, with the opportunity given up counted (R120). -/
def holds (s : State) (c t : Nat) (x : Thread) (h : Held) : State :=
  (s.setThread c t { x with a := { x.a with st := .wait }, held := some h, emitted := 0 }).cnt64 (pgCORE c) 0x78 1

/-- A thread that waits for the result of its KEY instruction, which has acted or waits at its keystone (R410). -/
def keyWaits (s : State) (c t : Nat) (x : Thread) (h : Held) : State :=
  s.setThread c t { x with a := { x.a with st := .wait }, held := some h, emitted := 0 }

/-- A KEY instruction that has acted at keystone `n`: its thread waits for the result `v`, which returns two passages later (R410). -/
def keyActs (s : State) (c t : Nat) (x : Thread) (w v : Nat) (phase : Option Nat := none) : State :=
  keyWaits s c t x { word := w, reason := 5, key := keyNo w, phase := phase, res := some (v, s.keyBack c (keyNo w) 2) }

/-- A KEY instruction whose result `v` has returned: it ends with the result in its RD, and the core's keystone watchdog returns
to 0 (R409, R410, R464). -/
def keyEnds (s : State) (c t w v : Nat) : State :=
  (retire s c t (goesOn ((s.thread c t).setGreg (keyRd w) (BitVec.ofNat 32 v)))).keyDone c

/-- Whether thread `t` of core `c` may use the keystone that a KEY word names: it is configured for the thread's context (R412). -/
def OwnsKey (s : State) (c t w : Nat) : Prop :=
  (s.key (keyNo w)).kind ≠ 0 ∧ (s.key (keyNo w)).owner = (s.thread c t).tag.1

/-- Whether a write to the line of core memory that holds byte `a` is discarded: the line is retained and not yet logged in the
span, and the carve-out has no room for its record, or had none before (R339, R342). -/
abbrev Discards (s : State) (c a : Nat) : Prop :=
  s.logs = true ∧ s.retainedCore c (a / 64 * 64) = true ∧ ((s.core c).undo.ovf = true ∨
    ((s.core c).undo.lines.any (fun r => r.1 == a / 64) = false ∧ s.lineRoom ≤ (s.core c).undo.lines.length))

/-! Commands of a master. -/

/-- A master's write to an LK field of a page takes effect: its accesses reach the window, the page answers, and the master
owns it (R9, R426, R441, R478). -/
structure Commands (s : State) (m : Master) (page : Nat) : Prop where
  reaches : s.reaches m = true
  answers : s.answers page = true
  owns : Store.get 0 s.host.locks page = masterCode m

/-! Resets and power. -/

/-- What a reset makes of core `c`: threads, array, Flowstone, walker, DMA queues and fault queue stand at reset, and core memory,
carve-out included, is kept (R88, R113, R139, R155, R177, R460). -/
structure CoreAnew (s u : State) (c : Nat) : Prop where
  memory : (u.core c).mem = (s.core c).mem
  undo : (u.core c).undo = (s.core c).undo
  array : (u.core c).arr = {}
  flowstone : (u.core c).fls = {}
  dma : (u.core c).dma = {}
  faults : (u.core c).faultQ = [] ∧ (u.core c).dropped = 0
  threads : ∀ t, (u.thread c t).a = {} ∧ (u.thread c t).held = none ∧ (u.thread c t).ctx = none

/-- What neither a core reset nor a die reset touches: job and image (the phase aside), tick and alignment, links and tables,
memories, contexts, training state and the buddy store (R207, R211, R460). -/
structure DeviceKept (s u : State) : Prop where
  schedule : ∃ p, u.sch = { s.sch with phase := p }
  time : u.tick = s.tick ∧ u.frac = s.frac ∧ u.tck = s.tck
  fabric : u.vdt = s.vdt ∧ u.opt = s.opt
  memory : u.mem = s.mem
  contexts : u.ctx = s.ctx
  training : u.train = s.train ∧ u.buddy = s.buddy
  power : u.pwr = s.pwr

/-- What a warm reset leaves when it is taken: the job is LOADED, or IDLE where no image was held or a load was running; the tick
and its alignment, core memory, grants, sealed buddy records and mailboxes are kept; every thread and unit of a core is reset, the
point is 0, and recovery has begun (R207, R211, R367, R371, R432, R460, R466). Open Sump entries are applied first, which a refresh
window may hold up (R200, R295). -/
structure WarmFrom (s u : State) : Prop where
  job : u.sch.job = if s.sch.image.isSome ∧ s.sch.job ≠ .loading then .loaded else .idle
  image : u.sch.image = if s.sch.job = .loading then none else s.sch.image
  phase : u.sch.phase = .recovery
  time : u.frac = s.frac ∧ u.tck = s.tck ∧ (s.mem.sump = [] → u.tick = s.tick)
  cores : s.trace.test = none → s.mem.sump = [] → ∀ c, (u.core c).mem = (s.core c).mem ∧
    (u.core c).undo = { (s.core c).undo with maxLines := 0, maxDev := 0 }
  units : ∀ c, (u.core c).arr = {} ∧ (u.core c).fls = {} ∧ (u.core c).dma = {} ∧ (u.core c).faultQ = []
  mesh : u.mesh = []
  grants : u.ctx.devPages = s.ctx.devPages ∧ u.ctx.capPages = s.ctx.capPages ∧ u.ctx.units = s.ctx.units
  memory : s.trace.test = none → s.mem.sump = [] → u.mem.dev = s.mem.dev ∧ u.mem.cap = s.mem.cap
  buddy : u.buddy.ownSealed = s.buddy.ownSealed ∧ u.buddy.buddySealed = s.buddy.buddySealed
  mailboxes : u.host.mbx0 = s.host.mbx0 ∧ u.host.mbx1 = s.host.mbx1 ∧ u.host.engineQ = s.host.engineQ
  point : u.pwr.point = 0
  dump : u.rst.dump.isSome = true ∧ u.rst.dumpType = 3
  recovery : u.rst.runs = [⟨.warm, 0, u.tick⟩] ∧ u.rst.last = 3 ∧ u.rst.firstAnswer = false ∧ u.rst.allAnswer = false ∧ u.rst.coldAt = none

/-- What a cold reset leaves: the job IDLE, the tick 0 and FREE, memories, links, contexts, buddy store and mailboxes at reset; the
key store with its counters at their reservations, permanent repairs, spares and MD_CFG stay, and LAST is `last` (R211, R394, R437,
R459, R460, R462, R470). -/
structure ColdFrom (s u : State) (last : Nat) : Prop where
  schedule : u.sch = {}
  time : u.tick = 0 ∧ u.frac = 0 ∧ u.tck = {}
  cores : u.cores = [] ∧ u.mesh = []
  fabric : u.vdt = {} ∧ u.opt = {}
  contexts : u.ctx = {}
  training : u.train = {} ∧ u.buddy = {}
  memory : u.mem.dev = [] ∧ u.mem.cap = [] ∧ u.mem.initDone = false
  mailboxes : u.host.mbx0 = {} ∧ u.host.mbx1 = {} ∧ u.host.engineQ = [] ∧ u.host.locks = []
  keys : ∀ k, (u.slot k).key = (s.slot k).key ∧ (u.slot k).rxFloor = (s.slot k).rxResv ∧ (u.slot k).txCtr = (s.slot k).txResv
  repairs : ∀ n, (u.stk n).hard = (s.stk n).hard ∧ (u.stk n).lanes = (s.stk n).lanes
  spares : u.rst.coreMap = s.rst.coreMap ∧ u.rst.spares = s.rst.spares ∧ u.rst.absent = s.rst.absent
  config : u.reg pgMD 0x40 = s.reg pgMD 0x40 ∧ u.reg pgRST 0x44 = s.reg pgRST 0x44
  part : u.bin = s.bin ∧ u.rst.fw = s.rst.fw ∧ u.host.serial = s.host.serial ∧ u.host.nodeId = s.host.nodeId
  point : u.pwr.point = 0
  runs : u.rst.runs = [] ∧ u.rst.last = last
  count : u.reg pgRST 0x5C = satAt max32 (s.reg pgRST 0x5C + 1)

/-- What a cut of the main rails leaves: the always-on domain, with its tick standing still, the buddy store, the mailboxes, the key
store, the owners of pages and the registers of its pages; everything else is lost (R426, R453, R458). -/
structure CutFrom (s u : State) : Prop where
  main : u.pwr.mainOk = false ∧ u.pwr.auxOk = s.pwr.auxOk
  schedule : u.sch = {}
  time : u.tick = s.tick ∧ u.frac = s.frac
  cores : u.cores = [] ∧ u.mesh = []
  fabric : u.vdt = {} ∧ u.opt = {}
  contexts : u.ctx = {}
  memory : u.mem.dev = [] ∧ u.mem.cap = [] ∧ u.mem.initDone = false
  buddy : u.buddy = s.buddy
  mailboxes : u.host.mbx0 = s.host.mbx0 ∧ u.host.mbx1 = s.host.mbx1 ∧ u.host.engineQ = s.host.engineQ
  keys : u.host.slots = s.host.slots
  owners : u.host.locks = s.host.locks
  pages : u.rst.allAnswer = false ∧ u.rst.firstAnswer = (!s.rst.mrstLow && (s.rst.firstAnswer || s.rst.coldAt.isNone)) ∧
    u.rst.runs = []

/-! Invariants. -/

/-- The owners of pages and semaphores are listed in the canonical form, and an owner is PCIe (1) or management (2): OWNER never
takes its reserved code (R441). -/
def OwnersOk (s : State) : Prop := Store.wf 0 s.host.locks = true ∧ ∀ p ∈ s.host.locks, p.2 ≤ 2

/-- Every memory stands in its canonical form: device memory, capacity memory and the memory of each core list their bytes in rising
order and no byte that is 0, so that equal memories are equal data; and the register file likewise lists no offset twice. -/
structure MemoriesOk (s : State) : Prop where
  device : Memory.wf s.mem.dev = true
  capacity : Memory.wf s.mem.cap = true
  cores : ∀ p ∈ s.cores, Memory.wf p.2.mem = true
  registers : Store.rising none s.regs = true

/-- The fabric tick is a 64-bit count with a fraction in units of 1/16 tick (R189). -/
structure TickOk (s : State) : Prop where
  count : s.tick < 2 ^ 64
  fraction : s.frac < 16

end Sys2Proof
end

