-- ==== Sys2Proof/WellFormed.lean ====
section
/-! DEFINITION. Which terms of `Instr` are commands the block can meet: the ranges that the interfaces and registers
give their operands. The operands that name a core, thread, stream, port, stack or engine carry their range in their
type. -/

namespace Sys2Proof

/-- The range of an s16 (R272). -/
def s16 (v : Int) : Bool := decide (-32768 ≤ v) && decide (v ≤ 32767)

/-- Fields of a frame in their ranges, and no more bytes than a frame carries (R436). -/
def frameOk (f : Frame) : Bool :=
  decide (f.dst < 2 ^ 48) && decide (f.src < 2 ^ 48) && decide (f.etype < 2 ^ 16) && decide (f.bytes.length ≤ 1500)

/-- Whether a command is well formed. -/
def Instr.wellFormed : Instr → Bool
  | .alu _ _ => true
  | .alui _ _ => true
  | .lui _ _ => true
  | .ldw _ _ => true
  | .stw _ _ => true
  | .br _ _ => true
  | .bsum _ _ => true
  | .jal _ _ => true
  | .jalr _ _ => true
  | .mfs _ _ => true
  | .mfsys _ _ => true
  | .gset _ _ => true
  | .gbind _ _ => true
  | .keyArrive _ _ => true
  | .keyWait _ _ => true
  | .keyArriveWait _ _ => true
  | .keyAdd _ _ => true
  | .keyRead _ _ => true
  | .keyAcquire _ _ => true
  | .keyRelease _ _ => true
  | .waitt _ _ => true
  | .imx _ _ => true
  | .ifs _ _ => true
  | .idma _ _ => true
  | .ends _ _ => true
  | .nop _ _ => true
  | .waitRetest _ _ => true
  | .load _ => true
  | .stream _ => true
  | .claim _ => true
  | .release _ => true
  | .loadDone _ => true
  | .streamDone _ => true
  | .writePoint _ _ => true
  | .run _ => true
  | .ldtab _ => true
  | .ldtabDone _ => true
  | .chainDone _ => true
  | .copy _ _ => true
  | .gather _ _ => true
  | .scatter _ _ => true
  | .ingest _ _ => true
  | .send _ _ => true
  | .transpose _ _ => true
  | .walk _ _ => true
  | .descriptorDone _ _ => true
  | .meshDelivery _ _ => true
  | .walkStep _ _ => true
  | .emitCommand _ _ => true
  | .walkDone _ _ => true
  | .schLoad _ => true
  | .imageLoadDone => true
  | .schArm _ => true
  | .schDisarm _ => true
  | .schUnload _ => true
  | .schPark _ => true
  | .schResume _ => true
  | .schStop _ => true
  | .startTick => true
  | .pier0Seal reports => reports.all (fun r => decide (r.dev < 2 ^ 16) && decide (r.s < 2 ^ 64) && decide (r.digest < 2 ^ 64))
  | .spanStart => true
  | .spanEnd => true
  | .pierSeal => true
  | .gate _ => true
  | .wake _ => true
  | .refreshWindow _ _ => true
  | .vfChange _ => true
  | .tickExchange t1 t2 t3 t4 _ => decide (t1 < 2 ^ 68) && decide (t2 < 2 ^ 68) && decide (t3 < 2 ^ 68) && decide (t4 < 2 ^ 68)
  | .tickHoldover => true
  | .tickLost => true
  | .tckReparent _ _ => true
  | .flitReceive _ _ body => decide (body.length = 240)
  | .slotTransmit _ => true
  | .reorderTimeout src _ => decide (src < 2 ^ 16)
  | .alarmReceive _ _ => true
  | .rewindRaise => true
  | .restoreDone _ => true
  | .rewindTick => true
  | .patchApply _ => true
  | .patchChecked => true
  | .patchAbort _ => true
  | .halfSlotReceive _ h => decide (h.h < 128) && decide (h.sub < 16) && decide (h.words.length = 30) && decide (h.cls.length = 15)
  | .halfSlotRetransmit _ => true
  | .portLeaveOff _ => true
  | .ringsLocked _ _ _ => true
  | .trainDone _ => true
  | .portFailTimeout _ => true
  | .ringLoopUpdate _ _ u => decide (u.length = 32) && u.all s16
  | .ringLockLost _ _ _ => true
  | .trsRelock _ _ => true
  | .trsCal _ _ => true
  | .calDone _ ktx krx => decide (ktx.length = 288) && decide (krx.length = 288) && ktx.all s16 && krx.all s16
  | .matrixParity _ _ _ => true
  | .matrixRecomputed _ _ => true
  | .combLocked _ => true
  | .combLoss _ _ => true
  | .failoverDone => true
  | .failoverTimeout => true
  | .cmbPaired _ => true
  | .cmbSingleK0 _ => true
  | .cmbSingleK1 _ => true
  | .hbmInit _ _ => true
  | .hbmTrain _ _ => true
  | .hbmRowSoft _ _ => true
  | .hbmRowHard _ _ => true
  | .hbmLane _ _ => true
  | .hbmCmdDone _ _ => true
  | .sumpClose _ line => decide (line < 2 ^ 33)
  | .galInit _ => true
  | .galRetire _ => true
  | .galAbort _ => true
  | .galTrain _ => true
  | .migrationDone => true
  | .galRefresh _ => true
  | .channelFailed _ => true
  | .bar2Write off data => decide (off + data.length ≤ 2 ^ 34) && decide (data.length ≤ 512)
  | .bar2Read off len => decide (off + len ≤ 2 ^ 34) && decide (len ≤ 4096)
  | .hostWriteDrain => true
  | .registerWrite _ off len v => decide (off < 0x4000000) && decide (len ≤ 8) && decide (v < 2 ^ (8 * len))
  | .sweepStart _ => true
  | .blockStart _ => true
  | .updLd _ _ => true
  | .updSt _ => true
  | .updAdd _ => true
  | .updSub _ => true
  | .updMul _ => true
  | .updMulk _ => true
  | .updAddk _ => true
  | .updShr _ => true
  | .updShl _ => true
  | .updMin _ => true
  | .updMax _ => true
  | .updAbs _ => true
  | .updNeg _ => true
  | .updCmpgt _ => true
  | .updSel _ => true
  | .updLut _ => true
  | .updClip _ => true
  | .updEnd _ => true
  | .blockCommit _ => true
  | .journalReplay _ => true
  | .seepSend => true
  | .seepAck n => decide (n < 2 ^ 64)
  | .seepResend => true
  | .seepGap => true
  | .skipRound rx => rx.all (fun r => decide (r.1 < 20) && decide (r.2 < 2 ^ 1024))
  | .closeRound rx => rx.all (fun r => decide (r.1 < 20) && decide (r.2.length ≤ 118) && r.2.all (fun x => decide (x < 2 ^ 16)))
  | .replicaDigestSend peer => match peer with | none => true | some l => decide (l.length = 8) && l.all (fun x => decide (x < 2 ^ 64))
  | .voteWindows peer => peer.all (fun x => decide (x.1 < 8) && decide (x.2.2 < 2 ^ 64))
  | .voteBlocks peer => peer.all (fun x => decide (x.engine < 8) && decide (x.slot < 5))
  | .voteWrite copies => copies.all (fun x => decide (x.engine < 8) && decide (x.slot < 5))
  | .pieStressGo _ => true
  | .buddySend => true
  | .stateSend => true
  | .stateRecv => true
  | .stateAck n => decide (n < 2 ^ 64)
  | .stateResend => true
  | .adopt => true
  | .selfRestore _ => true
  | .probation => true
  | .stateStatus => true
  | .neighbourDark nbr => decide (nbr < 2 ^ 16)
  | .neighbourWithdraw nbr => decide (nbr < 2 ^ 16)
  | .ctxClose _ => true
  | .ctxPark _ => true
  | .ctxUnpark _ => true
  | .ctxSetQuota _ => true
  | .ctxGrant _ => true
  | .ctxReturn _ => true
  | .ctxGrantKey _ => true
  | .ctxReturnKey _ => true
  | .zeroPage => true
  | .quarantineEnd _ => true
  | .hifMbxDb _ _ => true
  | .hifMbxAck _ _ => true
  | .mbxDone => true
  | .shape => true
  | .echo => true
  | .keyRotate => true
  | .mgtRead f => frameOk f
  | .mgtWrite f => frameOk f
  | .mbx f => frameOk f
  | .mbxAck f => frameOk f
  | .mbxPoll f => frameOk f
  | .notify _ => true
  | .lockClaim _ page => decide (page < 0x4010)
  | .lockRelease _ page => decide (page < 0x4010)
  | .genBulkClaim _ _ => true
  | .genBulkRelease _ _ => true
  | .semHb _ => true
  | .semForce _ _ => true
  | .leaseExpiry _ => true
  | .d3hotEntry => true
  | .d0Resume => true
  | .pmeRepeat => true
  | .conventionalReset => true
  | .hotReset => true
  | .functionLevelReset => true
  | .mrst => true
  | .auxPowerUp => true
  | .auxPowerLoss => true
  | .mainPowerUp => true
  | .mainPowerLoss => true
  | .rstCore _ => true
  | .rstDie _ => true
  | .rstWarm _ => true
  | .rstCold _ => true
  | .rstSpare _ => true
  | .warmRecoveryDone => true
  | .resetEscalation => true
  | .progressExpiry _ _ => true
  | .coreWatchdog _ => true
  | .partitionWatchdog => true
  | .firmwareWatchdog => true
  | .qualWindow refx xrc refrc => decide (refx < 2 ^ 17) && decide (xrc < 2 ^ 15) && decide (refrc < 2 ^ 17)
  | .pllUnlock _ => true
  | .powerAlert watts tmax => decide (watts < 2 ^ 16) && decide (tmax < 2 ^ 8)
  | .governorStep => true
  | .trip watts tmax => decide (watts < 2 ^ 16) && decide (tmax < 2 ^ 8)
  | .railFault _ mv => decide (mv < 2 ^ 16)
  | .traceDrain => true
  | .trcSnap _ => true
  | .snapshotLatch => true
  | .enterTest _ => true
  | .leaveTest _ => true
  | .lbist _ => true
  | .mbistDie _ => true
  | .mbistDevice _ => true
  | .hbmTest _ => true
  | .testDone fails => decide (fails < 2 ^ 66)
  | .bypass => true
  | .idcode => true
  | .samplePreload pins drv => decide (pins < 2 ^ 256) && decide (drv < 2 ^ 256)
  | .extest => true
  | .extestPulse => true
  | .extestTrain => true
  | .testLogicReset => true
  | .cntClr _ page => decide (page < 0x4000)
  | .logRel _ page => decide (page < 0x4000)
  | .coreLogRel _ _ => true
  | .intSet _ page _ => decide (page < 0x4000)
  | .registerRead _ off len => decide (off < 0x4000000) && decide (len ≤ 8)
  | .lightFromPeer _ => true
  | .halfSlotAlignment _ => true
  | .hbmHot _ temp => decide (temp < 2 ^ 8)
  | .refreshOutsideWindows _ _ => true
  | .galCmdDone => true
  | .hbmTrainingDone good => decide (good < 2 ^ 8)
  | .resetDone _ _ => true
  | .mrstRelease => true
  | .alertEnd => true
  | .mgtLinkChange _ => true
  | .foreignFrame f => frameOk f

end Sys2Proof
end

