-- ==== Sys2Proof/Certificates/Slice0/Obligations.lean ====
section
/-! DEFINITION. The statements for the provers. -/

open Sys2Proof Sys2Proof.Machine

/-! The queue and the block as a whole. -/

/-- A step with a command in front runs it on the state with the queue's rest. -/
def Obligations.StepRunsFront : Prop :=
  ∀ (s : State) (c : Instr) (rest : List Instr),
    step { s with pending := c :: rest } = exec c { s with pending := rest }

/-! Threads (chapter 6). -/

/-- R123, R124, R126, R129, R119, R122: the instructions that neither wait nor touch memory. Each ends with the thread at the next
instruction, and changes nothing but its thread and the instruction counter. -/
def Obligations.ScalarInstructions : Prop :=
  ∀ (s : State) (c : Fin 256) (t : Fin 16) (w : Nat), Issues s c t w →
    let z := fetched s c t
    let x := z.thread c t
    (insOpc w = 0x01 → match aluOp (insFn w) (x.greg (insRa w)) (x.greg (insRb w)) x.a.fl with
      | some (some r, f) => exec (.alu c t) s = .next (lands s c t <| retire z c t (goesOn ((x.setGreg (insRd w) r).setFlags f)))
      | some (none, f) => exec (.alu c t) s = .next (lands s c t <| retire z c t (goesOn (x.setFlags f)))
      | none => False) ∧
    (insOpc w = 0x02 → match aluOp (insRb w) (x.greg (insRa w)) (insImm (insRb w) w) x.a.fl with
      | some (some r, f) => exec (.alui c t) s = .next (lands s c t <| retire z c t (goesOn ((x.setGreg (insRd w) r).setFlags f)))
      | some (none, f) => exec (.alui c t) s = .next (lands s c t <| retire z c t (goesOn (x.setFlags f)))
      | none => False) ∧
    (insOpc w = 0x03 → exec (.lui c t) s =
      .next (lands s c t <| retire z c t (goesOn (x.setGreg (insRd w) (BitVec.ofNat 32 (fld w 0 20 * 2 ^ 12)))))) ∧
    (insOpc w = 0x0B → fld w 0 4 ≠ 5 → exec (.mfsys c t) s =
      .next (lands s c t <| retire z c t (goesOn (x.setGreg (insRd w) (BitVec.ofNat 32 (z.sysValue c t (fld w 0 4))))))) ∧
    (insOpc w = 0x0B → fld w 0 4 = 5 → exec (.mfsys c t) s =
      .next (lands s c t <| retire z c t (goesOn { x.setGreg (insRd w) (BitVec.ofNat 32 (z.tick % 2 ^ 32)) with
        tickHi := z.tick / 2 ^ 32 % 2 ^ 32 }))) ∧
    (insOpc w = 0x0C → exec (.gset c t) s =
      .next (lands s c t <| retire z c t (goesOn (x.setGuard (fld w 24 3) (if condHolds (fld w 20 4) x.a.fl then .tt else .ff))))) ∧
    (insOpc w = 0x13 → exec (.ends c t) s =
      .next (lands s c t <| retire z c t (goesOn x |> fun y => { y with a := { y.a with st := .done } }))) ∧
    (insOpc w = 0x14 → exec (.nop c t) s = .next (lands s c t <| retire z c t (goesOn x)))

/-- R129: GBIND. The guard is PENDING on the thread's most recently issued IFS, or takes its value at once where that chain has
ended; a chain that wrote no SUM0 gives FALSE. With no IFS issued in the span it is a schedule fault (R135). -/
def Obligations.GuardBinding : Prop :=
  ∀ (s : State) (c : Fin 256) (t : Fin 16) (w : Nat), Issues s c t w → insOpc w = 0x0D →
    let z := fetched s c t
    let x := z.thread c t
    let gives := fun (g : Guard) => exec (.gbind c t) s = .next (lands s c t <| retire z c t (goesOn (x.setGuard (fld w 24 3) g)))
    (∀ ch, x.lastIfs = some ch → x.lastSum = none → gives (.pending ch (fld w 20 3) (bitAt w 23))) ∧
    (∀ ch v, x.lastIfs = some ch → x.lastSum = some (some v) →
      gives (if bitAt v (fld w 20 3) = bitAt w 23 then .tt else .ff)) ∧
    (∀ ch, x.lastIfs = some ch → x.lastSum = some none → gives .ff) ∧
    (x.lastIfs = none → exec (.gbind c t) s = .next (lands s c t <| z.insFault c t .sched 6 0))

/-- R59, R60: the results and flags of the scalar ALU, for every operation (with the FN codes of R124), all operands and all flags. -/
def Obligations.AluResults : Prop :=
  ∀ (a b : Word) (f : Flags),
    let out := fun (v : Int) => decide (v < -2 ^ 31 ∨ 2 ^ 31 ≤ v)
    let nz := fun (r : Word) => { f with n := decide (r.toInt < 0), z := decide (r = 0) }
    aluOp 0x00 a b f = some (some (a + b), { nz (a + b) with
      c := decide (2 ^ 32 ≤ a.toNat + b.toNat), v := out (a.toInt + b.toInt) }) ∧
    aluOp 0x01 a b f = some (some (a - b), { nz (a - b) with
      c := decide (a.toNat < b.toNat), v := out (a.toInt - b.toInt) }) ∧
    aluOp 0x02 a b f = some (some (a &&& b), nz (a &&& b)) ∧
    aluOp 0x03 a b f = some (some (a ||| b), nz (a ||| b)) ∧
    aluOp 0x04 a b f = some (some (a ^^^ b), nz (a ^^^ b)) ∧
    (∃ r : Word, aluOp 0x05 a b f = some (some r, { nz r with v := false }) ∧
      r.toNat = if 32 ≤ b.toNat then 0 else a.toNat * 2 ^ b.toNat % 2 ^ 32) ∧
    (∃ r : Word, aluOp 0x06 a b f = some (some r, { nz r with v := false }) ∧
      r.toNat = if 32 ≤ b.toNat then 0 else a.toNat / 2 ^ b.toNat) ∧
    (∃ r : Word, aluOp 0x07 a b f = some (some r, { nz r with v := false }) ∧
      r.toInt = if 32 ≤ b.toNat then (if a.toInt < 0 then -1 else 0) else a.toInt / 2 ^ b.toNat) ∧
    aluOp 0x08 a b f = some (some (a * b), { nz (a * b) with v := out (a.toInt * b.toInt) }) ∧
    (∃ r : Word, aluOp 0x09 a b f = some (some r, nz r) ∧ r.toInt = a.toInt * b.toInt / 2 ^ 32) ∧
    (∃ r : Word, aluOp 0x0A a b f = some (some r, nz r) ∧ r.toNat = a.toNat * b.toNat / 2 ^ 32) ∧
    (∃ q r : Word, ∃ dz v : Bool,
      aluOp 0x0B a b f = some (some q, { nz q with v := v, dz := dz }) ∧
      aluOp 0x0C a b f = some (some r, { nz r with v := v, dz := dz }) ∧
      (b = 0 → q = 0 ∧ r = a ∧ dz = true ∧ v = false) ∧
      (a.toInt = -2 ^ 31 ∧ b.toInt = -1 → q = a ∧ r = 0 ∧ v = true ∧ dz = false) ∧
      (b ≠ 0 → ¬(a.toInt = -2 ^ 31 ∧ b.toInt = -1) →
        q.toInt = a.toInt.tdiv b.toInt ∧ r.toInt = a.toInt.tmod b.toInt ∧ dz = false ∧ v = false)) ∧
    (∃ q r : Word, ∃ dz : Bool,
      aluOp 0x0D a b f = some (some q, { nz q with v := false, dz := dz }) ∧
      aluOp 0x0E a b f = some (some r, { nz r with v := false, dz := dz }) ∧
      (b = 0 → q = 0 ∧ r = a ∧ dz = true) ∧
      (b ≠ 0 → q.toNat = a.toNat / b.toNat ∧ r.toNat = a.toNat % b.toNat ∧ dz = false)) ∧
    aluOp 0x0F a b f = some (some (-a), { nz (-a) with v := decide (a.toInt = -2 ^ 31) }) ∧
    (∃ r : Word, aluOp 0x10 a b f = some (some r, nz r) ∧ r.toInt = min a.toInt b.toInt) ∧
    (∃ r : Word, aluOp 0x11 a b f = some (some r, nz r) ∧ r.toInt = max a.toInt b.toInt) ∧
    (∃ r : Word, aluOp 0x12 a b f = some (some r, nz r) ∧ r.toNat = min a.toNat b.toNat) ∧
    (∃ r : Word, aluOp 0x13 a b f = some (some r, nz r) ∧ r.toNat = max a.toNat b.toNat) ∧
    aluOp 0x14 a b f = (aluOp 0x01 a b f).map (fun p => (none, p.2)) ∧
    aluOp 0x15 a b f = (aluOp 0x02 a b f).map (fun p => (none, p.2)) ∧
    ∀ fn, 0x15 < fn → aluOp fn a b f = none

/-- R123, R135: LDW and STW with an aligned address in core memory that the thread's context may use, and the faults of the other
addresses, which leave nothing of the instruction done. -/
def Obligations.LoadsAndStores : Prop :=
  ∀ (s : State) (c : Fin 256) (t : Fin 16) (w : Nat), Issues s c t w →
    let z := fetched s c t
    let x := z.thread c t
    let a := addr32 (x.gr (insRa w)) (insOff17 w)
    (insOpc w = 0x04 →
      (¬(a % 4 = 0 ∧ z.cmIn a 4 = true) → exec (.ldw c t) s = .next (lands s c t <| z.insFault c t .sched 5 a)) ∧
      (a % 4 = 0 → z.cmIn a 4 = true → z.cmOk c x.tag.1 a 4 false = false →
        exec (.ldw c t) s = .next (lands s c t <| z.insFault c t .ctx 0xA a)) ∧
      (a % 4 = 0 → z.cmIn a 4 = true → z.cmOk c x.tag.1 a 4 false = true → exec (.ldw c t) s =
        .next (lands s c t <| retire (z.cmTouch c a 4 (x.reader t a)) c t (goesOn (x.setGreg (insRd w) (BitVec.ofNat 32 (z.cmWord c a))))))) ∧
    (insOpc w = 0x05 →
      (¬(a % 4 = 0 ∧ z.cmIn a 4 = true) → exec (.stw c t) s = .next (lands s c t <| z.insFault c t .sched 5 a)) ∧
      (a % 4 = 0 → z.cmIn a 4 = true → z.cmOk c x.tag.1 a 4 true = false →
        exec (.stw c t) s = .next (lands s c t <| z.insFault c t .ctx 0xA a)) ∧
      (a % 4 = 0 → z.cmIn a 4 = true → z.cmOk c x.tag.1 a 4 true = true →
        exec (.stw c t) s = .next (lands s c t <| retire (z.cmPutWord c a (x.gr (insRd w))) c t (goesOn x))))

/-- R123, R339, R342: what STW leaves in core memory. The four bytes at its address hold G[RS], low byte first, unless the undo log
discards the write; every other byte of every core's memory, and every other thread, is as it was. -/
def Obligations.StoreFrame : Prop :=
  ∀ (s u : State) (c : Fin 256) (t : Fin 16) (w : Nat), Issues s c t w → insOpc w = 0x05 →
    let z := fetched s c t
    let x := z.thread c t
    let a := addr32 (x.gr (insRa w)) (insOff17 w)
    a % 4 = 0 → z.cmIn a 4 = true → z.cmOk c x.tag.1 a 4 true = true → exec (.stw c t) s = .next u →
      (∀ d b, (d ≠ c.val ∨ b < a ∨ a + 4 ≤ b) → Store.get 0#8 (u.core d).mem b = Store.get 0#8 (s.core d).mem b) ∧
      (¬Discards z c a → ∀ i < 4, Store.get 0#8 (u.core c).mem (a + i) = BitVec.ofNat 8 (x.gr (insRd w) / 256 ^ i)) ∧
      (Discards z c a → ∀ b, Store.get 0#8 (u.core c).mem b = Store.get 0#8 (s.core c).mem b) ∧
      ∀ d v, (d ≠ c.val ∨ v ≠ t.val) → u.thread d v = z.thread d v

/-- R123, R125, R133: a branch, jump or summary branch goes to its target where that is aligned and in core memory below the
carve-out, and is a schedule fault with no other effect where it is not (R135); a branch not taken goes on. -/
def Obligations.Branches : Prop :=
  ∀ (s : State) (c : Fin 256) (t : Fin 16) (w : Nat), Issues s c t w →
    let z := fetched s c t
    let x := z.thread c t
    let goes := fun (i : Instr) (target : Nat) (y : Thread) =>
      (target % 4 = 0 → z.cmIn target 4 = true → exec i s = .next (lands s c t <| retire z c t (goesTo y target))) ∧
      (¬(target % 4 = 0 ∧ z.cmIn target 4 = true) → exec i s = .next (lands s c t <| z.insFault c t .sched 5 target))
    let link := x.setGreg (insRd w) (BitVec.ofNat 32 (x.a.pc + 4))
    (insOpc w = 0x06 → condHolds (fld w 23 4) x.a.fl = true → goes (.br c t) (addr32 x.a.pc (4 * sext 22 w)) x) ∧
    (insOpc w = 0x06 → condHolds (fld w 23 4) x.a.fl = false → exec (.br c t) s = .next (lands s c t <| retire z c t (goesOn x))) ∧
    (insOpc w = 0x08 → goes (.jal c t) (addr32 x.a.pc (4 * sext 22 w)) link) ∧
    (insOpc w = 0x09 → goes (.jalr c t) (addr32 (x.gr (insRa w)) (sext 17 w)) link) ∧
    (insOpc w = 0x07 → (z.core c).chainsPending t = false → bitAt x.sum0 (fld w 23 3) = bitAt w 26 →
      goes (.bsum c t) (addr32 x.a.pc (4 * sext 22 w)) x) ∧
    (insOpc w = 0x07 → (z.core c).chainsPending t = false → bitAt x.sum0 (fld w 23 3) ≠ bitAt w 26 →
      exec (.bsum c t) s = .next (lands s c t <| retire z c t (goesOn x)))

/-- R125: the condition that each COND names. -/
def Obligations.Conditions : Prop :=
  ∀ f : Flags,
    (condHolds 0x0 f = true) ∧ (condHolds 0x1 f = true ↔ f.z = true) ∧ (condHolds 0x2 f = true ↔ f.z = false) ∧
    (condHolds 0x3 f = true ↔ f.n ≠ f.v) ∧ (condHolds 0x4 f = true ↔ f.n = f.v) ∧
    (condHolds 0x5 f = true ↔ f.z = false ∧ f.n = f.v) ∧ (condHolds 0x6 f = true ↔ f.z = true ∨ f.n ≠ f.v) ∧
    (condHolds 0x7 f = true ↔ f.c = true) ∧ (condHolds 0x8 f = true ↔ f.c = false) ∧
    (condHolds 0x9 f = true ↔ f.c = false ∧ f.z = false) ∧ (condHolds 0xA f = true ↔ f.c = true ∨ f.z = true) ∧
    (condHolds 0xB f = true ↔ f.n = true) ∧ (condHolds 0xC f = true ↔ f.n = false) ∧ (condHolds 0xD f = true ↔ f.v = true) ∧
    (condHolds 0xE f = true ↔ f.v = false) ∧ (condHolds 0xF f = true ↔ f.dz = true)

/-- R120, R128, R133: the instructions that wait. With its condition met each takes its effect; otherwise the thread goes to WAIT
holding its instruction, and the opportunity given up is counted. -/
def Obligations.Waits : Prop :=
  ∀ (s : State) (c : Fin 256) (t : Fin 16) (w : Nat), Issues s c t w →
    let z := fetched s c t
    let x := z.thread c t
    let due := (x.gr (insRd w) + fld w 0 16) % 2 ^ 32
    let sum := match fld w 20 2 with | 0 => x.sum0 | 1 => x.sum1 | 2 => x.sum2 | _ => x.sum3
    (insOpc w = 0x0F → due ≤ z.tick - z.sch.first → exec (.waitt c t) s = .next (lands s c t <| retire z c t (goesOn x))) ∧
    (insOpc w = 0x0F → z.tick - z.sch.first < due →
      exec (.waitt c t) s = .next (lands s c t <| holds z c t x { word := w, reason := 6 })) ∧
    (insOpc w = 0x0A → (z.core c).chainsPending t = false → exec (.mfs c t) s = .next (lands s c t <| retire z c t (goesOn
      (x.setGreg (insRd w) (BitVec.ofNat 32 (if bitAt w 19 then sum / 2 ^ 32 else sum % 2 ^ 32)))))) ∧
    (insOpc w = 0x0A → (z.core c).chainsPending t = true →
      exec (.mfs c t) s = .next (lands s c t <| holds z c t x { word := w, reason := 7 })) ∧
    (insOpc w = 0x07 → (z.core c).chainsPending t = true →
      exec (.bsum c t) s = .next (lands s c t <| holds z c t x { word := w, reason := 7 }))

/-- R409, R410, R412: the KEY functions that do not wait, on a keystone of the thread's context: ARRIVE, ADD, READ and RELEASE act on
it, and the thread waits for their result; and the context fault of every KEY function on a keystone of another. -/
def Obligations.KeyFunctions : Prop :=
  ∀ (s : State) (c : Fin 256) (t : Fin 16) (w : Nat), Issues s c t w → insOpc w = 0x0E →
    let z := fetched s c t
    let x := z.thread c t
    let n := keyNo w
    let k := z.key n
    let a := x.gr (keyRa w)
    (OwnsKey z c t w →
      (keyFn w = 0 → exec (.keyArrive c t) s = .next (lands s c t <| keyActs (z.keyArrive n none) c t x w k.phase)) ∧
      (keyFn w = 3 → exec (.keyAdd c t) s = .next (lands s c t <| keyActs (z.keyCount.keySet n (k.value + a)) c t x w k.value)) ∧
      (keyFn w = 4 → exec (.keyRead c t) s = .next (lands s c t <| keyActs z.keyCount c t x w (if a = 0 then k.value else k.phase))) ∧
      (keyFn w = 6 → exec (.keyRelease c t) s = .next (lands s c t <| keyActs (z.keyCount.keySet n (k.value + max a 1)) c t x w
        (k.change (k.value + max a 1)).value))) ∧
    (¬OwnsKey z c t w →
      (keyFn w = 0 → exec (.keyArrive c t) s = .next (lands s c t <| z.insFault c t .ctx 0xC 0)) ∧
      (keyFn w = 1 → exec (.keyWait c t) s = .next (lands s c t <| z.insFault c t .ctx 0xC 0)) ∧
      (keyFn w = 2 → exec (.keyArriveWait c t) s = .next (lands s c t <| z.insFault c t .ctx 0xC 0)) ∧
      (keyFn w = 3 → exec (.keyAdd c t) s = .next (lands s c t <| z.insFault c t .ctx 0xC 0)) ∧
      (keyFn w = 4 → exec (.keyRead c t) s = .next (lands s c t <| z.insFault c t .ctx 0xC 0)) ∧
      (keyFn w = 5 → exec (.keyAcquire c t) s = .next (lands s c t <| z.insFault c t .ctx 0xC 0)) ∧
      (keyFn w = 6 → exec (.keyRelease c t) s = .next (lands s c t <| z.insFault c t .ctx 0xC 0)))

/-- R409, R410: WAIT, ARRIVE_WAIT and ACQUIRE on a keystone of the thread's context: with the condition met each has its result,
which the thread waits for; otherwise the thread waits at the keystone, with reason 0x5. A BARRIER waits on its PHASE, any other kind
on VALUE. -/
def Obligations.KeyWaits : Prop :=
  ∀ (s : State) (c : Fin 256) (t : Fin 16) (w : Nat), Issues s c t w → insOpc w = 0x0E → OwnsKey (fetched s c t) c t w →
    let z := fetched s c t
    let x := z.thread c t
    let n := keyNo w
    let k := z.key n
    let a := x.gr (keyRa w)
    let h : Held := { word := w, reason := 5, key := n }
    let y := z.keyArrive n none
    let met := fun (q : Keystone) (p : Nat) => if q.kind = 1 then q.phase ≠ p % 65536 else a ≤ q.value
    (keyFn w = 1 → met k a →
      exec (.keyWait c t) s = .next (lands s c t <| keyActs (z.keyCount.setKey n k) c t x w k.value)) ∧
    (keyFn w = 1 → ¬met k a → exec (.keyWait c t) s = .next (lands s c t <| keyWaits z.keyCount c t x h)) ∧
    (keyFn w = 2 → met (y.key n) k.phase →
      exec (.keyArriveWait c t) s = .next (lands s c t <| keyActs (y.setKey n (y.key n)) c t x w k.phase (some k.phase))) ∧
    (keyFn w = 2 → (y.key n).kind = 1 → (y.key n).phase = k.phase % 65536 →
      exec (.keyArriveWait c t) s = .next (lands s c t <| keyWaits y c t x { h with phase := some k.phase })) ∧
    (keyFn w = 2 → (y.key n).kind ≠ 1 → (y.key n).value < a →
      exec (.keyArriveWait c t) s = .next (lands s c t <| keyWaits y c t x { h with phase := some k.phase })) ∧
    (keyFn w = 5 → max a 1 ≤ k.value → exec (.keyAcquire c t) s =
      .next (lands s c t <| keyActs (z.keyCount.setKey n { k with value := k.value - max a 1 }) c t x w (k.value - max a 1))) ∧
    (keyFn w = 5 → k.value < max a 1 → exec (.keyAcquire c t) s = .next (lands s c t <| keyWaits z.keyCount c t x h))

/-- R67, R95, R107, R128, R130, R136, R151, R165: the instructions that issue a command, at an aligned address the thread's context may
read. With room in its queue the command enters at the queue's end with its binding, and the thread goes on; where the queue is full
or stalled, or a walk of the thread has taken the opportunity, the thread waits. -/
def Obligations.Issue : Prop :=
  ∀ (s : State) (c : Fin 256) (t : Fin 16) (w : Nat), Issues s c t w →
    let z := fetched s c t
    let x := z.thread c t
    let a := x.cmdAddr w
    let b := x.binding (fld w 24 3) (bitAt w 23)
    let iss : Machine.Issue := ⟨a, t, x.a.pc, x.tag.1, x.tag.2, b, false⟩
    let k := z.core c
    let got := fun (n : Nat) (act : State → State) => lands s c t (z.cmRead c a n (x.reader t a) act)
    a % 16 = 0 →
    (insOpc w = 0x10 → z.cmIn a 16 = true → z.cmOk c x.tag.1 a 16 false = true →
      let cmd := leNat (z.cmBytes c a 16)
      let q : ArrCmd := ⟨cmd, iss, k.arr.issued, k.chains⟩
      let turned := k.arr.full cmd || k.arr.stalls cmd || bitAt x.emitted (if arrOp cmd = 1 then 0 else 1)
      (turned = true →
        exec (.imx c t) s = .next (got 16 (fun z1 => holds z1 c t x { word := w, reason := if arrOp cmd = 1 then 1 else 2 }))) ∧
      (turned = false → ∃ u, exec (.imx c t) s = .next u ∧ u.thread c t = goesOn x ∧
        (u.core c).arr.loadQ = (if arrOp cmd = 1 then k.arr.loadQ ++ [q] else k.arr.loadQ) ∧
        (u.core c).arr.streamQ = (if arrOp cmd = 1 then k.arr.streamQ else k.arr.streamQ ++ [q]) ∧
        (u.core c).arr.issued = k.arr.issued + 1)) ∧
    (insOpc w = 0x11 → z.cmIn a 32 = true → z.cmOk c x.tag.1 a 32 false = true →
      let head := leNat (z.cmBytes c a 32)
      let n := chainBytes head
      z.cmIn a n = true → z.cmOk c x.tag.1 a n false = true →
      let q : ChainCmd := ⟨head, (upTo ((n - 32) / 8)).map (fun i => leNat (z.cmBytes c (a + 32 + 8 * i) 8)), k.chains, iss⟩
      (4 ≤ k.fls.queue.length ∨ k.fls.stall = true ∨ bitAt x.emitted 2 = true → 
        exec (.ifs c t) s = .next (got n (fun z1 => holds z1 c t x { word := w, reason := 3 }))) ∧
      (k.fls.queue.length < 4 → k.fls.stall = false → bitAt x.emitted 2 = false → ∃ u, exec (.ifs c t) s = .next u ∧ (u.core c).fls.queue = k.fls.queue ++ [q] ∧
        (u.core c).chains = k.chains + 1 ∧ u.thread c t = goesOn { x with lastIfs := some k.chains, lastSum := none })) ∧
    (insOpc w = 0x12 → z.cmIn a 32 = true → z.cmOk c x.tag.1 a 32 false = true →
      let d := leNat (z.cmBytes c a 32)
      let st := fld d 4 5
      let dma := k.dma
      let q : Desc := { word := d, addr := a, thread := t, pc := x.a.pc, ctx := x.tag.1, gen := x.tag.2, serial := dma.issued }
      let put := fun (z1 : State) => retire (z1.modDma c (fun m => m.enqueue st q)) c t (goesOn x)
      (4 ≤ (dma.stream st).length ∨ (dma.stream st).any (·.stalled) = true → 
        exec (.idma c t) s = .next (got 32 (fun z1 => holds z1 c t x { word := w, reason := 4 }))) ∧
      (dma.stream st = [] → exec (.idma c t) s = .next (got 32 (fun z1 => (put z1).checkDescHead c st))) ∧
      (dma.stream st ≠ [] → (dma.stream st).length < 4 → (dma.stream st).any (·.stalled) = false →
        exec (.idma c t) s = .next (got 32 put) ∧ ((put z).core c).dma.stream st = dma.stream st ++ [q]))

/-- R117, R135: the faults that the issue of an instruction finds. An uncorrectable error in the state that the thread reads is a
hardware fault of cause 0x2; a fetch outside the aligned core memory below the carve-out, a word whose opcode is reserved, and a word
of the instruction with a field out of range are schedule faults of the thread; a mismatch of the duplicated logic is a hardware fault
of cause 0x3. -/
def Obligations.IssueFaults : Prop :=
  ∀ (s : State) (c : Fin 256) (t : Fin 16),
    let y := s.awake c
    let x := y.thread c t
    let z := fetched s c t
    let w := y.cmWord c x.a.pc
    let place := x.a.pc % 4 = 0 ∧ y.cmIn x.a.pc 4 = true
    let agree := Store.find y.slips (pgCORE c) = none
    y.canIssue c = true → x.a.st = .ready →
    ∀ (i : Instr) (opc : Nat),
      (i, opc) ∈ [(.alu c t, 1), (.alui c t, 2), (.lui c t, 3), (.ldw c t, 4), (.stw c t, 5), (.br c t, 6), (.bsum c t, 7),
        (.jal c t, 8), (.jalr c t, 9), (.mfs c t, 0xA), (.mfsys c t, 0xB), (.gset c t, 0xC), (.gbind c t, 0xD),
        (.keyArrive c t, 0xE), (.keyWait c t, 0xE), (.keyArriveWait c t, 0xE), (.keyAdd c t, 0xE), (.keyRead c t, 0xE),
        (.keyAcquire c t, 0xE), (.keyRelease c t, 0xE), (.waitt c t, 0xF), (.imx c t, 0x10), (.ifs c t, 0x11),
        (.idma c t, 0x12), (.ends c t, 0x13), (.nop c t, 0x14)] →
      (x.damaged [32, 33] = true → exec i s = .next (y.insFault c t .hw 2 0)) ∧
      (x.damaged [32, 33] = false → ¬place → agree → exec i s = .next (y.insFault c t .sched 5 x.a.pc)) ∧
      (x.damaged [32, 33] = false → place → insOpc w = opc → x.damaged (insReads w) = true →
        exec i s = .next (lands s c t <| z.insFault c t .hw 2 0)) ∧
      (x.damaged [32, 33] = false → place → (opcKnown (insOpc w) = false ∨ insOpc w = opc) → x.damaged (insReads w) = false →
        (∀ d, Store.find y.slips (pgCORE c) = some d →
          exec i s = .next (lands s c t <| State.insFault { z with slips := Store.erase z.slips (pgCORE c) } c t .hw 3 0)) ∧
        (agree → (opcKnown (insOpc w) = false ∨ insLegal w = false) → exec i s = .next (lands s c t <| z.insFault c t .sched 4 0)))

/-- R117, R134, R140: what the end of an instruction changes. The thread stands as given, the core's instruction counter has gone
up by 1, and nothing else differs: no other thread, no memory or unit of any core, no other register, no unit of the block. -/
def Obligations.RetireFrame : Prop :=
  ∀ (s : State) (c t : Nat) (x : Thread),
    let u := retire s c t x
    u.thread c t = x ∧ (∀ d v, (d ≠ c ∨ v ≠ t) → u.thread d v = s.thread d v) ∧
    (∀ d, (u.core d).mem = (s.core d).mem ∧ (u.core d).ecc = (s.core d).ecc ∧ (u.core d).arr = (s.core d).arr ∧
      (u.core d).fls = (s.core d).fls ∧ (u.core d).dma = (s.core d).dma ∧ (u.core d).undo = (s.core d).undo ∧
      (u.core d).faultQ = (s.core d).faultQ ∧ (u.core d).wd = (s.core d).wd) ∧
    u.reg64 (pgCORE c) 0x70 = (s.reg64 (pgCORE c) 0x70 + 1) % 2 ^ 64 ∧
    (∀ off, off ≠ regAt (pgCORE c) 0x70 → off ≠ regAt (pgCORE c) 0x74 → u.rd off = s.rd off) ∧
    (u.tick = s.tick ∧ u.mesh = s.mesh ∧ u.sch = s.sch ∧ u.tck = s.tck ∧ u.ctx = s.ctx ∧ u.pie = s.pie ∧ u.vdt = s.vdt ∧
      u.colGroups = s.colGroups ∧ u.colPend = s.colPend ∧ u.opt = s.opt ∧ u.mem = s.mem ∧ u.train = s.train ∧
      u.host = s.host ∧ u.clk = s.clk ∧ u.pwr = s.pwr ∧ u.rst = s.rst ∧ u.buddy = s.buddy ∧ u.trace = s.trace ∧
      u.pending = s.pending ∧ u.out = s.out)

/-- R120, R202, R410: a thread in WAIT at an issue opportunity. Its held instruction takes its effect when the condition holds, and
otherwise the opportunity given up is counted and the thread still waits; a KEY instruction ends once its result has returned. -/
def Obligations.WaitRetest : Prop :=
  ∀ (s : State) (c : Fin 256) (t : Fin 16) (h : Held),
    let z := s.awake c
    let x := z.thread c t
    let w := h.word
    z.canIssue c = true → x.a.st = .wait → x.held = some h → Sound z c t w →
    let due := (x.gr (insRd w) + fld w 0 16) % 2 ^ 32
    (insOpc w = 0x0F → due ≤ z.tick - z.sch.first → exec (.waitRetest c t) s = .next (retire z c t (goesOn x))) ∧
    (insOpc w = 0x0F → z.tick - z.sch.first < due →
      exec (.waitRetest c t) s = .next (holds z c t x { word := w, reason := 6 })) ∧
    (∀ v back, insOpc w = 0x0E → h.res = some (v, back) →
      (back ≤ z.tick → exec (.waitRetest c t) s = .next ((keyEnds z c t w v).colWaited h.key (keyFn w))) ∧
      (z.tick < back → exec (.waitRetest c t) s = .next (holds z c t x h))) ∧
    (insOpc w = 0x0E → h.res = none → exec (.waitRetest c t) s = .next (holds z c t x h)) ∧
    (insOpc w = 0x0A → (z.core c).chainsPending t = false →
      let sum := match fld w 20 2 with | 0 => x.sum0 | 1 => x.sum1 | 2 => x.sum2 | _ => x.sum3
      exec (.waitRetest c t) s = .next (retire z c t (goesOn
        (x.setGreg (insRd w) (BitVec.ofNat 32 (if bitAt w 19 then sum / 2 ^ 32 else sum % 2 ^ 32)))))) ∧
    ((insOpc w = 0x0A ∨ insOpc w = 0x07) → (z.core c).chainsPending t = true →
      exec (.waitRetest c t) s = .next (holds z c t x { word := w, reason := 7 })) ∧
    (insOpc w = 0x10 → exec (.waitRetest c t) s = .next (z.issueArray c t x w)) ∧
    (insOpc w = 0x11 → exec (.waitRetest c t) s = .next (z.issueChain c t x w)) ∧
    (insOpc w = 0x12 → exec (.waitRetest c t) s = .next (z.issueDesc c t x w))

/-! The matrix array, Flowstone, the DMA engine and the tile walker (chapters 3, 4, 6 and 7). -/

/-- R65, R67, R68, R69, R94: the head of the load queue starts once every earlier STREAM of its buffer has started; the head of the
stream queue starts once every earlier LOAD of its buffer has completed, if the buffer then holds its tile, and stalls its queue with
a schedule fault of cause 0x9 if it does not; a CLAIM waits for the earlier chains' accesses, a RELEASE for the earlier writes. -/
def Obligations.ArrayStarts : Prop :=
  ∀ (s : State) (c : Fin 256) (q : ArrCmd) (rest : List ArrCmd), s.arrRuns c = true →
    let k := s.core c
    let a := k.arr
    let wide := fun (p : ArrCmd) => arrFmt (arrFmtX p.word) = .s32
    let popS := s.modCore c (fun k => { k with arr := { k.arr with streamQ := rest } })
    (a.loadQ = q :: rest → a.loadStall = false → a.frozen = false → (∀ r ∈ a.runs, arrOp r.cmd.word = 1 → r.stopped = true) →
      (∀ p ∈ a.streamQ, arrOp p.word = 2 → p.serial < q.serial → ¬wide q ∧ ¬wide p ∧ arrBuf p.word ≠ arrBuf q.word) →
      exec (.load c) s = .next (((s.modCore c (fun k => { k with arr := { k.arr with loadQ := rest } })).startLoad c
        q).checkLoadHead c)) ∧
    (a.streamQ = q :: rest → a.streamStall = false →
      (arrOp q.word = 2 → a.frozen = false → a.loadAhead (arrBuf q.word) q.serial (arrFmt (arrFmtX q.word) == .s32) = false →
        (∀ tile, a.tileCheck q.word false = none → a.buf (arrBuf q.word) = some tile →
          exec (.stream c) s = .next ((popS.startStream c q tile).checkStreamHead c)) ∧
        (a.buf (arrBuf q.word) = none → exec (.stream c) s = .next
          ((s.modCore c (fun k => { k with arr := { k.arr with streamStall := true } })).arrSched c q 9))) ∧
      (arrOp q.word = 3 → k.fls.pendingAccess (arrBank q.word) q.after = false →
        exec (.claim c) s = .next (s.takeOwner c q rest true)) ∧
      (arrOp q.word = 4 → (∀ r ∈ a.runs, arrOp r.cmd.word = 2 → r.stopped = true ∧ r.held = []) →
        exec (.release c) s = .next (s.takeOwner c q rest false)))

/-- R65, R87, R99, R104, R112, R131: what a command leaves as it ends, its write point passed and the chains carried on. The oldest
LOAD or STREAM completes once nothing of it is held; the oldest chain writes its thread's summary registers, or only counts where its
writes were withheld; an LDTAB makes its table valid where the CRC of its image holds, and invalid, with a hardware fault of cause
0x6, where it does not. -/
def Obligations.CommandEnds : Prop :=
  ∀ (s : State) (c : Fin 256), s.arrRuns c = true →
    (∀ i : Nat, let z := s.arrWritePoint c i
      let empty := ∃ r, (z.core c).arr.runs[i]? = some r ∧ r.held = []
      ((s.core c).arr.oldest 1 = some i → empty → exec (.loadDone c) s = .next (z.arrComplete c i)) ∧
      ((s.core c).arr.oldest 2 = some i → empty → exec (.streamDone c) s = .next (z.arrComplete c i))) ∧
    (∀ q r : ChainRun, (s.core c).fls.first 1 = some q →
      let p := (s.flsWritePoint c 0).carryOn c
      (p.core c).fls.first 1 = some r → r.cmd.serial = q.cmd.serial →
      let y := ((p.flushDue c r.cmd.serial).dropRun c).trcChain 2 c r.cmd r.squashed
      (∀ m, r.squashed = false → r.sum = some m → exec (.chainDone c) s =
        .next ((y.handSummary c r.cmd m).chainEnd c r.cmd.serial (some m.sum0))) ∧
      (r.squashed = true → exec (.chainDone c) s = .next ((y.cnt (pgFLS c) 0x58 1).chainEnd c r.cmd.serial none))) ∧
    (∀ (r : ChainRun) (b : Bool), (s.core c).fls.first 2 = some r → r.cmd.iss.bind = .resolved b → r.squashed = false →
      let z := ((s.flsWritePoint c 0).dropRun c).trcChain 2 c r.cmd false
      let kept := fun (k : Core) => k.fls.tabPar.filter (fun p => p / 256 != fhDst r.cmd.head)
      (∀ t, r.table = some t → exec (.ldtabDone c) s = .next
        ((z.modCore c (fun k => { k with fls := { k.fls with
          tables := Store.insert k.fls.tables (fhDst r.cmd.head) t, tabPar := kept k } })).chainEnd c r.cmd.serial none)) ∧
      (r.table = none → exec (.ldtabDone c) s = .next
        (((z.modCore c (fun k => { k with fls := { k.fls with
          tables := Store.erase k.fls.tables (fhDst r.cmd.head), tabPar := kept k } })).flsFault c r.cmd .hw 6 0).chainEnd c
            r.cmd.serial none)))

/-- R131: the write point of the oldest started command of a unit that has not passed its own: a resolved binding passes it, and the
writes that may then be made are; one still PENDING withholds every write of the command, whose reads it still makes, and is a schedule
fault. -/
def Obligations.WritePoint : Prop :=
  ∀ (s : State) (c : Fin 256) (i : Nat), s.arrRuns c = true →
    (∀ (op : Nat) (r : ArrRun), firstIdx (fun r => arrOp r.cmd.word == op && !r.stopped && !r.pastWrite) (s.core c).arr.runs 0 = some i →
      (s.core c).arr.runs[i]? = some r →
      ∀ u : CmdUnit, (u = .load ∧ op = 1) ∨ (u = .stream ∧ op = 2) →
        (∀ b, r.cmd.iss.bind = .resolved b → exec (.writePoint c u) s = .next ((s.modCore c (fun k =>
          { k with arr := { k.arr with runs := modAt (fun q => { q with pastWrite := true }) k.arr.runs i } })).settleArr c)) ∧
        (∀ ch bit sense inv, r.cmd.iss.bind = .pending ch bit sense inv → exec (.writePoint c u) s = .next
          (((((s.accReads c r).modCore c (fun k => { k with arr := { k.arr with runs := modAt (fun q =>
            { q with pastWrite := true, squashed := true, held := [], tile := none, fault := none
                     cmd := { q.cmd with iss := { q.cmd.iss with bind := .resolved false } } }) k.arr.runs i } })).missBinding c
            r.cmd.iss.bind).unresolved c r.cmd.iss).settleArr c))) ∧
    (firstIdx (fun r => !r.stopped && !r.pastWrite) (s.core c).fls.runs 0 = some i →
      exec (.writePoint c .fls) s = .next (s.flsWritePoint c i))

/-- R94, R99, R106, R107, R108: the head chain starts when the chains before it, carried on as far as they may be, allow it: a RUN whose
tables are valid, or else stalls the queue with cause 0xA; an LDTAB reads its image and keeps it only where its CRC holds. -/
def Obligations.ChainStarts : Prop :=
  ∀ (s : State) (c : Fin 256) (q : ChainCmd), s.arrRuns c = true →
    (let z := s.carryOn c
     z.chainReady c 1 = some q →
      ((z.core c).fls.tablesOk q.stages q.serial false = true →
        exec (.run c) s = .next ((((z.popChain c).trcChain 1 c q false).startRun c q).checkChainHead c)) ∧
      ((z.core c).fls.tablesOk q.stages q.serial false = false → exec (.run c) s = .next (z.flsStall c q 0xA))) ∧
    (s.chainReady c 2 = some q → let y := (s.popChain c).trcChain 1 c q false
      exec (.ldtab c) s = .next (y.cmRead c (fhSrc q.head) tableBytes q.iss.reader (fun z =>
        let image := z.cmBytes c (fhSrc q.head) tableBytes
        (z.addChainRun c { cmd := q, table := if tableCrcOk image then some (Table.ofBytes image) else none }).checkChainHead c))) ∧
    (∀ op, s.chainReady c op = some q ↔ ∃ rest, (s.core c).fls.queue = q :: rest ∧ (s.core c).fls.stall = false ∧
      fhOp q.head = op ∧ (s.core c).fls.mayStart q = true ∧ (op = 1 → (s.core c).bankWaits q = false))

/-- R149, R165, R167, R169 to R176, R179: one service of the stream whose turn it is. Where the duplicated address arithmetic agrees, a
block whose move succeeds counts as moved, one whose move fails stops the descriptor at that element, a TRANSPOSE reads its 64 rows and
then writes its 64 blocks, and a walk's stream moves the next block of its step; a mismatch stops the transfer with cause 0x5. -/
def Obligations.DmaBlocks : Prop :=
  ∀ (s : State) (c : Fin 256) (st : Fin 32) (kind : Nat) (d : Desc), s.served c st kind = some d →
    let b := s.beginServe c st d
    let n := d.rows.length
    let starts := d.started = true ∨ s.sendStart c d = none
    let serves := fun (i : Instr) (move : State × DmaRes Unit) =>
      (∀ y, move = (y, .ok ()) → exec i s = .next (y.moved c st 1)) ∧
      (∀ y e, move = (y, .error e) → exec i s = .next (y.dmaStop c st d e d.done))
    (Store.find s.slips (pgDMA c) = none →
      (kind = 1 → serves (.copy c st) (b.1.copyBlock c b.2 d.done)) ∧
      (kind = 2 → serves (.gather c st) (b.1.gatherBlock c b.2 d.done)) ∧
      (kind = 3 → serves (.scatter c st) (b.1.scatterBlock c b.2 d.done)) ∧
      (kind = 4 → serves (.ingest c st) (b.1.ingestBlock c b.2 d.done)) ∧
      (kind = 5 → starts → serves (.send c st) (b.1.sendBlock c st b.2 d.done)) ∧
      (kind = 6 → n < 64 →
        (∀ y row, b.1.transposeRow c b.2 n = (y, .ok row) → exec (.transpose c st) s =
          .next ((y.countRead c 1).modHead c st (fun q => { q with rows := q.rows ++ [row] }))) ∧
        (∀ y e, b.1.transposeRow c b.2 n = (y, .error e) → exec (.transpose c st) s = .next (y.dmaStop c st b.2 e n))) ∧
      (kind = 6 → 64 ≤ n → exec (.transpose c st) s = .next ((b.1.transposeBlock c b.2 d.done).moved c st 1)) ∧
      (∀ k, kind = 7 → Store.find (s.core c).dma.walks st = some k →
        let i := tbRun k.table - k.left
        let move := (s.modDma c (fun m => { m with lastServed := st })).walkBlock c d k i
        let k1 := { k with left := k.left - 1, step := if k.left = 1 then k.step + 1 else k.step }
        (∀ y, move = (y, .ok ()) → exec (.copy c st) s = .next ((y.modDma c (fun m =>
          { m with walks := Store.insert m.walks st k1 })).modHead c st (fun q => { q with done := q.done + 1 }))) ∧
        (∀ y e, move = (y, .error e) → exec (.copy c st) s = .next (y.dmaStop c st d e i)))) ∧
    (∀ m, Store.find s.slips (pgDMA c) = some m → bitAt (b.1.reg (pgDMA c) 0x40) 0 = true →
      let y := State.cnt { b.1 with slips := Store.erase b.1.slips (pgDMA c) } (pgDMA c) 0x70 1
      let stopped := fun (i : Nat) => y.dmaStop c st b.2 (.hw, 5, y.elemAddr c b.2 i) i
      (kind = 1 → exec (.copy c st) s = .next (stopped d.done)) ∧ (kind = 2 → exec (.gather c st) s = .next (stopped d.done)) ∧
      (kind = 3 → exec (.scatter c st) s = .next (stopped d.done)) ∧
      (kind = 4 → exec (.ingest c st) s = .next (stopped d.done)) ∧
      (kind = 5 → starts → exec (.send c st) s = .next (stopped d.done)) ∧
      (kind = 6 → exec (.transpose c st) s = .next (stopped (if n < 64 then n else d.done))))

/-- R168, R175: a descriptor whose last block has moved leaves its stream, and arrives on its keystone where it has KEY_EN, is no
SEND, and the keystone is its context's; a mesh block is written at its destination, and the last one arrives. R403: a block whose
context has ended is not written. -/
def Obligations.DmaCompletions : Prop :=
  ∀ (s : State) (c : Fin 256) (st : Fin 32),
    (∀ d, ((s.core c).dma.stream st).head? = some d → s.arrRuns c = true → d.moved = true →
      let y := (s.trcCmd 2 c 3 st d.ctx d.gen d.addr false).popDesc c st
      let k := y.key (dsKey d.word)
      (dsKeyEn d.word = true → dsKind d.word ≠ 5 → k.kind ≠ 0 → k.owner = d.ctx →
        exec (.descriptorDone c st) s = .next (y.keyArrive (dsKey d.word) none)) ∧
      (dsKeyEn d.word = false ∨ dsKind d.word = 5 → exec (.descriptorDone c st) s = .next y)) ∧
    (∀ i m, firstIdx (fun m => m.src == c.val && m.stream == st.val) s.mesh 0 = some i → s.mesh[i]? = some m →
      let z : State := { s with mesh := s.mesh.eraseIdx i }
      let y := if (s.core m.dst).inReset then z else z.cmPut m.dst m.addr m.bytes
      let tag := m.ctx + m.gen * 2 ^ 10
      (s.tagOpen tag = false → exec (.meshDelivery c st) s = .next (z.stragglerBlock m.ctx)) ∧
      (s.tagOpen tag = true → m.key = none → exec (.meshDelivery c st) s = .next y) ∧
      (∀ k, s.tagOpen tag = true → m.key = some k → (y.key k).kind ≠ 0 → (y.key k).owner = m.ctx →
        exec (.meshDelivery c st) s = .next (y.keyArrive k none)))

/-- R147 to R153, R156, R168: a tile walk. WALK starts it once its start checks pass, with its table and templates as they then stand;
WALK_STEP hands the step's transfer to its stream, or forms its commands; EMIT_COMMAND puts the next command into its unit's queue;
WALK_DONE completes it, and it arrives on its keystone. A failed start check, a step that would leave its windows (cause 0x4) and a
mismatch of the duplicated logic (cause 0x1) stop the walk. -/
def Obligations.TileWalk : Prop :=
  ∀ (s : State) (c : Fin 256) (st : Fin 32), s.arrRuns c = true →
    (∀ d, s.walkHead c st = some d →
      let a := fld d.word 64 23
      let b := s.cmBytes c a walkBytes
      (s.walkStartCheck c d b = none →
        let reads := (s.trcCmd 1 c 4 st d.ctx d.gen d.addr false).walkReads c a b
        (∀ y, reads = (y, .ok ()) → exec (.walk c st) s = .next (y.modDma c (fun m =>
          { m.setStream st (modAt (fun q => { q with started := true }) (m.stream st) 0) with
            walks := Store.insert m.walks st
              { table := b
                templates := if tbKind b = 1 then [] else
                  s.cmBytes c (tbTemplate b) (tbTemplateBytes b (leNat (s.cmBytes c (tbTemplate b) 8)))
                idx := (upTo 5).map (fun i => walkIndex d.word (i + 1)), desc := d } }))) ∧
        (∀ y e, reads = (y, .error e) → exec (.walk c st) s = .next (y.dmaStop c st d e 0))) ∧
      (∀ cause o, s.walkStartCheck c d b = some (.sched, cause, o) → exec (.walk c st) s = .next
        ((s.modHead c st (fun q => { q with stalled := true })).tilFault c d .sched cause o 0)) ∧
      (∀ cause o, s.walkStartCheck c d b = some (.ctx, cause, o) → exec (.walk c st) s = .next
        (((s.tilFault c d .ctx cause o 0).modDma c (fun m => m.discard st .ctx d.ctx)).checkDescHead c st))) ∧
    (∀ k, Store.find (s.core c).dma.walks st = some k → k.stopped = false →
      let stop := fun (z : State) (cls : FClass) (cause o : Nat) =>
        (z.setWalk c st { k with stopped := true }).tilFault c k.desc cls cause o k.step
      let z := (s.trcStep c st k).cnt64 (pgTIL c) 0x48 1
      (k.pend = [] → k.left = 0 → k.step < tbBound k.table 0 →
        (Store.find s.slips (pgTIL c) = none →
          (∀ o, k.overflow = some o → exec (.walkStep c st) s = .next (stop s .sched 4 o)) ∧
          (k.overflow = none → tbKind k.table = 1 →
            exec (.walkStep c st) s = .next (z.setWalk c st { k with left := tbRun k.table })) ∧
          (k.overflow = none → tbKind k.table ≠ 1 →
            exec (.walkStep c st) s = .next (z.setWalk c st { k with step := k.step + 1, pend := k.commands }))) ∧
        (∀ p, Store.find s.slips (pgTIL c) = some p → bitAt (s.reg (pgTIL c) 0x40) 0 = true → exec (.walkStep c st) s = .next
          (stop (State.cnt { s with slips := Store.erase s.slips (pgTIL c) } (pgTIL c) 0x5C 1) .hw 1 (p % 3)))) ∧
      (k.pend = [] → k.left = 0 → tbBound k.table 0 ≤ k.step → exec (.walkDone c st) s = .next
        ((((s.modDma c (fun m => { m with walks := Store.erase m.walks st })).cnt (pgTIL c) 0x58 1).trcCmd 2 c 4 st
          k.desc.ctx k.desc.gen k.desc.addr false).endDesc c st k.desc)) ∧
      (∀ bs addr rest, k.pend = (bs, addr) :: rest → (s.core c).emitsBefore k = false →
        let y := (s.setWalk c st { k with pend := rest }).cnt64 (pgTIL c) 0x50 1
        let iss : Machine.Issue := ⟨addr, k.desc.thread, k.desc.pc, k.desc.ctx, k.desc.gen, .resolved true, true⟩
        (tbKind k.table = 2 → (s.core c).arr.full (leNat bs) = false → exec (.emitCommand c st) s = .next
          ((y.markEmitted c k.desc.thread (if arrOp (leNat bs) = 1 then 0 else 1)).pushArray c (leNat bs) iss)) ∧
        (tbKind k.table ≠ 2 → (s.core c).fls.queue.length < 4 →
          let u := (y.markEmitted c k.desc.thread 2).modCore c (fun x => x.enqueueChain ⟨leNat (bs.take 32),
            (upTo ((bs.length - 32) / 8)).map (fun i => leNat ((bs.drop (32 + 8 * i)).take 8)), (s.core c).chains, iss⟩)
          exec (.emitCommand c st) s = .next (if (s.core c).fls.queue = [] then u.checkChainHead c else u))))

/-! The schedule (chapters 1, 8 and 15). -/

/-- R29, R30, R185, R212: the requests of SCH_CMD, made by a master that owns the page. Each accepted request moves the job as R29's table
allows; a request that the job state does not list is refused with code 0x01 and leaves the job state as it was; a start tick too
early, off a frame boundary or without an aligned tick is refused with 0x02, 0x03 or 0x04. -/
def Obligations.JobRequests : Prop :=
  ∀ (s : State) (m : Master), Commands s m pgSCH →
    let arg := s.reg64 pgSCH 0x48
    let j := s.sch.job
    let moves := fun (i : Instr) (to' : Job) => ∃ u, exec i s = .next u ∧ u.sch.job = to'
    let refuses := fun (i : Instr) (code : Nat) => ∃ u, exec i s = .next u ∧ u.sch.job = j ∧ u.sch.refuse = code
    let inTime := s.tick + 1000000 ≤ arg
    let framed := arg % 2048 = 0
    let ticks := s.tck.state = .aligned ∨ s.tck.state = .root
    (j = .idle → arg % 4096 = 0 → 64 ≤ s.reg pgSCH 0x50 →
      ∃ u, exec (.schLoad m) s = .next u ∧ u.sch.job = .loading ∧ u.sch.load = some (arg, s.reg pgSCH 0x50)) ∧
    (j ≠ .idle → refuses (.schLoad m) 1) ∧
    (j = .idle → (arg % 4096 ≠ 0 ∨ s.reg pgSCH 0x50 < 64) → refuses (.schLoad m) 6) ∧
    (j = .loaded → inTime → framed → ticks → ∃ u, exec (.schArm m) s = .next u ∧ u.sch.job = .armed ∧ u.sch.start = arg) ∧
    (j = .parked → inTime → framed → ticks → ∃ u, exec (.schResume m) s = .next u ∧ u.sch.job = .armed ∧ u.sch.start = arg) ∧
    (j ≠ .loaded → refuses (.schArm m) 1) ∧ (j ≠ .parked → refuses (.schResume m) 1) ∧
    (∀ i, (i = .schArm m ∧ j = .loaded ∨ i = .schResume m ∧ j = .parked) →
      (¬inTime → refuses i 2) ∧ (inTime → ¬framed → refuses i 3) ∧ (inTime → framed → ¬ticks → refuses i 4)) ∧
    (j = .armed → s.tick < s.sch.start → moves (.schDisarm m) .loaded) ∧
    ((j ≠ .armed ∨ s.sch.start ≤ s.tick) → refuses (.schDisarm m) 1) ∧
    (j = .running → ∃ u, exec (.schPark m) s = .next u ∧ u.sch.job = .running ∧ u.sch.parkReq = true) ∧
    (j ≠ .running → refuses (.schPark m) 1) ∧
    ((j = .running ∨ j = .parked ∨ j = .rewinding) → moves (.schStop m) .stopped) ∧
    (¬(j = .running ∨ j = .parked ∨ j = .rewinding) → refuses (.schStop m) 1) ∧
    ((j = .loaded ∨ j = .stopped) → ∃ u, exec (.schUnload m) s = .next u ∧ u.sch.job = .idle ∧ u.sch.image = none) ∧
    ((j = .running ∨ j = .parked) → moves (.schUnload m) .stopped) ∧
    ((j = .idle ∨ j = .loading ∨ j = .armed ∨ j = .rewinding) → refuses (.schUnload m) 1)

/-- R29, R31, R186, R187, R345, R510: the events of a job. A load that ends is LOADED or back to IDLE; the start tick makes an armed
device RUNNING in pier 0, with its span count at 0 unless it resumes or adopts; pier 0 seals, or fails back to LOADED; a span starts; its
work ends at W in a pier; the pier seals, or stops the job where a STOP is held for its span. -/
def Obligations.JobEvents : Prop :=
  ∀ (s : State),
    (∀ addr len, s.sch.job = .loading → s.sch.load = some (addr, len) →
      ∃ u, exec .imageLoadDone s = .next u ∧ (u.sch.job = .loaded ∨ u.sch.job = .idle)) ∧
    (s.sch.job = .armed → s.tick ≤ s.sch.start → ∃ u, exec .startTick s = .next u ∧ u.sch.job = .running ∧ u.sch.place = .pier0 ∧
      u.sch.first = s.sch.start ∧ u.vdt.epoch = 0 ∧
      (s.sch.resume = false → s.sch.adopted = false → u.sch.seq = 0) ∧
      (s.sch.resume = true ∨ s.sch.adopted = true → u.sch.seq = s.sch.seq)) ∧
    (s.sch.job = .running → s.sch.place = .pier0 → ∀ reports,
      let z := elapseTo (s.sch.first + 2047) s
      (z.p0Fault reports = none → exec (.pier0Seal reports) s = .next z.sealStart) ∧
      (∀ d r, z.p0Fault reports = some (d, r) → ∃ u, exec (.pier0Seal reports) s = .next u ∧ u.sch.job = .loaded ∧
        u.sch.p0Err = d * 2 ^ 16 + r)) ∧
    (s.sch.job = .running → s.sch.place = .none →
      exec .spanStart s = .next (((elapseTo s.sch.first s).startSpan (s.sch.seq + 1) s.sch.first).schAgrees 0 0)) ∧
    (s.sch.job = .running → s.sch.place = .span → s.train.engines.any (fun e => e.2.busy) = false →
      ∃ u, exec .spanEnd s = .next u ∧ u.sch.place = .pier ∧
        ∀ c t, (u.thread c t).pierCopy = some (u.thread c t).a ∨ u.thread c t = {}) ∧
    (s.sch.job = .running → s.sch.place = .pier → s.pie.raises.any (fun r => !r.next && decide (r.tick + 32 ≤ s.deadline)) = false →
      let z := (elapseTo (s.pierFirst + 2047) s).sealCompare
      (z.sch.stops.contains (z.sch.seq % 256) = true → ∃ u, exec .pierSeal s = .next u ∧ u.sch.job = .stopped ∧
        u.sch.seq = z.sch.seq - 1) ∧
      (z.sch.stops.contains (z.sch.seq % 256) = false →
        exec .pierSeal s = .next (((z.lateFlits.trcPier 1).seal).afterSeal)))

/-- R202, R203: wake entries, in the order of a core's list. At a WAKE entry the comparator fires: the core is clocked, or its clocks
run from the first tick of the entry's slot, its first core cycle. A WAKE that fires at or before the GATE in front of it cancels that
GATE. A GATE stops the clocks of an idle core, to the pier frame where the span's work has ended, and is a schedule fault of a core
that is not. -/
def Obligations.WakeEntries : Prop :=
  ∀ (s : State) (c : Fin 256) (g : Nat × Nat) (rest : List (Nat × Nat)), s.inFrames = true →
    (s.wakeOf c).drop (Store.get 0 s.sch.wakeIdx c) = g :: rest →
    let i := Store.get 0 s.sch.wakeIdx c
    let fires := fun (w n : Nat) => ∃ u, exec (.wake c) s = .next u ∧ Store.get 0 u.sch.wakeIdx c = n ∧
      ((u.core c).clocked = true ∨ (u.core c).wakeAt = some (s.gateTick w))
    (weWake g.2 = true → fires g.2 (i + 1)) ∧
    (weWake g.2 = false →
      (∀ w l, rest = w :: l → s.wakeTick w.2 ≤ s.gateTick g.2 → fires w.2 (i + 2)) ∧
      ((∀ w l, rest = w :: l → s.gateTick g.2 < s.wakeTick w.2) →
        let z := (elapseTo (s.gateTick g.2) s).schAgrees (c.val + 1) g.1
        let y : State := { z with sch := { z.sch with wakeIdx := Store.set 0 z.sch.wakeIdx c (i + 1) } }
        exec (.wake c) s = .next s ∧
        ((y.core c).gateOk = true → ∃ u, exec (.gate c) s = .next u ∧ (u.core c).clocked = false ∧
          (u.core c).wakeAt = if y.inSpan then none else some y.pierFirst) ∧
        ((y.core c).gateOk = false → exec (.gate c) s =
          .next ((y.logErr pgSCH (3 * 2 ^ 28 + 3 * 2 ^ 24 + c * 2 ^ 16) y.schPos g.1).raiseSched))))

/-- R199, R204, R296, R455, R456: a compiled refresh window opens at its tick, and its refreshes move the bank pointer on and change
nothing else; in a pier frame the V/F point becomes the span's VF_NEXT, at tick 1,024 of the frame for a raise whose voltage is in
band and at tick 64 otherwise; a raise out of band is not switched, and is a hardware fault that names the next span. The rewind that
follows switches it again, 1,024 ticks before the replay. -/
def Obligations.RefreshAndPoint : Prop :=
  ∀ (s : State),
    (∀ (n g : Fin 8) (w : Nat), s.compiled = true → s.refreshSet.filter (fun w => fld w 0 3 == n.val && bitAt (fld w 8 8) g) = [w] →
      let base := s.tick / 2048 * 2048
      let ptr := (Store.get 0 s.mem.refPtr (n.val * 8 + g.val) + fld w 27 12 / 26) % 64
      exec (.refreshWindow n g) s = .next (elapseTo (if s.tick ≤ base + fld w 16 11 then base + fld w 16 11
        else base + 2048 + fld w 16 11) { s with mem := { s.mem with refPtr := Store.set 0 s.mem.refPtr (n.val * 8 + g.val) ptr } })) ∧
    (∀ d, s.sch.job = .running → s.sch.place = .pier → s.pwr.failed = none → s.pwr.due = none → s.curDesc = some d →
      d.vfKeep = false →
      let raise := (elapseTo (s.pierFirst + 1024) s).seqAgrees d.vfNext
      let lower := (elapseTo (s.pierFirst + 64) s).seqAgrees d.vfNext
      (s.pwr.point < d.vfNext → ∃ u, exec (.vfChange true) s = .next u ∧ u.pwr.point = d.vfNext ∧ u.pwr.due = some d.vfNext ∧
        u.tick = raise.tick) ∧
      (s.pwr.point < d.vfNext → exec (.vfChange false) s = .next (raise.vfFail d.vfNext)) ∧
      (∀ b, d.vfNext ≤ s.pwr.point → ∃ u, exec (.vfChange b) s = .next u ∧ u.pwr.point = d.vfNext ∧ u.pwr.due = some d.vfNext ∧
        u.tick = lower.tick)) ∧
    (∀ p r, s.sch.job = .rewinding → s.pwr.failed = some p → s.pie.agreed = some r →
      (∀ x ∈ s.pie.raises ++ s.pie.deferred, x.next = false) →
      let z := (elapseTo (r - 1024) s).seqAgrees p
      (∃ u, exec (.vfChange true) s = .next u ∧ u.pwr.point = p ∧ u.pwr.failed = none ∧ u.tick = z.tick) ∧
      exec (.vfChange false) s = .next (z.vfFail p))

/-! The fabric tick (chapter 8). -/

/-- R189, R193, R194, R195, R267: an exchange over the parent link: the one that the port's framing words have brought, discarded where
a frame of it carried a retransmission, else the one the command measured. Its offset is half the difference of the two one-way times, plus the port's asymmetry. A discarded exchange is
counted, and logged where it took more than 4 frames. A kept one takes an ALIGNED device whose offset is above 1 tick to ACQUIRING, and
an ACQUIRING or HOLDOVER one to ALIGNED with its sixteenth offset in a row of at most a quarter of a tick; where no step is allowed
the count does not change, and the rate moves by at most one 62.5 ps step, once in a frame. -/
def Obligations.TickExchanges : Prop :=
  ∀ (s : State) (t1 t2 t3 t4 : Nat) (retx : Bool),
    let i : Instr := .tickExchange t1 t2 t3 t4 retx
    let st := s.tck.state
    (s.tckPort = none ∨ st = .root ∨ st = .lost → exec i s = .next s) ∧
    (∀ p, s.tckPort = some p → st = .free → let r := s.takeExchange p ⟨t1, t2, t3, t4, retx⟩
      exec i s = .next ((r.1.tckEnter .acquiring).tckExchange p r.2.t1 r.2.t2 r.2.t3 r.2.t4 r.2.bad)) ∧
    (∀ p x, (s.oport (s.pmap p).phys).exch = some x → let w := if x.bad then s else elapseTo x.over s
      (s.takeExchange p ⟨t1, t2, t3, t4, retx⟩).2 = { x with bad := x.bad || (w.oport (s.pmap p).phys).spoilt x }) ∧
    (∀ p, (s.oport (s.pmap p).phys).exch = none → s.takeExchange p ⟨t1, t2, t3, t4, retx⟩ = (s, ⟨t1, t2, t3, t4, retx⟩)) ∧
    ∀ p, s.tckPort = some p → (st = .acquiring ∨ st = .aligned ∨ st = .holdover) →
      let r := s.takeExchange p ⟨t1, t2, t3, t4, retx⟩
      let x := r.2
      let a : Int := (((x.t4 : Int) - x.t3) - ((x.t2 : Int) - x.t1)) / 2 + s.tckAsym p
      let d : Int := (((x.t2 : Int) - x.t1) + ((x.t4 : Int) - x.t3)) / 2
      let z := r.1.cnt pgTCK 0x68 1
      (s.tck.discards x.t1 x.t4 d x.bad = true →
        exec i s = .next (if x.t1 + 4 * 2048 * 16 < x.t4 then z.tckLog 2 p else z)) ∧
      (s.tck.discards x.t1 x.t4 d x.bad = false → ∃ u, exec i s = .next u ∧ u.tck.lastKept = r.1.tick ∧
        (st = .aligned → 16 < a.natAbs → u.tck.state = .acquiring) ∧
        (st = .aligned → a.natAbs ≤ 16 → u.tck.state = .aligned) ∧
        (st ≠ .aligned → a.natAbs ≤ 4 → 15 ≤ s.tck.good → u.tck.state = .aligned) ∧
        (st ≠ .aligned → (4 < a.natAbs ∨ s.tck.good < 15) → u.tck.state = st) ∧
        (s.mayStep = false → u.tick = r.1.tick ∧ u.frac = s.frac ∧ (u.tck.slewed - s.tck.slewed).natAbs ≤ 1 ∧
          (s.tck.slewFrame = some (r.1.tick / 2048) → u.tck.slewed = s.tck.slewed)))

/-- R192, R194, R197, R215: HOLDOVER begins 2 frames after the last kept exchange and turns to the backup port; on a device with
ROOT_BACKUP it is the root's loss, and the device is ROOT at depth 0. LOST follows 5 ms later, and withdraws a device that has a job
armed, running, rewinding or parked. A write of TCK_CFG with ROOT in IDLE or LOADED makes the device ROOT; a parent taken away from an
ALIGNED device puts it in HOLDOVER, and its exchanges begin anew. -/
def Obligations.TickStates : Prop :=
  ∀ (s : State),
    (∀ p, s.tckPort = some p → (s.tck.state = .aligned ∨ s.tck.state = .acquiring) →
      ∃ u, exec .tickHoldover s = .next u ∧ u.tick = (elapseTo (s.tck.lastKept + 4096) s).tick ∧
        (bitAt (s.reg pgTCK 0x48) 11 = true → u.tck.state = .root ∧ u.tck.depth = 0) ∧
        (bitAt (s.reg pgTCK 0x48) 11 = false → u.tck.state = .holdover ∧ u.tck.holdSince = u.tick ∧ u.tck.good = 0 ∧
          (s.tck.usingBackup = false → tckBackup (s.reg pgTCK 0x48) < 16 → u.tck.usingBackup = true ∧ u.tck.hist = []))) ∧
    (s.tck.state = .holdover →
      let z := (((elapseTo (s.tck.holdSince + 5000000) s).tckEnter .lost).tckLog 4 (s.tckPort.getD 31)).setInt pgTCK 4
      ((s.sch.job = .armed ∨ s.sch.job = .running ∨ s.sch.job = .rewinding ∨ s.sch.job = .parked) →
        exec .tickLost s = .next (z.raiseWithdraw 1 z.devId)) ∧
      (s.sch.job = .idle ∨ s.sch.job = .loaded → ∃ u, exec .tickLost s = .next u ∧ u.tck.state = .acquiring ∧ u.tck.good = 0 ∧
        u.tck.hist = []) ∧
      (s.sch.job = .loading ∨ s.sch.job = .stopped → exec .tickLost s = .next z)) ∧
    (∀ m v, Commands s m pgTCK →
      let old := s.reg pgTCK 0x48
      ∃ u, exec (.tckReparent m v) s = .next u ∧ u.tick = s.tick ∧
        (s.mayStep = true → v.getLsbD 10 = true → u.tck.state = .root ∧ u.tck.depth = 0 ∧ u.tck.usingBackup = false) ∧
        (s.mayStep = false → bitAt old 10 = false → tckParent v.toNat ≠ tckParent old →
          (tckParent v.toNat < 16 → s.tck.state = .aligned →
            u.tck.state = .holdover ∧ u.tck.hist = [] ∧ u.tck.usingBackup = false) ∧
          (16 ≤ tckParent v.toNat → s.tck.state ≠ .root → u.tck.state = .free ∧ u.tck.depth = 0xFF)) ∧
        (s.mayStep = false → s.tck.state = .holdover → s.tck.usingBackup = false → bitAt old 10 = false →
          tckParent v.toNat = tckParent old → tckBackup v.toNat < 16 → tckBackup v.toNat ≠ tckBackup old →
          u.tck.usingBackup = true ∧ u.tck.hist = []))

/-! The Viaduct (chapter 9). -/

/-- R218, R222, R225, R231, R233, R242, R244: what happens to a flit on a port, in the order of the checks, once the two copies of the
logic have been compared. A flit of no bytes has no effect; one on a port that is retired, or neither in partition nor an EXPORT port
that may carry it, one of another epoch or during a rewind, and one of a context that is not OPEN in its generation is dropped and
counted. A flit for this device goes to its engine, or to its core's memory; an A-class flit is delivered in its order, held, or
buffered, and one that is not buffered gives its credit back; a flit for another device waits in its input port's FIFO, or its buffers.
-/
def Obligations.FlitArrivals : Prop :=
  ∀ (s0 : State) (p : Fin 20) (head : FlitHead) (body : List Byte),
    let s := s0.vdtCompare
    let h := head.bits.toNat
    let cls := head.cls.val
    let f : Flit := ⟨h, (body ++ List.replicate 240 0#8).take 240⟩
    let gives := fun (u : State) => exec (.flitReceive p head body) s0 = .next u
    let port := (s.vport p).retire = false ∧ (s.inPart p = true ∨ s.isExport p = true ∧ fltCtx h = 0 ∧ fltAclass h = true ∧
      (fltCore h = 0xFC ∨ fltCore h = 0xFE))
    let epoch := s.sch.job ≠ .rewinding ∧ fltEpoch h = s.vdt.epoch
    let y := if fltAclass h = true then s.freeCredit p (fltVc h) cls else s
    (Store.find s0.slips pgVDT = none → s = s0) ∧
    (fltLen h = 0 → gives s) ∧
    (fltLen h ≠ 0 → ¬port → gives (s.cnt pgVDT 0xA0 1)) ∧
    (fltLen h ≠ 0 → port → ¬epoch → gives (s.cnt pgVDT 0xA4 1)) ∧
    (fltLen h ≠ 0 → port → epoch → s.tagOpen (fltTag h) = false → (s.ctxOf (fltCtx h)).st ≠ .closing → gives (y.cnt pgVDT 0xA8 1)) ∧
    (fltLen h ≠ 0 → port → epoch → s.tagOpen (fltTag h) = false → (s.ctxOf (fltCtx h)).st = .closing →
      ∃ u, gives u ∧ (u.ctxOf (fltCtx h)).tdFlits = satAt max32 ((s.ctxOf (fltCtx h)).tdFlits + 1)) ∧
    (fltLen h ≠ 0 → port → epoch → s.tagOpen (fltTag h) = true →
      (fltDest h = s.devId → fltCtx h = 0 →
        (fltCore h = 0xFB → gives (y.takeCloseFlit p f.body)) ∧
        (fltCore h = 0xFC → p.val = (y.pmap (16 + fld (y.reg pgSEEP 0x40) 4 2)).phys → gives (y.takeSeepFlit (f.body.take (fltLen h)))) ∧
        (fltCore h = 0xFC → p.val ≠ (y.pmap (16 + fld (y.reg pgSEEP 0x40) 4 2)).phys → gives (y.cnt pgVDT 0xB0 1)) ∧
        (fltCore h = 0xFD → gives (y.takeBuddyFlit p (fltOffset h) (f.body.take (fltLen h)))) ∧
        (fltCore h = 0xFE → gives (y.takeStateFlit p (fltSrcId h) (fltOffset h) (fltLast h) (f.body.take (fltLen h)))) ∧
        (fltCore h = 0xFF → gives (y.takeSealFlit p f.body)) ∧
        (fltCore h < 0xFB → gives (y.cnt pgVDT 0xB0 1))) ∧
      (fltDest h = s.devId → fltCtx h ≠ 0 → fltAclass h = false →
        (s.corePresent (fltCore h) = false ∨ (s.core (fltCore h)).inReset = true → gives (s.cnt pgVDT 0xB0 1)) ∧
        (s.corePresent (fltCore h) = true → (s.core (fltCore h)).inReset = false → s.cmIn (fltOffset h) (fltLen h) = false →
          gives (s.vdtFault .ctx 9 (s.vdtPos p h) 0 (vdtIds h) (fltCtx h))) ∧
        (s.corePresent (fltCore h) = true → (s.core (fltCore h)).inReset = false → s.cmIn (fltOffset h) (fltLen h) = true →
          let z := (s.cnt64 pgVDT 0x90 1).cmPut (fltCore h) (fltOffset h) (f.body.take (fltLen h))
          let x : State := { z with vdt := { z.vdt with runs := z.colRuns h } }
          gives (if fltLast h = true ∧ fltKeyEn h = true then x.delivered p h (z.colRun h) else x))) ∧
      (fltDest h = s.devId → fltCtx h ≠ 0 → fltAclass h = true →
        let key := fltSrcId h * 8 + fltVc h
        let gap := (fltSeq h + 2 ^ 16 - Store.get 0 s.vdt.expect key) % 2 ^ 16
        (s.rxEntry (fltSrcId h) = false → gives (y.cnt pgVDT 0xB0 1)) ∧
        (s.rxEntry (fltSrcId h) = true → gap = 0 →
          gives ((y.deliverA (s.vdt.reorder.length + s.vdt.abuf.length) p f).gapCheck key true)) ∧
        (s.rxEntry (fltSrcId h) = true → 0 < gap → gap ≤ 255 → s.vdt.reorder.length < 4096 →
          ∃ u, gives u ∧ u.vdt.reorder = s.vdt.reorder ++ [(p.val, f)] ∧ u.vdt.abuf = s.vdt.abuf) ∧
        (s.rxEntry (fltSrcId h) = true → 0 < gap → 255 < gap ∨ 4096 ≤ s.vdt.reorder.length →
          ∃ u, gives u ∧ u.vdt.reorder = s.vdt.reorder ∧ u.vdt.abuf = s.vdt.abuf ++ [⟨f, p, cls, s.tick⟩])) ∧
      (fltDest h ≠ s.devId → fltAclass h = false →
        (128 ≤ (s.vport p).fifo.length → gives (s.slotError 3 (s.vdtPos p h) 0 (vdtIds h))) ∧
        ((s.vport p).fifo.length < 128 → ∃ u, gives u ∧ ⟨f, s.tick + 50, s.tick⟩ ∈ (u.vport p).fifo ∧
          (u.vport p).fifo.length = (s.vport p).fifo.length + 1)) ∧
      (fltDest h ≠ s.devId → fltAclass h = true →
        ∃ u, gives u ∧ u.vdt.abuf = s.vdt.abuf ++ [⟨f, p, cls, s.tick + 50⟩]))

/-- R190, R218, R223, R224, R225, R241, R261, R268: the next slot of a port that sends framing words begins at the next multiple of 32
ticks that it has not yet sent, and goes out as two half-slots. The flits of its entry go out first, then A-class flits in the positions
left that no retransmission takes. The flits of a local entry come from the core's injection buffer, those of a through entry from
the input port's FIFO; a flit that is missing, or not eligible at its position, is the slot error underrun (0x2), and the entry's other
positions stay empty; no entry acts on an EXPORT port, and the positions of a closed context's entry stay empty without an error. -/
def Obligations.SlotTransmission : Prop :=
  ∀ (s : State) (p : Fin 20),
    (let t := max ((s.tick + 31) / 32 * 32) (s.vport p).nextSlot
     (s.framingOn p t = false → exec (.slotTransmit p) s = .next s) ∧
     (s.framingOn p t = true →
      let z0 := elapseTo t s
      let z := (z0.setVport p { z0.vport p with nextSlot := t + 32 }).vdtCompare
      let halves := fun (y : State) (again : List Nat) => (y.transmitHalf p t again 0).transmitHalf p t again 1
      (z.lport p = none ∨ z.carriesFlits p = false → exec (.slotTransmit p) s = .next (halves z (z.resendHalves p t 0))) ∧
      (∀ l, z.lport p = some l → z.carriesFlits p = true →
        let y := (z.discardA).discardLocal
        let w := if y.isExport p = true then 0 else (y.slotEntry l t).getD 0
        let q := (y.pmap (fld w 15 5)).phys
        let sends := fun (r : SlotRun) =>
          let again := r.s.resendHalves p t r.spare
          let free := (upTo 30).filter (fun pos => decide (r.spare ≤ pos) && !again.contains (pos / 15) &&
            !(r.s.sentIn p t (pos / 15)).any (fun x => x.1 == pos % 15))
          exec (.slotTransmit p) s = .next (halves (r.s.spareFrom p t free) again)
        (bitAt w 0 = false → sends ⟨y, 0⟩) ∧
        (bitAt w 0 = true → (y.ctxOf (fld w 25 10)).st ≠ .open_ → bitAt w 1 = false → sends ⟨y, fld w 20 5⟩) ∧
        (bitAt w 0 = true → (y.ctxOf (fld w 25 10)).st ≠ .open_ → bitAt w 1 = true →
          sends ⟨y.setVport q { y.vport q with fifo := y.dropClosed (y.vport q).fifo }, fld w 20 5⟩) ∧
        (bitAt w 0 = true → (y.ctxOf (fld w 25 10)).st = .open_ → bitAt w 1 = false →
          sends (y.takeLocal (fld w 20 5) p t (fld w 2 8 * 32 + fld w 10 5) (fld w 25 10) (y.slotIndex t) 0)) ∧
        (bitAt w 0 = true → (y.ctxOf (fld w 25 10)).st = .open_ → bitAt w 1 = true →
          sends (y.takeThrough (fld w 20 5) p t q (fld w 25 10) (y.slotIndex t) 0))))) ∧
    (∀ n t key ctx idx j, let pos := p.val * 2 ^ 19 + t % 2048 / 32 * 2 ^ 10 + ctx
      (Store.get [] s.vdt.inject key = [] → s.takeLocal (n + 1) p t key ctx idx j =
        ⟨s.slotError 2 pos idx (s.devId * 2 ^ 16), j + n + 1⟩) ∧
      (∀ f e rest, Store.get [] s.vdt.inject key = (f, e) :: rest →
        (fltCtx f.head ≠ ctx → s.takeLocal (n + 1) p t key ctx idx j = ⟨s.vdtFault .sched 0xA pos idx (vdtIds f.head) 0, j + n + 1⟩) ∧
        (fltCtx f.head = ctx → fltAclass f.head = true → s.takeLocal (n + 1) p t key ctx idx j = ⟨s, j⟩) ∧
        (fltCtx f.head = ctx → fltAclass f.head = false →
          s.takeLocal (n + 1) p t key ctx idx j = ((({ s with vdt := { s.vdt with
            inject := Store.set [] s.vdt.inject key rest } }).sendFlit p t j f).colSent p e).takeLocal n p t key ctx idx (j + 1)))) ∧
    (∀ n t (q : Fin 20) ctx idx j f rest, (s.vport q).fifo = f :: rest → s.tagOpen (fltTag f.flit.head) = true →
      let pos := q.val * 2 ^ 19 + t % 2048 / 32 * 2 ^ 10 + ctx
      (t + 32 * j / 30 < f.eligible → s.takeThrough (n + 1) p t q ctx idx j =
        ⟨s.setVport q (s.vport q) |>.slotError 2 pos idx (vdtIds f.flit.head), j + n + 1⟩) ∧
      (f.eligible ≤ t + 32 * j / 30 → fltCtx f.flit.head = ctx → s.takeThrough (n + 1) p t q ctx idx j =
        (((s.setVport q { s.vport q with fifo := rest, slack := min (t + 32 * j / 30 - f.eligible) (s.vport q).slack }).sendFlit p t j
          f.flit).cnt64 pgVDT 0x90 1).takeThrough n p t q ctx idx (j + 1)))

/-- R234, R235: an alarm word, that of the first copy whose CRC-8 verifies. With no good copy, on a port out of partition, of a reserved
TYPE, or heard within 100 µs, it has no effect; otherwise it is counted, sent on through every other port in partition, and acted
on. R233: a gap in an A-class sequence that stays open for REORDER_US is a hardware fault. -/
def Obligations.AlarmsAndGaps : Prop :=
  ∀ (s : State),
    (∀ (p : Fin 20) (w : AlarmCopies),
      let ok := fun (v : BitVec 64) (c : BitVec 8) => crc8 (leBytes 8 v.toNat) = c.toNat
      (ok w.word w.crc → goodCopy w = some w.word.toNat) ∧
      (¬ok w.word w.crc → ok w.again w.crcAgain → goodCopy w = some w.again.toNat) ∧
      (¬ok w.word w.crc → ¬ok w.again w.crcAgain → exec (.alarmReceive p w) s = .next s) ∧
      ∀ v, goodCopy w = some v →
        let z0 := (s.cnt pgVDT 0xAC 1).setInt pgVDT 1
        let z := z0.floodAlarm v (some p.val)
        (s.inPart p = false ∨ fld v 0 4 = 0 ∨ 4 ≤ fld v 0 4 ∨ s.knowsAlarm v = true → exec (.alarmReceive p w) s = .next s) ∧
        (s.inPart p = true → s.knowsAlarm v = false →
          (fld v 0 4 = 1 → exec (.alarmReceive p w) s = .next (z.takeRewind (fld v 4 16) (fld v 32 32))) ∧
          (fld v 0 4 = 2 → exec (.alarmReceive p w) s = .next (z.takeWithdraw (fld v 32 32))) ∧
          (fld v 0 4 = 3 → exec (.alarmReceive p w) s = .next (z.takeStop (fld v 32 32))) ∧
          (fld v 0 4 = 3 → bitAt v 40 = false → (s.sch.job = .running ∨ s.sch.job = .parked ∨ s.sch.job = .rewinding) →
            ∃ u, exec (.alarmReceive p w) s = .next u ∧ u.sch.job = .stopped)) ∧
        (∀ q < 20, z0.inPart q = true → q ≠ p.val → Out.alarm q s.tick v (crc8 (leBytes 8 v)) ∈ z.out) ∧
        (∀ o ∈ z.out, o ∈ z0.out ∨ ∃ q < 20, z0.inPart q = true ∧ q ≠ p.val ∧ o = Out.alarm q s.tick v (crc8 (leBytes 8 v))) ∧
        z.vdt.alarms = ((⟨v, s.tick⟩ :: s.vdt.alarms).take 16)) ∧
    (∀ src (vc : Fin 8),
      (Store.find s.vdt.gapSince (src * 8 + vc) = none → exec (.reorderTimeout src vc) s = .next s) ∧
      (∀ t, Store.find s.vdt.gapSince (src * 8 + vc) = some t →
        let z := elapseTo (t + 1000 * max 1 (fld (s.reg pgVDT 0x40) 8 8)) s
        exec (.reorderTimeout src vc) s =
          .next (({ z with vdt := { z.vdt with gapSince := Store.erase z.vdt.gapSince (src * 8 + vc) } }).vdtFault .hw 6
            (vc * 2 ^ 16) 0 (src % 2 ^ 16 * 2 ^ 16 + z.devId) 0)))

/-! Rewinds and patches (chapters 9 and 14). -/

/-- R348 to R353, R355, R382, R456: a REWIND word for the span that runs, or whose pier frame runs, returns every thread, the step and
every unit to the last sealed pier. A raise of this device sends its own word, for the span at hand or the next; while REWINDING it
proposes again where it may, and is held to the agreed tick where it may not or comes too late. Once the restore is done the span is
replayed at the agreed tick, in the next epoch, or the device parks where it holds a WITHDRAW for that span; a restore that meets an
uncorrectable error withdraws the device. A V/F switch still missing at the agreed tick raises again. -/
def Obligations.Rewinds : Prop :=
  ∀ (s : State),
    (∀ (p : Fin 20) (w : AlarmCopies) (v : Nat), goodCopy w = some v → s.inPart p = true → s.knowsAlarm v = false → fld v 0 4 = 1 →
      s.sch.job = .running → (s.sch.place = .span ∨ s.sch.place = .pier) → fld v 32 8 = s.sch.seq % 256 →
      ∃ u, exec (.alarmReceive p w) s = .next u ∧ u.sch.job = .rewinding ∧ u.pie.target = s.sch.seq ∧
        u.train.step = s.train.stepCopy ∧ u.mesh = [] ∧
        ∀ c t, let a := (s.thread c t).rewind.getD {}
          (u.thread c t).a = (if (s.thread c t).ended then { a with st := .inactive } else a) ∧ (u.thread c t).held = none) ∧
    (∀ r rest, s.pie.raises = r :: rest →
      let z : State := { s with pie := { s.pie with raises := rest } }
      (s.sch.job = .running →
        (s.sch.place = .span → exec .rewindRaise s = .next (z.raiseRewind s.sch.seq r.floor) ∧
          (s.knowsAlarm (rewindWord s.devId (s.proposal r.floor) s.sch.seq) = false →
            ∃ u, exec .rewindRaise s = .next u ∧ u.sch.job = .rewinding ∧ u.pie.target = s.sch.seq)) ∧
        (s.sch.place = .pier → s.tick ≤ s.deadline → r.next = false →
          exec .rewindRaise s = .next (z.raiseRewind s.sch.seq r.floor)) ∧
        (s.sch.place = .pier → s.deadline < s.tick ∨ r.next = true →
          exec .rewindRaise s = .next (z.raiseRewind (s.sch.seq + 1) r.floor)) ∧
        (s.sch.place = .pier0 ∨ s.sch.place = .none → exec .rewindRaise s = .next (z.raiseRewind (s.sch.seq + 1) r.floor))) ∧
      (s.sch.job = .rewinding →
        let late := ∃ t, s.pie.agreed = some t ∧ t < s.tick + s.flood + 64
        ((∀ x ∈ s.pie.raises, x.second = false) → exec .rewindRaise s = .next (s.deferRaise r)) ∧
        (∀ x, s.pie.raises.find? (·.second) = some x →
          (late → exec .rewindRaise s = .next (s.deferRaise x)) ∧
          (¬late → exec .rewindRaise s = .next (State.raiseRewind { s with pie := { s.pie with raises := s.pie.raises.erase x } }
            s.pie.target x.floor))))) ∧
    (s.pie.raises = [] ∨ (s.sch.job ≠ .running ∧ s.sch.job ≠ .rewinding) → exec .rewindRaise s = .next s) ∧
    (s.sch.job = .rewinding → s.pie.restored = false →
      (∃ u, exec (.restoreDone true) s = .next u ∧ (∀ c, (u.core c).undo.lines = [] ∧ (u.core c).undo.devs = []) ∧
        (s.pie.withdrawFor s.pie.target = false → u.pie.restored = true ∧ u.sch.job = .rewinding) ∧
        (s.pie.withdrawFor s.pie.target = true → u.sch.job = .parked ∧ u.sch.seq = s.pie.target - 1)) ∧
      (let z := s.restoreSome.pieErr 1 3 0 s.devId
       exec (.restoreDone false) s =
         .next ((({ z with pie := { z.pie with restored := true } }).raiseWithdraw 3 s.devId).parkRestored))) ∧
    (∀ ok, s.sch.job ≠ .rewinding ∨ s.pie.restored = true → exec (.restoreDone ok) s = .next s) ∧
    (let ready := s.sch.job = .rewinding ∧ s.pie.restored = true ∧ s.pie.withdrawFor s.pie.target = false ∧
       ∀ f, s.opt.failover = some f → f.loss = false
     (∀ r, ready → s.pie.agreed = some r → s.pwr.failed = none →
        ∃ u, exec .rewindTick s = .next u ∧ u.sch.job = .running ∧ u.sch.place = .span ∧ u.sch.seq = s.pie.target ∧ u.sch.first = r ∧
          u.vdt.epoch = (s.vdt.epoch + 1) % 4 ∧ u.vdt.abuf = [] ∧ u.mesh = []) ∧
     (∀ r p, ready → s.pie.agreed = some r → s.pwr.failed = some p → exec .rewindTick s = .next (s.switchMissing p r)) ∧
     (¬ready ∨ s.pie.agreed = none → exec .rewindTick s = .next s))

/-- R236, R237, R238: a patch. PATCH_APPLY takes the staged address and pier, unless a check runs; a patch that fails its check is refused
with its code and record, one for no pier takes effect at once on an idle or loaded device, and any other waits for its pier;
PATCH_ABORT takes a waiting patch back. Each record writes the port map, a port's configuration, a slot or a route. -/
def Obligations.Patches : Prop :=
  ∀ (s : State),
    (∀ m, Commands s m pgVDT →
      (s.vdt.checking = none → exec (.patchApply m) s = .next { s with vdt := { s.vdt with
        checking := some (s.reg64 pgVDT 0x58, s.reg64 pgVDT 0x60), patchState := 1, patchRec := 0, patchCheck := 0 } }) ∧
      (s.vdt.checking ≠ none → exec (.patchApply m) s = .next s) ∧
      (s.vdt.patch ≠ none → exec (.patchAbort m) s = .next { s with vdt := { s.vdt with patch := none, patchState := 5 } }) ∧
      (s.vdt.patch = none → exec (.patchAbort m) s = .next s)) ∧
    (∀ addr seq, s.vdt.checking = some (addr, seq) →
      let z : State := { s with vdt := { s.vdt with checking := none } }
      (∀ code i, z.patchCheck addr seq = some (code, i) → ∃ u, exec .patchChecked s = .next u ∧
        u.vdt = { z.vdt with patchState := 4, patchRec := i, patchCheck := code }) ∧
      (z.patchCheck addr seq = none →
        (seq = 0 → s.sch.job = .idle ∨ s.sch.job = .loaded ∨ s.sch.job = .parked → exec .patchChecked s = .next (z.patchEffect (z.patchRecords addr))) ∧
        (seq ≠ 0 → exec .patchChecked s =
          .next { z with vdt := { z.vdt with patch := some ⟨z.patchRecords addr, seq⟩, patchState := 2 } }))) ∧
    (s.vdt.checking = none → exec .patchChecked s = .next s) ∧
    (∀ r, let v := prValue r
      (prKind r = 1 → (s.patchRecord r).pmap (prPort r) = ⟨fld v 5 2, fld v 0 5⟩) ∧
      (prKind r = 2 → ((s.patchRecord r).vport (prPort r)).retire = bitAt v 16 ∧ ((s.patchRecord r).vport (prPort r)).nbr = v % 2 ^ 16) ∧
      (prKind r = 3 → ∀ l, Store.get [] s.vdt.slots (prPort r) = l → prEntry r < l.length →
        (Store.get [] (s.patchRecord r).vdt.slots (prPort r))[prEntry r]? = some v) ∧
      (prKind r = 4 → Store.find (s.patchRecord r).vdt.routes (v % 2 ^ 16) = if bitAt v 40 then some v else none))

/-! The optical ports (chapter 11). -/

/-- R261 to R263, R267, R268, R270, R280: a half-slot on an aligned port in TRAIN, IDENT or UP counts its 30 code words, its corrections,
its uncorrectable words and a check that fails; its framing word is taken; on a port that is UP the flits of a good half-slot go to
the Viaduct in order, and a failed one, or one at which the duplicated logic disagrees, is NACKed under retry, up to three times, and is a
hardware fault otherwise while a job runs. A half-slot that was NACKed and is kept goes out again. -/
def Obligations.HalfSlots : Prop :=
  ∀ (s : State) (p : Fin 20),
    let o := s.oport p
    let eng := pgTRS (engOf p)
    (∀ h : HalfSlot,
      let words := h.words.map bchDecode
      let lost := (words.filter (·.isNone)).length
      let fixed := (words.filter (fun r => r.any (fun x => x.2 != 0))).length
      let flits := flitsOf words
      let bad := lost = 0 ∧ halfCheck flits ≠ h.check.toNat
      let w := h.framing.toNat
      let live := o.aligned = true ∧ (o.st = .train ∨ o.st = .ident ∨ o.st = .up)
      let sent := halfSent s.tick h.h
      let again := framingOk w && h.h % 4 != 3 && bitAt w 8
      let retx := again && s.retryOn p
      let seq := if retx then fld w 9 9 else halfSeq sent
      let cause := if 0 < lost then 1 else 2
      let z0 := s.setOport p { o with
        cwCnt := (o.cwCnt + 30) % 2 ^ 64, corrCnt := satAt max32 (o.corrCnt + fixed)
        uncorrCnt := satAt max32 (o.uncorrCnt + lost)
        chkCnt := if bad then satAt max32 (o.chkCnt + 1) else o.chkCnt }
      let x := z0.oport p
      let z := if again then z0.setOport p { x with retxFrames := (sent / 2048 :: x.retxFrames).take 8 } else z0
      let framed := fun (y : State) => y.framingWord p h.h w (sent / 2048) (s.tick * 16 + h.sub + 255)
      (¬live → exec (.halfSlotReceive p h) s = .next s) ∧
      (live → Store.find s.slips eng = none →
        let f := framed z
        let q := f.oport p
        let g := if retx then f.setOport p { q with failed := q.failed.filter (fun x => x.1 != seq) } else f
        (o.st ≠ .up → exec (.halfSlotReceive p h) s = .next f) ∧
        (o.st = .up → ¬bad → lost = 0 → exec (.halfSlotReceive p h) s =
          .next (g.vdtCompare.halfFlitsTaken p h flits (if retx then sent - halfTick sent seq else 0))) ∧
        (o.st = .up → bad ∨ 0 < lost → exec (.halfSlotReceive p h) s = .next (f.halfFailed p seq cause))) ∧
      (∀ m, live → Store.find s.slips eng = some m →
        let f := framed { z with slips := Store.erase z.slips eng }
        exec (.halfSlotReceive p h) s = .next (if o.st = .up then f.halfFailed p seq cause else f))) ∧
    (∀ seq cause,
      let tries := ((o.failed.find? (fun x => x.1 == seq)).map (·.2)).getD 0
      (s.retryOn p = true → tries < 3 → ∃ u, s.halfFailed p seq cause = u ∧ (u.oport p).nackDue = o.nackDue ++ [seq] ∧
        (seq, tries + 1) ∈ (u.oport p).failed) ∧
      (s.retryOn p = true → 3 ≤ tries → s.halfFailed p seq cause =
        (s.setOport p { o with failed := o.failed.filter (fun x => x.1 != seq) }).trsFault p cause seq) ∧
      (s.retryOn p = false → s.jobLive = true → s.halfFailed p seq cause = s.trsFault p cause seq) ∧
      (s.retryOn p = false → s.jobLive = false → s.halfFailed p seq cause = s)) ∧
    (o.st = .train → o.aligned = false → ∃ u, exec (.halfSlotAlignment p) s = .next u ∧
      u.oport p = { o with aligned := true, alignedAt := s.tick / 2048 }) ∧
    (o.st ≠ .train ∨ o.aligned = true → exec (.halfSlotAlignment p) s = .next s) ∧
    (o.nacked = [] ∨ o.st ≠ .up ∨ s.retryOn p = false → exec (.halfSlotRetransmit p) s = .next s) ∧
    (∀ seq rest, o.nacked = seq :: rest → o.st = .up → s.retryOn p = true →
      let kept := (∃ x ∈ o.sentHalf, x.1 = seq) ∧ seq ∉ o.resend
      ∃ u, exec (.halfSlotRetransmit p) s = .next u ∧ (u.oport p).nacked = rest ∧
        (kept → (u.oport p).resend = o.resend ++ [seq]) ∧ (¬kept → (u.oport p).resend = o.resend))

/-- R269, R270, R271, R278: how a port comes UP. With power and a locked comb it leaves OFF for LOCK, its rings not locked; a transmit bank
that has locked sends light, and the port is DARK until the peer's light comes; both banks locked is TRAIN; a trained, aligned port that
has had four frames of power reports is in IDENT a frame later; rings not found, and the limits of 50 ms, 10 ms and 1 ms, are FAIL. -/
def Obligations.PortStates : Prop :=
  ∀ (s : State) (p : Fin 20),
    let o := s.oport p
    let feed := s.opt.feedOf (p % 4)
    let fed := (if feed = 1 then s.opt.k0 else s.opt.k1) = .locked
    let failsAt := fun (t : Nat) => ∃ u, exec (.portFailTimeout p) s = .next u ∧ (u.oport p).st = .fail ∧ u.tick = (elapseTo t s).tick
    (o.st = .off → o.pwrOff = false → feed ≠ 0 → fed →
      ∃ u, exec (.portLeaveOff p) s = .next u ∧ (u.oport p).st = .lock ∧ (u.oport p).tx.locked = 0 ∧ (u.oport p).rx.locked = 0 ∧
        (u.oport p).leftOff = s.tick) ∧
    (¬(o.st = .off ∧ o.pwrOff = false ∧ feed ≠ 0 ∧ fed) → exec (.portLeaveOff p) s = .next s) ∧
    (∀ rx,
      let seeks := (o.st = .lock ∨ o.st = .relock) ∧ o.recal = false ∧ (o.bank rx).locked ≠ allRings ∧
        (rx = true → o.st = .lock → o.tx.locked = allRings)
      (seeks → ∃ u, exec (.ringsLocked p rx true) s = .next u ∧ ((u.oport p).bank rx).locked = allRings ∧
        (u.oport p).st = (if (o.bank !rx).locked = allRings then .train else if o.st = .lock ∧ o.lit = false then .dark else o.st)) ∧
      (seeks → ∃ u, exec (.ringsLocked p rx false) s = .next u ∧ (u.oport p).st = .fail) ∧
      (¬seeks → ∀ found, exec (.ringsLocked p rx found) s = .next s)) ∧
    (o.st = .dark → ∃ u, exec (.lightFromPeer p) s = .next u ∧ (u.oport p).st = .lock ∧ (u.oport p).lit = true) ∧
    (o.st ≠ .dark → exec (.lightFromPeer p) s = .next (s.setOport p { o with lit := true })) ∧
    (∀ a b c f, o.st = .train → o.aligned = true → o.reports = [a, b, c, f] →
      ∃ u, exec (.trainDone p) s = .next u ∧ (u.oport p).st = .ident ∧ u.tick = (elapseTo (2048 * (f + 2)) s).tick) ∧
    (o.st ≠ .train ∨ o.aligned = false ∨ (∀ a b c f, o.reports ≠ [a, b, c, f]) → exec (.trainDone p) s = .next s) ∧
    (∀ t, o.lossAt = some t → failsAt (t + 1000000)) ∧
    (o.lossAt = none →
      (o.st = .lock ∨ o.st = .dark ∨ o.st = .train ∨ o.st = .ident →
        (o.wasUp = false → failsAt (o.leftOff + 50000000)) ∧ (o.wasUp = true → exec (.portFailTimeout p) s = .next s)) ∧
      (o.st = .relock → failsAt (o.relockAt + 10000000)) ∧
      (o.st = .off ∨ o.st = .up ∨ o.st = .fail ∨ o.st = .cal → exec (.portFailTimeout p) s = .next s))

/-- R270 to R274: rings and their matrices. Each heater's drive is 2,048 plus its row of M times the requests, rounded and clamped to 12
bits, and clamps are counted. A lost lock of a port in use is RELOCK; TRS_RELOCK restarts a port that is not OFF; TRS_CAL is refused with
cause 0x6 in IDENT and UP; a calibration's K gives M; an M that fails its parity is frozen and computed again from K. -/
def Obligations.RingControl : Prop :=
  ∀ (s : State) (p : Fin 20) (rx : Bool),
    let o := s.oport p
    let b := o.bank rx
    (∀ l, o.st ≠ .off → o.st ≠ .fail → b.frozen = false → ∃ u, exec (.ringLoopUpdate p rx l) s = .next u ∧
      ∀ i < 32, Store.get 0 ((u.oport p).bank rx).u i = clampI (-32768) 32767 (l.getD i 0) ∧
        Store.get 0 ((u.oport p).bank rx).h i = (clampI 0 4095 (driveSum b.m ((u.oport p).bank rx).u i)).toNat ∧
        (u.oport p).hsatCnt = satAt max32 (o.hsatCnt + ((u.oport p).bank rx).drive.2)) ∧
    (∀ l, o.st = .off ∨ o.st = .fail ∨ b.frozen = true → exec (.ringLoopUpdate p rx l) s = .next s) ∧
    (∀ ring : Fin 32, bitAt b.locked ring = true → ∃ u, exec (.ringLockLost p rx ring) s = .next u ∧
      (u.oport p).st = (if o.st = .up ∨ o.st = .ident ∨ o.st = .train then .relock else o.st) ∧
      ((u.oport p).bank rx).locked = clrBit b.locked ring) ∧
    (∀ ring : Fin 32, bitAt b.locked ring = false → exec (.ringLockLost p rx ring) s = .next s) ∧
    (∀ m (e : Fin 4), Commands s m (pgTRS e) → s.trsPort e = none →
      exec (.trsRelock m e) s = .next s ∧ exec (.trsCal m e) s = .next s) ∧
    (∀ m (e : Fin 4), Commands s m (pgTRS e) → ∀ q, s.trsPort e = some q →
      ((s.oport q).st ≠ .off → exec (.trsRelock m e) s = .next (s.restartPort q)) ∧
      ((s.oport q).st = .off → exec (.trsRelock m e) s = .next s) ∧
      ((s.oport q).st = .ident ∨ (s.oport q).st = .up → exec (.trsCal m e) s = .next (s.trsLog q 0 6 0 0)) ∧
      ((s.oport q).st = .off → s.heldOff q = true → exec (.trsCal m e) s = .next s) ∧
      ((s.oport q).st ≠ .ident → (s.oport q).st ≠ .up → ¬((s.oport q).st = .off ∧ s.heldOff q = true) →
        ∃ u, exec (.trsCal m e) s = .next u ∧ (u.oport q).st = .cal)) ∧
    (∀ kt kr, o.st = .cal ∨ (o.recal = true ∧ o.st ≠ .off) → ∃ u, exec (.calDone p kt kr) s = .next u ∧ (u.oport p).st = .lock ∧
      (u.oport p).tx.k = calMatrix kt ∧ (u.oport p).tx.m = matrixOf (calMatrix kt) ∧
      (u.oport p).rx.k = calMatrix kr ∧ (u.oport p).rx.m = matrixOf (calMatrix kr)) ∧
    (∀ kt kr, o.st ≠ .cal → o.recal = false ∨ o.st = .off → exec (.calDone p kt kr) s = .next s) ∧
    (let second := ∃ t, b.parityAt = some t ∧ s.tick ≤ t + 100000
     (¬second → ∃ u, exec (.matrixParity p rx false) s = .next u ∧ ((u.oport p).bank rx).frozen = true ∧
       ((u.oport p).bank rx).parityAt = some s.tick ∧ (u.oport p).st = o.st) ∧
     (∀ inK, inK = true ∨ second → ∃ u, exec (.matrixParity p rx inK) s = .next u ∧ (u.oport p).recal = true ∧
       (u.oport p).st = (if o.st = .off then .off else .relock))) ∧
    (b.frozen = true → ∃ u, exec (.matrixRecomputed p rx) s = .next u ∧ ((u.oport p).bank rx).m = matrixOf b.k ∧
      ((u.oport p).bank rx).frozen = false) ∧
    (b.frozen = false → exec (.matrixRecomputed p rx) s = .next s)

/-- R277, R278, R279, R282, R350: the combs. A comb that has locked feeds the engines of its mode that have no feed, and a change that waits for
its combs then begins. The loss of a comb in use is a hardware fault of a running job; it moves its engines to the other where FAILOVER is
enabled and the other is locked, leaves them dark where it is not, and loses both where the other is lost or FAILED or a failover runs. A
failover ends when it is done or after 1 ms, and then the ports that the loss took from UP and that are not UP again fail. A mode command
is refused with cause 0x5 outside IDLE, LOADED and PARKED; else it turns on the combs it needs, and the engines whose feed it changes
move once these are locked and no other change runs. -/
def Obligations.Combs : Prop :=
  ∀ (s : State),
    let enters := fun (mode : Nat) (z : State) =>
      ((({ z with opt := { z.opt with waiting := some mode } } : State).warmComb (modeFeeds mode) 0).warmComb (modeFeeds mode) 1).changeReady
    (∀ k : Fin 2,
      let o : OptState := { s.opt.setComb k .locked with lost := clrBit s.opt.lost k }
      let locks := (s.opt.comb k = .off ∨ s.opt.comb k = .warming) ∧ feedsUse s.opt.dueFeeds k = true
      (locks → exec (.combLocked k) s = .next ((({ s with opt := o.feedDark } : State).measureComb k).changeReady)) ∧
      (¬locks → exec (.combLocked k) s = .next s) ∧
      (∀ e < 4, (s.opt.feedOf e ≠ 0 → o.feedDark.feedOf e = s.opt.feedOf e) ∧
        (s.opt.feedOf e = 0 → fld s.opt.dueFeeds (2 * e) 2 = k + 1 → o.feedDark.feedOf e = k + 1))) ∧
    (∀ (k : Fin 2) (failed : Bool),
      let es := s.opt.engines (k + 1)
      let other := 1 - k.val
      let o := s.opt.setComb k (if failed then CombSt.failed else CombSt.off)
      let gone := ({ s with opt := { o with lost := setBit o.lost k } } : State).measureComb k
      (es = [] → failed = false → exec (.combLoss k failed) s = .next s) ∧
      (es = [] → failed = true → exec (.combLoss k failed) s = .next gone) ∧
      (es ≠ [] →
        let z := ((gone.cnt pgCMB 0x58 1).setInt pgCMB 0).cmbLog
          (if s.sch.job = .running then 1 else 0) (if failed then 2 else 1) k (engMask es)
        let both := (∃ f, s.opt.failover = some f ∧ f.loss = true) ∨ s.opt.comb other = .failed ∨ bitAt s.opt.lost other = true
        let moves := bitAt (z.reg pgCMB 0x40) 0 = true ∧ z.opt.comb other = .locked
        (both → exec (.combLoss k failed) s = .next ((z.noComb k (engMask es)).raiseHw)) ∧
        (¬both → moves → exec (.combLoss k failed) s =
          .next ((z.failoverTo other es).raiseWith { tick := s.tick, second := true })) ∧
        (¬both → ¬moves → exec (.combLoss k failed) s = .next ((z.darkEngines es).raiseHw)))) ∧
    (∀ f : Failover, s.opt.failover = some f → s.opt.waiting = none →
      (∃ u, exec .failoverDone s = .next u ∧ u.opt.failover = none ∧ u.opt.mode = f.mode ∧ u.tick = (elapseTo (f.since + 16000) s).tick) ∧
      (f.loss = true → ∃ u, exec .failoverTimeout s = .next u ∧ u.opt.failover = none ∧ u.opt.mode = f.mode)) ∧
    (let lost := s.lostPorts.foldl (fun (a : State) x => a.failLost x.1 x.2) s
     (∀ p : Fin 20, (s.oport p).lossAt ≠ none → (lost.oport p).st = .fail) ∧
     (∀ f : Failover, s.opt.failover = some f →
        exec .failoverTimeout s = .next (if f.loss = true then ((elapseTo (f.since + 1000000) lost).endFailover f).changeReady else lost)) ∧
     (s.opt.failover = none → exec .failoverTimeout s = .next lost ∧ exec .failoverDone s = .next s)) ∧
    (∀ m, Commands s m pgCMB →
      let free := s.sch.job = .idle ∨ s.sch.job = .loaded ∨ s.sch.job = .parked
      (¬free → exec (.cmbPaired m) s = .next (s.cmbLog 0 5 0 0) ∧ exec (.cmbSingleK0 m) s = .next (s.cmbLog 0 5 0 0) ∧
        exec (.cmbSingleK1 m) s = .next (s.cmbLog 0 5 0 0)) ∧
      (free → exec (.cmbPaired m) s = .next (enters 0 s) ∧ exec (.cmbSingleK0 m) s = .next (enters 1 s) ∧
        exec (.cmbSingleK1 m) s = .next (enters 2 s))) ∧
    (∀ mode, s.opt.waiting = some mode → s.opt.failover = none →
      let es := s.opt.otherFeeds (modeFeeds mode)
      let moved : Failover := ⟨modeFeeds mode, engMask es, s.tick, mode, false⟩
      let z : State := { s with opt := { s.opt with waiting := none } }
      (es = [] → s.changeReady.opt.mode = mode ∧ s.changeReady.opt.failover = none ∧ s.changeReady.opt.waiting = none) ∧
      (es ≠ [] → s.opt.feedsReady es (modeFeeds mode) = true → s.changeReady = z.moveFeeds es moved) ∧
      (es ≠ [] → s.opt.feedsReady es (modeFeeds mode) = false → s.changeReady = s)) ∧
    (s.opt.waiting = none ∨ s.opt.failover ≠ none → s.changeReady = s)

/-! Memory and the host's aperture (chapters 12 and 17). -/

/-- R17, R283, R287, R290, R296, R298, R304: the commands of an HBM stack. INIT starts in IDLE, from stack 0, with no command in progress
and room for the sidecars, and at its end the layout that it began with stands and device memory holds zeros, unless the job is then in
a state in which the shape may not change; training and repairs start where the job is quiet, no command of the stack and no INIT is
in progress and no host access to the stack waits, and a repair needs a spare; a command turned away is logged with cause 0x3, or 0x4 for
want of a spare. Each repair that ends is recorded at its place. -/
def Obligations.HbmCommands : Prop :=
  ∀ (s : State) (n : Fin 8),
    let idleStacks := ∀ i < 8, (s.stk i).cmd = none
    let starts := fun (i : Instr) (op : Nat) => ∃ u, exec i s = .next u ∧ (u.stk n).cmd = some (op, s.reg (pgHBM n) 0x54)
    let open_ := s.quietJob = true ∧ (s.stk n).cmd = none ∧ (∀ a, (s.stk 0).cmd ≠ some (1, a)) ∧
      (∀ w ∈ s.host.wbuf, s.hostTouches n w.1 w.2.length true = false) ∧ (∀ r ∈ s.host.rwait, s.hostTouches n r.1 r.2 false = false)
    let repairs := fun (i : Instr) (op : Nat) =>
      (¬open_ → exec i s = .next (s.hbmRefuse n 3)) ∧
      (open_ → s.sparesOut n op = true → exec i s = .next (s.hbmRefuse n 4)) ∧ (open_ → s.sparesOut n op = false → starts i op)
    (∀ m, Commands s m (pgHBM n) →
      (n = 0 → s.sch.job = .idle → idleStacks → s.sideFits s.initMask = true → starts (.hbmInit m n) 1 ∧
        ∃ u, exec (.hbmInit m n) s = .next u ∧ u.mem.initPlan = some (s.initMask, s.reg (pgHBM 0) 0x44, s.mem.granCfg)) ∧
      (n ≠ 0 ∨ s.sch.job ≠ .idle ∨ ¬idleStacks ∨ s.sideFits s.initMask = false → exec (.hbmInit m n) s = .next (s.hbmRefuse n 3)) ∧
      (¬open_ → exec (.hbmTrain m n) s = .next (s.hbmRefuse n 3)) ∧ (open_ → starts (.hbmTrain m n) 2) ∧
      repairs (.hbmRowSoft m n) 3 ∧ repairs (.hbmRowHard m n) 4 ∧ repairs (.hbmLane m n) 5) ∧
    (∀ ok, ((s.stk n).cmd = none → exec (.hbmCmdDone n ok) s = .next s) ∧
      ∀ op addr, (s.stk n).cmd = some (op, addr) → ∃ u, exec (.hbmCmdDone n ok) s = .next u ∧ (u.stk n).cmd = none ∧
        (∀ mask g gran, op = 1 → s.mem.initPlan = some (mask, g, gran) →
          (s.sch.job = .idle ∨ s.sch.job = .loaded ∨ s.sch.job = .stopped → u.mem.dev = [] ∧ u.mem.devSide = [] ∧ u.mem.devBad = [] ∧
            u.mem.initDone = true ∧ u.mem.gran = gran ∧ u.mem.sidecarGib = g ∧ u.mem.stackMask = mask ∧
            ∀ i < 8, (u.stk i).inService = bitAt mask i) ∧
          (¬(s.sch.job = .idle ∨ s.sch.job = .loaded ∨ s.sch.job = .stopped) → u.mem.dev = s.mem.dev ∧
            u.mem.stackMask = s.mem.stackMask ∧ u.mem.sidecarGib = s.mem.sidecarGib ∧ u.mem.gran = s.mem.gran)) ∧
        (op = 2 ∨ op = 5 → (u.stk n).trained = ok) ∧
        (op = 3 → (u.stk n).soft = (s.stk n).soft ++ [addr]) ∧ (op = 4 → (u.stk n).hard = (s.stk n).hard ++ [addr]) ∧
        (op = 5 → (u.stk n).lanes = (s.stk n).lanes ++ [addr])) ∧
    (∀ good, ∃ u, exec (.hbmTrainingDone good) s = .next u ∧ (u.stk n).trained = true ∧ (u.stk n).odd = !bitAt good n ∧
      (u.stk n).inService = ((s.stk n).inService && bitAt good n)) ∧
    (∀ temp, ∃ u, exec (.hbmHot n temp) s = .next u ∧ (u.stk n).hot = decide (85 < temp) ∧ (u.stk n).temp = temp % 256 ∧
      (∀ i < 8, i ≠ n.val → u.stk i = s.stk i))

/-- R296, R297, R301, R302, R303, R306, R381: the Gallery. INIT starts in IDLE, TRAIN in a quiet job, each where no other command is in progress,
and INIT empties the Gallery and brings it up, where the shape may change as it ends (R17). RETIRE is refused with the first code that
applies, or migrates its channel; a channel that has migrated is retired at once where the job is quiet; ABORT puts it back. A failed
channel withdraws the device of a job that is armed, runs or is parked. A channel's window finds its temperature, and like a refresh
outside windows changes no value in memory. -/
def Obligations.Gallery : Prop :=
  ∀ (s : State),
    (∀ m, Commands s m pgGAL →
      let ch := fld (s.reg pgGAL 0x40) 4 5
      let seq := s.reg64 pgGAL 0x48 % 2 ^ 48
      (s.sch.job = .idle → s.mem.galCmd = none → ∃ u, exec (.galInit m) s = .next u ∧ u.mem.galCmd = some 1) ∧
      (s.sch.job ≠ .idle ∨ s.mem.galCmd ≠ none → exec (.galInit m) s = .next (s.galRefuse 0)) ∧
      (s.quietJob = true → s.mem.galCmd = none → ∃ u, exec (.galTrain m) s = .next u ∧ u.mem.galCmd = some 4) ∧
      (s.quietJob = false ∨ s.mem.galCmd ≠ none → exec (.galTrain m) s = .next (s.galRefuse 0)) ∧
      (s.retireRefusal ch seq = none → ∃ u, exec (.galRetire m) s = .next u ∧ u.mem.retire = some ⟨ch, seq, false, s.aon⟩ ∧
        u.mem.retState = 1 ∧ u.mem.retRefuse = 0 ∧ (Store.get {} u.mem.chans ch).st = 1) ∧
      (∀ code, s.retireRefusal ch seq = some code → ∃ u, exec (.galRetire m) s = .next u ∧ u.mem.retRefuse = code ∧
        u.mem.retire = s.mem.retire ∧ (s.mem.retire = none → u.mem.retState = 4)) ∧
      (∀ r, s.mem.retire = some r → ∃ u, exec (.galAbort m) s = .next u ∧ u.mem.retire = none ∧ u.mem.retState = 5 ∧
        ((Store.get {} s.mem.chans r.chan).st = 1 → (Store.get {} u.mem.chans r.chan).st = 0)) ∧
      (s.mem.retire = none → exec (.galAbort m) s = .next (s.galRefuse 0))) ∧
    (s.mem.galCmd = some 1 → ∃ u, exec .galCmdDone s = .next u ∧ u.mem.galCmd = none ∧
      (s.sch.job = .idle ∨ s.sch.job = .loaded ∨ s.sch.job = .stopped → u.mem.galUp = true ∧ u.mem.cap = [] ∧ u.mem.capSide = [] ∧
        u.mem.capBad = []) ∧
      (¬(s.sch.job = .idle ∨ s.sch.job = .loaded ∨ s.sch.job = .stopped) → u.mem = { s.mem with galCmd := none })) ∧
    (∀ op, op ≠ 1 → s.mem.galCmd = some op → ∃ u, exec .galCmdDone s = .next u ∧ u.mem = { s.mem with galCmd := none }) ∧
    (s.mem.galCmd = none → exec .galCmdDone s = .next s) ∧
    (∀ r, s.mem.retire = some r → r.migrated = false →
      (s.quietJob = true → ∃ u, exec .migrationDone s = .next u ∧ u.mem.retired = s.mem.retired ++ [r.chan] ∧ u.mem.retire = none ∧
        (Store.get {} u.mem.chans r.chan).st = 2) ∧
      (s.quietJob = false → ∃ u, exec .migrationDone s = .next u ∧ u.mem.retire = some { r with migrated := true } ∧
        u.mem.retState = 2 ∧ u.mem.retired = s.mem.retired)) ∧
    (s.mem.retire = none ∨ (∃ r, s.mem.retire = some r ∧ r.migrated = true) → exec .migrationDone s = .next s) ∧
    (∀ ch : Fin 32,
      (let z := (s.setChan ch 3).setInt pgGAL 0
       let held := s.sch.job = .armed ∨ s.sch.job = .running ∨ s.sch.job = .rewinding ∨ s.sch.job = .parked
       (Store.get {} z.mem.chans ch).st = 3 ∧ (held → exec (.channelFailed ch) s = .next (z.raiseWithdraw 6 s.devId)) ∧
        (¬held → exec (.channelFailed ch) s = .next z)) ∧
      ∃ u, exec (.galRefresh ch) s = .next u ∧ u.mem = { s.mem with chans := u.mem.chans } ∧
        (∀ i, (Store.get {} u.mem.chans i).st = (Store.get {} s.mem.chans i).st ∧
          (i ≠ ch.val → Store.get {} u.mem.chans i = Store.get {} s.mem.chans i)) ∧
        (∀ off, off ≠ regAt pgVDT 0xB4 → off ≠ regAt pgSCH 0x88 → u.rd off = s.rd off) ∧
        (s.pwr.mainOk = true → s.tick < 2 ^ 63 → s.tick ≤ u.tick ∧ u.tick % 2048 = 64 * ch.val)) ∧
    (∀ gallery n, ∃ u, exec (.refreshOutsideWindows gallery n) s = .next u ∧ u.mem.dev = s.mem.dev ∧ u.mem.cap = s.mem.cap ∧
      (gallery = true → s.img.strict = false → u = s.cnt pgGAL 0x68 1) ∧
      (gallery = false → n.val < 8 → (s.stk n).hot = true → s.img.strict = false → u = s.cnt (pgHBM n) 0x68 1) ∧
      (gallery = false → 8 ≤ n.val ∨ (s.stk n).hot = false → u = s))

/-- R292, R422, R423, R424: a Sump entry closes 64 ticks after its first store. A host access of the aperture that is denied is logged,
and reads as zeros; a permitted one reaches HBM, in order after what waits, or is gathered while a strict image's span runs: it drains
when the pier frame comes, and a write for which the buffer has no room has not arrived. -/
def Obligations.SumpAndAperture : Prop :=
  ∀ (s : State),
    (∀ (c : Fin 256) line e, s.mem.sump.find? (fun e => e.core == c.val && e.line == line) = some e →
      exec (.sumpClose c line) s = .next ((elapseTo (e.tick + 64) s).sumpCloseEntry e)) ∧
    (∀ (c : Fin 256) line, s.mem.sump.find? (fun e => e.core == c.val && e.line == line) = none →
      exec (.sumpClose c line) s = .next s) ∧
    (∀ off data, s.b2Reaches off data.length = true →
      let a := s.b2Addr off
      let held := (s.host.wbuf.map (fun w => w.2.length)).foldl (· + ·) 0
      (∀ c, s.b2Cause a data.length true = some c → exec (.bar2Write off data) s = .next (s.b2Deny c off)) ∧
      (s.b2Cause a data.length true = none → s.b2Waits = false → exec (.bar2Write off data) s = .next (s.b2Drain.b2Apply a data)) ∧
      (s.b2Cause a data.length true = none → s.b2Waits = true → held + data.length ≤ 2 ^ 20 →
        ∃ u, exec (.bar2Write off data) s = .next u ∧ u.host.wbuf = s.host.wbuf ++ [(a, data)] ∧ u.mem = s.mem) ∧
      (s.b2Cause a data.length true = none → s.b2Waits = true → 2 ^ 20 < held + data.length → exec (.bar2Write off data) s = .next s)) ∧
    (∀ off data, s.b2Reaches off data.length = false → exec (.bar2Write off data) s = .next s) ∧
    (∀ off len, s.b2Reaches off len = false → exec (.bar2Read off len) s = .next s) ∧
    (∀ off len, s.b2Reaches off len = true →
      let a := s.b2Addr off
      (∀ c, s.b2Cause a len false = some c →
        exec (.bar2Read off len) s = .next ((s.b2Deny c off).emit (.b2Data a (some (List.replicate len 0#8))))) ∧
      (s.b2Cause a len false = none → s.b2Waits = false → exec (.bar2Read off len) s = .next (s.b2Drain.b2Fetch a len)) ∧
      (s.b2Cause a len false = none → s.b2Waits = true → ∃ u, exec (.bar2Read off len) s = .next u ∧
        u.host.rwait = s.host.rwait ++ [(a, len)] ∧ u.mem = s.mem ∧ u.out = s.out)) ∧
    (∀ off n, s.b2Reaches off n = true ↔ s.barOn = true ∧ n ≠ 0 ∧ off + n ≤ 16 * 2 ^ 30) ∧
    (let z := if s.sch.job = .running ∧ s.sch.place = .pier then elapseTo s.pierFirst s else s
     (z.b2Waits = true → exec .hostWriteDrain s = .next s) ∧
     (z.b2Waits = false → exec .hostWriteDrain s = .next ((z.host.rwait.foldl (fun z r => z.b2Fetch r.1 r.2)
       (z.host.wbuf.foldl (fun z w => z.b2Apply w.1 w.2) { z with host := { z.host with wbuf := [], rwait := [] } })))))

/-! The register window (chapters 1 and 19). -/

/-- R9, R12, R13, R471, R476, R478: register accesses. One that is not a naturally aligned one of 32 or 64 bits is logged with cause 0x3 and
does nothing else; one to an empty page is logged with cause 0x1, and reads as zeros; one to a page that does not answer reads as zeros
and writes nothing; a 64-bit write is its two halves, low first, and a 64-bit read its two halves at one tick. A write to an LK field by a master that does not own the page is discarded and logged with cause 0x2. A 1 written to a bit of INT_STAT
clears it, unless the bit was set in the same cycle. CNT_CLR and LOG_REL clear the page's counters and its log; in a CORE page the head record leaves; INT_SET sets the bits as if the event had been recorded. -/
def Obligations.RegisterAccess : Prop :=
  ∀ (s : State) (m : Master), s.reaches m = true →
    (∀ off len v, ¬((len = 4 ∨ len = 8) ∧ off % len = 0) → exec (.registerWrite m off len v) s = .next (s.badAccess off) ∧
      exec (.registerRead m off len) s = .next ((s.badAccess off).emit (.readData (masterCode m) off 0))) ∧
    (∀ off len v, (len = 4 ∨ len = 8) → off % len = 0 → s.implemented (off / 0x1000) = false →
      exec (.registerWrite m off len v) s = .next (s.genLog 1 m true off) ∧
      exec (.registerRead m off len) s = .next ((s.genLog 1 m false off).emit (.readData (masterCode m) off 0))) ∧
    (∀ page, s.implemented page = true →
      (∀ o v, o < 0x1000 → o % 4 = 0 → s.takes page = true →
        exec (.registerWrite m (page * 0x1000 + o) 4 v) s = .next (s.write32 m page o (v % 2 ^ 32)) ∧
        (o % 8 = 0 → exec (.registerWrite m (page * 0x1000 + o) 8 v) s =
          .next ((s.write32 m page o (v % 2 ^ 32)).write32 m page (o + 4) (v / 2 ^ 32 % 2 ^ 32)))) ∧
      (∀ o, o < 0x1000 → o % 4 = 0 → s.answers page = true → (page = pgTCK → o ≠ 0x40 ∧ o ≠ 0x44) →
        let z := s.meterPage page
        exec (.registerRead m (page * 0x1000 + o) 4) s =
          .next (z.emit (.readData (masterCode m) (page * 0x1000 + o) (z.regView page o)))) ∧
      (∀ o, o < 0x1000 → o % 8 = 0 → s.answers page = true →
        let lo := s.regDraw page o
        let hi := lo.1.regDraw page (o + 4)
        exec (.registerRead m (page * 0x1000 + o) 8) s =
          .next (hi.1.emit (.readData (masterCode m) (page * 0x1000 + o) (lo.2 + hi.2 * 2 ^ 32)))) ∧
      (∀ o len, o < 0x1000 → (len = 4 ∨ len = 8) → o % len = 0 →
        (s.answers page = false → exec (.registerRead m (page * 0x1000 + o) len) s =
          .next (s.emit (.readData (masterCode m) (page * 0x1000 + o) 0))) ∧
        (s.takes page = false → ∀ v, exec (.registerWrite m (page * 0x1000 + o) len v) s = .next s)) ∧
      (pageType page ≠ 9 → pageType page ≠ 0xA → pageType page ≠ 0xB → s.meterPage page = s) ∧
      (∀ v, v < 2 ^ 32 → s.takes page = true → exec (.registerWrite m (page * 0x1000 + 0x10) 4 v) s = .next (State.refreshLine
        (s.setReg page 0x10 (s.reg page 0x10 - (s.reg page 0x10 &&& s.clears page 0x10 v))) (pageType page))) ∧
      (∀ v, (s.setNow = [] → s.clears page 0x10 v = v) ∧
        ∀ t b, b < 32 → (t, regAt page 0x10 * 32 + b) ∈ s.setNow → s.sameCycle page t = true →
          bitAt (s.clears page 0x10 v) b = false) ∧
      (s.takes page = true → Store.get 0 s.host.locks page ≠ masterCode m →
        let logged := s.genLog 2 m true (regAt page 0x08)
        exec (.cntClr m page) s = .next logged ∧ exec (.logRel m page) s = .next logged ∧
        (∀ v, exec (.intSet m page v) s = .next (s.genLog 2 m true (regAt page 0x18))) ∧
        (∀ v, exec (.registerWrite m (page * 0x1000 + 0x14) 4 v) s = .next (s.genLog 2 m true (regAt page 0x14)))) ∧
      (s.takes page = true → Store.get 0 s.host.locks page = masterCode m →
        (∃ u, exec (.cntClr m page) s = .next u ∧ ∀ c ∈ counters (pageType page), u.reg page c.1 = 0 ∧
          (c.2 = true → u.reg page (c.1 + 4) = 0)) ∧
        (pageType page ≠ 8 → ∃ u, exec (.logRel m page) s = .next u ∧ ∀ i < 8, u.reg page (0x20 + 4 * i) = 0) ∧
        (∀ v : Word, exec (.intSet m page v) s = .next ((setBits 32 ((regRow (pageType page) 0x10).w1c &&& v.toNat)).foldl
          (fun a b => a.setInt page b) s)))) ∧
    (∀ c : Fin 256, s.implemented (pgCORE c) = true → s.takes (pgCORE c) = true →
      Store.get 0 s.host.locks (pgCORE c) = masterCode m →
      ∃ u, exec (.coreLogRel m c) s = .next u ∧ (u.core c).faultQ = (s.core c).faultQ.tail)

/-! The update unit, the Seep and the rounds (chapters 13 and 14). -/

/-- R316, R321, R323, R324, R325, R327, R403: sweeps and blocks. A sweep starts on every stack in service, in the span of the group's
START_DESC and DELAY, where no engine runs one; a block of it begins at its sweep tick; one whose bank is skipped, whose context is not
OPEN, or whose version bit has the step's parity is withheld: it keeps its place and is counted; another has its slots read, and its
program follows. A block whose END has executed commits 64 ticks later: the journal record, the outputs, then the version bit, which
takes the step's parity unless its line cannot be corrected; where its context has ended meanwhile it writes nothing. A journal replay
goes from APPLIED to HEAD. -/
def Obligations.UpdateWork : Prop :=
  ∀ (s : State) (e : Fin 8),
    (∀ g : Fin 1024,
      let k := ugDelay (s.updGroup g)
      let due := s.inSpan = true ∧ g.val < s.upd.groups.length ∧ (s.sch.seq - 1) % s.img.spans.length = ugStart (s.updGroup g) ∧
        k < s.train.step
      let ready := ∀ i < 8, (s.eng i).pos.active = false ∧
        ¬((s.eng i).pos.group = g ∧ (s.eng i).pos.step + k = s.train.step ∧ (s.eng i).pos.startSpan = s.sch.seq)
      (¬(due ∧ ready) → exec (.sweepStart g) s = .next s) ∧
      (due → ready → ∃ u, exec (.sweepStart g) s = .next u ∧ u.mem = s.mem ∧
        (∀ i, i ∉ s.mem.stacks → u.eng i = s.eng i) ∧
        ∀ i ∈ s.mem.stacks, s.mem.nextShare (s.updGroup g) i 0 0 ≠ none → u.eng i = { s.eng i with pos := { (s.eng i).pos with
          active := true, group := g, step := s.train.step - k, startSpan := s.sch.seq, bank := 0, block := 0
          done := 0, faulted := [], delay := 0 } })) ∧
    (let x := s.eng e
     let p := x.pos
     let g := s.updGroup p.group
     let may := s.inSpan = true ∧ p.active = true ∧ x.reading < 64 ∧ x.jreplay = false ∧ s.tick + ugLead g + 128 < s.workEnd
     (¬may → exec (.blockStart e) s = .next s) ∧
     (may →
      (s.mem.nextShare g e p.bank p.block = none → exec (.blockStart e) s = .next (s.sweepEnd e)) ∧
      (∀ v i, s.mem.nextShare g e p.bank p.block = some (v, i) → s.blockTick p g = none → exec (.blockStart e) s = .next s) ∧
      ∀ v i t, s.mem.nextShare g e p.bank p.block = some (v, i) → s.blockTick p g = some t →
        let s0 := elapseTo t s
        let s1 := s0.modEng e (fun y => { y with pos := { y.pos with bank := v, block := i + 1, done := p.done + 1 } })
        let skip := s1.bankSkipped g v p.step
        let held := skip = true ∨ (s1.ctxOf (ugCtx g + v)).st ≠ .open_ ∨ v ∈ p.faulted
        let n := s1.versionRead e g v i
        let r := n.1.updReadAll e g v i p.step
        let b : UpdBlock := { bank := v, block := i, ordinal := p.done, ins := r.2, runs := s0.tick + ugLead g }
        (2 ^ 28 ≤ p.done → exec (.blockStart e) s = .next (s.updFault e .sched 9 0 p.group i 0 v 0)) ∧
        (p.done < 2 ^ 28 → held → exec (.blockStart e) s = .next (s1.withholdBlock e v i skip)) ∧
        (p.done < 2 ^ 28 → ¬held → n.2 = decide (p.step % 2 = 1) → exec (.blockStart e) s = .next (n.1.withholdBlock e v i false)) ∧
        (p.done < 2 ^ 28 → ¬held → n.2 ≠ decide (p.step % 2 = 1) → ∃ u, exec (.blockStart e) s = .next u ∧ u.mem = r.1.mem ∧
          ((r.1.eng e).cur = none → (u.eng e).cur = some b) ∧
          ((r.1.eng e).cur ≠ none → (u.eng e).ahead = (r.1.eng e).ahead ++ [b] ∧ (u.eng e).cur = (r.1.eng e).cur)))) ∧
    (s.inSpan = false ∨ (s.eng e).tail = [] → exec (.blockCommit e) s = .next s) ∧
    (∀ b rest, s.inSpan = true → (s.eng e).tail = b :: rest →
      let y := elapseTo (b.endAt + 64) s
      let g := y.engGroup e
      let w := (y.commitStores e b).foldl State.storeTurn y
      let z := b.sorted.foldl (fun a o => a.putOutput e b o) ((w.seepBlocks e b).putJournal e b)
      ((y.ctxOf (ugCtx g + b.bank)).st ≠ .open_ → exec (.blockCommit e) s = .next (y.withheldTail e b)) ∧
      ((y.ctxOf (ugCtx g + b.bank)).st = .open_ → ∃ u, exec (.blockCommit e) s = .next u ∧ (u.eng e).tail = rest ∧
        (u.eng e).pos.applied = ((z.eng e).pos.applied + 1) % 256 ∧
        u.mem = (z.setVersion e g b.bank b.block (z.eng e).pos.step).mem)) ∧
    (∀ (z : State) g v i step,
      let line := z.mergeBlock false (z.verAt (verBit g v i)) 1 noSlot
      (line.2.1 = [] → (z.putVersion e g v i step).version g v i = decide (step % 2 = 1)) ∧
      (line.2.1 ≠ [] → z.putVersion e g v i step = line.1)) ∧
    ((s.eng e).jreplay = true → ∃ u, exec (.journalReplay e) s = .next u ∧ (u.eng e).jreplay = false ∧
      (u.eng e).pos.applied = (u.eng e).pos.head) ∧
    ((s.eng e).jreplay = false → exec (.journalReplay e) s = .next s)

/-- R318, R319, R320, R321, R322, R323: the update program. An instruction executes where the engine carries a block, in a span, before END,
at its own OP: at its own tick, its result is written to RD with RA's predicates (CMPGT and SEL as given), and the program moves on; a
MUL, SHR or ST with RND draws once. A late operand is a schedule fault under STRICT, and else makes the engine wait; a check that failed
at its read faults at the LD, and one of a block that only the Seep reads at END. ST forms the slot's output; END makes the block's
commit due and turns to the next block. Elsewhere the command has no effect. -/
def Obligations.UpdateInstructions : Prop :=
  ∀ (s : State) (e : Fin 8),
    (∀ i : Instr, ∀ op : Nat, ((i, op) ∈ [(Instr.updLd e true, 0x01), (.updLd e false, 0x01), (.updSt e, 0x02), (.updAdd e, 0x03),
        (.updSub e, 0x04), (.updMul e, 0x05), (.updMulk e, 0x06), (.updAddk e, 0x07), (.updShr e, 0x08), (.updShl e, 0x09),
        (.updMin e, 0x0A), (.updMax e, 0x0B), (.updAbs e, 0x0C), (.updNeg e, 0x0D), (.updCmpgt e, 0x0E), (.updSel e, 0x0F),
        (.updLut e, 0x10), (.updClip e, 0x11), (.updEnd e, 0x12)]) →
      (∀ b w, s.updAt e = some (b, w) → uiOp w ≠ op) → exec i s = .next s) ∧
    (∀ b w, s.updAt e = some (b, w) →
      let z := s.updTurn e
      let x := z.eng e
      let a := x.reg (uiRa w)
      let c := x.reg (uiRb w)
      let pa := x.pred (uiRa w)
      let rnd := s.updRnd e b w
      let gives := fun (v : Wide) (p : List Bool) => z.setEng e (x.result b w v p)
      -- the constant, the machine once it is read, and its engine
      let kz := (z.updConst e b.bank (uiK w)).1
      let k := (z.updConst e b.bank (uiK w)).2
      let kx := kz.eng e
      let ka := kx.reg (uiRa w)
      let kgives := fun (v : Wide) => kz.setEng e (kx.result b w v (kx.pred (uiRa w)))
      let slot := uiSlot w
      let block := UpdIn.wide (Store.get {} b.ins slot) ((Fmt.ofCode (ugFmt (s.engGroup e) slot)).getD .s4)
      let bad := (Store.get {} b.ins slot).bad
      let none64 := List.replicate 64 false
      let loads := fun (y : State) => y.setEng e ((y.eng e).result (((y.eng e).cur).getD b) w block none64)
      (uiOp w = 0x01 →
        (bad = 0 → exec (.updLd e false) s = .next (gives block none64)) ∧
        (bad = 3 → exec (.updLd e false) s = .next (loads (z.blockFault e .hw 3 slot))) ∧
        (bad ≠ 0 → bad ≠ 3 → exec (.updLd e false) s = .next (z.bankFault e bad slot)) ∧
        (let y := z.lateOperand e slot
         (bad = 0 → exec (.updLd e true) s = .next (loads y)) ∧
         (bad = 3 → exec (.updLd e true) s = .next (loads (y.blockFault e .hw 3 slot))) ∧
         (bad ≠ 0 → bad ≠ 3 → exec (.updLd e true) s = .next (y.bankFault e bad slot)) ∧
         (z.compiled = true → y = z.blockFault e .sched 7 slot) ∧
         (z.compiled = false → ∃ n, 1 ≤ n ∧ n ≤ 1024 ∧ y.tick = (elapse n z).tick ∧ (y.eng e).pos.delay = x.pos.delay + n ∧
           (y.eng e).cur = some { b with runs := b.runs + n } ∧ (y.eng e).u = x.u ∧ (y.eng e).p = x.p))) ∧
      (uiOp w = 0x03 → exec (.updAdd e) s = .next (gives (wideAdd a 48 c 48) pa)) ∧
      (uiOp w = 0x04 → exec (.updSub e) s = .next (gives (wideSub a 48 c 48) pa)) ∧
      (uiOp w = 0x05 → exec (.updMul e) s = .next (gives (wideMul a c rnd) pa)) ∧
      (uiOp w = 0x06 → exec (.updMulk e) s = .next (kgives (wideMul ka (immBlock k.1 k.2) none))) ∧
      (uiOp w = 0x07 → exec (.updAddk e) s = .next (kgives (wideAdd ka 48 (immBlock k.1 k.2) 24))) ∧
      (uiOp w = 0x08 → exec (.updShr e) s = .next (gives (wideShr a (uiN w) rnd) pa)) ∧
      (uiOp w = 0x09 → exec (.updShl e) s = .next (gives (wideShl a (uiN w)) pa)) ∧
      (uiOp w = 0x0A → exec (.updMin e) s = .next (gives (widePick a 48 c 48 (fun _ p q => if q < p then q else p)) pa)) ∧
      (uiOp w = 0x0B → exec (.updMax e) s = .next (gives (widePick a 48 c 48 (fun _ p q => if p < q then q else p)) pa)) ∧
      (uiOp w = 0x0C → exec (.updAbs e) s = .next (gives (wideAbs a) pa)) ∧
      (uiOp w = 0x0D → exec (.updNeg e) s = .next (gives (wideNeg a) pa)) ∧
      (uiOp w = 0x0E → exec (.updCmpgt e) s = .next (gives a (wideGt a c))) ∧
      (uiOp w = 0x0F → exec (.updSel e) s =
        .next (gives (widePick a 48 c 48 (fun j p q => if pa.getD j false then p else q)) pa)) ∧
      (uiOp w = 0x10 → exec (.updLut e) s = .next (gives (wideLut (Table.ofBytes (s.upd.tables.getD (uiTable w) [])) a).1 pa)) ∧
      (uiOp w = 0x11 → 0 ≤ k.1 → exec (.updClip e) s = .next (kgives (clipWide ka k.1 k.2))) ∧
      (uiOp w = 0x11 → k.1 < 0 → ∃ u, exec (.updClip e) s = .next u ∧ ((u.eng e).reg (uiRd w)).sat = (clipWide ka 0 k.2).sat ∧
        (u.eng e).pred (uiRd w) = kx.pred (uiRa w)) ∧
      (uiOp w = 0x12 →
        let ends := fun (y : State) => y.setEng e (UpdEngine.turn { y.eng e with tail := (y.eng e).tail ++ [{ b with endAt := y.tick }] })
        (z.seepBad e b = none → exec (.updEnd e) s = .next (ends z)) ∧
        ∀ n i, z.seepBad e b = some (n, i) →
          (i.bad = 3 → exec (.updEnd e) s = .next (ends (z.blockFault e .hw 3 n))) ∧
          (i.bad ≠ 3 → exec (.updEnd e) s = .next (z.bankFault e i.bad n))) ∧
      (let g := s.engGroup e
       let cap := ugSpace g slot == 2
       let f := (Fmt.ofCode (ugFmt g slot)).getD .s4
       let at_ := ugAddr g slot b.bank b.block x.pos.step
       let ctx := ugCtx g + b.bank
       let ok := (s.ctxOf ctx).st ≠ .open_ ∨ (s.mem.slot cap at_ f.bytes ≠ none ∧ s.pageOk cap ctx at_ f.bytes true = true)
       uiOp w = 0x02 →
        (ok →
          let o := rescale a f (uiPolicy w) (uiFix w) (s.amaxFloor (ugTensor g)) (uiRnd w) (s.updGen e b)
          let side := (o.sidecar f (uiRnd w) (a.sat.any id) (ctx + (s.ctxOf ctx).gen * 2 ^ 10)).bytes
          exec (.updSt e) s = .next (z.setEng e { x with cur := some { b with
            pc := b.pc + 1, uses := b.uses + b2n (uiDraws w)
            outs := Store.insert b.outs slot (packBlock f o.m, withCrc side (flipCrc (sideCrc side) (checkAddr cap at_))) } })) ∧
        (¬ok → exec (.updSt e) s = .next (z.bankFault e 5 slot)))) ∧
    (∀ x : UpdEngine, ∀ b w v p, let y := x.result b w v p
      y.reg (uiRd w) = v ∧ y.pred (uiRd w) = p ∧ (∀ r, r ≠ uiRd w → y.reg r = x.reg r ∧ y.pred r = x.pred r) ∧
      y.cur = some { b with pc := b.pc + 1, uses := b.uses + b2n (uiDraws w) } ∧ y.pos = x.pos ∧ y.undo = x.undo)

/-- R330, R332, R333: the Seep. Where it is enabled and the ring holds bytes not yet sent, the next 240 of them, or what there is, are
read from the ring and leave on its export port; where the port is not EXPORT or not UP, that is logged. An acknowledgement frees the records below it; one beyond the
numbers given out, or below the last, is logged and has no other effect. A resend begins again at the oldest byte kept. The GAP record
enters once the fill is below half. -/
def Obligations.Seep : Prop :=
  ∀ (s : State),
    let t := s.train
    let m := s.pmap (16 + fld (s.reg pgSEEP 0x40) 4 2)
    let n := min 240 (seepBytes t.seepRing - t.seepNext)
    let r := s.ringGet (t.seepPos + t.seepNext) n
    (t.seepEn = false ∨ n = 0 → exec .seepSend s = .next s) ∧
    (t.seepEn = true → n ≠ 0 → (m.mode ≠ 2 ∨ s.linkUp m.phys = false) → exec .seepSend s = .next (s.seepLog 3)) ∧
    (t.seepEn = true → n ≠ 0 → m.mode = 2 → s.linkUp m.phys = true → ∃ u f, exec .seepSend s = .next u ∧
      u.train.seepNext = t.seepNext + r.2.length ∧ u.train.seepRing = t.seepRing ∧ u.mem = r.1.mem ∧ f.body.take r.2.length = r.2 ∧
      (u.vport m.phys).xfer = (r.1.vport m.phys).xfer ++ [f] ∧ ∀ q, q ≠ m.phys → u.vport q = r.1.vport q) ∧
    (∀ n, (t.seepSeq < n ∨ n < t.seepAck → exec (.seepAck n) s = .next (s.seepLog 4)) ∧
      (n = t.seepAck → n ≤ t.seepSeq → exec (.seepAck n) s = .next s) ∧
      (t.seepAck < n → n ≤ t.seepSeq → ∃ u, exec (.seepAck n) s = .next u ∧ u.train.seepAck = n ∧ u.train.seepLastAck = s.tick ∧
        (∀ r ∈ u.train.seepRing, n ≤ r.seq) ∧ (∀ r ∈ t.seepRing, n ≤ r.seq → r ∈ u.train.seepRing))) ∧
    (t.seepEn = true → t.seepNext ≠ 0 → ∃ u, exec .seepResend s = .next u ∧ u.train.seepNext = 0 ∧ u.train.seepLastAck = u.tick ∧
      u.train.seepRing = t.seepRing) ∧
    (t.seepEn = false ∨ t.seepNext = 0 → exec .seepResend s = .next s) ∧
    (let due := t.seepGap = true ∧ t.seepFill * 2 < s.seepSize ∧ ∀ r ∈ t.seepHeld, r.bytes ≠ []
     (¬due → exec .seepGap s = .next s) ∧
     (due → ∃ u, exec .seepGap s = .next u ∧ u.train.seepGap = false ∧
       (∀ a b, t.seepLost = some (a, b) → ∃ r, u.train.seepRing = t.seepRing ++ [r] ∧ r.seq = t.seepSeq ∧
         u.train.seepSeq = t.seepSeq + 1) ∧
       (t.seepLost = none → u.train.seepRing = t.seepRing ∧ u.train.seepSeq = t.seepSeq)))

/-- R357, R360, R361, R362, R365, R400: the exchanges of the seal unit. A skip round sends the vector so far on every torus port and takes
in every vector received; a close round does the same with the close list; the first flit missing of an exchange is a hardware fault.
Replica digests go out, and those of Y− are compared. A vote goes through its stages, each at a later pier: windows whose digests differ
give the blocks to compare, and these the blocks whose CRCs differ; it ends with the majority copies written, or with a STOP where it
cannot decide, and waits while a copy has not come. Stress runs only in phase TEST, with a strict image LOADED. -/
def Obligations.Rounds : Prop :=
  ∀ (s : State),
    (∀ rx, s.exchangeOn = true → s.isStepSpan = true → s.pie.round < s.rounds →
      let t := s.cutoff + s.pie.round * s.roundTicks
      let w := (elapseTo t s).sealCompare
      let ports := w.torusPorts
      let got := (w.pie.seenPorts ++ rx).filter (fun x => ports.contains x.1)
      let v := got.foldl (fun a x => a ||| (x.2 % 2 ^ 1024)) w.agreedVector
      ∃ u : State, u.train.skipAcc = v ∧ u.pie.round = w.pie.round + 1 ∧ u.pie.seenPorts = [] ∧
        (∀ p ∈ ports, ∃ o ∈ u.out, o = .flit p (posTick t 29) 29 (w.sealFlit p false)) ∧
        (((∀ p ∈ ports, ∃ x ∈ got, x.1 = p) ∨ u.pie.roundFault = true) → exec (.skipRound rx) s = .next u) ∧
        (u.pie.roundFault = false → ∀ p, ports.find? (fun p => !(got.any (fun x => x.1 == p))) = some p →
          exec (.skipRound rx) s = .next (State.missing { u with pie := { u.pie with roundFault := true } } p (t + s.roundTicks)))) ∧
    (∀ rx, s.exchangeOn = false ∨ s.isStepSpan = false ∨ s.rounds ≤ s.pie.round → exec (.skipRound rx) s = .next s) ∧
    (∀ rx, s.exchangeOn = true → s.carriesClose = true → s.pie.closeRound < s.rounds →
      let t := s.cutoff + s.pie.closeRound * s.roundTicks
      let w := (elapseTo t s).sealCompare
      let ports := w.torusPorts
      let got := (w.pie.closeSeen ++ rx).filter (fun x => ports.contains x.1)
      let mine := if w.pie.closeRound = 0 then w.ctx.entries.take closeMax else w.ctx.merged
      ∃ u : State, u.ctx.merged = got.foldl (fun a x => closeMerge a x.2) mine ∧ u.pie.closeRound = w.pie.closeRound + 1 ∧
        u.pie.closeSeen = [] ∧
        (((∀ p ∈ ports, ∃ x ∈ got, x.1 = p) ∨ u.pie.closeFault = true) → exec (.closeRound rx) s = .next u) ∧
        (u.pie.closeFault = false → ∀ p, ports.find? (fun p => !(got.any (fun x => x.1 == p))) = some p →
          exec (.closeRound rx) s = .next (State.missing { u with pie := { u.pie with closeFault := true } } p (t + s.roundTicks)))) ∧
    (∀ rx, s.exchangeOn = false ∨ s.carriesClose = false ∨ s.rounds ≤ s.pie.closeRound → exec (.closeRound rx) s = .next s) ∧
    (∀ peer, let due := s.sch.job = .running ∧ s.sch.place = .pier ∧ s.replicaPier = true ∧ 2 ≤ s.extentY ∧ s.pie.compared = false
      (¬due → exec (.replicaDigestSend peer) s = .next s) ∧
      (due → ∃ u : State, u.pie.compared = true ∧
        let ds := u.pie.peerDigests.orElse (fun _ => peer)
        (ds = none ∨ u.physOf yMinus = [] → exec (.replicaDigestSend peer) s = .next (u.cnt pgPIE 0x9C 1)) ∧
        ∀ d p l, ds = some d → u.physOf yMinus = p :: l →
          exec (.replicaDigestSend peer) s = .next (u.replicaMismatch (u.mismatches d) (u.vport p).peerId true))) ∧
    (∀ peer, (s.voteAt 1 = none → exec (.voteWindows peer) s = .next s) ∧
      ∀ v, s.voteAt 1 = some v →
        let pos := fun (e : Nat) => (Store.get {} s.train.engines e : UpdEngine).pos
        ∃ u ws todo, exec (.voteWindows peer) s = .next u ∧
        u.pie.votes = s.pie.votes.map (fun x => if x.isY = v.isY then
          { v with stage := 2, pier := s.sch.seq, windows := ws, todo := todo } else x) ∧
        (∀ e w, (e, w) ∈ ws ↔ e < 8 ∧ bitAt v.engines e = true ∧ w < (pos e).lastWindows.length ∧
          (peer.find? (fun x => x.1 == e && x.2.1 == w)).map (·.2.2) ≠ some ((pos e).lastWindows.getD w 0)) ∧
        (∀ b, b ∈ todo ↔ ∃ e < 8, bitAt v.engines e = true ∧ b ∈ (pos e).windowBlocks ((pos e).badWindows e peer)) ∧
        ∀ e < 8, bitAt v.engines e = true → Out.voteWindows (s.votePort v) e (pos e).lastWindows ∈ u.out) ∧
    (∀ peer, (s.voteAt 2 = none → exec (.voteBlocks peer) s = .next s) ∧
      ∀ v, s.voteAt 2 = some v →
        let own := s.voteCopies (v.todo.take 8192)
        ∃ u bad todo, exec (.voteBlocks peer) s = .next u ∧
        u.pie.votes = s.pie.votes.map (fun x => if x.isY = v.isY then
          { v with stage := if todo = [] then 3 else 2, pier := s.sch.seq, todo := todo, blocks := v.blocks ++ bad } else x) ∧
        (∀ b, b ∈ todo ↔ b ∈ v.todo ∧ ¬(b ∈ v.todo.take 8192 ∧ ∃ i ∈ peer, voteBlock i = b)) ∧
        (∀ b, b ∈ bad ↔ ∃ x ∈ own.2, x.1 = b ∧ ∃ i, peer.find? (fun i => voteBlock i == b) = some i ∧ sideCrc x.2.2 ≠ sideCrc i.side) ∧
        Out.voteCrcs (s.votePort v) (own.2.map (fun x => (x.1, sideCrc x.2.2))) ∈ u.out) ∧
    (∀ copies, (s.voteAt 3 = none → exec (.voteWrite copies) s = .next s) ∧
      ∀ v, s.voteAt 3 = some v → (s.replicaPier = false → exec (.voteWrite copies) s = .next s) ∧
        (s.replicaPier = true →
          let own := s.voteCopies v.blocks
          let verdicts := own.2.filterMap (fun x =>
            (copies.find? (fun i => voteBlock i == x.1)).map (fun i => (i, x.2, voteVerdict x.2 i)))
          let z := own.1.voteSend v verdicts
          let mine := verdicts.filter (fun x => x.2.2 == 1)
          let theirs := verdicts.filter (fun x => x.2.2 == 2)
          let crowded := ∃ e < 8, 16 < (v.blocks.filter (fun b => b.engine == e)).length
          let torn := ∃ x ∈ verdicts, x.2.2 = 3
          let waits := verdicts.length < v.blocks.length
          (crowded ∨ torn → ∃ e, exec (.voteWrite copies) s =
            .next (((((z.voteEnd v 0 6).setInt pgPIE 5).pieErr 0 9 (e % 8 * 2 ^ 16) v.peer).suspect 0).raiseStop)) ∧
          (¬crowded → ¬torn → waits → exec (.voteWrite copies) s = .next (z.putVote { v with pier := s.sch.seq })) ∧
          (¬crowded → ¬torn → ¬waits → mine = [] → theirs = [] → exec (.voteWrite copies) s = .next (z.voteEnd v 0 5)) ∧
          (¬crowded → ¬torn → ¬waits → mine = [] → theirs ≠ [] →
            exec (.voteWrite copies) s = .next (z.voteEnd v theirs.length 4)) ∧
          (¬crowded → ¬torn → ¬waits → mine ≠ [] → exec (.voteWrite copies) s = .next (State.voteEnd
            (((mine.foldl (fun a x => a.voteStore (voteBlock x.1) x.1.data x.1.side) z).cnt pgPIE 0x94 mine.length).suspect 0)
            v (mine.length + theirs.length) 4)))) ∧
    (∀ m, Commands s m pgPIE → ∃ u, exec (.pieStressGo m) s = .next u ∧
      let w := s.reg pgPIE 0x6C
      let ok := s.sch.phase = .test ∧ s.sch.job = .loaded ∧ s.img.strict = true ∧ fld w 8 4 ≤ 8
      (ok → u.pie.stress = 1 ∧ u.pie.stressCmd = w ∧ u.pie.stressFails = 0) ∧ (¬ok → u.pie.stress = 5))

/-- R369 to R379, R381, R385, R387, R389, R392: standby. The pier record goes to the Y+ neighbour once a pier frame is 64 ticks old. The
mailbox commands of the state mover run at the head of the engine's queue, refuse a job that is not in the state they need with status 1,
and answer with the status the chapter gives; a stream is sent up to the item that fails a source check, an acknowledgement moves the
sender on and that of the last byte ends it, with that item's status where one failed; 200 µs without one resends, and the eleventh time
fails. A record is adopted only where it fits the device and its image, and its sequence number the span list. A neighbour all of whose
ports are dark is a second kind of rewind, and after 1,000,000 ticks a WITHDRAW. -/
def Obligations.Standby : Prop :=
  ∀ (s : State),
    (let due := s.sch.job = .running ∧ s.sch.place = .pier ∧ 2 ≤ s.extentY ∧ s.buddy.ownPending = none
     (due → ∃ u, exec .buddySend s = .next u ∧ u.buddy.ownPending = some (State.pierRecord (elapseTo (s.pierFirst + 64) s)) ∧
       u.mem = s.mem ∧ u.train = s.train) ∧
     (¬due → exec .buddySend s = .next s)) ∧
    (∀ i code, (i, code) ∈ [(Instr.stateSend, 0x40), (.stateRecv, 0x41), (.adopt, 0x42), (.selfRestore true, 0x43), (.selfRestore false, 0x43),
      (.probation, 0x44), (.stateStatus, 0x45)] → s.mbxRuns code = none → exec i s = .next s) ∧
    (∀ n, s.mbxRuns 0x40 = some n → let list := s.transferList (s.mbxArg64 n 1)
      let ends := fun (st : Nat) => State.mbxReply { s with buddy := { s.buddy with lastStatus := st } } n st []
      (s.buddy.tx.isSome = true → exec .stateSend s = .next s) ∧
      (s.buddy.tx = none → s.sch.job ≠ .loaded → s.sch.job ≠ .parked → exec .stateSend s = .next (ends 1)) ∧
      (s.buddy.tx = none → s.sch.job = .loaded ∨ s.sch.job = .parked →
        (list = none ∨ sendPortsOk (s.mbxArg n 3) = false → exec .stateSend s = .next (ends 2)) ∧
        ∀ es, list = some es → sendPortsOk (s.mbxArg n 3) = true →
          let r := State.tlStream es s 0
          ∃ u, exec .stateSend s = .next u ∧ u.buddy.txAck = 0 ∧ u.buddy.txTries = 0 ∧ u.buddy.txDest = s.mbxArg n 4 % 2 ^ 16 ∧
            u.buddy.txFail = r.2.2 ∧ (r.2.2 = none → u.buddy.tx = some (tlSeal r.2.1)) ∧
            (r.2.2 ≠ none → u.buddy.tx = some r.2.1))) ∧
    (∀ n, s.mbxRuns 0x41 = some n →
      (s.buddy.rxOn = true → exec .stateRecv s = .next s) ∧
      (s.buddy.rxOn = false → s.sch.job ≠ .loaded → ∃ u, exec .stateRecv s = .next u ∧ u.buddy.lastStatus = 1 ∧ u.buddy.rxOn = false) ∧
      (s.buddy.rxOn = false → s.sch.job = .loaded → ∃ u, exec .stateRecv s = .next u ∧ u.buddy.rxOn = true ∧ u.buddy.rxPos = 0 ∧
        u.buddy.rxBuf = [] ∧ u.mem = s.mem)) ∧
    (s.buddy.tx = none → (∀ n, exec (.stateAck n) s = .next s) ∧ exec .stateResend s = .next s) ∧
    (∀ b, s.buddy.tx = some b →
      (∀ n, (n ≤ s.buddy.txAck ∨ s.buddy.txNext < n → exec (.stateAck n) s = .next s) ∧
        (s.buddy.txAck < n → n ≤ s.buddy.txNext → ∃ u, exec (.stateAck n) s = .next u ∧ u.buddy.txAck = n ∧ u.buddy.txTries = 0 ∧
          (n = b.length → u.buddy.tx = none ∧
            (s.mbxRuns 0x40 ≠ none → u.buddy.lastStatus = (s.buddy.txFail.map (·.1)).getD 0 ∧ u.buddy.moved = n)) ∧
          (n ≠ b.length → u.buddy.tx = some b))) ∧
      (let w := elapseTo (s.buddy.txTick + 200000) s
       (10 ≤ s.buddy.txTries → exec .stateResend s = .next (w.txEnd 5 [])) ∧
       (s.buddy.txTries < 10 → ∃ u, exec .stateResend s = .next u ∧ u.buddy.txTries = s.buddy.txTries + 1 ∧ u.buddy.txTick = w.tick ∧
         u.buddy.tx = some b ∧ u.buddy.txAck = s.buddy.txAck))) ∧
    (let adopts := fun (i : Instr) (z : State) (n : Nat) (r : List Byte) (seqOver stepOver : Option Nat) =>
      let seq := leAt r 24 8
      let first := seqOver.getD seq
      let spans := z.img.spans.length
      let fits := (first + (spans - seq % spans)) % spans = 0
      (z.recFits r = false → exec i s = .next (z.adoptEnd n 7)) ∧
      (z.recFits r = true → ¬fits → exec i s = .next (z.adoptEnd n 8)) ∧
      (z.recFits r = true → fits → ∃ u, exec i s = .next u ∧ u.sch.seq = first ∧ u.sch.adopted = true ∧
        u.train.step = stepOver.getD (leAt r 32 4) ∧ u.train.seepSeq = leAt r 40 8 ∧ u.pwr.imagePoint = leAt r 36 1 ∧
        u.buddy.lastStatus = 0)
     (∀ n, s.mbxRuns 0x42 = some n →
       let w := s.mbxArg n 1
       let seqOver := if bitAt w 8 then some (s.mbxArg64 n 2) else none
       let stepOver := if bitAt w 9 then some (s.mbxArg n 4) else none
       (s.sch.job ≠ .loaded → exec .adopt s = .next (s.adoptEnd n 1)) ∧
       (s.sch.job = .loaded → fld w 0 8 = 0 → (s.buddy.ownSealed = none → exec .adopt s = .next (s.adoptEnd n 6)) ∧
         ∀ r, s.buddy.ownSealed = some r → adopts .adopt s.beforeAdopt n r seqOver stepOver) ∧
       (s.sch.job = .loaded → fld w 0 8 ≠ 0 → (s.buddy.received = none → exec .adopt s = .next (s.adoptEnd n 6)) ∧
         ∀ r, s.buddy.received = some r → adopts .adopt s.beforeAdopt n (r.take pierBytes) seqOver stepOver)) ∧
     (∀ n ok, s.mbxRuns 0x43 = some n →
       (s.sch.job ≠ .loaded → exec (.selfRestore ok) s = .next (s.adoptEnd n 1)) ∧
       (s.sch.job = .loaded → s.buddy.ownSealed = none → exec (.selfRestore ok) s = .next (s.adoptEnd n 6)) ∧
       (∀ r, s.sch.job = .loaded → s.buddy.ownSealed = some r →
         (ok = true → adopts (.selfRestore ok) s.carveRestore.beforeAdopt n r none none) ∧
         (ok = false → exec (.selfRestore ok) s = .next (s.restoreSomeLines.adoptEnd n 9))))) ∧
    (∀ n, s.mbxRuns 0x44 = some n → ∃ u, exec .probation s = .next u ∧ u.buddy.probation = s.mbxArg n 1 % 2 ^ 16 ∧
      u.buddy.lastStatus = 0 ∧ (u.mbx n).status = 0) ∧
    (∀ n, s.mbxRuns 0x45 = some n → ∃ u, exec .stateStatus s = .next u ∧ u.buddy = s.buddy ∧ (u.mbx n).status = 0 ∧
      (u.mbx n).rsp.length = 9 ∧ (u.mbx n).rsp.getD 1 0 = s.buddy.lastStatus ∧ (u.mbx n).rsp.getD 2 0 = b2n s.buddy.behind) ∧
    (∀ nbr, let ports := s.portsTo nbr
      let due := (s.sch.job = .running ∨ s.sch.job = .rewinding) ∧ ports ≠ [] ∧ (∀ p ∈ ports, s.linkUp p = false) ∧
        Store.find s.buddy.dark nbr = none
      (¬due → exec (.neighbourDark nbr) s = .next s) ∧
      (due → ∃ u, exec (.neighbourDark nbr) s = .next u ∧ Store.find u.buddy.dark nbr = some s.tick ∧
        u.pie.raises = s.pie.raises ++ [{ tick := s.tick, floor := s.tick + 1000000 + s.flood + 64, second := true }]) ∧
      (Store.find s.buddy.dark nbr = none → exec (.neighbourWithdraw nbr) s = .next s) ∧
      ∀ t, Store.find s.buddy.dark nbr = some t →
        let z := { s with buddy := { s.buddy with dark := Store.erase s.buddy.dark nbr } }
        let out := (∀ p ∈ ports, s.linkUp p = false) ∧ (s.sch.job = .running ∨ s.sch.job = .rewinding)
        (out → exec (.neighbourWithdraw nbr) s = .next (State.raiseWithdraw (elapseTo (t + 1000000) z) 5 nbr)) ∧
        (¬out → exec (.neighbourWithdraw nbr) s = .next z))

/-! Contexts, mailboxes, the management port and locks (chapters 16 and 17). -/

/-- R397, R398, R402 to R405, R407, R415, R416: the commands of the context unit. A command not accepted, or that the machine as it stands
does not allow, is refused with its code and changes nothing else; one for a pier waits, one at a time; CLOSE begins the teardown, PARK
and UNPARK move the context, SET_QUOTA sets a ceiling, GRANT and RETURN move pages, GRANT_KEY and RETURN_KEY a keystone. The zeroing
engine gives a device page and a capacity page their turn, as far as the pier frame's share goes: what it zeroed reads as zeros; the end of a quarantine frees the context where no page of it waits. -/
def Obligations.Contexts : Prop :=
  ∀ (s : State),
    (∀ m i op, Commands s m pgCTX → (i, op) ∈ [(Instr.ctxClose m, 1), (.ctxPark m, 2), (.ctxUnpark m, 3), (.ctxSetQuota m, 4), (.ctxGrant m, 5),
        (.ctxReturn m, 6), (.ctxGrantKey m, 7), (.ctxReturnKey m, 8)] →
      let c := s.ctxCmd op
      let atOnce := c.now = true ∨ (s.quietJob = true ∧ c.seq = 0)
      let x := s.ctxOf c.ctx
      let page := fun (u : State) (p : Nat) => Store.find (if c.kind = 1 then u.ctx.devPages else u.ctx.capPages) p
      (∀ code, s.ctxAccept c = some code → ∃ u, exec i s = .next u ∧ u.ctx = { s.ctx with refuse := code } ∧ u.mem = s.mem ∧
        u.cores = s.cores) ∧
      (s.ctxAccept c = none → ¬atOnce → exec i s = .next { s with ctx := { s.ctx with cmd := some c } }) ∧
      (s.ctxAccept c = none → atOnce → ∀ code, s.ctxCheck c = some code → ∃ u, exec i s = .next u ∧
        u.ctx = { s.ctx with refuse := code } ∧ u.mem = s.mem ∧ u.cores = s.cores) ∧
      (s.ctxAccept c = none → atOnce → s.ctxCheck c = none → ∃ u, exec i s = .next u ∧ u.mem = s.mem ∧
        (op = 1 → (u.ctxOf c.ctx).st = .closing ∧ (u.ctxOf c.ctx).quarEnd = s.tick + s.quarantine ∧
          (∀ g ∈ u.ctx.devPages ++ u.ctx.capPages, g.2.ctx ≠ c.ctx) ∧ (∀ k ∈ u.ctx.keys, k.2.owner ≠ c.ctx) ∧
          u.ctx.zeroQ = s.ctx.zeroQ ++ ((ownedPages s.ctx.devPages c.ctx).map (fun p => (false, p, c.ctx)) ++
            (ownedPages s.ctx.capPages c.ctx).map (fun p => (true, p, c.ctx)))) ∧
        (op = 2 → (u.ctxOf c.ctx).st = .parked ∧ u.ctx.devPages = s.ctx.devPages ∧ u.ctx.keys = s.ctx.keys) ∧
        (op = 3 → u.ctxOf c.ctx = { x with st := .open_ } ∧ u.cores = s.cores) ∧
        (op = 4 → c.kind = 1 → (u.ctxOf c.ctx).devQ = c.arg1) ∧ (op = 4 → c.kind = 2 → (u.ctxOf c.ctx).capQ = c.arg1) ∧
        (op = 4 → c.kind = 3 → (u.ctxOf c.ctx).keyQ = c.arg1) ∧
        (op = 4 → (u.ctxOf c.ctx).overQ = (x.overQ || (u.ctxOf c.ctx).isOver)) ∧
        (op = 5 → ∀ p, page u p = if c.arg1 ≤ p ∧ p < c.arg1 + c.arg2 then some ⟨c.ctx, bitAt c.arg0 13, bitAt c.arg0 14⟩ else page s p) ∧
        (op = 6 → (∀ g ∈ (if c.kind = 1 then u.ctx.devPages else u.ctx.capPages), ¬(c.arg1 ≤ g.1 ∧ g.1 < c.arg1 + c.arg2)) ∧
          u.ctx.zeroQ = s.ctx.zeroQ ++ (upTo c.arg2).map (fun i => (c.kind == 2, c.arg1 + i, c.ctx))) ∧
        (op = 7 → u.key c.arg1 = keyOfEntry c.entry ∧ (∀ k, k ≠ c.arg1 → u.key k = s.key k) ∧
          (u.ctxOf c.ctx).keyUse = x.keyUse + 1) ∧
        (op = 8 → (u.key c.arg1).kind = 0 ∧ (u.ctxOf c.ctx).keyUse = x.keyUse - 1))) ∧
    (s.ctx.zeroQ = [] → exec .zeroPage s = .next s) ∧
    (s.ctx.zeroQ ≠ [] → exec .zeroPage s = .next ((s.zeroCompare.zeroSpace false).zeroSpace true)) ∧
    (∀ (z : State) (cap : Bool), let b := z.zeroBudget cap
      let bytes := fun (m : MemState) (c : Bool) (a : Nat) => Store.get 0#8 (if c then m.cap else m.dev) a
      (z.zeroNext cap = none ∨ b = 0 → z.zeroSpace cap = z) ∧
      ∀ p done, z.zeroNext cap = some (p, done) → 0 < b →
        let a0 := p * 2 ^ 21 + done * 1024
        let n := (min b (2048 - done)) * 1024
        (∀ a, a0 ≤ a → a < a0 + n → bytes (z.zeroSpace cap).mem cap a = 0#8) ∧
        (∀ a, a < a0 ∨ a0 + n ≤ a → bytes (z.zeroSpace cap).mem cap a = bytes z.mem cap a) ∧
        ∀ a, bytes (z.zeroSpace cap).mem (!cap) a = bytes z.mem (!cap) a) ∧
    (∀ id : Fin 1024, let x := s.ctxOf id
      (x.st ≠ .closing ∨ x.quarOver = true → exec (.quarantineEnd id) s = .next s) ∧
      (x.st = .closing → x.quarOver = false → ∃ u, exec (.quarantineEnd id) s = .next u ∧
        ((∀ z ∈ s.ctx.zeroQ, z.2.2 ≠ id.val) → (u.ctxOf id).st = .free) ∧
        ((∃ z ∈ s.ctx.zeroQ, z.2.2 = id.val) → (u.ctxOf id).st = .closing ∧ (u.ctxOf id).quarOver = true)))

/-- R16, R429 to R433, R440, R443: the mailboxes. A doorbell is refused with the lowest code that applies, or its request is taken and waits
for the command engine; an ACK of a response that stands frees its mailbox, any other is refused with code 5. The engine runs the command
at the head of its queue: SHAPE and ECHO form their responses, KEY_ROTATE a new key, and once the response is formed the command completes
and the next one runs. -/
def Obligations.Mailboxes : Prop :=
  ∀ (s : State),
    (∀ m seq, s.hifOpen m = false → exec (.hifMbxDb m seq) s = .next s ∧ exec (.hifMbxAck m seq) s = .next s) ∧
    (∀ m seq, s.hifOpen m = true →
      (∀ code, s.host.mbx0.refusal seq.toNat (s.hifReq.headD 0) = some code → ∃ u, exec (.hifMbxDb m seq) s = .next u ∧
        u.host.mbx0 = { s.host.mbx0 with refuse := code } ∧ u.host.engineQ = s.host.engineQ) ∧
      (s.host.mbx0.refusal seq.toNat (s.hifReq.headD 0) = none → ∃ u, exec (.hifMbxDb m seq) s = .next u ∧
        u.host.mbx0 = { s.host.mbx0 with st := if s.host.engineQ = [] then .running else .queued, last := seq.toNat, refuse := 0
                                         req := s.hifReq.take (1 + fld (s.hifReq.headD 0) 8 6), rsp := [], status := 0, kslot := 0, since := s.tick + 1
                                         pos := 0, who := regAt pgHIF 0x60 } ∧
        u.host.engineQ = s.host.engineQ ++ [0] ∧ u.host.mbx1 = s.host.mbx1) ∧
      (s.host.mbx0.st = .done ∧ seq.toNat = s.host.mbx0.last → ∃ u, exec (.hifMbxAck m seq) s = .next u ∧
        u.host.mbx0 = { s.host.mbx0 with st := .idle, refuse := 0 }) ∧
      (¬(s.host.mbx0.st = .done ∧ seq.toNat = s.host.mbx0.last) → ∃ u, exec (.hifMbxAck m seq) s = .next u ∧
        u.host.mbx0 = { s.host.mbx0 with refuse := 5 })) ∧
    (s.host.engineQ = [] → exec .mbxDone s = .next s) ∧
    (∀ n rest, s.host.engineQ = n :: rest →
      ((s.mbx n).rsp = [] → exec .mbxDone s = .next s) ∧
      ((s.mbx n).rsp ≠ [] → rest = [] → ∃ u, exec .mbxDone s = .next u ∧ u.host.engineQ = [] ∧ u.mbx n = { s.mbx n with st := .done }) ∧
      ((s.mbx n).rsp ≠ [] → n < 2 → ∀ k l, rest = k :: l → k < 2 → k ≠ n → ∃ u, exec .mbxDone s = .next u ∧ u.host.engineQ = rest ∧
        u.mbx n = { s.mbx n with st := .done } ∧ u.mbx k = { s.mbx k with st := .running })) ∧
    (∀ i code, (i, code) ∈ [(Instr.shape, 0x01), (.echo, 0x02), (.keyRotate, 0x10)] → s.mbxRuns code = none → exec i s = .next s) ∧
    (∀ n, s.mbxRuns 0x01 = some n → ∃ u, exec .shape s = .next u ∧ (u.mbx n).status = 0 ∧
      (u.mbx n).rsp.tail = (upTo 32).map (fun i => leAt s.shape (4 * i) 4)) ∧
    (∀ n, s.mbxRuns 0x02 = some n → ∃ u, exec .echo s = .next u ∧ (u.mbx n).status = 0 ∧ (u.mbx n).rsp.tail = (s.mbx n).req.tail) ∧
    (∀ n, s.mbxRuns 0x10 = some n →
      let t := fld (s.mbxArg n 1) 0 8
      let p := fld (s.mbxArg n 1) 8 8
      let bad := n = 0 ∨ t = 0 ∨ 3 < t ∨ 3 < p ∨ t = (s.mbx n).kslot
      (bad → ∃ u, exec .keyRotate s = .next u ∧ (u.mbx n).status = 1 ∧ u.host.slots = s.host.slots) ∧
      (¬bad → ∃ u, exec .keyRotate s = .next u ∧ (u.mbx n).status = 0 ∧
        (u.slot t).key = hmacSha256 (s.slot p).key ((upTo 8).flatMap (fun i => leBytes 4 (s.mbxArg n (2 + i))) ++ [BitVec.ofNat 8 t]) ∧
        ∀ k, k ≠ t → u.slot k = s.slot k))

/-- R435 to R439, R444: the management port. With auxiliary power, out of MRST and with its firmware running, a frame that is not this
device's is counted, one of another version, device or key slot is ignored, one that does not verify is counted and logged, and one whose
counter is not above the floor is a replay. A counter above the reservation raises it, or ends the frame where that write fails; a frame
that passes moves the floor and its request is executed, or answered from the cache where it repeats the last; a TYPE that is no request
is logged. A risen line is notified once in 10 ms. -/
def Obligations.Management : Prop :=
  ∀ (s : State),
    (let serves := fun (i : Instr) (f : Frame) (serve : State → State) =>
      let k := frSlot f.bytes
      let x := s.slot k
      let n := frCounter f.bytes
      let r := reserve s x.rxResv n
      (s.portOn = false → exec i s = .next s) ∧
      (s.portOn = true → s.foreign f = true → exec i s = .next (s.cnt pgMGT 0x84 1)) ∧
      (s.portOn = true → s.foreign f = false →
        (s.addressed f.bytes = false → exec i s = .next s) ∧
        (s.addressed f.bytes = true → s.authentic f.bytes = false →
          exec i s = .next (((s.cnt pgMGT 0x88 1).mgtLog 1 f).setInt pgMGT 3)) ∧
        (s.addressed f.bytes = true → s.authentic f.bytes = true →
          (n ≤ x.rxFloor → exec i s = .next (((s.cnt pgMGT 0x8C 1).mgtLog 2 f).setInt pgMGT 3)) ∧
          (x.rxFloor < n → r.1 = none → exec i s = .next (r.2.mgtLog 6 f)) ∧
          ∀ v, x.rxFloor < n → r.1 = some v →
            exec i s = .next (serve ((r.2.setSlot k { x with rxFloor := n, rxResv := v }).cnt pgMGT 0x80 1))))
     (∀ f i ty run, (i, ty, run) ∈ [(Instr.mgtRead f, 1, runMgtRead), (.mgtWrite f, 2, runMgtWrite), (.mbx f, 3, runMbx),
        (.mbxAck f, 4, runMbxAck), (.mbxPoll f, 5, runMbxPoll)] →
       (frType f.bytes ≠ ty → exec i s = .next s) ∧ (frType f.bytes = ty → serves i f (fun z => z.answerFrame f run))) ∧
     (∀ f, let others := s.foreign f = true ∨ frType f.bytes = 0 ∨ 5 < frType f.bytes
       (others → serves (.foreignFrame f) f (fun z => z.mgtLog 3 f)) ∧ (¬others → exec (.foreignFrame f) s = .next s))) ∧
    (∀ resv n, let r := reserve s resv n
      (n ≤ resv → r = (some resv, s)) ∧ (resv < n → r.2.mem = s.mem ∧ r.2.regs = s.regs ∧ (r.1 = none ∨ r.1 = some (n + 2 ^ 24)))) ∧
    (∀ (z : State) (f : Frame) (run : State → Frame → Reply), let k := frSlot f.bytes
      let x := z.slot k
      (x.lastRseq = some (frSeq f.bytes) → z.answerFrame f run = (z.cnt pgMGT 0x98 1).sendFrame k f.src x.cached) ∧
      (x.lastRseq ≠ some (frSeq f.bytes) →
        let r := run z f
        let body := r.1.frameBody 0x81 k (frSeq f.bytes) r.2.1 r.2.2
        z.answerFrame f run =
          (r.1.setSlot k { r.1.slot k with lastRseq := some (frSeq f.bytes), cached := body }).sendFrame k f.src body)) ∧
    (∀ b : Fin 32, bitAt s.host.notifyDue b = false ∨ s.portOn = false → exec (.notify b) s = .next s) ∧
    (∀ b : Fin 32, bitAt s.host.notifyDue b = true → s.portOn = true → ∃ w z : State,
      (Store.find s.host.notifyAt b = none → w = s) ∧ (∀ t, Store.find s.host.notifyAt b = some t → w = elapseTo (t + 10000000) s) ∧
      bitAt z.host.notifyDue b = false ∧ Store.find z.host.notifyAt b = some w.tick ∧
      exec (.notify b) s = .next (State.sendFrame (z.cnt pgMGT 0x90 1) 0 (z.reg64 pgMGT 0x48 % 2 ^ 48) (z.frameBody 0x82 0 0 0 [b.val]))) ∧
    (∀ up, (s.host.linkUp = up → exec (.mgtLinkChange up) s = .next s) ∧
      (s.host.linkUp ≠ up → ∃ u, exec (.mgtLinkChange up) s = .next u ∧ u.host.linkUp = up ∧ u.mem = s.mem ∧
        bitAt (u.reg pgMGT 0x10) 0 = true ∧ (up = false ∨ bitAt (s.reg pgMGT 0x40) 0 = false → u.host.plca = false)))

/-- R12, R441, R442, R479, R480, R481: ownership. A CLAIM takes a page that nobody owns and leaves every other as it is, one that meets
the other master's of the same cycle is CONTENDED; a RELEASE frees a page of the master alone. A bulk claim takes every implemented page of
its set, or none where one is owned; a bulk release frees those of the master. In one cycle management's operations act before any of PCIe:
one that is taken after some of PCIe's acts on what stood before them, and PCIe's act again. A lease that runs out and SEM_FORCE free the
locks of the master they name. -/
def Obligations.Locks : Prop :=
  ∀ (s : State) (m : Master),
    (∀ i page v, (i, v) ∈ [(Instr.lockClaim m page, 2 ^ 8), (.lockRelease m page, 2 ^ 9)] →
      (s.reaches m = false → exec i s = .next s) ∧
      (s.reaches m = true → page < 0x4000 →
        (s.implemented page = false → exec i s = .next (s.genLog 1 m true (regAt page 0x1C))) ∧
        (s.implemented page = true → s.takes page = false → exec i s = .next s) ∧
        (s.implemented page = true → s.takes page = true → exec i s = .next (s.lockTurn m (.page page v)))) ∧
      (s.reaches m = true → 0x4000 ≤ page → (s.answers pgSEM = false → exec i s = .next s) ∧
        (s.answers pgSEM = true → exec i s = .next (s.lockTurn m (.page page v))))) ∧
    (∀ (v : Word) i op, (i, op) ∈ [(Instr.genBulkClaim m v, 1), (.genBulkRelease m v, 2)] →
      (s.reaches m = true → s.answers pgGEN = true → exec i s = .next (s.lockTurn m (.bulk (setFld v.toNat 28 2 op)))) ∧
      (s.reaches m = false ∨ s.answers pgGEN = false → exec i s = .next s)) ∧
    (let c := s.cycleNow
     (∀ op, m = .pcie ∨ s.pwr.mainOk = false ∨ c.ops = [] → ∀ p, (s.lockTurn m op).owner p = (s.lockOp m op).owner p) ∧
     (∀ op, s.pwr.mainOk = true → c.ops ≠ [] → ∀ p,
       (s.lockTurn .mgt op).owner p = (c.ops.foldl (fun a o => a.lockOp .pcie o) ((s.beforePcie c).lockOp .mgt op)).owner p)) ∧
    (OwnersOk s → ∀ (c : LockCycle) p,
      (s.beforePcie c).owner p = if p ∈ c.pcie then 1 else if s.owner p = 1 then 0 else s.owner p) ∧
    (∀ key v, let z := s.lockOp m (.page key v)
      (bitAt v 8 = true → bitAt v 9 = false → (s.contends m key = true → bitAt (z.reg pgSEM 0x10) 0 = true) ∧
        ∀ p, z.owner p = if p = key ∧ s.owner key = 0 then masterCode m else s.owner p) ∧
      (bitAt v 8 = false → bitAt v 9 = true → ∀ p, z.owner p = if p = key ∧ s.owner key = masterCode m then 0 else s.owner p) ∧
      (bitAt v 8 = bitAt v 9 → z = s)) ∧
    (∀ v, let z := s.lockOp m (.bulk v)
      let ps := s.bulkPages v
      (bulkBad v = true → z = s.bulkStat m 3 0 0) ∧
      (bulkBad v = false → bulkOp v = 2 → ∀ p, z.owner p = if p ∈ ps ∧ s.owner p = masterCode m then 0 else s.owner p) ∧
      (bulkBad v = false → bulkOp v = 1 →
        (∀ p, ps.find? (fun q => s.owner q != 0) = some p →
          z = (if s.contends m p then s.setInt pgSEM 0 else s).bulkStat m 2 (s.owner p) p) ∧
        ((∀ p ∈ ps, s.owner p = 0) → ∀ p, z.owner p = if p ∈ ps then masterCode m else s.owner p))) ∧
    (s.reaches m = false ∨ s.answers pgSEM = false → ∀ v, exec (.semHb m) s = .next s ∧ exec (.semForce m v) s = .next s) ∧
    (s.reaches m = true → s.answers pgSEM = true → ∃ u, exec (.semHb m) s = .next u ∧ u.regs = s.regs ∧
      (m = .pcie → u.host.hbPcie = s.tick) ∧ (m = .mgt → u.host.hbMgt = s.tick)) ∧
    (∀ v : Word, s.reaches m = true → s.answers pgSEM = true →
      let code := fld v.toNat 16 2
      (code = 0 ∨ code = 3 → exec (.semForce m v) s = .next s) ∧
      (OwnersOk s → code = 1 ∨ code = 2 → ∃ u, exec (.semForce m v) s = .next u ∧ ∀ p, u.owner p =
        if s.owner p = code ∧ (bitAt v.toNat 31 = true ∨ p = fld v.toNat 0 14) then 0 else s.owner p)) ∧
    (let ms := match m with
       | .pcie => fld (s.reg pgSEM 0x40) 0 16
       | .mgt => fld (s.reg pgSEM 0x40) 16 16
     (ms = 0 → exec (.leaseExpiry m) s = .next s) ∧
     (OwnersOk s → 0 < ms → ∃ u, exec (.leaseExpiry m) s = .next u ∧
       (∀ p, u.owner p = if s.owner p = masterCode m then 0 else s.owner p) ∧
       (m = .pcie → u.host.hbPcie = u.tick) ∧ (m = .mgt → u.host.hbMgt = u.tick)))

/-! Resets, power, clocks and watchdogs (chapters 18 and 21). -/

/-- R459 to R462, R470, R492: core and die resets, and a spare. RST_CORE and RST_DIE are refused with code 1 where the job is not IDLE,
LOADED or STOPPED or the die is under a self-test, and with 2 where the target is out of range; one that a reset in progress contains is
absorbed and counted. One that is taken resets the cores it covers, keeps their memory and everything else of the device, discards the
mesh messages to and from them and is counted. RST_SPARE, in IDLE, gives the coordinate to the die's next spare, with its memory zero,
and a core reset that a reset in progress may absorb, and is refused with code 2 where the die has none left. RESET_DONE ends a reset, and the cores come out of it. -/
def Obligations.CoreAndDieResets : Prop :=
  ∀ (s : State),
    (∀ m, Commands s m pgRST →
      let t := s.rstTarget
      let d := dieOf t
      let quiet := s.sch.job = .idle ∨ s.sch.job = .loaded ∨ s.sch.job = .stopped
      let refuses := fun (i : Instr) (code : Nat) => ∃ u, exec i s = .next u ∧ u.rst = { s.rst with refuse := code } ∧ u.cores = s.cores ∧
        u.mesh = s.mesh ∧ DeviceKept s u ∧ bitAt (u.reg pgRST 0x10) 1 = true
      let absorbs := fun (i : Instr) (counter : Nat) => ∃ u, exec i s = .next u ∧ u.rst = { s.rst with refuse := 4 } ∧ u.cores = s.cores ∧
        u.mesh = s.mesh ∧ DeviceKept s u ∧ u.reg pgRST counter = satAt max32 (s.reg pgRST counter + 1)
      (¬quiet ∨ s.dieTested d = true → refuses (.rstCore m) 1) ∧
      (quiet → s.dieTested d = false → s.corePresent t = false → refuses (.rstCore m) 2) ∧
      (quiet → s.dieTested d = false → s.corePresent t = true → s.coreInReset t = true → absorbs (.rstCore m) 0x50) ∧
      (quiet → s.dieTested d = false → s.corePresent t = true → s.coreInReset t = false → ∃ u, exec (.rstCore m) s = .next u ∧
        CoreAnew s u t ∧ (u.core t).inReset = true ∧ (∀ c, c ≠ t → u.core c = s.core c) ∧
        u.mesh = s.mesh.filter (fun x => x.src != t && x.dst != t) ∧ DeviceKept s u ∧ u.rst.last = 1 ∧
        u.rst.runs = s.rst.runs ++ [⟨.core, t, s.tick⟩] ∧ u.reg pgRST 0x50 = satAt max32 (s.reg pgRST 0x50 + 1) ∧
        ∀ i < 5, ∀ o < 0x1000, u.reg (pgCORE t + i) o = regReset (regAt (pgCORE t + i) o)) ∧
      (¬quiet ∨ s.dieTested t = true → refuses (.rstDie m) 1) ∧
      (quiet → s.dieTested t = false → 4 ≤ t → refuses (.rstDie m) 2) ∧
      (quiet → s.dieTested t = false → t < 4 → s.dieInReset t = true → absorbs (.rstDie m) 0x54) ∧
      (quiet → s.dieTested t = false → t < 4 → s.dieInReset t = false → ∃ u, exec (.rstDie m) s = .next u ∧
        (∀ c < 256, dieOf c = t → CoreAnew s u c ∧ (u.core c).inReset = true) ∧
        (∀ c, 256 ≤ c ∨ dieOf c ≠ t → u.core c = s.core c) ∧
        u.mesh = s.mesh.filter (fun x => !(dieCores t).contains x.src && !(dieCores t).contains x.dst) ∧ DeviceKept s u ∧
        u.rst.last = 2 ∧ ⟨.die, t, s.tick⟩ ∈ u.rst.runs ∧ u.reg pgRST 0x54 = satAt max32 (s.reg pgRST 0x54 + 1)) ∧
      (s.sch.job ≠ .idle ∨ s.dieTested d = true → refuses (.rstSpare m) 1) ∧
      (s.sch.job = .idle → s.dieTested d = false → 2 ≤ fld s.rst.spares (2 * d) 2 → refuses (.rstSpare m) 2) ∧
      (s.sch.job = .idle → s.dieTested d = false → fld s.rst.spares (2 * d) 2 < 2 → ∃ u, exec (.rstSpare m) s = .next u ∧
        (u.core t).mem = [] ∧ (u.core t).ecc = [] ∧ (u.core t).undo = {} ∧ (∀ c, c ≠ t → u.core c = s.core c) ∧
        u.rst.coreMap = Store.insert s.rst.coreMap t (64 + fld s.rst.spares (2 * d) 2) ∧ u.rst.spares = s.rst.spares + 2 ^ (2 * d) ∧
        u.rst.absent = s.rst.absent.filter (fun x => x != t) ∧ DeviceKept s u ∧
        u.reg pgRST 0x50 = satAt max32 (s.reg pgRST 0x50 + 1) ∧
        (s.coreInReset t = false → (u.core t).inReset = true ∧ u.rst.last = 1 ∧ u.rst.runs = s.rst.runs ++ [⟨.core, t, s.tick⟩]) ∧
        (s.coreInReset t = true → (u.core t).inReset = (s.core t).inReset ∧ u.rst.last = s.rst.last ∧ u.rst.runs = s.rst.runs ∧
          u.rst.refuse = 4))) ∧
    (∀ (die : Bool) (n : Nat),
      let mine := fun (r : ResetRun) => r.target == n && r.dom == (if die then .die else .core)
      (s.rst.runs.any mine = false → exec (.resetDone die n) s = .next s) ∧
      (s.rst.runs.any mine = true → ∃ u, exec (.resetDone die n) s = .next u ∧
        u.rst = { s.rst with runs := s.rst.runs.filter (fun r => !mine r) } ∧ DeviceKept s u ∧ bitAt (u.reg pgRST 0x10) 0 = true ∧
        ∀ c, u.core c = if (if die then dieOf c = n else c = n) then { s.core c with inReset := false } else s.core c))

/-- R211, R386, R425, R459 to R463, R500: warm and cold resets. A warm reset by command, and each PCIe reset with main power present and the
module reset input high, takes a warm reset, unless a recovery already in progress contains it, when it is counted alone; a PCIe reset
also releases PCIe's locks, is counted and resets the MSI-X table. A warm reset of a running, rewinding or parked job first floods
WITHDRAW with reason 4 (R386). RST_COLD and the module reset input perform a cold reset; its dump stays only with Z12_RETAIN. The
device stays in reset while the input is low, and no page answers before the interfaces come up anew. -/
def Obligations.WarmAndColdResets : Prop :=
  ∀ (s : State),
    let warm := fun (i : Instr) => ∃ u, exec i s = .next u ∧ WarmFrom s u
    let busy := s.rst.runs.any (fun r => r.dom == .warm) = true
    let absorbed := fun (i : Instr) => ∃ u, exec i s = .next u ∧ u.rst = { s.rst with refuse := 4 } ∧ u.sch = s.sch ∧ u.cores = s.cores ∧
      u.mem = s.mem ∧ u.reg pgRST 0x58 = satAt max32 (s.reg pgRST 0x58 + 1)
    let pcie := fun (u : State) => u.host.msix = [] ∧ u.host.d3hot = false ∧ (∀ p, u.owner p = if s.owner p = 1 then 0 else s.owner p)
    (∀ m, Commands s m pgRST →
      (¬busy → warm (.rstWarm m)) ∧ (busy → absorbed (.rstWarm m)) ∧
      (¬busy → ∀ u, exec (.rstWarm m) s = .next u → u.host.locks = s.host.locks) ∧
      (∃ u, exec (.rstCold m) s = .next u ∧ ColdFrom s u 4 ∧ u.rst.dump.isSome = bitAt (s.reg pgMD 0x40) 0 ∧
        bitAt (u.reg pgRST 0x10) 0 = true ∧ u.rst.firstAnswer = false ∧ u.rst.allAnswer = false ∧
        u.rst.coldAt.isSome = !s.rst.mrstLow)) ∧
    (∀ i, i = .conventionalReset ∨ i = .hotReset ∨ i = .functionLevelReset →
      (s.pwr.mainOk = false ∨ s.rst.mrstLow = true → exec i s = .next s) ∧
      (s.pwr.mainOk = true → s.rst.mrstLow = false → ¬busy → warm i) ∧
      (s.pwr.mainOk = true → s.rst.mrstLow = false → busy → absorbed i) ∧
      (OwnersOk s → s.pwr.mainOk = true → s.rst.mrstLow = false → ∀ u, exec i s = .next u → pcie u)) ∧
    (s.pwr.auxOk = false ∨ s.rst.mrstLow = true → exec .mrst s = .next s) ∧
    (s.pwr.auxOk = true → s.rst.mrstLow = false → ∃ u, exec .mrst s = .next u ∧ ColdFrom s u 5 ∧
      u.rst.dump.isSome = bitAt (s.reg pgMD 0x40) 0 ∧ u.rst.mrstLow = true ∧ u.rst.firstAnswer = false ∧ u.rst.allAnswer = false ∧
      u.rst.coldAt = none) ∧
    (s.rst.mrstLow = false → exec .mrstRelease s = .next s) ∧
    (s.rst.mrstLow = true → exec .mrstRelease s =
      .next (({ s with rst := { s.rst with mrstLow := false, coldAt := some s.aon } } : State).setInt pgRST 0)) ∧
    (s.sch.job = .running ∨ s.sch.job = .rewinding ∨ s.sch.job = .parked → s.mem.sump = [] →
      let w := alarmWord 2 s.devId (4 + s.eventSpan % 256 * 2 ^ 8 + s.devId * 2 ^ 16)
      s.knowsAlarm w = false → ∀ say p, p < 20 → s.inPart p = true → ∃ u, s.warm say = say u ∧
        .alarm p s.tick w (crc8 (leBytes 8 w)) ∈ u.out)

/-- R426, R427, R428, R453, R458, R459, R501, R502: power. D3hot turns BAR decoding off and leaves the job and fabric as they are; a resume
answers an outstanding wake request and sends the pending vectors, and PM_PME repeats while one is outstanding in D3hot. The always-on domain starts with
auxiliary power, logging an image that fails firmware's check (a free value, log 49), and loses all but fuses and non-volatile stores with it; main power that comes up performs a cold reset, LAST telling
whether a trip preceded it, and main power that is lost leaves the always-on domain alone. A trip, at 110 °C of a die, 105 °C of a
stack or above 1.25 × TDP, writes the dump first and holds ALERT# low until main power returns; a rail out of its band is a trip. -/
def Obligations.PowerStates : Prop :=
  ∀ (s : State),
    (s.pwr.mainOk = true → s.allUp = true →
      exec .d3hotEntry s = .next { s with host := { s.host with d3hot := true, l1 := true, resuming := false } }) ∧
    (s.pwr.mainOk = false ∨ s.allUp = false → exec .d3hotEntry s = .next s) ∧
    (s.pwr.mainOk = true → s.host.d3hot = true ∨ s.host.wakeOut = true → ∃ u, exec .d0Resume s = .next u ∧
      u.host.d3hot = false ∧ u.host.l1 = false ∧ u.host.wakeOut = false ∧ u.host.resuming = true ∧ u.regs = s.regs ∧ u.sch = s.sch ∧ u.mem = s.mem ∧
      (∀ v < 32, bitAt s.host.pba v = true → bitAt (Store.get {} s.host.msix v).ctl 0 = false →
        s.message v ∈ u.out ∧ bitAt u.host.pba v = false) ∧
      (s.host.wakeOut = true → s.host.d3hot = false → u.out.getLast? = some (.wake false))) ∧
    (s.pwr.mainOk = false ∨ (s.host.d3hot = false ∧ s.host.wakeOut = false) → exec .d0Resume s = .next s) ∧
    (s.host.d3hot = true → s.host.wakeOut = true → s.host.pmeStatus = true →
      exec .pmeRepeat s = .next ((s.cnt pgHIF 0x78 1).emit .pme)) ∧
    (s.host.d3hot = false ∨ s.host.wakeOut = false ∨ s.host.pmeStatus = false → exec .pmeRepeat s = .next s) ∧
    (s.pwr.auxOk = true → exec .auxPowerUp s = .next s) ∧
    (s.pwr.auxOk = false → let passed := bitAt s.free.1.toNat 0 = false
      let z : State := { s.free.2 with pwr := { s.pwr with auxOk := true }, rst := { s.rst with fwRun := true, coldAt := some s.aon } }
      (passed → exec .auxPowerUp s = .next z) ∧ (¬passed → exec .auxPowerUp s = .next (z.logErr pgMD (2 * 2 ^ 24) 0 0))) ∧
    (s.pwr.auxOk = false → exec .auxPowerLoss s = .next s) ∧
    (s.pwr.auxOk = true → ∃ u, exec .auxPowerLoss s = .next u ∧ u.pwr.mainOk = false ∧ u.pwr.auxOk = false ∧ u.regs = [] ∧ u.cores = [] ∧
      u.sch = {} ∧ u.mem.dev = [] ∧ u.mem.cap = [] ∧ u.buddy = {} ∧ u.rst.dump = none ∧ u.rst.fwRun = false ∧
      (∀ k, (u.slot k).key = (s.slot k).key) ∧ u.rst.coreMap = s.rst.coreMap) ∧
    (s.pwr.mainOk = true ∨ s.pwr.auxOk = false → exec .mainPowerUp s = .next s) ∧
    (s.pwr.mainOk = false → s.pwr.auxOk = true → ∃ u, exec .mainPowerUp s = .next u ∧
      ColdFrom s u (if s.pwr.tripped then 6 else 0) ∧ u.pwr.mainOk = true ∧ u.pwr.tripped = false ∧ bitAt (u.reg pgPWR 0x10) 0 = true ∧
      bitAt (u.reg pgRST 0x10) 0 = true) ∧
    (s.pwr.mainOk = false → exec .mainPowerLoss s = .next s) ∧
    (s.pwr.mainOk = true → ∃ u, exec .mainPowerLoss s = .next u ∧ CutFrom s u ∧ u.rst.dump = s.rst.dump ∧ u.pwr.alert = false ∧
      u.pwr.tripped = s.pwr.tripped ∧ u.out = if s.pwr.alert then s.out ++ [.alert false] else s.out) ∧
    (let trips := fun (i : Instr) => ∃ u, exec i s = .next u ∧ CutFrom s u ∧ u.rst.dump.isSome = true ∧ u.rst.dumpType = 6 ∧
       u.pwr.tripped = true ∧ u.pwr.alert = false ∧ (s.pwr.alert = false → .alert true ∈ u.out)
     (∀ watts tmax,
       let reached := 110 ≤ tmax ∨ Config.tdpW s.bin * 5 < watts * 4 ∨ ∃ p ∈ s.mem.stack, 105 ≤ p.2.temp
       (s.pwr.mainOk = true → reached → trips (.trip watts tmax)) ∧
       (s.pwr.mainOk = false ∨ ¬reached → exec (.trip watts tmax) s = .next s)) ∧
     (∀ (r : Fin 9) (mv : Nat),
       let v := Config.fusedMv s.bin s.pwr.point - (if s.pwr.stress then 5 * fld s.pie.stressCmd 4 4 else 0)
       (s.pwr.mainOk = false → exec (.railFault r mv) s = .next s) ∧
       (s.pwr.mainOk = true → r ≤ 3 → v ≤ mv + 30 → mv ≤ v + 30 → exec (.railFault r mv) s = .next s) ∧
       (s.pwr.mainOk = true → r ≤ 3 → (mv + 30 < v ∨ v + 30 < mv) → trips (.railFault r mv)) ∧
       (s.pwr.mainOk = true → r = 6 → (mv < 3135 ∨ 3465 < mv) → trips (.railFault r mv)) ∧
       (s.pwr.mainOk = true → r = 6 → 3135 ≤ mv → mv ≤ 3465 → exec (.railFault r mv) s = .next s) ∧
       (s.pwr.mainOk = true → r = 8 → (mv * 1000 < 727500 ∨ 772500 < mv * 1000) → trips (.railFault r mv)) ∧
       (s.pwr.mainOk = true → r = 8 → 727500 ≤ mv * 1000 → mv * 1000 ≤ 772500 → exec (.railFault r mv) s = .next s) ∧
       (s.pwr.mainOk = true → (r = 4 ∨ r = 5 ∨ r = 7) → trips (.railFault r mv))))

/-- R448 to R451, R457, R458: clock sources, alerts and the governor. A window's counts stand in their registers and decide what is qualified;
REF drives the tick PLL while it is qualified and enabled, XTAL otherwise, and no change of reference steps the tick or is a fault. A lock
lost, of the tick PLL or of a die's running or standby core PLL, is a hardware fault while the job runs or rewinds, and an event otherwise. An alert drives ALERT# and lowers, under the governor, the
point by one every millisecond; once it has ended the point rises by one every 10 ms, to the image's. -/
def Obligations.ClocksAndAlerts : Prop :=
  ∀ (s : State),
    (∀ refx xrc refrc, refx < 2 ^ 17 → xrc < 2 ^ 15 → refrc < 2 ^ 17 →
      let pRefx := 99980 ≤ refx ∧ refx ≤ 100020
      let pXrc := 23750 ≤ xrc ∧ xrc ≤ 26250
      let pRefrc := 95000 ≤ refrc ∧ refrc ≤ 105000
      ∃ u, exec (.qualWindow refx xrc refrc) s = .next u ∧ u.clk.qRefx = refx % 2 ^ 17 ∧ u.clk.qXrc = xrc % 2 ^ 15 ∧
        u.clk.qRefrc = refrc % 2 ^ 17 ∧ u.tick = s.tick ∧ u.sch = s.sch ∧ u.pie.raises = s.pie.raises ∧
        (¬pXrc → ¬pRefrc → pRefx → u.clk.rcQ = false) ∧
        (pXrc ∨ pRefrc → 3 ≤ s.clk.rcPass → u.clk.rcQ = true) ∧
        (u.clk.rcOut = false → ¬pXrc → u.clk.xtalQ = false) ∧
        (u.clk.rcOut = false → pXrc → 3 ≤ s.clk.xtalPass → u.clk.xtalQ = true) ∧
        (u.clk.rcOut = true → refx = 0 → refrc = 0 → u.clk.xtalQ = true) ∧
        (u.clk.rcOut = true → (refx ≠ 0 ∨ refrc ≠ 0) → ¬pRefx → u.clk.xtalQ = false) ∧
        (¬pRefrc → u.clk.refQ = false) ∧ (¬pRefx → pXrc → u.clk.refQ = false) ∧
        (pRefrc → pRefx → 3 ≤ s.clk.refPass → u.clk.refQ = true) ∧
        u.clk.src = (if u.clk.refQ = true ∧ bitAt (s.reg pgCLK 0x40) 0 = true ∧
            (bitAt (s.reg pgCLK 0x40) 1 = true ∨ s.clk.src ≠ 1 ∨ u.clk.xtalQ = false) then 0 else if u.clk.xtalQ = true then 1 else 3) ∧
        (u.clk.src ≠ 3 → u.clk.tickLock = true ∧ u.clk.coreLock = 15 ∧ u.clk.standbyLock = 15)) ∧
    (∀ pll : Fin 9, ∃ u, exec (.pllUnlock pll) s = .next u ∧
      u.clk = (if pll < 4 then { s.clk with coreLock := clrBit s.clk.coreLock pll }
        else if pll = 4 then { s.clk with tickLock := false }
        else { s.clk with standbyLock := clrBit s.clk.standbyLock (pll - 5) }) ∧
      bitAt (u.reg pgCLK 0x10) 3 = true ∧ u.reg pgCLK 0x60 = satAt max32 (s.reg pgCLK 0x60 + 1) ∧
      (s.sch.job = .running ∨ s.sch.job = .rewinding → u.pie.raises = s.pie.raises ++ [{ tick := s.tick }]) ∧
      (s.sch.job ≠ .running → s.sch.job ≠ .rewinding → u.pie = s.pie)) ∧
    (∀ watts tmax,
      let cfg := s.reg pgPWR 0x40
      let begins := s.pwr.alert = false ∧ s.pwr.mainOk = true ∧ (fld cfg 16 16 < watts ∨ fld cfg 8 8 < tmax)
      (¬begins → exec (.powerAlert watts tmax) s = .next s) ∧
      (begins → ∃ u, exec (.powerAlert watts tmax) s = .next u ∧ u.out.getLast? = some (.alert true) ∧
        u.pwr = { s.pwr with alert := true, watts := watts % 2 ^ 16, tmax := tmax % 2 ^ 8 } ∧ u.sch = s.sch ∧ u.tick = s.tick ∧ bitAt (u.reg pgPWR 0x10) 3 = true ∧
        (s.host.d3hot = true → bitAt (s.reg pgHIF 0x54) 5 = true → bitAt (u.reg pgHIF 0x50) 5 = true))) ∧
    (s.pwr.alert = false → exec .alertEnd s = .next s) ∧
    (s.pwr.alert = true → ∃ u, exec .alertEnd s = .next u ∧ u.pwr = { s.pwr with alert := false } ∧
      u.out = if s.pwr.tripped then s.out else s.out ++ [.alert false]) ∧
    (let allowed := bitAt (s.reg pgPWR 0x40) 0 = true ∧ s.img.strict = false ∧ s.pwr.mainOk = true
     let changes := fun (gap p : Nat) =>
       let y := elapseTo (if s.pwr.govAt = 0 then 0 else s.pwr.govAt + gap) s
       let z := elapseTo (ceilDiv y.tick 32 * 32) y
       ∃ u, exec .governorStep s = .next u ∧ u.pwr = { s.pwr with point := p, govAt := z.tick } ∧ u.tick = z.tick ∧
         u.clk = s.clk.switchPlls ∧ u.reg pgPWR 0x60 = satAt max32 (s.reg pgPWR 0x60 + 1) ∧
         u.reg pgPWR 0x64 = satAt max32 (s.reg pgPWR 0x64 + 1) ∧ bitAt (u.reg pgPWR 0x10) 2 = true ∧
         (Store.find s.slips pgPWR = none → u.pie = s.pie)
     (¬allowed → exec .governorStep s = .next s) ∧
     (allowed → s.pwr.alert = true → s.pwr.point ≠ 0 → changes 1000000 (s.pwr.point - 1)) ∧
     (allowed → s.pwr.alert = true → s.pwr.point = 0 → exec .governorStep s = .next s) ∧
     (allowed → s.pwr.alert = false → s.pwr.point < s.pwr.ceiling → changes 10000000 (s.pwr.point + 1)) ∧
     (allowed → s.pwr.alert = false → s.pwr.ceiling ≤ s.pwr.point → exec .governorStep s = .next s))

/-- R134, R464, R465, R466: hang detection and recovery. A progress counter or a core watchdog that reaches its limit is a hardware fault
the first time in a span and a schedule fault in a replay of it, and time has moved to the expiry. The partition watchdog raises STOP.
The firmware watchdog ends the running mailbox command with STATUS 0xFF and touches no reset domain, but at its third expiry within 10 s
it takes a warm reset. A warm recovery is over no earlier than 100 ms after it began; one that has failed stays failed. With AUTO_ESC the
reset in progress that overruns first, a core reset after 1 ms, a die reset after 10 ms or a recovery after 2 s, becomes one of its die, a
warm reset, or PHASE 5, with a dump. -/
def Obligations.HangDetection : Prop :=
  ∀ (s : State),
    (∀ (c : Fin 256) (t : Fin 16),
      let x := s.thread c t
      let counts := s.inSpan = true ∧ bitAt (s.reg (pgCORE c) 0x40) 0 = true ∧ (s.core c).clocked = true ∧ (s.core c).inReset = false ∧
        x.counts = true ∧ x.pcnt ≤ x.pwin ∧ 0 < x.pwin ∧ ¬(x.pcnt = x.pwin ∧ x.expiredAt = some s.tick)
      (¬counts → exec (.progressExpiry c t) s = .next s) ∧
      (counts → ∃ u, exec (.progressExpiry c t) s = .next u ∧ u.tick = (elapse (x.pwin - x.pcnt) s).tick ∧
        (u.thread c t).expired = some s.sch.seq ∧ (s.pwr.mainOk = true → x.pwin ≤ max32 → (u.thread c t).pcnt = x.pwin) ∧
        u.reg (pgCORE c) 0x84 = satAt max32 (s.reg (pgCORE c) 0x84 + 1) ∧
        (x.expired ≠ some s.sch.seq → u.pie.raises = s.pie.raises ++ [{ tick := u.tick }] ∧ u.sch = s.sch) ∧
        (x.expired = some s.sch.seq → s.sch.seq % 256 ∈ u.sch.stops ∧ u.pie.raises = s.pie.raises))) ∧
    (∀ c : Fin 256,
      let limit := fld (s.reg pgRST 0x44) 0 16 * 1000
      let k := s.core c
      let z := elapse (limit - k.wd) s
      let counts := limit ≠ 0 ∧ (∃ p ∈ k.threads, p.2.onKey = true) ∧ k.inReset = false ∧ k.wd ≤ limit
      (¬counts → exec (.coreWatchdog c) s = .next s) ∧
      (counts → ∃ u, exec (.coreWatchdog c) s = .next u ∧ u.tick = z.tick ∧ (u.core c).wd = limit + 1 ∧
        Store.find u.rst.coreWdSpan c = some s.sch.seq ∧ u.reg pgRST 0x60 = satAt max32 (s.reg pgRST 0x60 + 1) ∧
        (Store.find s.rst.coreWdSpan c ≠ some s.sch.seq → s.sch.job = .running ∨ s.sch.job = .rewinding →
          u.pie.raises = s.pie.raises ++ [{ tick := z.tick }]) ∧
        (Store.find s.rst.coreWdSpan c ≠ some s.sch.seq → u.sch = s.sch ∧
          (s.sch.job ≠ .running → s.sch.job ≠ .rewinding → u.pie = s.pie)) ∧
        (Store.find s.rst.coreWdSpan c = some s.sch.seq → u.pie = s.pie ∧
          (s.holdsStops = true → z.faultSpan % 256 ∈ u.sch.stops) ∧ (s.holdsStops = false → u.sch = s.sch)))) ∧
    (let limit := fld (s.reg pgRST 0x44) 16 8 * 1000000
     let counts := limit ≠ 0 ∧ (s.sch.job = .running ∨ s.sch.job = .rewinding) ∧ s.rst.wdPart ≤ limit
     (¬counts → exec .partitionWatchdog s = .next s) ∧
     (counts → ∃ u, exec .partitionWatchdog s = .next u ∧ u.sch.job = .stopped ∧ u.rst.wdPart = limit + 1 ∧
       u.tick = (elapse (limit - s.rst.wdPart) s).tick ∧ u.mem.dev = s.mem.dev ∧ u.mem.cap = s.mem.cap)) ∧
    (let late := s.rst.fwExp.filter (fun t => decide (s.aon ≤ t + 10000000000))
     (s.rst.fwRun = false → exec .firmwareWatchdog s = .next s) ∧
     (s.rst.fwRun = true → late.length < 2 → ∃ u, exec .firmwareWatchdog s = .next u ∧ u.rst = { s.rst with fwExp := s.aon :: late } ∧
       u.sch = s.sch ∧ u.reg pgMD 0x54 = satAt max32 (s.reg pgMD 0x54 + 1) ∧ u.cores = s.cores ∧ u.mem = s.mem ∧ bitAt (u.reg pgRST 0x10) 4 = true ∧
       ∀ n rest, s.host.engineQ = n :: rest → n < 2 → u.host.engineQ = rest ∧ ((∀ k ∈ rest, k < 2 ∧ k ≠ n) → (u.mbx n).st = .done ∧
         (u.mbx n).status = 0xFF)) ∧
     (s.rst.fwRun = true → 2 ≤ late.length → s.rst.runs.any (fun r => r.dom == .warm) = false → ∃ u, exec .firmwareWatchdog s = .next u ∧
       u.rst.last = 3 ∧ u.rst.fwExp = [] ∧ u.sch.phase = .recovery ∧ u.rst.runs = [⟨.warm, 0, u.tick⟩]) ∧
     (s.rst.fwRun = true → 2 ≤ late.length → s.rst.runs.any (fun r => r.dom == .warm) = true → ∃ u, exec .firmwareWatchdog s = .next u ∧
       u.rst = { s.rst with fwExp := [], refuse := 4 } ∧ u.sch = s.sch ∧ u.reg pgMD 0x54 = satAt max32 (s.reg pgMD 0x54 + 1) ∧
       u.reg pgRST 0x58 = satAt max32 (s.reg pgRST 0x58 + 1))) ∧
    (∀ r, s.rst.runs.find? (fun r => r.dom == .warm) = some r →
      let z := elapseTo (r.since + 100000000) s
      (s.rst.phase = 5 → exec .warmRecoveryDone s = .next s) ∧
      (s.rst.phase ≠ 5 → ∃ u, exec .warmRecoveryDone s = .next u ∧ u.rst.runs = [] ∧ u.rst.firstAnswer = true ∧
        u.rst.allAnswer = s.pwr.mainOk ∧ u.tick = z.tick ∧ u.sch = s.sch ∧ u.mem = s.mem ∧ bitAt (u.reg pgRST 0x10) 0 = true)) ∧
    (s.rst.runs.find? (fun r => r.dom == .warm) = none → exec .warmRecoveryDone s = .next s) ∧
    (bitAt (s.reg pgRST 0x44) 31 = false ∨ s.rst.runs = [] → exec .resetEscalation s = .next s) ∧
    (∀ r, bitAt (s.reg pgRST 0x44) 31 = true → overrun s.rst.runs = some r →
      let due := r.since + (match r.dom with | .core => 1000000 | .die => 10000000 | _ => 2000000000)
      let z := elapseTo (due + 1) s
      (r.dom = .core → s.dieInReset (dieOf r.target) = false → ∃ u, exec .resetEscalation s = .next u ∧
        (∀ c < 256, dieOf c = dieOf r.target → CoreAnew s u c ∧ (u.core c).inReset = true) ∧
        u.tick = z.tick ∧ DeviceKept z u ∧ u.rst.last = 2 ∧ ⟨.die, dieOf r.target, z.tick⟩ ∈ u.rst.runs ∧
        u.rst.dump.isSome = true ∧ u.rst.dumpType = 2) ∧
      (r.dom = .core → s.dieInReset (dieOf r.target) = true → ∃ u, exec .resetEscalation s = .next u ∧ u.tick = z.tick ∧ u.sch = s.sch ∧
        u.rst.runs = s.rst.runs.filter (fun x => x != r) ∧ u.rst.dump.isSome = true ∧ u.rst.dumpType = 2) ∧
      (r.dom = .die → ∃ u, exec .resetEscalation s = .next u ∧ WarmFrom z u ∧ bitAt (u.reg pgRST 0x10) 2 = true) ∧
      (r.dom = .warm → s.rst.phase ≠ 5 → ∃ u, exec .resetEscalation s = .next u ∧ u.rst.phase = 5 ∧ u.rst.runs = s.rst.runs ∧
        u.tick = z.tick ∧ u.sch = s.sch ∧ bitAt (u.reg pgRST 0x10) 2 = true ∧ u.rst.dump.isSome = true ∧ u.rst.dumpType = 3) ∧
      (r.dom = .warm ∧ s.rst.phase = 5 ∨ r.dom = .cold → exec .resetEscalation s = .next s))

/-! Trace, self-test and boundary scan (chapter 20). -/

/-- R484, R485, R488 to R493: the trace, the snapshot and the tests. Records drain in order, at most the room there is, and the count and the
write pointer follow; without a ring nothing drains. A snapshot request is kept until the next pier frame, or is taken at once where no
job runs. A test starts in IDLE with no other running and its TARGET in range, and is refused with the lowest code otherwise; at its end a
die is reset with its memory zero, the device blocks' buffers are empty, a stack's contents are gone; the test phase is entered in IDLE and
left in IDLE or LOADED. -/
def Obligations.TraceAndTests : Prop :=
  ∀ (s : State),
    (s.ringBytes = 0 → exec .traceDrain s = .next s) ∧
    (s.drainRoom = 0 ∨ s.trace.buf = [] → s.trace.dropped = 0 → exec .traceDrain s = .next s) ∧
    (∀ r rest, s.ringBytes ≠ 0 → s.drainRoom = 1 → s.trace.buf = r :: rest → s.trace.dropped = 0 → s.ringStops = false →
      let z := s.b2Apply (s.ringBase + s.trace.wr) r
      z.trace = s.trace → exec .traceDrain s = .next (({ z with trace := { s.trace with
        buf := rest, wr := (s.trace.wr + 32) % s.ringBytes, full := false, drained := s.trace.drained + 1 } } : State).cnt64 pgTRC 0x78 1)) ∧
    (∀ r rest, s.ringBytes ≠ 0 → s.drainRoom ≠ 0 → s.trace.buf = r :: rest → s.trace.dropped = 0 → s.ringStops = true → s.trace.full = true →
      exec .traceDrain s = .next s) ∧
    (∀ m, Commands s m pgTRC → exec (.trcSnap m) s = .next { s with trace := { s.trace with snap := true } }) ∧
    (s.trace.snap = false ∨ s.sch.job = .rewinding → exec .snapshotLatch s = .next s) ∧
    (s.sch.job = .running → ((s.sch.place ≠ .pier ∧ s.sch.place ≠ .pier0) ∨ s.pierFirst < s.tick) → exec .snapshotLatch s = .next s) ∧
    (s.trace.snap = true → s.sch.job ≠ .running → s.sch.job ≠ .rewinding → ∃ u, exec .snapshotLatch s = .next u ∧ u.trace.snap = false ∧
      u.sch = s.sch ∧ u.cores = s.cores ∧ u.mem = s.mem ∧ bitAt (u.reg pgTRC 0x10) 2 = true ∧
      (bitAt (s.reg pgTRC 0x40) 0 = false → u.trace = { s.trace with snap := false })) ∧
    (s.trace.snap = true → s.sch.job = .running → (s.sch.place = .pier ∨ s.sch.place = .pier0) → s.tick ≤ s.pierFirst →
      ∃ u, exec .snapshotLatch s = .next u ∧ u.trace.snap = false ∧ u.tick = (elapseTo s.pierFirst s).tick ∧
        bitAt (u.reg pgTRC 0x10) 2 = true) ∧
    (∀ m, Commands s m pgTST →
      let refuses := fun (i : Instr) (code : Nat) => ∃ u, exec i s = .next u ∧ u.trace.tstState = 4 ∧ u.trace.tstRefuse = code ∧
        u.trace.test = s.trace.test ∧ u.sch = s.sch ∧ u.cores = s.cores ∧ u.mem = s.mem ∧ bitAt (u.reg pgTST 0x10) 1 = true
      (s.sch.job = .idle → ∃ u, exec (.enterTest m) s = .next u ∧ u.sch = { s.sch with phase := .test } ∧ u.trace.test = s.trace.test) ∧
      (s.sch.job ≠ .idle → refuses (.enterTest m) 1) ∧
      (s.sch.job = .idle ∨ s.sch.job = .loaded → ∃ u, exec (.leaveTest m) s = .next u ∧ u.sch = { s.sch with phase := .startUp } ∧
        u.trace.test = s.trace.test) ∧
      (s.sch.job ≠ .idle → s.sch.job ≠ .loaded → refuses (.leaveTest m) 1) ∧
      (∀ i op size, (i, op, size) ∈ [(Instr.lbist m, 3, 4), (.mbistDie m, 4, 4), (.mbistDevice m, 5, 16), (.hbmTest m, 6, 8)] →
        (s.sch.job ≠ .idle → refuses i 1) ∧
        (s.sch.job = .idle → s.trace.test ≠ none → refuses i 2) ∧
        (s.sch.job = .idle → s.trace.test = none → size ≤ s.tstTarget → refuses i 3) ∧
        (s.sch.job = .idle → s.trace.test = none → s.tstTarget < size → exec i s = .next { s with trace := { s.trace with
          tstState := 1, tstRefuse := 0, tstOp := op, test := some (op, s.tstTarget) } }))) ∧
    (∀ fails, (s.trace.test = none → exec (.testDone fails) s = .next s) ∧
      ∀ op target, s.trace.test = some (op, target) → ∃ u, exec (.testDone fails) s = .next u ∧ u.trace.test = none ∧
        u.trace.tstState = (if fails = 0 then 2 else 3) ∧ u.reg pgTST 0x60 = satAt max32 (s.reg pgTST 0x60 + 1) ∧
        bitAt (u.reg pgTST 0x10) 0 = true ∧
        (op = 3 ∨ op = 4 → Store.get 0 u.trace.fails target = fails % 2 ^ 66 ∧
          ∀ c < 256, dieOf c = target → (u.core c).mem = [] ∧ (u.core c).arr = {} ∧ (u.core c).inReset = false) ∧
        (op = 5 → u.mem.sump = [] ∧ u.vdt.abuf = [] ∧ u.vdt.reorder = [] ∧ u.buddy.ownSealed = none ∧ u.buddy.buddySealed = none) ∧
        (op = 6 → (u.stk target).lost = true ∧ u.mem.initDone = s.mem.initDone ∧ ∀ o, Store.get 0#8 u.mem.dev o =
          if (s.mem.hbmMap o).1 = target then 0#8 else Store.get 0#8 s.mem.dev o))

/-- R494, R495: the test access port. IDCODE reads 0x15A2_09C7, SAMPLE/PRELOAD observes the pins, and an instruction that drives the pins
takes effect in IDLE with no test running, and acts as BYPASS otherwise. Leaving one that is in effect performs a cold reset. -/
def Obligations.TestAccessPort : Prop :=
  ∀ (s : State),
    (s.trace.extest = false →
      exec .bypass s = .next { s with trace := { s.trace with tap := 0, extest := false } } ∧
      exec .idcode s = .next (({ s with trace := { s.trace with tap := 1, extest := false } } : State).emit (.scan 0x15A209C7)) ∧
      exec .testLogicReset s = .next { s with trace := { s.trace with tap := 1, extest := false } } ∧
      (∀ pins drv, exec (.samplePreload pins drv) s = .next { s with
        trace := { s.trace with tap := 2, extest := false, boundary := drv }, out := s.out ++ [.scan pins] }) ∧
      ∀ i n, (i, n) ∈ [(Instr.extest, 3), (.extestPulse, 4), (.extestTrain, 5)] →
        (s.sch.job = .idle → s.trace.test = none → exec i s = .next { s with trace := { s.trace with tap := n, extest := true } }) ∧
        (s.sch.job ≠ .idle ∨ s.trace.test ≠ none → exec i s = .next { s with trace := { s.trace with tap := 0, extest := false } })) ∧
    (s.trace.extest = true →
      (∀ i n, (i, n) ∈ [(Instr.bypass, 0), (.idcode, 1), (.testLogicReset, 1)] → ∃ u, exec i s = .next u ∧ ColdFrom s u 5 ∧
        u.trace.tap = n ∧ u.trace.extest = false) ∧
      (∀ pins drv, ∃ u, exec (.samplePreload pins drv) s = .next u ∧ ColdFrom s u 5 ∧ u.trace.tap = 2 ∧ u.trace.extest = false ∧
        u.trace.boundary = drv) ∧
      ∀ i n, (i, n) ∈ [(Instr.extest, 3), (.extestPulse, 4), (.extestTrain, 5)] → ∃ u, exec i s = .next u ∧ ColdFrom s u 5 ∧
        u.trace.tap = n ∧ u.trace.extest = true)

/-! Invariants, and what no command does. -/

/-- R441: OWNER is 0, 1 or 2, and never takes its reserved code. Whatever command is in front, and when none is, a step from a state whose
owners are legal, in canonical form, leads to one whose owners are. -/
def Obligations.StepKeepsOwnersLegal : Prop :=
  ∀ s t : State, OwnersOk s → step s = .next t → OwnersOk t

/-- Every step keeps device memory, capacity memory, the memory of every core and the register file in canonical form, and the tick
within 64 bits with a fraction below 16 (R160, R189, R285, R299). -/
def Obligations.StepKeepsMemoriesAndTick : Prop :=
  ∀ s t : State, MemoriesOk s → TickOk s → step s = .next t → MemoriesOk t ∧ TickOk t

/-- Reset meets every invariant; R28, R189, R211: the job is IDLE, with no image, at tick 0, FREE, no page has an owner (R441), and no command
waits. -/
def Obligations.ResetIsLegal : Prop :=
  OwnersOk State.reset ∧ MemoriesOk State.reset ∧ TickOk State.reset ∧ State.reset.pending = [] ∧ State.reset.sch.job = .idle ∧
    State.reset.sch.image = none ∧ State.reset.tick = 0 ∧ State.reset.frac = 0 ∧ State.reset.tck.state = .free ∧
    (∀ p, State.reset.owner p = 0) ∧ (∀ page o, State.reset.reg page o = regReset (regAt page o)) ∧
    (∀ c t, (State.reset.thread c t).a = {}) ∧ ∀ p, (State.reset.oport p).st = .off
end

