-- ==== Sys2Proof/Laws/KeepsOps.lean ====
section
/-! SUPPORT. What each shared operation leaves unchanged: one lemma per operation of Machine/Ops.lean, and the predicates that say that a command keeps the queue and the owners of pages. -/

namespace Sys2Proof.Machine

open Sys2Proof

/-- A command that answers a next state leaves the owners of pages and the queue as they were. -/
def Keeps (s : State) (o : Host.Outcome State Fault Refusal) : Prop :=
  ∀ t, o = .next t → t.host.locks = s.host.locks ∧ t.pending = s.pending

/-- A command that answers a next state leaves the queue as it was. -/
def KeepsQueue (s : State) (o : Host.Outcome State Fault Refusal) : Prop := ∀ t, o = .next t → t.pending = s.pending

@[simp] theorem keeps_next (s t : State) : Keeps s (.next t) ↔ t.host.locks = s.host.locks ∧ t.pending = s.pending :=
  ⟨fun h => h t rfl, fun h u e => by cases e; exact h⟩

@[simp] theorem keepsQueue_next (s t : State) : KeepsQueue s (.next t) ↔ t.pending = s.pending :=
  ⟨fun h => h t rfl, fun h u e => by cases e; exact h⟩

/-- Owners and queue alike. -/
def Alike (s t : State) : Prop := t.host.locks = s.host.locks ∧ t.pending = s.pending

theorem foldl_alike {α : Type} (f : State → α → State) (h : ∀ a x, Alike a (f a x)) (l : List α) (s : State) :
    Alike s (l.foldl f s) := by
  induction l generalizing s with
  | nil => exact ⟨rfl, rfl⟩
  | cons x l ih => exact ⟨(ih (f s x)).1.trans (h s x).1, (ih (f s x)).2.trans (h s x).2⟩

theorem Alike.trans {a b c : State} (h : Alike a b) (k : Alike b c) : Alike a c := ⟨k.1.trans h.1, k.2.trans h.2⟩

theorem keeps_alike (s t : State) : Keeps s (.next t) ↔ Alike s t := keeps_next s t

@[simp] theorem ite_keeps (c : Prop) [Decidable c] (a b : State) :
    (if c then a else b).tick = (if c then a.tick else b.tick) ∧
    (if c then a else b).frac = (if c then a.frac else b.frac) ∧
    (if c then a else b).regs = (if c then a.regs else b.regs) ∧
    (if c then a else b).cores = (if c then a.cores else b.cores) ∧
    (if c then a else b).mesh = (if c then a.mesh else b.mesh) ∧
    (if c then a else b).sch = (if c then a.sch else b.sch) ∧
    (if c then a else b).tck = (if c then a.tck else b.tck) ∧
    (if c then a else b).ctx = (if c then a.ctx else b.ctx) ∧
    (if c then a else b).pie = (if c then a.pie else b.pie) ∧
    (if c then a else b).vdt = (if c then a.vdt else b.vdt) ∧
    (if c then a else b).colGroups = (if c then a.colGroups else b.colGroups) ∧
    (if c then a else b).colPend = (if c then a.colPend else b.colPend) ∧
    (if c then a else b).opt = (if c then a.opt else b.opt) ∧
    (if c then a else b).mem = (if c then a.mem else b.mem) ∧
    (if c then a else b).train = (if c then a.train else b.train) ∧
    (if c then a else b).host = (if c then a.host else b.host) ∧
    (if c then a else b).clk = (if c then a.clk else b.clk) ∧
    (if c then a else b).pwr = (if c then a.pwr else b.pwr) ∧
    (if c then a else b).rst = (if c then a.rst else b.rst) ∧
    (if c then a else b).buddy = (if c then a.buddy else b.buddy) ∧
    (if c then a else b).trace = (if c then a.trace else b.trace) ∧
    (if c then a else b).descGen = (if c then a.descGen else b.descGen) ∧
    (if c then a else b).portMask = (if c then a.portMask else b.portMask) ∧
    (if c then a else b).bin = (if c then a.bin else b.bin) ∧
    (if c then a else b).slips = (if c then a.slips else b.slips) ∧
    (if c then a else b).setNow = (if c then a.setNow else b.setNow) ∧
    (if c then a else b).pending = (if c then a.pending else b.pending) ∧
    (if c then a else b).out = (if c then a.out else b.out) ∧
    (if c then a else b).freeCtr = (if c then a.freeCtr else b.freeCtr) ∧
    (if c then a else b).host.locks = (if c then a.host.locks else b.host.locks) := by
  constructorm* _ ∧ _ <;> (split <;> rfl)

theorem foldl_keeps {α β : Type} (g : State → β) (f : State → α → State) (h : ∀ a x, g (f a x) = g a) (l : List α) (s : State) :
    g (l.foldl f s) = g s := by
  induction l generalizing s with
  | nil => rfl
  | cons x l ih => rw [List.foldl_cons, ih, h]

@[simp] theorem foldl_tick {α : Type} (f : State → α → State) (h : ∀ a x, (f a x).tick = a.tick) (l : List α) (s : State) :
    (l.foldl f s).tick = s.tick := foldl_keeps (·.tick) f h l s

@[simp] theorem foldl_frac {α : Type} (f : State → α → State) (h : ∀ a x, (f a x).frac = a.frac) (l : List α) (s : State) :
    (l.foldl f s).frac = s.frac := foldl_keeps (·.frac) f h l s

@[simp] theorem foldl_regs {α : Type} (f : State → α → State) (h : ∀ a x, (f a x).regs = a.regs) (l : List α) (s : State) :
    (l.foldl f s).regs = s.regs := foldl_keeps (·.regs) f h l s

@[simp] theorem foldl_cores {α : Type} (f : State → α → State) (h : ∀ a x, (f a x).cores = a.cores) (l : List α) (s : State) :
    (l.foldl f s).cores = s.cores := foldl_keeps (·.cores) f h l s

@[simp] theorem foldl_mesh {α : Type} (f : State → α → State) (h : ∀ a x, (f a x).mesh = a.mesh) (l : List α) (s : State) :
    (l.foldl f s).mesh = s.mesh := foldl_keeps (·.mesh) f h l s

@[simp] theorem foldl_sch {α : Type} (f : State → α → State) (h : ∀ a x, (f a x).sch = a.sch) (l : List α) (s : State) :
    (l.foldl f s).sch = s.sch := foldl_keeps (·.sch) f h l s

@[simp] theorem foldl_tck {α : Type} (f : State → α → State) (h : ∀ a x, (f a x).tck = a.tck) (l : List α) (s : State) :
    (l.foldl f s).tck = s.tck := foldl_keeps (·.tck) f h l s

@[simp] theorem foldl_ctx {α : Type} (f : State → α → State) (h : ∀ a x, (f a x).ctx = a.ctx) (l : List α) (s : State) :
    (l.foldl f s).ctx = s.ctx := foldl_keeps (·.ctx) f h l s

@[simp] theorem foldl_pie {α : Type} (f : State → α → State) (h : ∀ a x, (f a x).pie = a.pie) (l : List α) (s : State) :
    (l.foldl f s).pie = s.pie := foldl_keeps (·.pie) f h l s

@[simp] theorem foldl_vdt {α : Type} (f : State → α → State) (h : ∀ a x, (f a x).vdt = a.vdt) (l : List α) (s : State) :
    (l.foldl f s).vdt = s.vdt := foldl_keeps (·.vdt) f h l s

@[simp] theorem foldl_colGroups {α : Type} (f : State → α → State) (h : ∀ a x, (f a x).colGroups = a.colGroups) (l : List α) (s : State) :
    (l.foldl f s).colGroups = s.colGroups := foldl_keeps (·.colGroups) f h l s

@[simp] theorem foldl_colPend {α : Type} (f : State → α → State) (h : ∀ a x, (f a x).colPend = a.colPend) (l : List α) (s : State) :
    (l.foldl f s).colPend = s.colPend := foldl_keeps (·.colPend) f h l s

@[simp] theorem foldl_opt {α : Type} (f : State → α → State) (h : ∀ a x, (f a x).opt = a.opt) (l : List α) (s : State) :
    (l.foldl f s).opt = s.opt := foldl_keeps (·.opt) f h l s

@[simp] theorem foldl_mem {α : Type} (f : State → α → State) (h : ∀ a x, (f a x).mem = a.mem) (l : List α) (s : State) :
    (l.foldl f s).mem = s.mem := foldl_keeps (·.mem) f h l s

@[simp] theorem foldl_bin {α : Type} (f : State → α → State) (h : ∀ a x, (f a x).bin = a.bin) (l : List α) (s : State) :
    (l.foldl f s).bin = s.bin := foldl_keeps (·.bin) f h l s

@[simp] theorem foldl_slips {α : Type} (f : State → α → State) (h : ∀ a x, (f a x).slips = a.slips) (l : List α) (s : State) :
    (l.foldl f s).slips = s.slips := foldl_keeps (·.slips) f h l s

@[simp] theorem foldl_setNow {α : Type} (f : State → α → State) (h : ∀ a x, (f a x).setNow = a.setNow) (l : List α) (s : State) :
    (l.foldl f s).setNow = s.setNow := foldl_keeps (·.setNow) f h l s

@[simp] theorem foldl_train {α : Type} (f : State → α → State) (h : ∀ a x, (f a x).train = a.train) (l : List α) (s : State) :
    (l.foldl f s).train = s.train := foldl_keeps (·.train) f h l s

@[simp] theorem foldl_host {α : Type} (f : State → α → State) (h : ∀ a x, (f a x).host = a.host) (l : List α) (s : State) :
    (l.foldl f s).host = s.host := foldl_keeps (·.host) f h l s

@[simp] theorem foldl_clk {α : Type} (f : State → α → State) (h : ∀ a x, (f a x).clk = a.clk) (l : List α) (s : State) :
    (l.foldl f s).clk = s.clk := foldl_keeps (·.clk) f h l s

@[simp] theorem foldl_pwr {α : Type} (f : State → α → State) (h : ∀ a x, (f a x).pwr = a.pwr) (l : List α) (s : State) :
    (l.foldl f s).pwr = s.pwr := foldl_keeps (·.pwr) f h l s

@[simp] theorem foldl_rst {α : Type} (f : State → α → State) (h : ∀ a x, (f a x).rst = a.rst) (l : List α) (s : State) :
    (l.foldl f s).rst = s.rst := foldl_keeps (·.rst) f h l s

@[simp] theorem foldl_buddy {α : Type} (f : State → α → State) (h : ∀ a x, (f a x).buddy = a.buddy) (l : List α) (s : State) :
    (l.foldl f s).buddy = s.buddy := foldl_keeps (·.buddy) f h l s

@[simp] theorem foldl_trace {α : Type} (f : State → α → State) (h : ∀ a x, (f a x).trace = a.trace) (l : List α) (s : State) :
    (l.foldl f s).trace = s.trace := foldl_keeps (·.trace) f h l s

@[simp] theorem foldl_descGen {α : Type} (f : State → α → State) (h : ∀ a x, (f a x).descGen = a.descGen) (l : List α) (s : State) :
    (l.foldl f s).descGen = s.descGen := foldl_keeps (·.descGen) f h l s

@[simp] theorem foldl_portMask {α : Type} (f : State → α → State) (h : ∀ a x, (f a x).portMask = a.portMask) (l : List α) (s : State) :
    (l.foldl f s).portMask = s.portMask := foldl_keeps (·.portMask) f h l s

@[simp] theorem foldl_pending {α : Type} (f : State → α → State) (h : ∀ a x, (f a x).pending = a.pending) (l : List α) (s : State) :
    (l.foldl f s).pending = s.pending := foldl_keeps (·.pending) f h l s

@[simp] theorem foldl_out {α : Type} (f : State → α → State) (h : ∀ a x, (f a x).out = a.out) (l : List α) (s : State) :
    (l.foldl f s).out = s.out := foldl_keeps (·.out) f h l s

@[simp] theorem foldl_freeCtr {α : Type} (f : State → α → State) (h : ∀ a x, (f a x).freeCtr = a.freeCtr) (l : List α) (s : State) :
    (l.foldl f s).freeCtr = s.freeCtr := foldl_keeps (·.freeCtr) f h l s

@[simp] theorem foldl_host_locks {α : Type} (f : State → α → State) (h : ∀ a x, (f a x).host.locks = a.host.locks) (l : List α) (s : State) :
    (l.foldl f s).host.locks = s.host.locks := foldl_keeps (·.host.locks) f h l s

@[simp] theorem State.wr_keeps (s : State) (off v : Nat) : (State.wr s off v).tick = s.tick ∧ (State.wr s off v).frac = s.frac ∧ (State.wr s off v).cores = s.cores ∧ (State.wr s off v).mesh = s.mesh ∧ (State.wr s off v).sch = s.sch ∧ (State.wr s off v).tck = s.tck ∧ (State.wr s off v).ctx = s.ctx ∧ (State.wr s off v).pie = s.pie ∧ (State.wr s off v).vdt = s.vdt ∧ (State.wr s off v).colGroups = s.colGroups ∧ (State.wr s off v).colPend = s.colPend ∧ (State.wr s off v).opt = s.opt ∧ (State.wr s off v).mem = s.mem ∧ (State.wr s off v).train = s.train ∧ (State.wr s off v).host = s.host ∧ (State.wr s off v).clk = s.clk ∧ (State.wr s off v).pwr = s.pwr ∧ (State.wr s off v).rst = s.rst ∧ (State.wr s off v).buddy = s.buddy ∧ (State.wr s off v).trace = s.trace ∧ (State.wr s off v).descGen = s.descGen ∧ (State.wr s off v).portMask = s.portMask ∧ (State.wr s off v).pending = s.pending ∧ (State.wr s off v).out = s.out ∧ (State.wr s off v).freeCtr = s.freeCtr ∧ (State.wr s off v).bin = s.bin ∧ (State.wr s off v).slips = s.slips ∧ (State.wr s off v).setNow = s.setNow := by simp [State.wr]

@[simp] theorem State.setReg_keeps (s : State) (page o v : Nat) : (State.setReg s page o v).tick = s.tick ∧ (State.setReg s page o v).frac = s.frac ∧ (State.setReg s page o v).cores = s.cores ∧ (State.setReg s page o v).mesh = s.mesh ∧ (State.setReg s page o v).sch = s.sch ∧ (State.setReg s page o v).tck = s.tck ∧ (State.setReg s page o v).ctx = s.ctx ∧ (State.setReg s page o v).pie = s.pie ∧ (State.setReg s page o v).vdt = s.vdt ∧ (State.setReg s page o v).colGroups = s.colGroups ∧ (State.setReg s page o v).colPend = s.colPend ∧ (State.setReg s page o v).opt = s.opt ∧ (State.setReg s page o v).mem = s.mem ∧ (State.setReg s page o v).train = s.train ∧ (State.setReg s page o v).host = s.host ∧ (State.setReg s page o v).clk = s.clk ∧ (State.setReg s page o v).pwr = s.pwr ∧ (State.setReg s page o v).rst = s.rst ∧ (State.setReg s page o v).buddy = s.buddy ∧ (State.setReg s page o v).trace = s.trace ∧ (State.setReg s page o v).descGen = s.descGen ∧ (State.setReg s page o v).portMask = s.portMask ∧ (State.setReg s page o v).pending = s.pending ∧ (State.setReg s page o v).out = s.out ∧ (State.setReg s page o v).freeCtr = s.freeCtr ∧ (State.setReg s page o v).bin = s.bin ∧ (State.setReg s page o v).slips = s.slips ∧ (State.setReg s page o v).setNow = s.setNow := by simp [State.setReg]

@[simp] theorem State.setReg64_keeps (s : State) (page o v : Nat) : (State.setReg64 s page o v).tick = s.tick ∧ (State.setReg64 s page o v).frac = s.frac ∧ (State.setReg64 s page o v).cores = s.cores ∧ (State.setReg64 s page o v).mesh = s.mesh ∧ (State.setReg64 s page o v).sch = s.sch ∧ (State.setReg64 s page o v).tck = s.tck ∧ (State.setReg64 s page o v).ctx = s.ctx ∧ (State.setReg64 s page o v).pie = s.pie ∧ (State.setReg64 s page o v).vdt = s.vdt ∧ (State.setReg64 s page o v).colGroups = s.colGroups ∧ (State.setReg64 s page o v).colPend = s.colPend ∧ (State.setReg64 s page o v).opt = s.opt ∧ (State.setReg64 s page o v).mem = s.mem ∧ (State.setReg64 s page o v).train = s.train ∧ (State.setReg64 s page o v).host = s.host ∧ (State.setReg64 s page o v).clk = s.clk ∧ (State.setReg64 s page o v).pwr = s.pwr ∧ (State.setReg64 s page o v).rst = s.rst ∧ (State.setReg64 s page o v).buddy = s.buddy ∧ (State.setReg64 s page o v).trace = s.trace ∧ (State.setReg64 s page o v).descGen = s.descGen ∧ (State.setReg64 s page o v).portMask = s.portMask ∧ (State.setReg64 s page o v).pending = s.pending ∧ (State.setReg64 s page o v).out = s.out ∧ (State.setReg64 s page o v).freeCtr = s.freeCtr ∧ (State.setReg64 s page o v).bin = s.bin ∧ (State.setReg64 s page o v).slips = s.slips ∧ (State.setReg64 s page o v).setNow = s.setNow := by simp [State.setReg64]

@[simp] theorem State.cnt_keeps (s : State) (page o n : Nat) : (State.cnt s page o n).tick = s.tick ∧ (State.cnt s page o n).frac = s.frac ∧ (State.cnt s page o n).cores = s.cores ∧ (State.cnt s page o n).mesh = s.mesh ∧ (State.cnt s page o n).sch = s.sch ∧ (State.cnt s page o n).tck = s.tck ∧ (State.cnt s page o n).ctx = s.ctx ∧ (State.cnt s page o n).pie = s.pie ∧ (State.cnt s page o n).vdt = s.vdt ∧ (State.cnt s page o n).colGroups = s.colGroups ∧ (State.cnt s page o n).colPend = s.colPend ∧ (State.cnt s page o n).opt = s.opt ∧ (State.cnt s page o n).mem = s.mem ∧ (State.cnt s page o n).train = s.train ∧ (State.cnt s page o n).host = s.host ∧ (State.cnt s page o n).clk = s.clk ∧ (State.cnt s page o n).pwr = s.pwr ∧ (State.cnt s page o n).rst = s.rst ∧ (State.cnt s page o n).buddy = s.buddy ∧ (State.cnt s page o n).trace = s.trace ∧ (State.cnt s page o n).descGen = s.descGen ∧ (State.cnt s page o n).portMask = s.portMask ∧ (State.cnt s page o n).pending = s.pending ∧ (State.cnt s page o n).out = s.out ∧ (State.cnt s page o n).freeCtr = s.freeCtr ∧ (State.cnt s page o n).bin = s.bin ∧ (State.cnt s page o n).slips = s.slips ∧ (State.cnt s page o n).setNow = s.setNow := by simp [State.cnt]

@[simp] theorem State.cnt64_keeps (s : State) (page o n : Nat) : (State.cnt64 s page o n).tick = s.tick ∧ (State.cnt64 s page o n).frac = s.frac ∧ (State.cnt64 s page o n).cores = s.cores ∧ (State.cnt64 s page o n).mesh = s.mesh ∧ (State.cnt64 s page o n).sch = s.sch ∧ (State.cnt64 s page o n).tck = s.tck ∧ (State.cnt64 s page o n).ctx = s.ctx ∧ (State.cnt64 s page o n).pie = s.pie ∧ (State.cnt64 s page o n).vdt = s.vdt ∧ (State.cnt64 s page o n).colGroups = s.colGroups ∧ (State.cnt64 s page o n).colPend = s.colPend ∧ (State.cnt64 s page o n).opt = s.opt ∧ (State.cnt64 s page o n).mem = s.mem ∧ (State.cnt64 s page o n).train = s.train ∧ (State.cnt64 s page o n).host = s.host ∧ (State.cnt64 s page o n).clk = s.clk ∧ (State.cnt64 s page o n).pwr = s.pwr ∧ (State.cnt64 s page o n).rst = s.rst ∧ (State.cnt64 s page o n).buddy = s.buddy ∧ (State.cnt64 s page o n).trace = s.trace ∧ (State.cnt64 s page o n).descGen = s.descGen ∧ (State.cnt64 s page o n).portMask = s.portMask ∧ (State.cnt64 s page o n).pending = s.pending ∧ (State.cnt64 s page o n).out = s.out ∧ (State.cnt64 s page o n).freeCtr = s.freeCtr ∧ (State.cnt64 s page o n).bin = s.bin ∧ (State.cnt64 s page o n).slips = s.slips ∧ (State.cnt64 s page o n).setNow = s.setNow := by simp [State.cnt64]

@[simp] theorem State.emit_keeps (s : State) (o : Out) : (State.emit s o).tick = s.tick ∧ (State.emit s o).frac = s.frac ∧ (State.emit s o).regs = s.regs ∧ (State.emit s o).cores = s.cores ∧ (State.emit s o).mesh = s.mesh ∧ (State.emit s o).sch = s.sch ∧ (State.emit s o).tck = s.tck ∧ (State.emit s o).ctx = s.ctx ∧ (State.emit s o).pie = s.pie ∧ (State.emit s o).vdt = s.vdt ∧ (State.emit s o).colGroups = s.colGroups ∧ (State.emit s o).colPend = s.colPend ∧ (State.emit s o).opt = s.opt ∧ (State.emit s o).mem = s.mem ∧ (State.emit s o).train = s.train ∧ (State.emit s o).host = s.host ∧ (State.emit s o).clk = s.clk ∧ (State.emit s o).pwr = s.pwr ∧ (State.emit s o).rst = s.rst ∧ (State.emit s o).buddy = s.buddy ∧ (State.emit s o).trace = s.trace ∧ (State.emit s o).descGen = s.descGen ∧ (State.emit s o).portMask = s.portMask ∧ (State.emit s o).pending = s.pending ∧ (State.emit s o).freeCtr = s.freeCtr ∧ (State.emit s o).bin = s.bin ∧ (State.emit s o).slips = s.slips ∧ (State.emit s o).setNow = s.setNow := by simp [State.emit]

@[simp] theorem State.free_keeps (s : State) : (State.free s).2.tick = s.tick ∧ (State.free s).2.frac = s.frac ∧ (State.free s).2.regs = s.regs ∧ (State.free s).2.cores = s.cores ∧ (State.free s).2.mesh = s.mesh ∧ (State.free s).2.sch = s.sch ∧ (State.free s).2.tck = s.tck ∧ (State.free s).2.ctx = s.ctx ∧ (State.free s).2.pie = s.pie ∧ (State.free s).2.vdt = s.vdt ∧ (State.free s).2.colGroups = s.colGroups ∧ (State.free s).2.colPend = s.colPend ∧ (State.free s).2.opt = s.opt ∧ (State.free s).2.mem = s.mem ∧ (State.free s).2.train = s.train ∧ (State.free s).2.host = s.host ∧ (State.free s).2.clk = s.clk ∧ (State.free s).2.pwr = s.pwr ∧ (State.free s).2.rst = s.rst ∧ (State.free s).2.buddy = s.buddy ∧ (State.free s).2.trace = s.trace ∧ (State.free s).2.descGen = s.descGen ∧ (State.free s).2.portMask = s.portMask ∧ (State.free s).2.pending = s.pending ∧ (State.free s).2.out = s.out := by simp [State.free]

@[simp] theorem State.sendVector_keeps (s : State) (ty : Nat) : (State.sendVector s ty).tick = s.tick ∧ (State.sendVector s ty).frac = s.frac ∧ (State.sendVector s ty).regs = s.regs ∧ (State.sendVector s ty).cores = s.cores ∧ (State.sendVector s ty).mesh = s.mesh ∧ (State.sendVector s ty).sch = s.sch ∧ (State.sendVector s ty).tck = s.tck ∧ (State.sendVector s ty).ctx = s.ctx ∧ (State.sendVector s ty).pie = s.pie ∧ (State.sendVector s ty).vdt = s.vdt ∧ (State.sendVector s ty).colGroups = s.colGroups ∧ (State.sendVector s ty).colPend = s.colPend ∧ (State.sendVector s ty).opt = s.opt ∧ (State.sendVector s ty).mem = s.mem ∧ (State.sendVector s ty).train = s.train ∧ (State.sendVector s ty).clk = s.clk ∧ (State.sendVector s ty).pwr = s.pwr ∧ (State.sendVector s ty).rst = s.rst ∧ (State.sendVector s ty).buddy = s.buddy ∧ (State.sendVector s ty).trace = s.trace ∧ (State.sendVector s ty).descGen = s.descGen ∧ (State.sendVector s ty).portMask = s.portMask ∧ (State.sendVector s ty).pending = s.pending ∧ (State.sendVector s ty).freeCtr = s.freeCtr ∧ (State.sendVector s ty).bin = s.bin ∧ (State.sendVector s ty).slips = s.slips ∧ (State.sendVector s ty).setNow = s.setNow ∧ (State.sendVector s ty).host.locks = s.host.locks := by simp only [State.sendVector]; (repeat' split) <;> simp

@[simp] theorem State.refreshLine_keeps (s : State) (ty : Nat) : (State.refreshLine s ty).tick = s.tick ∧ (State.refreshLine s ty).frac = s.frac ∧ (State.refreshLine s ty).regs = s.regs ∧ (State.refreshLine s ty).cores = s.cores ∧ (State.refreshLine s ty).mesh = s.mesh ∧ (State.refreshLine s ty).sch = s.sch ∧ (State.refreshLine s ty).tck = s.tck ∧ (State.refreshLine s ty).ctx = s.ctx ∧ (State.refreshLine s ty).pie = s.pie ∧ (State.refreshLine s ty).vdt = s.vdt ∧ (State.refreshLine s ty).colGroups = s.colGroups ∧ (State.refreshLine s ty).colPend = s.colPend ∧ (State.refreshLine s ty).opt = s.opt ∧ (State.refreshLine s ty).mem = s.mem ∧ (State.refreshLine s ty).train = s.train ∧ (State.refreshLine s ty).clk = s.clk ∧ (State.refreshLine s ty).pwr = s.pwr ∧ (State.refreshLine s ty).rst = s.rst ∧ (State.refreshLine s ty).buddy = s.buddy ∧ (State.refreshLine s ty).trace = s.trace ∧ (State.refreshLine s ty).descGen = s.descGen ∧ (State.refreshLine s ty).portMask = s.portMask ∧ (State.refreshLine s ty).pending = s.pending ∧ (State.refreshLine s ty).freeCtr = s.freeCtr ∧ (State.refreshLine s ty).bin = s.bin ∧ (State.refreshLine s ty).slips = s.slips ∧ (State.refreshLine s ty).setNow = s.setNow ∧ (State.refreshLine s ty).host.locks = s.host.locks := by simp only [State.refreshLine]; (repeat' split) <;> simp

@[simp] theorem State.markSet_keeps (s : State) (page o bit : Nat) : (State.markSet s page o bit).tick = s.tick ∧ (State.markSet s page o bit).frac = s.frac ∧ (State.markSet s page o bit).regs = s.regs ∧ (State.markSet s page o bit).cores = s.cores ∧ (State.markSet s page o bit).mesh = s.mesh ∧ (State.markSet s page o bit).sch = s.sch ∧ (State.markSet s page o bit).tck = s.tck ∧ (State.markSet s page o bit).ctx = s.ctx ∧ (State.markSet s page o bit).pie = s.pie ∧ (State.markSet s page o bit).vdt = s.vdt ∧ (State.markSet s page o bit).colGroups = s.colGroups ∧ (State.markSet s page o bit).colPend = s.colPend ∧ (State.markSet s page o bit).opt = s.opt ∧ (State.markSet s page o bit).mem = s.mem ∧ (State.markSet s page o bit).train = s.train ∧ (State.markSet s page o bit).host = s.host ∧ (State.markSet s page o bit).clk = s.clk ∧ (State.markSet s page o bit).pwr = s.pwr ∧ (State.markSet s page o bit).rst = s.rst ∧ (State.markSet s page o bit).buddy = s.buddy ∧ (State.markSet s page o bit).trace = s.trace ∧ (State.markSet s page o bit).descGen = s.descGen ∧ (State.markSet s page o bit).portMask = s.portMask ∧ (State.markSet s page o bit).pending = s.pending ∧ (State.markSet s page o bit).out = s.out ∧ (State.markSet s page o bit).freeCtr = s.freeCtr ∧ (State.markSet s page o bit).bin = s.bin ∧ (State.markSet s page o bit).slips = s.slips := by simp [State.markSet]

@[simp] theorem State.raiseInt_keeps (s : State) (page bit : Nat) : (State.raiseInt s page bit).tick = s.tick ∧ (State.raiseInt s page bit).frac = s.frac ∧ (State.raiseInt s page bit).cores = s.cores ∧ (State.raiseInt s page bit).mesh = s.mesh ∧ (State.raiseInt s page bit).sch = s.sch ∧ (State.raiseInt s page bit).tck = s.tck ∧ (State.raiseInt s page bit).ctx = s.ctx ∧ (State.raiseInt s page bit).pie = s.pie ∧ (State.raiseInt s page bit).vdt = s.vdt ∧ (State.raiseInt s page bit).colGroups = s.colGroups ∧ (State.raiseInt s page bit).colPend = s.colPend ∧ (State.raiseInt s page bit).opt = s.opt ∧ (State.raiseInt s page bit).mem = s.mem ∧ (State.raiseInt s page bit).train = s.train ∧ (State.raiseInt s page bit).clk = s.clk ∧ (State.raiseInt s page bit).pwr = s.pwr ∧ (State.raiseInt s page bit).rst = s.rst ∧ (State.raiseInt s page bit).buddy = s.buddy ∧ (State.raiseInt s page bit).trace = s.trace ∧ (State.raiseInt s page bit).descGen = s.descGen ∧ (State.raiseInt s page bit).portMask = s.portMask ∧ (State.raiseInt s page bit).pending = s.pending ∧ (State.raiseInt s page bit).freeCtr = s.freeCtr ∧ (State.raiseInt s page bit).bin = s.bin ∧ (State.raiseInt s page bit).slips = s.slips ∧ (State.raiseInt s page bit).host.locks = s.host.locks := by simp [State.raiseInt]

@[simp] theorem State.wakeReason_keeps (s : State) (r : Nat) : (State.wakeReason s r).tick = s.tick ∧ (State.wakeReason s r).frac = s.frac ∧ (State.wakeReason s r).cores = s.cores ∧ (State.wakeReason s r).mesh = s.mesh ∧ (State.wakeReason s r).sch = s.sch ∧ (State.wakeReason s r).tck = s.tck ∧ (State.wakeReason s r).ctx = s.ctx ∧ (State.wakeReason s r).pie = s.pie ∧ (State.wakeReason s r).vdt = s.vdt ∧ (State.wakeReason s r).colGroups = s.colGroups ∧ (State.wakeReason s r).colPend = s.colPend ∧ (State.wakeReason s r).opt = s.opt ∧ (State.wakeReason s r).mem = s.mem ∧ (State.wakeReason s r).train = s.train ∧ (State.wakeReason s r).clk = s.clk ∧ (State.wakeReason s r).pwr = s.pwr ∧ (State.wakeReason s r).rst = s.rst ∧ (State.wakeReason s r).buddy = s.buddy ∧ (State.wakeReason s r).trace = s.trace ∧ (State.wakeReason s r).descGen = s.descGen ∧ (State.wakeReason s r).portMask = s.portMask ∧ (State.wakeReason s r).pending = s.pending ∧ (State.wakeReason s r).freeCtr = s.freeCtr ∧ (State.wakeReason s r).bin = s.bin ∧ (State.wakeReason s r).slips = s.slips ∧ (State.wakeReason s r).host.locks = s.host.locks := by simp only [State.wakeReason]; (repeat' split) <;> simp

@[simp] theorem State.setInt_keeps (s : State) (page bit : Nat) : (State.setInt s page bit).tick = s.tick ∧ (State.setInt s page bit).frac = s.frac ∧ (State.setInt s page bit).cores = s.cores ∧ (State.setInt s page bit).mesh = s.mesh ∧ (State.setInt s page bit).sch = s.sch ∧ (State.setInt s page bit).tck = s.tck ∧ (State.setInt s page bit).ctx = s.ctx ∧ (State.setInt s page bit).pie = s.pie ∧ (State.setInt s page bit).vdt = s.vdt ∧ (State.setInt s page bit).colGroups = s.colGroups ∧ (State.setInt s page bit).colPend = s.colPend ∧ (State.setInt s page bit).opt = s.opt ∧ (State.setInt s page bit).mem = s.mem ∧ (State.setInt s page bit).train = s.train ∧ (State.setInt s page bit).clk = s.clk ∧ (State.setInt s page bit).pwr = s.pwr ∧ (State.setInt s page bit).rst = s.rst ∧ (State.setInt s page bit).buddy = s.buddy ∧ (State.setInt s page bit).trace = s.trace ∧ (State.setInt s page bit).descGen = s.descGen ∧ (State.setInt s page bit).portMask = s.portMask ∧ (State.setInt s page bit).pending = s.pending ∧ (State.setInt s page bit).freeCtr = s.freeCtr ∧ (State.setInt s page bit).bin = s.bin ∧ (State.setInt s page bit).slips = s.slips ∧ (State.setInt s page bit).host.locks = s.host.locks := by simp only [State.setInt]; (repeat' split) <;> simp

@[simp] theorem State.wakeHw_keeps (s : State) (l0 : Nat) : (State.wakeHw s l0).tick = s.tick ∧ (State.wakeHw s l0).frac = s.frac ∧ (State.wakeHw s l0).cores = s.cores ∧ (State.wakeHw s l0).mesh = s.mesh ∧ (State.wakeHw s l0).sch = s.sch ∧ (State.wakeHw s l0).tck = s.tck ∧ (State.wakeHw s l0).ctx = s.ctx ∧ (State.wakeHw s l0).pie = s.pie ∧ (State.wakeHw s l0).vdt = s.vdt ∧ (State.wakeHw s l0).colGroups = s.colGroups ∧ (State.wakeHw s l0).colPend = s.colPend ∧ (State.wakeHw s l0).opt = s.opt ∧ (State.wakeHw s l0).mem = s.mem ∧ (State.wakeHw s l0).train = s.train ∧ (State.wakeHw s l0).clk = s.clk ∧ (State.wakeHw s l0).pwr = s.pwr ∧ (State.wakeHw s l0).rst = s.rst ∧ (State.wakeHw s l0).buddy = s.buddy ∧ (State.wakeHw s l0).trace = s.trace ∧ (State.wakeHw s l0).descGen = s.descGen ∧ (State.wakeHw s l0).portMask = s.portMask ∧ (State.wakeHw s l0).pending = s.pending ∧ (State.wakeHw s l0).freeCtr = s.freeCtr ∧ (State.wakeHw s l0).bin = s.bin ∧ (State.wakeHw s l0).slips = s.slips ∧ (State.wakeHw s l0).host.locks = s.host.locks := by simp only [State.wakeHw]; (repeat' split) <;> simp

@[simp] theorem State.logRaw_keeps (s : State) (page l0 l1 l2 : Nat) : (State.logRaw s page l0 l1 l2).tick = s.tick ∧ (State.logRaw s page l0 l1 l2).frac = s.frac ∧ (State.logRaw s page l0 l1 l2).cores = s.cores ∧ (State.logRaw s page l0 l1 l2).mesh = s.mesh ∧ (State.logRaw s page l0 l1 l2).sch = s.sch ∧ (State.logRaw s page l0 l1 l2).tck = s.tck ∧ (State.logRaw s page l0 l1 l2).ctx = s.ctx ∧ (State.logRaw s page l0 l1 l2).pie = s.pie ∧ (State.logRaw s page l0 l1 l2).vdt = s.vdt ∧ (State.logRaw s page l0 l1 l2).colGroups = s.colGroups ∧ (State.logRaw s page l0 l1 l2).colPend = s.colPend ∧ (State.logRaw s page l0 l1 l2).opt = s.opt ∧ (State.logRaw s page l0 l1 l2).mem = s.mem ∧ (State.logRaw s page l0 l1 l2).train = s.train ∧ (State.logRaw s page l0 l1 l2).clk = s.clk ∧ (State.logRaw s page l0 l1 l2).pwr = s.pwr ∧ (State.logRaw s page l0 l1 l2).rst = s.rst ∧ (State.logRaw s page l0 l1 l2).buddy = s.buddy ∧ (State.logRaw s page l0 l1 l2).trace = s.trace ∧ (State.logRaw s page l0 l1 l2).descGen = s.descGen ∧ (State.logRaw s page l0 l1 l2).portMask = s.portMask ∧ (State.logRaw s page l0 l1 l2).pending = s.pending ∧ (State.logRaw s page l0 l1 l2).freeCtr = s.freeCtr ∧ (State.logRaw s page l0 l1 l2).bin = s.bin ∧ (State.logRaw s page l0 l1 l2).slips = s.slips ∧ (State.logRaw s page l0 l1 l2).host.locks = s.host.locks := by simp only [State.logRaw]; (repeat' split) <;> simp

@[simp] theorem State.trcPut_keeps (s : State) (ty src : Nat) (payload : List Byte) : (State.trcPut s ty src payload).tick = s.tick ∧ (State.trcPut s ty src payload).frac = s.frac ∧ (State.trcPut s ty src payload).cores = s.cores ∧ (State.trcPut s ty src payload).mesh = s.mesh ∧ (State.trcPut s ty src payload).sch = s.sch ∧ (State.trcPut s ty src payload).tck = s.tck ∧ (State.trcPut s ty src payload).ctx = s.ctx ∧ (State.trcPut s ty src payload).pie = s.pie ∧ (State.trcPut s ty src payload).vdt = s.vdt ∧ (State.trcPut s ty src payload).colGroups = s.colGroups ∧ (State.trcPut s ty src payload).colPend = s.colPend ∧ (State.trcPut s ty src payload).opt = s.opt ∧ (State.trcPut s ty src payload).mem = s.mem ∧ (State.trcPut s ty src payload).train = s.train ∧ (State.trcPut s ty src payload).clk = s.clk ∧ (State.trcPut s ty src payload).pwr = s.pwr ∧ (State.trcPut s ty src payload).rst = s.rst ∧ (State.trcPut s ty src payload).buddy = s.buddy ∧ (State.trcPut s ty src payload).descGen = s.descGen ∧ (State.trcPut s ty src payload).portMask = s.portMask ∧ (State.trcPut s ty src payload).pending = s.pending ∧ (State.trcPut s ty src payload).freeCtr = s.freeCtr ∧ (State.trcPut s ty src payload).bin = s.bin ∧ (State.trcPut s ty src payload).slips = s.slips ∧ (State.trcPut s ty src payload).host.locks = s.host.locks := by simp only [State.trcPut]; (repeat' split) <;> simp

@[simp] theorem State.trc_keeps (s : State) (ty src : Nat) (ctx : Option Nat) (payload : List Byte) : (State.trc s ty src ctx payload).tick = s.tick ∧ (State.trc s ty src ctx payload).frac = s.frac ∧ (State.trc s ty src ctx payload).cores = s.cores ∧ (State.trc s ty src ctx payload).mesh = s.mesh ∧ (State.trc s ty src ctx payload).sch = s.sch ∧ (State.trc s ty src ctx payload).tck = s.tck ∧ (State.trc s ty src ctx payload).ctx = s.ctx ∧ (State.trc s ty src ctx payload).pie = s.pie ∧ (State.trc s ty src ctx payload).vdt = s.vdt ∧ (State.trc s ty src ctx payload).colGroups = s.colGroups ∧ (State.trc s ty src ctx payload).colPend = s.colPend ∧ (State.trc s ty src ctx payload).opt = s.opt ∧ (State.trc s ty src ctx payload).mem = s.mem ∧ (State.trc s ty src ctx payload).train = s.train ∧ (State.trc s ty src ctx payload).clk = s.clk ∧ (State.trc s ty src ctx payload).pwr = s.pwr ∧ (State.trc s ty src ctx payload).rst = s.rst ∧ (State.trc s ty src ctx payload).buddy = s.buddy ∧ (State.trc s ty src ctx payload).descGen = s.descGen ∧ (State.trc s ty src ctx payload).portMask = s.portMask ∧ (State.trc s ty src ctx payload).pending = s.pending ∧ (State.trc s ty src ctx payload).freeCtr = s.freeCtr ∧ (State.trc s ty src ctx payload).bin = s.bin ∧ (State.trc s ty src ctx payload).slips = s.slips ∧ (State.trc s ty src ctx payload).host.locks = s.host.locks := by simp only [State.trc]; (repeat' split) <;> simp

@[simp] theorem State.trcFault_keeps (s : State) (src : Nat) (ctx : Option Nat) (l0 l1 : Nat) : (State.trcFault s src ctx l0 l1).tick = s.tick ∧ (State.trcFault s src ctx l0 l1).frac = s.frac ∧ (State.trcFault s src ctx l0 l1).cores = s.cores ∧ (State.trcFault s src ctx l0 l1).mesh = s.mesh ∧ (State.trcFault s src ctx l0 l1).sch = s.sch ∧ (State.trcFault s src ctx l0 l1).tck = s.tck ∧ (State.trcFault s src ctx l0 l1).ctx = s.ctx ∧ (State.trcFault s src ctx l0 l1).pie = s.pie ∧ (State.trcFault s src ctx l0 l1).vdt = s.vdt ∧ (State.trcFault s src ctx l0 l1).colGroups = s.colGroups ∧ (State.trcFault s src ctx l0 l1).colPend = s.colPend ∧ (State.trcFault s src ctx l0 l1).opt = s.opt ∧ (State.trcFault s src ctx l0 l1).mem = s.mem ∧ (State.trcFault s src ctx l0 l1).train = s.train ∧ (State.trcFault s src ctx l0 l1).clk = s.clk ∧ (State.trcFault s src ctx l0 l1).pwr = s.pwr ∧ (State.trcFault s src ctx l0 l1).rst = s.rst ∧ (State.trcFault s src ctx l0 l1).buddy = s.buddy ∧ (State.trcFault s src ctx l0 l1).descGen = s.descGen ∧ (State.trcFault s src ctx l0 l1).portMask = s.portMask ∧ (State.trcFault s src ctx l0 l1).pending = s.pending ∧ (State.trcFault s src ctx l0 l1).freeCtr = s.freeCtr ∧ (State.trcFault s src ctx l0 l1).bin = s.bin ∧ (State.trcFault s src ctx l0 l1).slips = s.slips ∧ (State.trcFault s src ctx l0 l1).host.locks = s.host.locks := by simp only [State.trcFault]; (repeat' split) <;> simp

@[simp] theorem State.logErr_keeps (s : State) (page l0 l1 l2 : Nat) : (State.logErr s page l0 l1 l2).tick = s.tick ∧ (State.logErr s page l0 l1 l2).frac = s.frac ∧ (State.logErr s page l0 l1 l2).cores = s.cores ∧ (State.logErr s page l0 l1 l2).mesh = s.mesh ∧ (State.logErr s page l0 l1 l2).sch = s.sch ∧ (State.logErr s page l0 l1 l2).tck = s.tck ∧ (State.logErr s page l0 l1 l2).ctx = s.ctx ∧ (State.logErr s page l0 l1 l2).pie = s.pie ∧ (State.logErr s page l0 l1 l2).vdt = s.vdt ∧ (State.logErr s page l0 l1 l2).colGroups = s.colGroups ∧ (State.logErr s page l0 l1 l2).colPend = s.colPend ∧ (State.logErr s page l0 l1 l2).opt = s.opt ∧ (State.logErr s page l0 l1 l2).mem = s.mem ∧ (State.logErr s page l0 l1 l2).train = s.train ∧ (State.logErr s page l0 l1 l2).clk = s.clk ∧ (State.logErr s page l0 l1 l2).pwr = s.pwr ∧ (State.logErr s page l0 l1 l2).rst = s.rst ∧ (State.logErr s page l0 l1 l2).buddy = s.buddy ∧ (State.logErr s page l0 l1 l2).descGen = s.descGen ∧ (State.logErr s page l0 l1 l2).portMask = s.portMask ∧ (State.logErr s page l0 l1 l2).pending = s.pending ∧ (State.logErr s page l0 l1 l2).freeCtr = s.freeCtr ∧ (State.logErr s page l0 l1 l2).bin = s.bin ∧ (State.logErr s page l0 l1 l2).slips = s.slips ∧ (State.logErr s page l0 l1 l2).host.locks = s.host.locks := by simp only [State.logErr]; (repeat' split) <;> simp

@[simp] theorem State.dmaLog_keeps (s : State) (page l0 l1 elem addr : Nat) : (State.dmaLog s page l0 l1 elem addr).tick = s.tick ∧ (State.dmaLog s page l0 l1 elem addr).frac = s.frac ∧ (State.dmaLog s page l0 l1 elem addr).cores = s.cores ∧ (State.dmaLog s page l0 l1 elem addr).mesh = s.mesh ∧ (State.dmaLog s page l0 l1 elem addr).sch = s.sch ∧ (State.dmaLog s page l0 l1 elem addr).tck = s.tck ∧ (State.dmaLog s page l0 l1 elem addr).ctx = s.ctx ∧ (State.dmaLog s page l0 l1 elem addr).pie = s.pie ∧ (State.dmaLog s page l0 l1 elem addr).vdt = s.vdt ∧ (State.dmaLog s page l0 l1 elem addr).colGroups = s.colGroups ∧ (State.dmaLog s page l0 l1 elem addr).colPend = s.colPend ∧ (State.dmaLog s page l0 l1 elem addr).opt = s.opt ∧ (State.dmaLog s page l0 l1 elem addr).mem = s.mem ∧ (State.dmaLog s page l0 l1 elem addr).train = s.train ∧ (State.dmaLog s page l0 l1 elem addr).clk = s.clk ∧ (State.dmaLog s page l0 l1 elem addr).pwr = s.pwr ∧ (State.dmaLog s page l0 l1 elem addr).rst = s.rst ∧ (State.dmaLog s page l0 l1 elem addr).buddy = s.buddy ∧ (State.dmaLog s page l0 l1 elem addr).descGen = s.descGen ∧ (State.dmaLog s page l0 l1 elem addr).portMask = s.portMask ∧ (State.dmaLog s page l0 l1 elem addr).pending = s.pending ∧ (State.dmaLog s page l0 l1 elem addr).freeCtr = s.freeCtr ∧ (State.dmaLog s page l0 l1 elem addr).bin = s.bin ∧ (State.dmaLog s page l0 l1 elem addr).slips = s.slips ∧ (State.dmaLog s page l0 l1 elem addr).host.locks = s.host.locks := by simp only [State.dmaLog]; (repeat' split) <;> simp

@[simp] theorem State.genLog_keeps (s : State) (cause : Nat) (m : Master) (write : Bool) (off : Nat) : (State.genLog s cause m write off).tick = s.tick ∧ (State.genLog s cause m write off).frac = s.frac ∧ (State.genLog s cause m write off).cores = s.cores ∧ (State.genLog s cause m write off).mesh = s.mesh ∧ (State.genLog s cause m write off).sch = s.sch ∧ (State.genLog s cause m write off).tck = s.tck ∧ (State.genLog s cause m write off).ctx = s.ctx ∧ (State.genLog s cause m write off).pie = s.pie ∧ (State.genLog s cause m write off).vdt = s.vdt ∧ (State.genLog s cause m write off).colGroups = s.colGroups ∧ (State.genLog s cause m write off).colPend = s.colPend ∧ (State.genLog s cause m write off).opt = s.opt ∧ (State.genLog s cause m write off).mem = s.mem ∧ (State.genLog s cause m write off).train = s.train ∧ (State.genLog s cause m write off).clk = s.clk ∧ (State.genLog s cause m write off).pwr = s.pwr ∧ (State.genLog s cause m write off).rst = s.rst ∧ (State.genLog s cause m write off).buddy = s.buddy ∧ (State.genLog s cause m write off).descGen = s.descGen ∧ (State.genLog s cause m write off).portMask = s.portMask ∧ (State.genLog s cause m write off).pending = s.pending ∧ (State.genLog s cause m write off).freeCtr = s.freeCtr ∧ (State.genLog s cause m write off).bin = s.bin ∧ (State.genLog s cause m write off).slips = s.slips ∧ (State.genLog s cause m write off).host.locks = s.host.locks := by simp [State.genLog]

@[simp] theorem State.lk_keeps (s : State) (m : Master) (page o : Nat) (k : State → State) (h : ∀ z, (k z).host.locks = z.host.locks ∧ (k z).pending = z.pending) : (State.lk s m page o k).host.locks = s.host.locks ∧ (State.lk s m page o k).pending = s.pending := by simp only [State.lk]; (repeat' split) <;> simp_all

@[simp] theorem State.setCore_keeps (s : State) (c : Nat) (k : Core) : (State.setCore s c k).tick = s.tick ∧ (State.setCore s c k).frac = s.frac ∧ (State.setCore s c k).regs = s.regs ∧ (State.setCore s c k).mesh = s.mesh ∧ (State.setCore s c k).sch = s.sch ∧ (State.setCore s c k).tck = s.tck ∧ (State.setCore s c k).ctx = s.ctx ∧ (State.setCore s c k).pie = s.pie ∧ (State.setCore s c k).vdt = s.vdt ∧ (State.setCore s c k).colGroups = s.colGroups ∧ (State.setCore s c k).colPend = s.colPend ∧ (State.setCore s c k).opt = s.opt ∧ (State.setCore s c k).mem = s.mem ∧ (State.setCore s c k).train = s.train ∧ (State.setCore s c k).host = s.host ∧ (State.setCore s c k).clk = s.clk ∧ (State.setCore s c k).pwr = s.pwr ∧ (State.setCore s c k).rst = s.rst ∧ (State.setCore s c k).buddy = s.buddy ∧ (State.setCore s c k).trace = s.trace ∧ (State.setCore s c k).descGen = s.descGen ∧ (State.setCore s c k).portMask = s.portMask ∧ (State.setCore s c k).pending = s.pending ∧ (State.setCore s c k).out = s.out ∧ (State.setCore s c k).freeCtr = s.freeCtr ∧ (State.setCore s c k).bin = s.bin ∧ (State.setCore s c k).slips = s.slips ∧ (State.setCore s c k).setNow = s.setNow := by simp [State.setCore]

@[simp] theorem State.modCore_keeps (s : State) (c : Nat) (f : Core → Core) : (State.modCore s c f).tick = s.tick ∧ (State.modCore s c f).frac = s.frac ∧ (State.modCore s c f).regs = s.regs ∧ (State.modCore s c f).mesh = s.mesh ∧ (State.modCore s c f).sch = s.sch ∧ (State.modCore s c f).tck = s.tck ∧ (State.modCore s c f).ctx = s.ctx ∧ (State.modCore s c f).pie = s.pie ∧ (State.modCore s c f).vdt = s.vdt ∧ (State.modCore s c f).colGroups = s.colGroups ∧ (State.modCore s c f).colPend = s.colPend ∧ (State.modCore s c f).opt = s.opt ∧ (State.modCore s c f).mem = s.mem ∧ (State.modCore s c f).train = s.train ∧ (State.modCore s c f).host = s.host ∧ (State.modCore s c f).clk = s.clk ∧ (State.modCore s c f).pwr = s.pwr ∧ (State.modCore s c f).rst = s.rst ∧ (State.modCore s c f).buddy = s.buddy ∧ (State.modCore s c f).trace = s.trace ∧ (State.modCore s c f).descGen = s.descGen ∧ (State.modCore s c f).portMask = s.portMask ∧ (State.modCore s c f).pending = s.pending ∧ (State.modCore s c f).out = s.out ∧ (State.modCore s c f).freeCtr = s.freeCtr ∧ (State.modCore s c f).bin = s.bin ∧ (State.modCore s c f).slips = s.slips ∧ (State.modCore s c f).setNow = s.setNow := by simp [State.modCore]

@[simp] theorem State.setThread_keeps (s : State) (c t : Nat) (x : Thread) : (State.setThread s c t x).tick = s.tick ∧ (State.setThread s c t x).frac = s.frac ∧ (State.setThread s c t x).regs = s.regs ∧ (State.setThread s c t x).mesh = s.mesh ∧ (State.setThread s c t x).sch = s.sch ∧ (State.setThread s c t x).tck = s.tck ∧ (State.setThread s c t x).ctx = s.ctx ∧ (State.setThread s c t x).pie = s.pie ∧ (State.setThread s c t x).vdt = s.vdt ∧ (State.setThread s c t x).colGroups = s.colGroups ∧ (State.setThread s c t x).colPend = s.colPend ∧ (State.setThread s c t x).opt = s.opt ∧ (State.setThread s c t x).mem = s.mem ∧ (State.setThread s c t x).train = s.train ∧ (State.setThread s c t x).host = s.host ∧ (State.setThread s c t x).clk = s.clk ∧ (State.setThread s c t x).pwr = s.pwr ∧ (State.setThread s c t x).rst = s.rst ∧ (State.setThread s c t x).buddy = s.buddy ∧ (State.setThread s c t x).trace = s.trace ∧ (State.setThread s c t x).descGen = s.descGen ∧ (State.setThread s c t x).portMask = s.portMask ∧ (State.setThread s c t x).pending = s.pending ∧ (State.setThread s c t x).out = s.out ∧ (State.setThread s c t x).freeCtr = s.freeCtr ∧ (State.setThread s c t x).bin = s.bin ∧ (State.setThread s c t x).slips = s.slips ∧ (State.setThread s c t x).setNow = s.setNow := by simp [State.setThread]

@[simp] theorem State.pieErr_keeps (s : State) (cls cause pos dev : Nat) : (State.pieErr s cls cause pos dev).tick = s.tick ∧ (State.pieErr s cls cause pos dev).frac = s.frac ∧ (State.pieErr s cls cause pos dev).cores = s.cores ∧ (State.pieErr s cls cause pos dev).mesh = s.mesh ∧ (State.pieErr s cls cause pos dev).sch = s.sch ∧ (State.pieErr s cls cause pos dev).tck = s.tck ∧ (State.pieErr s cls cause pos dev).ctx = s.ctx ∧ (State.pieErr s cls cause pos dev).pie = s.pie ∧ (State.pieErr s cls cause pos dev).vdt = s.vdt ∧ (State.pieErr s cls cause pos dev).colGroups = s.colGroups ∧ (State.pieErr s cls cause pos dev).colPend = s.colPend ∧ (State.pieErr s cls cause pos dev).opt = s.opt ∧ (State.pieErr s cls cause pos dev).mem = s.mem ∧ (State.pieErr s cls cause pos dev).train = s.train ∧ (State.pieErr s cls cause pos dev).clk = s.clk ∧ (State.pieErr s cls cause pos dev).pwr = s.pwr ∧ (State.pieErr s cls cause pos dev).rst = s.rst ∧ (State.pieErr s cls cause pos dev).buddy = s.buddy ∧ (State.pieErr s cls cause pos dev).descGen = s.descGen ∧ (State.pieErr s cls cause pos dev).portMask = s.portMask ∧ (State.pieErr s cls cause pos dev).pending = s.pending ∧ (State.pieErr s cls cause pos dev).freeCtr = s.freeCtr ∧ (State.pieErr s cls cause pos dev).bin = s.bin ∧ (State.pieErr s cls cause pos dev).slips = s.slips ∧ (State.pieErr s cls cause pos dev).host.locks = s.host.locks := by simp [State.pieErr]

@[simp] theorem State.setVport_keeps (s : State) (p : Nat) (v : VPort) : (State.setVport s p v).tick = s.tick ∧ (State.setVport s p v).frac = s.frac ∧ (State.setVport s p v).regs = s.regs ∧ (State.setVport s p v).cores = s.cores ∧ (State.setVport s p v).mesh = s.mesh ∧ (State.setVport s p v).sch = s.sch ∧ (State.setVport s p v).tck = s.tck ∧ (State.setVport s p v).ctx = s.ctx ∧ (State.setVport s p v).pie = s.pie ∧ (State.setVport s p v).colGroups = s.colGroups ∧ (State.setVport s p v).colPend = s.colPend ∧ (State.setVport s p v).opt = s.opt ∧ (State.setVport s p v).mem = s.mem ∧ (State.setVport s p v).train = s.train ∧ (State.setVport s p v).host = s.host ∧ (State.setVport s p v).clk = s.clk ∧ (State.setVport s p v).pwr = s.pwr ∧ (State.setVport s p v).rst = s.rst ∧ (State.setVport s p v).buddy = s.buddy ∧ (State.setVport s p v).trace = s.trace ∧ (State.setVport s p v).descGen = s.descGen ∧ (State.setVport s p v).portMask = s.portMask ∧ (State.setVport s p v).pending = s.pending ∧ (State.setVport s p v).out = s.out ∧ (State.setVport s p v).freeCtr = s.freeCtr ∧ (State.setVport s p v).bin = s.bin ∧ (State.setVport s p v).slips = s.slips ∧ (State.setVport s p v).setNow = s.setNow := by simp [State.setVport]

@[simp] theorem State.setOport_keeps (s : State) (p : Nat) (o : OptPort) : (State.setOport s p o).tick = s.tick ∧ (State.setOport s p o).frac = s.frac ∧ (State.setOport s p o).regs = s.regs ∧ (State.setOport s p o).cores = s.cores ∧ (State.setOport s p o).mesh = s.mesh ∧ (State.setOport s p o).sch = s.sch ∧ (State.setOport s p o).tck = s.tck ∧ (State.setOport s p o).ctx = s.ctx ∧ (State.setOport s p o).pie = s.pie ∧ (State.setOport s p o).vdt = s.vdt ∧ (State.setOport s p o).colGroups = s.colGroups ∧ (State.setOport s p o).colPend = s.colPend ∧ (State.setOport s p o).mem = s.mem ∧ (State.setOport s p o).train = s.train ∧ (State.setOport s p o).host = s.host ∧ (State.setOport s p o).clk = s.clk ∧ (State.setOport s p o).pwr = s.pwr ∧ (State.setOport s p o).rst = s.rst ∧ (State.setOport s p o).buddy = s.buddy ∧ (State.setOport s p o).trace = s.trace ∧ (State.setOport s p o).descGen = s.descGen ∧ (State.setOport s p o).portMask = s.portMask ∧ (State.setOport s p o).pending = s.pending ∧ (State.setOport s p o).out = s.out ∧ (State.setOport s p o).freeCtr = s.freeCtr ∧ (State.setOport s p o).bin = s.bin ∧ (State.setOport s p o).slips = s.slips ∧ (State.setOport s p o).setNow = s.setNow := by simp [State.setOport]

@[simp] theorem State.sendAlarm_keeps (s : State) (p w : Nat) : (State.sendAlarm s p w).tick = s.tick ∧ (State.sendAlarm s p w).frac = s.frac ∧ (State.sendAlarm s p w).regs = s.regs ∧ (State.sendAlarm s p w).cores = s.cores ∧ (State.sendAlarm s p w).mesh = s.mesh ∧ (State.sendAlarm s p w).sch = s.sch ∧ (State.sendAlarm s p w).tck = s.tck ∧ (State.sendAlarm s p w).ctx = s.ctx ∧ (State.sendAlarm s p w).pie = s.pie ∧ (State.sendAlarm s p w).vdt = s.vdt ∧ (State.sendAlarm s p w).colGroups = s.colGroups ∧ (State.sendAlarm s p w).colPend = s.colPend ∧ (State.sendAlarm s p w).opt = s.opt ∧ (State.sendAlarm s p w).mem = s.mem ∧ (State.sendAlarm s p w).train = s.train ∧ (State.sendAlarm s p w).host = s.host ∧ (State.sendAlarm s p w).clk = s.clk ∧ (State.sendAlarm s p w).pwr = s.pwr ∧ (State.sendAlarm s p w).rst = s.rst ∧ (State.sendAlarm s p w).buddy = s.buddy ∧ (State.sendAlarm s p w).trace = s.trace ∧ (State.sendAlarm s p w).descGen = s.descGen ∧ (State.sendAlarm s p w).portMask = s.portMask ∧ (State.sendAlarm s p w).pending = s.pending ∧ (State.sendAlarm s p w).freeCtr = s.freeCtr ∧ (State.sendAlarm s p w).bin = s.bin ∧ (State.sendAlarm s p w).slips = s.slips ∧ (State.sendAlarm s p w).setNow = s.setNow := by simp [State.sendAlarm]

@[simp] theorem State.floodAlarm_keeps (s : State) (w : Nat) (skip : Option Nat) : (State.floodAlarm s w skip).tick = s.tick ∧ (State.floodAlarm s w skip).frac = s.frac ∧ (State.floodAlarm s w skip).cores = s.cores ∧ (State.floodAlarm s w skip).mesh = s.mesh ∧ (State.floodAlarm s w skip).sch = s.sch ∧ (State.floodAlarm s w skip).tck = s.tck ∧ (State.floodAlarm s w skip).ctx = s.ctx ∧ (State.floodAlarm s w skip).pie = s.pie ∧ (State.floodAlarm s w skip).colGroups = s.colGroups ∧ (State.floodAlarm s w skip).colPend = s.colPend ∧ (State.floodAlarm s w skip).opt = s.opt ∧ (State.floodAlarm s w skip).mem = s.mem ∧ (State.floodAlarm s w skip).train = s.train ∧ (State.floodAlarm s w skip).clk = s.clk ∧ (State.floodAlarm s w skip).pwr = s.pwr ∧ (State.floodAlarm s w skip).rst = s.rst ∧ (State.floodAlarm s w skip).buddy = s.buddy ∧ (State.floodAlarm s w skip).descGen = s.descGen ∧ (State.floodAlarm s w skip).portMask = s.portMask ∧ (State.floodAlarm s w skip).pending = s.pending ∧ (State.floodAlarm s w skip).freeCtr = s.freeCtr ∧ (State.floodAlarm s w skip).bin = s.bin ∧ (State.floodAlarm s w skip).slips = s.slips ∧ (State.floodAlarm s w skip).host.locks = s.host.locks := by simp [State.floodAlarm]

@[simp] theorem State.raiseAlarm_keeps (s : State) (w : Nat) : (State.raiseAlarm s w).tick = s.tick ∧ (State.raiseAlarm s w).frac = s.frac ∧ (State.raiseAlarm s w).cores = s.cores ∧ (State.raiseAlarm s w).mesh = s.mesh ∧ (State.raiseAlarm s w).sch = s.sch ∧ (State.raiseAlarm s w).tck = s.tck ∧ (State.raiseAlarm s w).ctx = s.ctx ∧ (State.raiseAlarm s w).pie = s.pie ∧ (State.raiseAlarm s w).colGroups = s.colGroups ∧ (State.raiseAlarm s w).colPend = s.colPend ∧ (State.raiseAlarm s w).opt = s.opt ∧ (State.raiseAlarm s w).mem = s.mem ∧ (State.raiseAlarm s w).train = s.train ∧ (State.raiseAlarm s w).clk = s.clk ∧ (State.raiseAlarm s w).pwr = s.pwr ∧ (State.raiseAlarm s w).rst = s.rst ∧ (State.raiseAlarm s w).buddy = s.buddy ∧ (State.raiseAlarm s w).descGen = s.descGen ∧ (State.raiseAlarm s w).portMask = s.portMask ∧ (State.raiseAlarm s w).pending = s.pending ∧ (State.raiseAlarm s w).freeCtr = s.freeCtr ∧ (State.raiseAlarm s w).bin = s.bin ∧ (State.raiseAlarm s w).slips = s.slips ∧ (State.raiseAlarm s w).host.locks = s.host.locks := by simp only [State.raiseAlarm]; (repeat' split) <;> simp

@[simp] theorem State.raiseWith_keeps (s : State) (r : Raise) : (State.raiseWith s r).tick = s.tick ∧ (State.raiseWith s r).frac = s.frac ∧ (State.raiseWith s r).regs = s.regs ∧ (State.raiseWith s r).cores = s.cores ∧ (State.raiseWith s r).mesh = s.mesh ∧ (State.raiseWith s r).sch = s.sch ∧ (State.raiseWith s r).tck = s.tck ∧ (State.raiseWith s r).ctx = s.ctx ∧ (State.raiseWith s r).vdt = s.vdt ∧ (State.raiseWith s r).colGroups = s.colGroups ∧ (State.raiseWith s r).colPend = s.colPend ∧ (State.raiseWith s r).opt = s.opt ∧ (State.raiseWith s r).mem = s.mem ∧ (State.raiseWith s r).train = s.train ∧ (State.raiseWith s r).host = s.host ∧ (State.raiseWith s r).clk = s.clk ∧ (State.raiseWith s r).pwr = s.pwr ∧ (State.raiseWith s r).rst = s.rst ∧ (State.raiseWith s r).buddy = s.buddy ∧ (State.raiseWith s r).trace = s.trace ∧ (State.raiseWith s r).descGen = s.descGen ∧ (State.raiseWith s r).portMask = s.portMask ∧ (State.raiseWith s r).pending = s.pending ∧ (State.raiseWith s r).out = s.out ∧ (State.raiseWith s r).freeCtr = s.freeCtr ∧ (State.raiseWith s r).bin = s.bin ∧ (State.raiseWith s r).slips = s.slips ∧ (State.raiseWith s r).setNow = s.setNow := by simp only [State.raiseWith]; (repeat' split) <;> simp

@[simp] theorem State.raiseHw_keeps (s : State) : (State.raiseHw s).tick = s.tick ∧ (State.raiseHw s).frac = s.frac ∧ (State.raiseHw s).regs = s.regs ∧ (State.raiseHw s).cores = s.cores ∧ (State.raiseHw s).mesh = s.mesh ∧ (State.raiseHw s).sch = s.sch ∧ (State.raiseHw s).tck = s.tck ∧ (State.raiseHw s).ctx = s.ctx ∧ (State.raiseHw s).vdt = s.vdt ∧ (State.raiseHw s).colGroups = s.colGroups ∧ (State.raiseHw s).colPend = s.colPend ∧ (State.raiseHw s).opt = s.opt ∧ (State.raiseHw s).mem = s.mem ∧ (State.raiseHw s).train = s.train ∧ (State.raiseHw s).host = s.host ∧ (State.raiseHw s).clk = s.clk ∧ (State.raiseHw s).pwr = s.pwr ∧ (State.raiseHw s).rst = s.rst ∧ (State.raiseHw s).buddy = s.buddy ∧ (State.raiseHw s).trace = s.trace ∧ (State.raiseHw s).descGen = s.descGen ∧ (State.raiseHw s).portMask = s.portMask ∧ (State.raiseHw s).pending = s.pending ∧ (State.raiseHw s).out = s.out ∧ (State.raiseHw s).freeCtr = s.freeCtr ∧ (State.raiseHw s).bin = s.bin ∧ (State.raiseHw s).slips = s.slips ∧ (State.raiseHw s).setNow = s.setNow := by simp [State.raiseHw]

@[simp] theorem State.holdStop_keeps (s : State) (n : Nat) : (State.holdStop s n).tick = s.tick ∧ (State.holdStop s n).frac = s.frac ∧ (State.holdStop s n).regs = s.regs ∧ (State.holdStop s n).cores = s.cores ∧ (State.holdStop s n).mesh = s.mesh ∧ (State.holdStop s n).tck = s.tck ∧ (State.holdStop s n).ctx = s.ctx ∧ (State.holdStop s n).pie = s.pie ∧ (State.holdStop s n).vdt = s.vdt ∧ (State.holdStop s n).colGroups = s.colGroups ∧ (State.holdStop s n).colPend = s.colPend ∧ (State.holdStop s n).opt = s.opt ∧ (State.holdStop s n).mem = s.mem ∧ (State.holdStop s n).train = s.train ∧ (State.holdStop s n).host = s.host ∧ (State.holdStop s n).clk = s.clk ∧ (State.holdStop s n).pwr = s.pwr ∧ (State.holdStop s n).rst = s.rst ∧ (State.holdStop s n).buddy = s.buddy ∧ (State.holdStop s n).trace = s.trace ∧ (State.holdStop s n).descGen = s.descGen ∧ (State.holdStop s n).portMask = s.portMask ∧ (State.holdStop s n).pending = s.pending ∧ (State.holdStop s n).out = s.out ∧ (State.holdStop s n).freeCtr = s.freeCtr ∧ (State.holdStop s n).bin = s.bin ∧ (State.holdStop s n).slips = s.slips ∧ (State.holdStop s n).setNow = s.setNow := by simp [State.holdStop]

@[simp] theorem State.raiseSched_keeps (s : State) : (State.raiseSched s).tick = s.tick ∧ (State.raiseSched s).frac = s.frac ∧ (State.raiseSched s).cores = s.cores ∧ (State.raiseSched s).mesh = s.mesh ∧ (State.raiseSched s).tck = s.tck ∧ (State.raiseSched s).ctx = s.ctx ∧ (State.raiseSched s).pie = s.pie ∧ (State.raiseSched s).colGroups = s.colGroups ∧ (State.raiseSched s).colPend = s.colPend ∧ (State.raiseSched s).opt = s.opt ∧ (State.raiseSched s).mem = s.mem ∧ (State.raiseSched s).train = s.train ∧ (State.raiseSched s).clk = s.clk ∧ (State.raiseSched s).pwr = s.pwr ∧ (State.raiseSched s).rst = s.rst ∧ (State.raiseSched s).buddy = s.buddy ∧ (State.raiseSched s).descGen = s.descGen ∧ (State.raiseSched s).portMask = s.portMask ∧ (State.raiseSched s).pending = s.pending ∧ (State.raiseSched s).freeCtr = s.freeCtr ∧ (State.raiseSched s).bin = s.bin ∧ (State.raiseSched s).slips = s.slips ∧ (State.raiseSched s).host.locks = s.host.locks := by simp only [State.raiseSched]; (repeat' split) <;> simp

@[simp] theorem State.raiseCtx_keeps (s : State) (id : Nat) : (State.raiseCtx s id).tick = s.tick ∧ (State.raiseCtx s id).frac = s.frac ∧ (State.raiseCtx s id).regs = s.regs ∧ (State.raiseCtx s id).mesh = s.mesh ∧ (State.raiseCtx s id).sch = s.sch ∧ (State.raiseCtx s id).tck = s.tck ∧ (State.raiseCtx s id).pie = s.pie ∧ (State.raiseCtx s id).vdt = s.vdt ∧ (State.raiseCtx s id).colGroups = s.colGroups ∧ (State.raiseCtx s id).colPend = s.colPend ∧ (State.raiseCtx s id).opt = s.opt ∧ (State.raiseCtx s id).mem = s.mem ∧ (State.raiseCtx s id).train = s.train ∧ (State.raiseCtx s id).host = s.host ∧ (State.raiseCtx s id).clk = s.clk ∧ (State.raiseCtx s id).pwr = s.pwr ∧ (State.raiseCtx s id).rst = s.rst ∧ (State.raiseCtx s id).buddy = s.buddy ∧ (State.raiseCtx s id).trace = s.trace ∧ (State.raiseCtx s id).descGen = s.descGen ∧ (State.raiseCtx s id).portMask = s.portMask ∧ (State.raiseCtx s id).pending = s.pending ∧ (State.raiseCtx s id).out = s.out ∧ (State.raiseCtx s id).freeCtr = s.freeCtr ∧ (State.raiseCtx s id).bin = s.bin ∧ (State.raiseCtx s id).slips = s.slips ∧ (State.raiseCtx s id).setNow = s.setNow := by simp [State.raiseCtx]

@[simp] theorem State.raiseClass_keeps (s : State) (cls : FClass) (ctx : Nat) : (State.raiseClass s cls ctx).tick = s.tick ∧ (State.raiseClass s cls ctx).frac = s.frac ∧ (State.raiseClass s cls ctx).mesh = s.mesh ∧ (State.raiseClass s cls ctx).tck = s.tck ∧ (State.raiseClass s cls ctx).colGroups = s.colGroups ∧ (State.raiseClass s cls ctx).colPend = s.colPend ∧ (State.raiseClass s cls ctx).opt = s.opt ∧ (State.raiseClass s cls ctx).mem = s.mem ∧ (State.raiseClass s cls ctx).train = s.train ∧ (State.raiseClass s cls ctx).clk = s.clk ∧ (State.raiseClass s cls ctx).pwr = s.pwr ∧ (State.raiseClass s cls ctx).rst = s.rst ∧ (State.raiseClass s cls ctx).buddy = s.buddy ∧ (State.raiseClass s cls ctx).descGen = s.descGen ∧ (State.raiseClass s cls ctx).portMask = s.portMask ∧ (State.raiseClass s cls ctx).pending = s.pending ∧ (State.raiseClass s cls ctx).freeCtr = s.freeCtr ∧ (State.raiseClass s cls ctx).bin = s.bin ∧ (State.raiseClass s cls ctx).slips = s.slips ∧ (State.raiseClass s cls ctx).host.locks = s.host.locks := by simp only [State.raiseClass]; (repeat' split) <;> simp

@[simp] theorem State.pushRec_keeps (s : State) (c : Nat) (r : FaultRec) : (State.pushRec s c r).tick = s.tick ∧ (State.pushRec s c r).frac = s.frac ∧ (State.pushRec s c r).mesh = s.mesh ∧ (State.pushRec s c r).sch = s.sch ∧ (State.pushRec s c r).tck = s.tck ∧ (State.pushRec s c r).ctx = s.ctx ∧ (State.pushRec s c r).pie = s.pie ∧ (State.pushRec s c r).vdt = s.vdt ∧ (State.pushRec s c r).colGroups = s.colGroups ∧ (State.pushRec s c r).colPend = s.colPend ∧ (State.pushRec s c r).opt = s.opt ∧ (State.pushRec s c r).mem = s.mem ∧ (State.pushRec s c r).train = s.train ∧ (State.pushRec s c r).clk = s.clk ∧ (State.pushRec s c r).pwr = s.pwr ∧ (State.pushRec s c r).rst = s.rst ∧ (State.pushRec s c r).buddy = s.buddy ∧ (State.pushRec s c r).descGen = s.descGen ∧ (State.pushRec s c r).portMask = s.portMask ∧ (State.pushRec s c r).pending = s.pending ∧ (State.pushRec s c r).freeCtr = s.freeCtr ∧ (State.pushRec s c r).bin = s.bin ∧ (State.pushRec s c r).slips = s.slips ∧ (State.pushRec s c r).host.locks = s.host.locks := by simp only [State.pushRec]; (repeat' split) <;> simp

@[simp] theorem State.coreFault_keeps (s : State) (c : Nat) (cls : FClass) (unit cause thread ctx gen pc addr : Nat) : (State.coreFault s c cls unit cause thread ctx gen pc addr).tick = s.tick ∧ (State.coreFault s c cls unit cause thread ctx gen pc addr).frac = s.frac ∧ (State.coreFault s c cls unit cause thread ctx gen pc addr).mesh = s.mesh ∧ (State.coreFault s c cls unit cause thread ctx gen pc addr).tck = s.tck ∧ (State.coreFault s c cls unit cause thread ctx gen pc addr).colGroups = s.colGroups ∧ (State.coreFault s c cls unit cause thread ctx gen pc addr).colPend = s.colPend ∧ (State.coreFault s c cls unit cause thread ctx gen pc addr).opt = s.opt ∧ (State.coreFault s c cls unit cause thread ctx gen pc addr).mem = s.mem ∧ (State.coreFault s c cls unit cause thread ctx gen pc addr).train = s.train ∧ (State.coreFault s c cls unit cause thread ctx gen pc addr).clk = s.clk ∧ (State.coreFault s c cls unit cause thread ctx gen pc addr).pwr = s.pwr ∧ (State.coreFault s c cls unit cause thread ctx gen pc addr).rst = s.rst ∧ (State.coreFault s c cls unit cause thread ctx gen pc addr).buddy = s.buddy ∧ (State.coreFault s c cls unit cause thread ctx gen pc addr).descGen = s.descGen ∧ (State.coreFault s c cls unit cause thread ctx gen pc addr).portMask = s.portMask ∧ (State.coreFault s c cls unit cause thread ctx gen pc addr).pending = s.pending ∧ (State.coreFault s c cls unit cause thread ctx gen pc addr).freeCtr = s.freeCtr ∧ (State.coreFault s c cls unit cause thread ctx gen pc addr).bin = s.bin ∧ (State.coreFault s c cls unit cause thread ctx gen pc addr).slips = s.slips ∧ (State.coreFault s c cls unit cause thread ctx gen pc addr).host.locks = s.host.locks := by simp [State.coreFault]

@[simp] theorem State.trcCmd_keeps (s : State) (ty c unit thread ctx gen addr : Nat) (squashed : Bool) : (State.trcCmd s ty c unit thread ctx gen addr squashed).tick = s.tick ∧ (State.trcCmd s ty c unit thread ctx gen addr squashed).frac = s.frac ∧ (State.trcCmd s ty c unit thread ctx gen addr squashed).cores = s.cores ∧ (State.trcCmd s ty c unit thread ctx gen addr squashed).mesh = s.mesh ∧ (State.trcCmd s ty c unit thread ctx gen addr squashed).sch = s.sch ∧ (State.trcCmd s ty c unit thread ctx gen addr squashed).tck = s.tck ∧ (State.trcCmd s ty c unit thread ctx gen addr squashed).ctx = s.ctx ∧ (State.trcCmd s ty c unit thread ctx gen addr squashed).pie = s.pie ∧ (State.trcCmd s ty c unit thread ctx gen addr squashed).vdt = s.vdt ∧ (State.trcCmd s ty c unit thread ctx gen addr squashed).colGroups = s.colGroups ∧ (State.trcCmd s ty c unit thread ctx gen addr squashed).colPend = s.colPend ∧ (State.trcCmd s ty c unit thread ctx gen addr squashed).opt = s.opt ∧ (State.trcCmd s ty c unit thread ctx gen addr squashed).mem = s.mem ∧ (State.trcCmd s ty c unit thread ctx gen addr squashed).train = s.train ∧ (State.trcCmd s ty c unit thread ctx gen addr squashed).clk = s.clk ∧ (State.trcCmd s ty c unit thread ctx gen addr squashed).pwr = s.pwr ∧ (State.trcCmd s ty c unit thread ctx gen addr squashed).rst = s.rst ∧ (State.trcCmd s ty c unit thread ctx gen addr squashed).buddy = s.buddy ∧ (State.trcCmd s ty c unit thread ctx gen addr squashed).descGen = s.descGen ∧ (State.trcCmd s ty c unit thread ctx gen addr squashed).portMask = s.portMask ∧ (State.trcCmd s ty c unit thread ctx gen addr squashed).pending = s.pending ∧ (State.trcCmd s ty c unit thread ctx gen addr squashed).freeCtr = s.freeCtr ∧ (State.trcCmd s ty c unit thread ctx gen addr squashed).bin = s.bin ∧ (State.trcCmd s ty c unit thread ctx gen addr squashed).slips = s.slips ∧ (State.trcCmd s ty c unit thread ctx gen addr squashed).host.locks = s.host.locks := by simp [State.trcCmd]

/-- An upset that shows itself changes nothing but the list of upsets. -/
theorem State.takeSlip_eq {s z : State} {p : Nat} {o : Option Nat} (h : s.takeSlip p = (o, z)) : z = { s with slips := z.slips } := by
  unfold State.takeSlip at h; split at h <;> (cases h; rfl)

theorem State.takeSlip_alike {s z : State} {p : Nat} {o : Option Nat} (h : s.takeSlip p = (o, z)) :
    z.host.locks = s.host.locks ∧ z.pending = s.pending := by
  rw [State.takeSlip_eq h]; exact ⟨rfl, rfl⟩

theorem State.takeSlip_keeps (s : State) (p : Nat) : (s.takeSlip p).2.host.locks = s.host.locks ∧ (s.takeSlip p).2.pending = s.pending :=
  State.takeSlip_alike (o := (s.takeSlip p).1) rfl

@[simp] theorem State.cmCorrect_keeps (s : State) (c a n : Nat) : (State.cmCorrect s c a n).1.tick = s.tick ∧ (State.cmCorrect s c a n).1.frac = s.frac ∧ (State.cmCorrect s c a n).1.cores = s.cores ∧ (State.cmCorrect s c a n).1.mesh = s.mesh ∧ (State.cmCorrect s c a n).1.sch = s.sch ∧ (State.cmCorrect s c a n).1.tck = s.tck ∧ (State.cmCorrect s c a n).1.ctx = s.ctx ∧ (State.cmCorrect s c a n).1.pie = s.pie ∧ (State.cmCorrect s c a n).1.vdt = s.vdt ∧ (State.cmCorrect s c a n).1.colGroups = s.colGroups ∧ (State.cmCorrect s c a n).1.colPend = s.colPend ∧ (State.cmCorrect s c a n).1.opt = s.opt ∧ (State.cmCorrect s c a n).1.mem = s.mem ∧ (State.cmCorrect s c a n).1.train = s.train ∧ (State.cmCorrect s c a n).1.host = s.host ∧ (State.cmCorrect s c a n).1.clk = s.clk ∧ (State.cmCorrect s c a n).1.pwr = s.pwr ∧ (State.cmCorrect s c a n).1.rst = s.rst ∧ (State.cmCorrect s c a n).1.buddy = s.buddy ∧ (State.cmCorrect s c a n).1.trace = s.trace ∧ (State.cmCorrect s c a n).1.descGen = s.descGen ∧ (State.cmCorrect s c a n).1.portMask = s.portMask ∧ (State.cmCorrect s c a n).1.pending = s.pending ∧ (State.cmCorrect s c a n).1.out = s.out ∧ (State.cmCorrect s c a n).1.freeCtr = s.freeCtr ∧ (State.cmCorrect s c a n).1.bin = s.bin ∧ (State.cmCorrect s c a n).1.slips = s.slips ∧ (State.cmCorrect s c a n).1.setNow = s.setNow := by simp only [State.cmCorrect]; (repeat' split) <;> simp

@[simp] theorem State.cmFault_keeps (s : State) (c : Nat) (w : Reader) (b : Nat) : (State.cmFault s c w b).tick = s.tick ∧ (State.cmFault s c w b).frac = s.frac ∧ (State.cmFault s c w b).mesh = s.mesh ∧ (State.cmFault s c w b).tck = s.tck ∧ (State.cmFault s c w b).colGroups = s.colGroups ∧ (State.cmFault s c w b).colPend = s.colPend ∧ (State.cmFault s c w b).opt = s.opt ∧ (State.cmFault s c w b).mem = s.mem ∧ (State.cmFault s c w b).train = s.train ∧ (State.cmFault s c w b).clk = s.clk ∧ (State.cmFault s c w b).pwr = s.pwr ∧ (State.cmFault s c w b).rst = s.rst ∧ (State.cmFault s c w b).buddy = s.buddy ∧ (State.cmFault s c w b).descGen = s.descGen ∧ (State.cmFault s c w b).portMask = s.portMask ∧ (State.cmFault s c w b).pending = s.pending ∧ (State.cmFault s c w b).freeCtr = s.freeCtr ∧ (State.cmFault s c w b).bin = s.bin ∧ (State.cmFault s c w b).slips = s.slips ∧ (State.cmFault s c w b).host.locks = s.host.locks := by simp [State.cmFault]

@[simp] theorem State.cmFaults_keeps (s : State) (c : Nat) (w : Reader) (bs : List Nat) : (State.cmFaults s c w bs).tick = s.tick ∧ (State.cmFaults s c w bs).frac = s.frac ∧ (State.cmFaults s c w bs).mesh = s.mesh ∧ (State.cmFaults s c w bs).tck = s.tck ∧ (State.cmFaults s c w bs).colGroups = s.colGroups ∧ (State.cmFaults s c w bs).colPend = s.colPend ∧ (State.cmFaults s c w bs).opt = s.opt ∧ (State.cmFaults s c w bs).mem = s.mem ∧ (State.cmFaults s c w bs).train = s.train ∧ (State.cmFaults s c w bs).clk = s.clk ∧ (State.cmFaults s c w bs).pwr = s.pwr ∧ (State.cmFaults s c w bs).rst = s.rst ∧ (State.cmFaults s c w bs).buddy = s.buddy ∧ (State.cmFaults s c w bs).descGen = s.descGen ∧ (State.cmFaults s c w bs).portMask = s.portMask ∧ (State.cmFaults s c w bs).pending = s.pending ∧ (State.cmFaults s c w bs).freeCtr = s.freeCtr ∧ (State.cmFaults s c w bs).bin = s.bin ∧ (State.cmFaults s c w bs).slips = s.slips ∧ (State.cmFaults s c w bs).host.locks = s.host.locks := by
  unfold State.cmFaults; induction bs generalizing s with
  | nil => constructorm* _ ∧ _ <;> rfl
  | cons b l ih => simp [ih]

@[simp] theorem State.cmTouch_keeps (s : State) (c a n : Nat) (w : Reader) : (State.cmTouch s c a n w).tick = s.tick ∧ (State.cmTouch s c a n w).frac = s.frac ∧ (State.cmTouch s c a n w).mesh = s.mesh ∧ (State.cmTouch s c a n w).tck = s.tck ∧ (State.cmTouch s c a n w).colGroups = s.colGroups ∧ (State.cmTouch s c a n w).colPend = s.colPend ∧ (State.cmTouch s c a n w).opt = s.opt ∧ (State.cmTouch s c a n w).mem = s.mem ∧ (State.cmTouch s c a n w).train = s.train ∧ (State.cmTouch s c a n w).clk = s.clk ∧ (State.cmTouch s c a n w).pwr = s.pwr ∧ (State.cmTouch s c a n w).rst = s.rst ∧ (State.cmTouch s c a n w).buddy = s.buddy ∧ (State.cmTouch s c a n w).descGen = s.descGen ∧ (State.cmTouch s c a n w).portMask = s.portMask ∧ (State.cmTouch s c a n w).pending = s.pending ∧ (State.cmTouch s c a n w).freeCtr = s.freeCtr ∧ (State.cmTouch s c a n w).bin = s.bin ∧ (State.cmTouch s c a n w).slips = s.slips ∧ (State.cmTouch s c a n w).host.locks = s.host.locks := by simp [State.cmTouch]

theorem State.cmRead_alike (s : State) (c a n : Nat) (w : Reader) (k : State → State) (h : ∀ z, Alike z (k z)) :
    Alike s (s.cmRead c a n w k) := by
  have a1 := h (s.cmCorrect c a n).1
  unfold Alike at *; simp only [State.cmRead]; simp [a1]

@[simp] theorem State.cmPutLine_keeps (s : State) (c a : Nat) (bs : List Byte) : (State.cmPutLine s c a bs).tick = s.tick ∧ (State.cmPutLine s c a bs).frac = s.frac ∧ (State.cmPutLine s c a bs).mesh = s.mesh ∧ (State.cmPutLine s c a bs).tck = s.tck ∧ (State.cmPutLine s c a bs).ctx = s.ctx ∧ (State.cmPutLine s c a bs).pie = s.pie ∧ (State.cmPutLine s c a bs).colGroups = s.colGroups ∧ (State.cmPutLine s c a bs).colPend = s.colPend ∧ (State.cmPutLine s c a bs).opt = s.opt ∧ (State.cmPutLine s c a bs).mem = s.mem ∧ (State.cmPutLine s c a bs).train = s.train ∧ (State.cmPutLine s c a bs).clk = s.clk ∧ (State.cmPutLine s c a bs).pwr = s.pwr ∧ (State.cmPutLine s c a bs).rst = s.rst ∧ (State.cmPutLine s c a bs).buddy = s.buddy ∧ (State.cmPutLine s c a bs).descGen = s.descGen ∧ (State.cmPutLine s c a bs).portMask = s.portMask ∧ (State.cmPutLine s c a bs).pending = s.pending ∧ (State.cmPutLine s c a bs).freeCtr = s.freeCtr ∧ (State.cmPutLine s c a bs).bin = s.bin ∧ (State.cmPutLine s c a bs).slips = s.slips ∧ (State.cmPutLine s c a bs).host.locks = s.host.locks := by simp only [State.cmPutLine]; (repeat' split) <;> simp

@[simp] theorem State.cmPutLines_keeps (n : Nat) (s : State) (c a : Nat) (bs : List Byte) :
    (State.cmPutLines n s c a bs).tick = s.tick ∧ (State.cmPutLines n s c a bs).frac = s.frac ∧ (State.cmPutLines n s c a bs).mesh = s.mesh ∧ (State.cmPutLines n s c a bs).tck = s.tck ∧ (State.cmPutLines n s c a bs).ctx = s.ctx ∧ (State.cmPutLines n s c a bs).pie = s.pie ∧ (State.cmPutLines n s c a bs).colGroups = s.colGroups ∧ (State.cmPutLines n s c a bs).colPend = s.colPend ∧ (State.cmPutLines n s c a bs).opt = s.opt ∧ (State.cmPutLines n s c a bs).mem = s.mem ∧ (State.cmPutLines n s c a bs).train = s.train ∧ (State.cmPutLines n s c a bs).clk = s.clk ∧ (State.cmPutLines n s c a bs).pwr = s.pwr ∧ (State.cmPutLines n s c a bs).rst = s.rst ∧ (State.cmPutLines n s c a bs).buddy = s.buddy ∧ (State.cmPutLines n s c a bs).descGen = s.descGen ∧ (State.cmPutLines n s c a bs).portMask = s.portMask ∧ (State.cmPutLines n s c a bs).pending = s.pending ∧ (State.cmPutLines n s c a bs).freeCtr = s.freeCtr ∧ (State.cmPutLines n s c a bs).host.locks = s.host.locks := by
  induction n generalizing s a bs with
  | zero => constructorm* _ ∧ _ <;> rfl
  | succ n ih => simp only [State.cmPutLines]; split <;> simp [ih]

@[simp] theorem State.cmPut_keeps (s : State) (c a : Nat) (bs : List Byte) :
    (s.cmPut c a bs).tick = s.tick ∧ (s.cmPut c a bs).frac = s.frac ∧ (s.cmPut c a bs).mesh = s.mesh ∧ (s.cmPut c a bs).tck = s.tck ∧ (s.cmPut c a bs).ctx = s.ctx ∧ (s.cmPut c a bs).pie = s.pie ∧ (s.cmPut c a bs).colGroups = s.colGroups ∧ (s.cmPut c a bs).colPend = s.colPend ∧ (s.cmPut c a bs).opt = s.opt ∧ (s.cmPut c a bs).mem = s.mem ∧ (s.cmPut c a bs).train = s.train ∧ (s.cmPut c a bs).clk = s.clk ∧ (s.cmPut c a bs).pwr = s.pwr ∧ (s.cmPut c a bs).rst = s.rst ∧ (s.cmPut c a bs).buddy = s.buddy ∧ (s.cmPut c a bs).descGen = s.descGen ∧ (s.cmPut c a bs).portMask = s.portMask ∧ (s.cmPut c a bs).pending = s.pending ∧ (s.cmPut c a bs).freeCtr = s.freeCtr ∧ (s.cmPut c a bs).host.locks = s.host.locks := by
  simp only [State.cmPut]; split <;> simp

@[simp] theorem State.cmPutWord_keeps (s : State) (c a v : Nat) : (State.cmPutWord s c a v).tick = s.tick ∧ (State.cmPutWord s c a v).frac = s.frac ∧ (State.cmPutWord s c a v).mesh = s.mesh ∧ (State.cmPutWord s c a v).tck = s.tck ∧ (State.cmPutWord s c a v).ctx = s.ctx ∧ (State.cmPutWord s c a v).pie = s.pie ∧ (State.cmPutWord s c a v).colGroups = s.colGroups ∧ (State.cmPutWord s c a v).colPend = s.colPend ∧ (State.cmPutWord s c a v).opt = s.opt ∧ (State.cmPutWord s c a v).mem = s.mem ∧ (State.cmPutWord s c a v).train = s.train ∧ (State.cmPutWord s c a v).clk = s.clk ∧ (State.cmPutWord s c a v).pwr = s.pwr ∧ (State.cmPutWord s c a v).rst = s.rst ∧ (State.cmPutWord s c a v).buddy = s.buddy ∧ (State.cmPutWord s c a v).descGen = s.descGen ∧ (State.cmPutWord s c a v).portMask = s.portMask ∧ (State.cmPutWord s c a v).pending = s.pending ∧ (State.cmPutWord s c a v).freeCtr = s.freeCtr ∧ (State.cmPutWord s c a v).host.locks = s.host.locks := by simp [State.cmPutWord]

@[simp] theorem foldl_fst_keeps {α γ : Type} (f : State × γ → α → State × γ)
    (h : ∀ p x, (f p x).1.host.locks = p.1.host.locks ∧ (f p x).1.pending = p.1.pending) (l : List α) (p : State × γ) :
    (l.foldl f p).1.host.locks = p.1.host.locks ∧ (l.foldl f p).1.pending = p.1.pending := by
  induction l generalizing p with
  | nil => exact ⟨rfl, rfl⟩
  | cons x l ih => simp only [List.foldl_cons]; exact ⟨(ih _).1.trans (h p x).1, (ih _).2.trans (h p x).2⟩

@[simp] theorem State.setSkip_keeps (s : State) (b : Nat) : (State.setSkip s b).tick = s.tick ∧ (State.setSkip s b).frac = s.frac ∧ (State.setSkip s b).cores = s.cores ∧ (State.setSkip s b).mesh = s.mesh ∧ (State.setSkip s b).tck = s.tck ∧ (State.setSkip s b).ctx = s.ctx ∧ (State.setSkip s b).pie = s.pie ∧ (State.setSkip s b).colGroups = s.colGroups ∧ (State.setSkip s b).colPend = s.colPend ∧ (State.setSkip s b).opt = s.opt ∧ (State.setSkip s b).mem = s.mem ∧ (State.setSkip s b).clk = s.clk ∧ (State.setSkip s b).pwr = s.pwr ∧ (State.setSkip s b).rst = s.rst ∧ (State.setSkip s b).buddy = s.buddy ∧ (State.setSkip s b).descGen = s.descGen ∧ (State.setSkip s b).portMask = s.portMask ∧ (State.setSkip s b).pending = s.pending ∧ (State.setSkip s b).freeCtr = s.freeCtr ∧ (State.setSkip s b).bin = s.bin ∧ (State.setSkip s b).slips = s.slips ∧ (State.setSkip s b).host.locks = s.host.locks := by simp only [State.setSkip]; (repeat' split) <;> simp

@[simp] theorem State.amaxHand_keeps (s : State) (t m : Nat) (e : Int) : (State.amaxHand s t m e).tick = s.tick ∧ (State.amaxHand s t m e).frac = s.frac ∧ (State.amaxHand s t m e).cores = s.cores ∧ (State.amaxHand s t m e).mesh = s.mesh ∧ (State.amaxHand s t m e).sch = s.sch ∧ (State.amaxHand s t m e).tck = s.tck ∧ (State.amaxHand s t m e).ctx = s.ctx ∧ (State.amaxHand s t m e).pie = s.pie ∧ (State.amaxHand s t m e).vdt = s.vdt ∧ (State.amaxHand s t m e).colGroups = s.colGroups ∧ (State.amaxHand s t m e).colPend = s.colPend ∧ (State.amaxHand s t m e).opt = s.opt ∧ (State.amaxHand s t m e).mem = s.mem ∧ (State.amaxHand s t m e).host = s.host ∧ (State.amaxHand s t m e).clk = s.clk ∧ (State.amaxHand s t m e).pwr = s.pwr ∧ (State.amaxHand s t m e).rst = s.rst ∧ (State.amaxHand s t m e).buddy = s.buddy ∧ (State.amaxHand s t m e).trace = s.trace ∧ (State.amaxHand s t m e).descGen = s.descGen ∧ (State.amaxHand s t m e).portMask = s.portMask ∧ (State.amaxHand s t m e).pending = s.pending ∧ (State.amaxHand s t m e).out = s.out ∧ (State.amaxHand s t m e).freeCtr = s.freeCtr ∧ (State.amaxHand s t m e).bin = s.bin ∧ (State.amaxHand s t m e).slips = s.slips ∧ (State.amaxHand s t m e).setNow = s.setNow := by simp only [State.amaxHand]; (repeat' split) <;> simp

@[simp] theorem State.absurd_keeps (s : State) (t ctx : Nat) : (State.absurd s t ctx).tick = s.tick ∧ (State.absurd s t ctx).frac = s.frac ∧ (State.absurd s t ctx).cores = s.cores ∧ (State.absurd s t ctx).mesh = s.mesh ∧ (State.absurd s t ctx).tck = s.tck ∧ (State.absurd s t ctx).ctx = s.ctx ∧ (State.absurd s t ctx).pie = s.pie ∧ (State.absurd s t ctx).colGroups = s.colGroups ∧ (State.absurd s t ctx).colPend = s.colPend ∧ (State.absurd s t ctx).opt = s.opt ∧ (State.absurd s t ctx).mem = s.mem ∧ (State.absurd s t ctx).clk = s.clk ∧ (State.absurd s t ctx).pwr = s.pwr ∧ (State.absurd s t ctx).rst = s.rst ∧ (State.absurd s t ctx).buddy = s.buddy ∧ (State.absurd s t ctx).descGen = s.descGen ∧ (State.absurd s t ctx).portMask = s.portMask ∧ (State.absurd s t ctx).pending = s.pending ∧ (State.absurd s t ctx).freeCtr = s.freeCtr ∧ (State.absurd s t ctx).bin = s.bin ∧ (State.absurd s t ctx).slips = s.slips ∧ (State.absurd s t ctx).host.locks = s.host.locks := by simp only [State.absurd]; (repeat' split) <;> simp

@[simp] theorem State.advanceAmax_keeps (s : State) (v : Nat) : (State.advanceAmax s v).tick = s.tick ∧ (State.advanceAmax s v).frac = s.frac ∧ (State.advanceAmax s v).regs = s.regs ∧ (State.advanceAmax s v).cores = s.cores ∧ (State.advanceAmax s v).mesh = s.mesh ∧ (State.advanceAmax s v).sch = s.sch ∧ (State.advanceAmax s v).tck = s.tck ∧ (State.advanceAmax s v).ctx = s.ctx ∧ (State.advanceAmax s v).pie = s.pie ∧ (State.advanceAmax s v).vdt = s.vdt ∧ (State.advanceAmax s v).colGroups = s.colGroups ∧ (State.advanceAmax s v).colPend = s.colPend ∧ (State.advanceAmax s v).opt = s.opt ∧ (State.advanceAmax s v).mem = s.mem ∧ (State.advanceAmax s v).host = s.host ∧ (State.advanceAmax s v).clk = s.clk ∧ (State.advanceAmax s v).pwr = s.pwr ∧ (State.advanceAmax s v).rst = s.rst ∧ (State.advanceAmax s v).buddy = s.buddy ∧ (State.advanceAmax s v).trace = s.trace ∧ (State.advanceAmax s v).descGen = s.descGen ∧ (State.advanceAmax s v).portMask = s.portMask ∧ (State.advanceAmax s v).pending = s.pending ∧ (State.advanceAmax s v).out = s.out ∧ (State.advanceAmax s v).freeCtr = s.freeCtr ∧ (State.advanceAmax s v).bin = s.bin ∧ (State.advanceAmax s v).slips = s.slips ∧ (State.advanceAmax s v).setNow = s.setNow := by simp [State.advanceAmax]

theorem State.lk_alike (s : State) (m : Master) (page o : Nat) (k : State → State) (h : ∀ z, Alike z (k z)) :
    Alike s (s.lk m page o k) := by
  unfold State.lk
  split
  · exact ⟨rfl, rfl⟩
  · split
    · exact h s
    · exact ⟨by simp, by simp⟩

@[simp] theorem State.ackStream_keeps (s : State) (n : Nat) : (State.ackStream s n).tick = s.tick ∧ (State.ackStream s n).frac = s.frac ∧ (State.ackStream s n).regs = s.regs ∧ (State.ackStream s n).cores = s.cores ∧ (State.ackStream s n).mesh = s.mesh ∧ (State.ackStream s n).sch = s.sch ∧ (State.ackStream s n).tck = s.tck ∧ (State.ackStream s n).ctx = s.ctx ∧ (State.ackStream s n).pie = s.pie ∧ (State.ackStream s n).colGroups = s.colGroups ∧ (State.ackStream s n).colPend = s.colPend ∧ (State.ackStream s n).opt = s.opt ∧ (State.ackStream s n).mem = s.mem ∧ (State.ackStream s n).train = s.train ∧ (State.ackStream s n).host = s.host ∧ (State.ackStream s n).clk = s.clk ∧ (State.ackStream s n).pwr = s.pwr ∧ (State.ackStream s n).rst = s.rst ∧ (State.ackStream s n).trace = s.trace ∧ (State.ackStream s n).descGen = s.descGen ∧ (State.ackStream s n).portMask = s.portMask ∧ (State.ackStream s n).pending = s.pending ∧ (State.ackStream s n).out = s.out ∧ (State.ackStream s n).freeCtr = s.freeCtr ∧ (State.ackStream s n).bin = s.bin ∧ (State.ackStream s n).slips = s.slips ∧ (State.ackStream s n).setNow = s.setNow := by
  simp only [State.ackStream]; (repeat' split) <;> simp

@[simp] theorem elapse_keeps (n : Nat) (s : State) : (elapse n s).frac = s.frac ∧ (elapse n s).mesh = s.mesh ∧ (elapse n s).sch = s.sch ∧ (elapse n s).tck = s.tck ∧ (elapse n s).ctx = s.ctx ∧ (elapse n s).pie = s.pie ∧ (elapse n s).colGroups = s.colGroups ∧ (elapse n s).colPend = s.colPend ∧ (elapse n s).opt = s.opt ∧ (elapse n s).mem = s.mem ∧ (elapse n s).train = s.train ∧ (elapse n s).host = s.host ∧ (elapse n s).clk = s.clk ∧ (elapse n s).pwr = s.pwr ∧ (elapse n s).trace = s.trace ∧ (elapse n s).descGen = s.descGen ∧ (elapse n s).portMask = s.portMask ∧ (elapse n s).pending = s.pending ∧ (elapse n s).out = s.out ∧ (elapse n s).freeCtr = s.freeCtr ∧ (elapse n s).bin = s.bin ∧ (elapse n s).slips = s.slips ∧ (elapse n s).setNow = s.setNow := by simp [elapse]

@[simp] theorem elapseTo_keeps (t : Nat) (s : State) : (elapseTo t s).frac = s.frac ∧ (elapseTo t s).mesh = s.mesh ∧ (elapseTo t s).sch = s.sch ∧ (elapseTo t s).tck = s.tck ∧ (elapseTo t s).ctx = s.ctx ∧ (elapseTo t s).pie = s.pie ∧ (elapseTo t s).colGroups = s.colGroups ∧ (elapseTo t s).colPend = s.colPend ∧ (elapseTo t s).opt = s.opt ∧ (elapseTo t s).mem = s.mem ∧ (elapseTo t s).train = s.train ∧ (elapseTo t s).host = s.host ∧ (elapseTo t s).clk = s.clk ∧ (elapseTo t s).pwr = s.pwr ∧ (elapseTo t s).trace = s.trace ∧ (elapseTo t s).descGen = s.descGen ∧ (elapseTo t s).portMask = s.portMask ∧ (elapseTo t s).pending = s.pending ∧ (elapseTo t s).out = s.out ∧ (elapseTo t s).freeCtr = s.freeCtr ∧ (elapseTo t s).bin = s.bin ∧ (elapseTo t s).slips = s.slips ∧ (elapseTo t s).setNow = s.setNow := by simp [elapseTo]

@[simp] theorem State.awake_keeps (s : State) (c : Nat) : (s.awake c).frac = s.frac ∧ (s.awake c).mesh = s.mesh ∧ (s.awake c).sch = s.sch ∧ (s.awake c).tck = s.tck ∧ (s.awake c).ctx = s.ctx ∧ (s.awake c).pie = s.pie ∧ (s.awake c).colGroups = s.colGroups ∧ (s.awake c).colPend = s.colPend ∧ (s.awake c).opt = s.opt ∧ (s.awake c).mem = s.mem ∧ (s.awake c).train = s.train ∧ (s.awake c).host = s.host ∧ (s.awake c).clk = s.clk ∧ (s.awake c).pwr = s.pwr ∧ (s.awake c).trace = s.trace ∧ (s.awake c).descGen = s.descGen ∧ (s.awake c).portMask = s.portMask ∧ (s.awake c).pending = s.pending ∧ (s.awake c).out = s.out ∧ (s.awake c).freeCtr = s.freeCtr ∧ (s.awake c).bin = s.bin ∧ (s.awake c).slips = s.slips ∧ (s.awake c).setNow = s.setNow := by simp only [State.awake]; split <;> simp

@[simp] theorem State.setKey_keeps (s : State) (k : Nat) (x : Keystone) : (State.setKey s k x).tick = s.tick ∧ (State.setKey s k x).frac = s.frac ∧ (State.setKey s k x).regs = s.regs ∧ (State.setKey s k x).cores = s.cores ∧ (State.setKey s k x).mesh = s.mesh ∧ (State.setKey s k x).sch = s.sch ∧ (State.setKey s k x).tck = s.tck ∧ (State.setKey s k x).pie = s.pie ∧ (State.setKey s k x).vdt = s.vdt ∧ (State.setKey s k x).colGroups = s.colGroups ∧ (State.setKey s k x).colPend = s.colPend ∧ (State.setKey s k x).opt = s.opt ∧ (State.setKey s k x).mem = s.mem ∧ (State.setKey s k x).train = s.train ∧ (State.setKey s k x).host = s.host ∧ (State.setKey s k x).clk = s.clk ∧ (State.setKey s k x).pwr = s.pwr ∧ (State.setKey s k x).rst = s.rst ∧ (State.setKey s k x).buddy = s.buddy ∧ (State.setKey s k x).trace = s.trace ∧ (State.setKey s k x).descGen = s.descGen ∧ (State.setKey s k x).portMask = s.portMask ∧ (State.setKey s k x).pending = s.pending ∧ (State.setKey s k x).out = s.out ∧ (State.setKey s k x).freeCtr = s.freeCtr ∧ (State.setKey s k x).bin = s.bin ∧ (State.setKey s k x).slips = s.slips ∧ (State.setKey s k x).setNow = s.setNow := by simp [State.setKey]

@[simp] theorem State.keyWakeOne_keeps (s : State) (key : Nat) (ct : Nat × Nat) : (State.keyWakeOne s key ct).tick = s.tick ∧ (State.keyWakeOne s key ct).frac = s.frac ∧ (State.keyWakeOne s key ct).regs = s.regs ∧ (State.keyWakeOne s key ct).mesh = s.mesh ∧ (State.keyWakeOne s key ct).sch = s.sch ∧ (State.keyWakeOne s key ct).tck = s.tck ∧ (State.keyWakeOne s key ct).pie = s.pie ∧ (State.keyWakeOne s key ct).vdt = s.vdt ∧ (State.keyWakeOne s key ct).colGroups = s.colGroups ∧ (State.keyWakeOne s key ct).colPend = s.colPend ∧ (State.keyWakeOne s key ct).opt = s.opt ∧ (State.keyWakeOne s key ct).mem = s.mem ∧ (State.keyWakeOne s key ct).train = s.train ∧ (State.keyWakeOne s key ct).host = s.host ∧ (State.keyWakeOne s key ct).clk = s.clk ∧ (State.keyWakeOne s key ct).pwr = s.pwr ∧ (State.keyWakeOne s key ct).rst = s.rst ∧ (State.keyWakeOne s key ct).buddy = s.buddy ∧ (State.keyWakeOne s key ct).trace = s.trace ∧ (State.keyWakeOne s key ct).descGen = s.descGen ∧ (State.keyWakeOne s key ct).portMask = s.portMask ∧ (State.keyWakeOne s key ct).pending = s.pending ∧ (State.keyWakeOne s key ct).out = s.out ∧ (State.keyWakeOne s key ct).freeCtr = s.freeCtr ∧ (State.keyWakeOne s key ct).bin = s.bin ∧ (State.keyWakeOne s key ct).slips = s.slips ∧ (State.keyWakeOne s key ct).setNow = s.setNow := by simp only [State.keyWakeOne]; (repeat' split) <;> simp

@[simp] theorem State.keyWake_keeps (s : State) (key : Nat) : (State.keyWake s key).tick = s.tick ∧ (State.keyWake s key).frac = s.frac ∧ (State.keyWake s key).regs = s.regs ∧ (State.keyWake s key).mesh = s.mesh ∧ (State.keyWake s key).sch = s.sch ∧ (State.keyWake s key).tck = s.tck ∧ (State.keyWake s key).pie = s.pie ∧ (State.keyWake s key).vdt = s.vdt ∧ (State.keyWake s key).colGroups = s.colGroups ∧ (State.keyWake s key).colPend = s.colPend ∧ (State.keyWake s key).opt = s.opt ∧ (State.keyWake s key).mem = s.mem ∧ (State.keyWake s key).train = s.train ∧ (State.keyWake s key).host = s.host ∧ (State.keyWake s key).clk = s.clk ∧ (State.keyWake s key).pwr = s.pwr ∧ (State.keyWake s key).rst = s.rst ∧ (State.keyWake s key).buddy = s.buddy ∧ (State.keyWake s key).trace = s.trace ∧ (State.keyWake s key).descGen = s.descGen ∧ (State.keyWake s key).portMask = s.portMask ∧ (State.keyWake s key).pending = s.pending ∧ (State.keyWake s key).out = s.out ∧ (State.keyWake s key).freeCtr = s.freeCtr ∧ (State.keyWake s key).bin = s.bin ∧ (State.keyWake s key).slips = s.slips ∧ (State.keyWake s key).setNow = s.setNow := by simp [State.keyWake]

@[simp] theorem State.keyArrival_keeps (s : State) (key : Nat) (src : Option Nat) : (State.keyArrival s key src).tick = s.tick ∧ (State.keyArrival s key src).frac = s.frac ∧ (State.keyArrival s key src).cores = s.cores ∧ (State.keyArrival s key src).mesh = s.mesh ∧ (State.keyArrival s key src).sch = s.sch ∧ (State.keyArrival s key src).tck = s.tck ∧ (State.keyArrival s key src).vdt = s.vdt ∧ (State.keyArrival s key src).colGroups = s.colGroups ∧ (State.keyArrival s key src).colPend = s.colPend ∧ (State.keyArrival s key src).opt = s.opt ∧ (State.keyArrival s key src).mem = s.mem ∧ (State.keyArrival s key src).train = s.train ∧ (State.keyArrival s key src).clk = s.clk ∧ (State.keyArrival s key src).pwr = s.pwr ∧ (State.keyArrival s key src).rst = s.rst ∧ (State.keyArrival s key src).buddy = s.buddy ∧ (State.keyArrival s key src).descGen = s.descGen ∧ (State.keyArrival s key src).portMask = s.portMask ∧ (State.keyArrival s key src).pending = s.pending ∧ (State.keyArrival s key src).freeCtr = s.freeCtr ∧ (State.keyArrival s key src).bin = s.bin ∧ (State.keyArrival s key src).slips = s.slips ∧ (State.keyArrival s key src).host.locks = s.host.locks := by simp only [State.keyArrival]; (repeat' split) <;> simp

@[simp] theorem State.keySet_keeps (s : State) (key v : Nat) : (State.keySet s key v).tick = s.tick ∧ (State.keySet s key v).frac = s.frac ∧ (State.keySet s key v).regs = s.regs ∧ (State.keySet s key v).mesh = s.mesh ∧ (State.keySet s key v).sch = s.sch ∧ (State.keySet s key v).tck = s.tck ∧ (State.keySet s key v).pie = s.pie ∧ (State.keySet s key v).vdt = s.vdt ∧ (State.keySet s key v).colGroups = s.colGroups ∧ (State.keySet s key v).colPend = s.colPend ∧ (State.keySet s key v).opt = s.opt ∧ (State.keySet s key v).mem = s.mem ∧ (State.keySet s key v).train = s.train ∧ (State.keySet s key v).host = s.host ∧ (State.keySet s key v).clk = s.clk ∧ (State.keySet s key v).pwr = s.pwr ∧ (State.keySet s key v).rst = s.rst ∧ (State.keySet s key v).buddy = s.buddy ∧ (State.keySet s key v).trace = s.trace ∧ (State.keySet s key v).descGen = s.descGen ∧ (State.keySet s key v).portMask = s.portMask ∧ (State.keySet s key v).pending = s.pending ∧ (State.keySet s key v).out = s.out ∧ (State.keySet s key v).freeCtr = s.freeCtr ∧ (State.keySet s key v).bin = s.bin ∧ (State.keySet s key v).slips = s.slips ∧ (State.keySet s key v).setNow = s.setNow := by simp [State.keySet]

@[simp] theorem State.keyCount_keeps (s : State) : (State.keyCount s).tick = s.tick ∧ (State.keyCount s).frac = s.frac ∧ (State.keyCount s).cores = s.cores ∧ (State.keyCount s).mesh = s.mesh ∧ (State.keyCount s).sch = s.sch ∧ (State.keyCount s).tck = s.tck ∧ (State.keyCount s).ctx = s.ctx ∧ (State.keyCount s).pie = s.pie ∧ (State.keyCount s).vdt = s.vdt ∧ (State.keyCount s).colGroups = s.colGroups ∧ (State.keyCount s).colPend = s.colPend ∧ (State.keyCount s).opt = s.opt ∧ (State.keyCount s).mem = s.mem ∧ (State.keyCount s).train = s.train ∧ (State.keyCount s).host = s.host ∧ (State.keyCount s).clk = s.clk ∧ (State.keyCount s).pwr = s.pwr ∧ (State.keyCount s).rst = s.rst ∧ (State.keyCount s).buddy = s.buddy ∧ (State.keyCount s).trace = s.trace ∧ (State.keyCount s).descGen = s.descGen ∧ (State.keyCount s).portMask = s.portMask ∧ (State.keyCount s).pending = s.pending ∧ (State.keyCount s).out = s.out ∧ (State.keyCount s).freeCtr = s.freeCtr ∧ (State.keyCount s).bin = s.bin ∧ (State.keyCount s).slips = s.slips ∧ (State.keyCount s).setNow = s.setNow := by simp [State.keyCount]

@[simp] theorem State.keyArrive_keeps (s : State) (key : Nat) (src : Option Nat) : (State.keyArrive s key src).tick = s.tick ∧ (State.keyArrive s key src).frac = s.frac ∧ (State.keyArrive s key src).mesh = s.mesh ∧ (State.keyArrive s key src).sch = s.sch ∧ (State.keyArrive s key src).tck = s.tck ∧ (State.keyArrive s key src).vdt = s.vdt ∧ (State.keyArrive s key src).colGroups = s.colGroups ∧ (State.keyArrive s key src).colPend = s.colPend ∧ (State.keyArrive s key src).opt = s.opt ∧ (State.keyArrive s key src).mem = s.mem ∧ (State.keyArrive s key src).train = s.train ∧ (State.keyArrive s key src).clk = s.clk ∧ (State.keyArrive s key src).pwr = s.pwr ∧ (State.keyArrive s key src).rst = s.rst ∧ (State.keyArrive s key src).buddy = s.buddy ∧ (State.keyArrive s key src).descGen = s.descGen ∧ (State.keyArrive s key src).portMask = s.portMask ∧ (State.keyArrive s key src).pending = s.pending ∧ (State.keyArrive s key src).freeCtr = s.freeCtr ∧ (State.keyArrive s key src).bin = s.bin ∧ (State.keyArrive s key src).slips = s.slips ∧ (State.keyArrive s key src).host.locks = s.host.locks := by simp [State.keyArrive]

@[simp] theorem State.keyRemote_keeps (s : State) (key ctx src : Nat) : (State.keyRemote s key ctx src).tick = s.tick ∧ (State.keyRemote s key ctx src).frac = s.frac ∧ (State.keyRemote s key ctx src).mesh = s.mesh ∧ (State.keyRemote s key ctx src).sch = s.sch ∧ (State.keyRemote s key ctx src).tck = s.tck ∧ (State.keyRemote s key ctx src).vdt = s.vdt ∧ (State.keyRemote s key ctx src).colGroups = s.colGroups ∧ (State.keyRemote s key ctx src).colPend = s.colPend ∧ (State.keyRemote s key ctx src).opt = s.opt ∧ (State.keyRemote s key ctx src).mem = s.mem ∧ (State.keyRemote s key ctx src).train = s.train ∧ (State.keyRemote s key ctx src).clk = s.clk ∧ (State.keyRemote s key ctx src).pwr = s.pwr ∧ (State.keyRemote s key ctx src).rst = s.rst ∧ (State.keyRemote s key ctx src).buddy = s.buddy ∧ (State.keyRemote s key ctx src).descGen = s.descGen ∧ (State.keyRemote s key ctx src).portMask = s.portMask ∧ (State.keyRemote s key ctx src).pending = s.pending ∧ (State.keyRemote s key ctx src).freeCtr = s.freeCtr ∧ (State.keyRemote s key ctx src).bin = s.bin ∧ (State.keyRemote s key ctx src).slips = s.slips ∧ (State.keyRemote s key ctx src).host.locks = s.host.locks := by simp only [State.keyRemote]; (repeat' split) <;> simp

end Sys2Proof.Machine
end

