-- ==== Sys2Proof/Laws/HostPart.lean ====
section
/-! SUPPORT. What raising an interrupt and logging a record leave of the host's state: the mailboxes, the command engine's queue, the
key slots, the owners, the leases and the power state of the function stand; only lines, notifications, the MSI-X pending bits and the
PME bits may change. -/

namespace Sys2Proof.Machine

open Sys2Proof

/-- The part of the host's state that no interrupt and no record touches. -/
def HostState.still (h : HostState) : HostState :=
  { h with lines := 0, notifyDue := 0, pba := 0, pmeStatus := false, wakeOut := false }

@[simp] theorem State.sendVector_still (s : State) (ty : Nat) : (s.sendVector ty).host.still = s.host.still := by
  unfold State.sendVector; dsimp only; split; rfl; split <;> rfl

@[simp] theorem State.refreshLine_still (s : State) (ty : Nat) : (s.refreshLine ty).host.still = s.host.still := by
  unfold State.refreshLine; dsimp only
  split
  · rw [State.sendVector_still]; rfl
  · split <;> rfl

@[simp] theorem State.raiseInt_still (s : State) (page bit : Nat) : (s.raiseInt page bit).host.still = s.host.still := by
  unfold State.raiseInt; rw [State.refreshLine_still]; rfl

@[simp] theorem State.cnt_still (s : State) (page o n : Nat) : (s.cnt page o n).host.still = s.host.still := by simp

@[simp] theorem State.wakeReason_still (s : State) (r : Nat) : (s.wakeReason r).host.still = s.host.still := by
  unfold State.wakeReason; dsimp only
  split
  · rfl
  · generalize hq : (((s.markSet pgHIF 0x50 31).setReg pgHIF 0x50 _).raiseInt pgHIF 0) = q
    have hh : q.host.still = s.host.still := by rw [← hq, State.raiseInt_still]; rfl
    split
    · exact hh
    · split
      · exact hh
      · exact hh

@[simp] theorem State.setInt_still (s : State) (page bit : Nat) : (s.setInt page bit).host.still = s.host.still := by
  unfold State.setInt; dsimp only
  split; simp; split; simp; split <;> simp

@[simp] theorem State.wakeHw_still (s : State) (l : Nat) : (s.wakeHw l).host.still = s.host.still := by
  unfold State.wakeHw; split <;> simp

@[simp] theorem State.logRaw_still (s : State) (page l0 l1 l2 : Nat) : (s.logRaw page l0 l1 l2).host.still = s.host.still := by
  unfold State.logRaw; split
  · simp
  · rw [State.wakeHw_still]; simp

@[simp] theorem State.trcPut_still (s : State) (ty src : Nat) (b : List Byte) : (s.trcPut ty src b).host.still = s.host.still := by
  unfold State.trcPut; split
  · rfl
  · rw [State.logRaw_still, State.setInt_still]; simp

@[simp] theorem State.trc_still (s : State) (ty src : Nat) (c : Option Nat) (b : List Byte) : (s.trc ty src c b).host.still = s.host.still := by
  unfold State.trc; split <;> simp

@[simp] theorem State.trcFault_still (s : State) (src : Nat) (c : Option Nat) (l0 l1 : Nat) : (s.trcFault src c l0 l1).host.still = s.host.still := by
  unfold State.trcFault; split <;> simp

@[simp] theorem State.logErr_still (s : State) (page l0 l1 l2 : Nat) : (s.logErr page l0 l1 l2).host.still = s.host.still := by
  unfold State.logErr; dsimp only; split <;> simp

theorem HostState.still_fields {a b : HostState} (h : a.still = b.still) : a.mbx0 = b.mbx0 ∧ a.mbx1 = b.mbx1 ∧ a.engineQ = b.engineQ ∧
    a.slots = b.slots ∧ a.notifyAt = b.notifyAt ∧ a.locks = b.locks ∧ a.hbPcie = b.hbPcie ∧ a.hbMgt = b.hbMgt ∧ a.linkUp = b.linkUp ∧
    a.d3hot = b.d3hot ∧ a.resuming = b.resuming := by
  have f : ∀ {α : Type} (g : HostState → α), g a.still = g b.still := fun g => congrArg g h
  exact ⟨f HostState.mbx0, f HostState.mbx1, f HostState.engineQ, f HostState.slots, f HostState.notifyAt, f HostState.locks, f HostState.hbPcie,
    f HostState.hbMgt, f HostState.linkUp, f HostState.d3hot, f HostState.resuming⟩

end Sys2Proof.Machine
end

