-- ==== Sys2Proof/Laws/KeepsUnits.lean ====
section
/-! SUPPORT. The operations of the units keep the queue and the owners of pages. -/

namespace Sys2Proof.Machine

open Sys2Proof

@[simp] theorem State.arrFault_keeps (s : State) (c : Nat) (q : ArrCmd) (cls : FClass) (cause pos wcol : Nat) : (State.arrFault s c q cls cause pos wcol).host.locks = s.host.locks ∧ (State.arrFault s c q cls cause pos wcol).pending = s.pending := by simp [State.arrFault]

@[simp] theorem State.trcArr_keeps (s : State) (ty c : Nat) (q : ArrCmd) (squashed : Bool) : (State.trcArr s ty c q squashed).host.locks = s.host.locks ∧ (State.trcArr s ty c q squashed).pending = s.pending := by simp [State.trcArr]

@[simp] theorem State.arrSched_keeps (s : State) (c : Nat) (q : ArrCmd) (cause : Nat) : (State.arrSched s c q cause).host.locks = s.host.locks ∧ (State.arrSched s c q cause).pending = s.pending := by simp [State.arrSched]

@[simp] theorem State.checkLoadHead_keeps (s : State) (c : Nat) : (State.checkLoadHead s c).host.locks = s.host.locks ∧ (State.checkLoadHead s c).pending = s.pending := by simp only [State.checkLoadHead]; (repeat' split) <;> simp

@[simp] theorem State.checkStreamHead_keeps (s : State) (c : Nat) : (State.checkStreamHead s c).host.locks = s.host.locks ∧ (State.checkStreamHead s c).pending = s.pending := by simp only [State.checkStreamHead]; (repeat' split) <;> simp

@[simp] theorem State.pushArray_keeps (s : State) (c : Nat) (w : Nat) (iss : Issue) : (State.pushArray s c w iss).host.locks = s.host.locks ∧ (State.pushArray s c w iss).pending = s.pending := by simp only [State.pushArray]; (repeat' split) <;> simp

@[simp] theorem State.applyWr_keeps (s : State) (c : Nat) (w : Wr) : (State.applyWr s c w).host.locks = s.host.locks ∧ (State.applyWr s c w).pending = s.pending := by simp only [State.applyWr]; (repeat' split) <;> simp

@[simp] theorem State.applyWrs_keeps (s : State) (c : Nat) (ws : List Wr) : (State.applyWrs s c ws).host.locks = s.host.locks ∧ (State.applyWrs s c ws).pending = s.pending := by simp [State.applyWrs]

@[simp] theorem State.raiseArrErrs_keeps (s : State) (c : Nat) (q : ArrCmd) (es : List ArrErr) :
    (State.raiseArrErrs s c q es).host.locks = s.host.locks ∧ (State.raiseArrErrs s c q es).pending = s.pending := 
  foldl_alike _ (fun a e => by unfold Alike; dsimp only; (repeat' split) <;> simp) _ _

@[simp] theorem State.accErrs_keeps (s : State) (c : Nat) (q : ArrCmd) (per : Nat) (ws : List Wr) :
    (State.accErrs s c q per ws).1.host.locks = s.host.locks ∧ (State.accErrs s c q per ws).1.pending = s.pending := 
  foldl_fst_keeps _ (fun p w => by dsimp only; (repeat' split) <;> simp) _ _

@[simp] theorem State.accReads_keeps (s : State) (c : Nat) (r : ArrRun) :
    (State.accReads s c r).host.locks = s.host.locks ∧ (State.accReads s c r).pending = s.pending := by
  simp only [State.accReads]; split <;> simp

@[simp] theorem State.flushLoads_keeps (s : State) (c : Nat) : (State.flushLoads s c).host.locks = s.host.locks ∧ (State.flushLoads s c).pending = s.pending := by simp [State.flushLoads]

@[simp] theorem State.flushArr_keeps (n : Nat) (s : State) (c : Nat) :
    (State.flushArr n s c).host.locks = s.host.locks ∧ (State.flushArr n s c).pending = s.pending := by
  induction n generalizing s with
  | zero => exact ⟨rfl, rfl⟩
  | succ n ih => simp only [State.flushArr]; (repeat' split) <;> simp [ih]

@[simp] theorem State.settleArr_keeps (s : State) (c : Nat) :
    (s.settleArr c).host.locks = s.host.locks ∧ (s.settleArr c).pending = s.pending := by simp [State.settleArr]

@[simp] theorem State.memCompare_keeps (s : State) (page cause : Nat) : (State.memCompare s page cause).host.locks = s.host.locks ∧ (State.memCompare s page cause).pending = s.pending := by simp only [State.memCompare]; (repeat' split) <;> (first | simp; done | (have a := State.takeSlip_alike ‹State.takeSlip _ _ = _›; simp [a]))

@[simp] theorem State.failingLane_keeps (s : State) (found : Option (Store Nat)) : (State.failingLane s found).2.host.locks = s.host.locks ∧ (State.failingLane s found).2.pending = s.pending := by simp only [State.failingLane]; (repeat' split) <;> simp

@[simp] theorem State.hbmLine_keeps (s0 : State) (line : Nat) : (State.hbmLine s0 line).1.host.locks = s0.host.locks ∧ (State.hbmLine s0 line).1.pending = s0.pending := by simp only [State.hbmLine]; (repeat' split) <;> simp

@[simp] theorem State.galChanLine_keeps (s0 : State) (ch row : Nat) (e : Store Nat) : (State.galChanLine s0 ch row e).1.host.locks = s0.host.locks ∧ (State.galChanLine s0 ch row e).1.pending = s0.pending := by simp only [State.galChanLine]; (repeat' split) <;> simp

@[simp] theorem State.galLine_keeps (s : State) (line : Nat) : (State.galLine s line).1.host.locks = s.host.locks ∧ (State.galLine s line).1.pending = s.pending := by simp only [State.galLine]; (repeat' split) <;> simp

@[simp] theorem State.sideLine_keeps (s : State) (cap : Bool) (slot : Nat) : (State.sideLine s cap slot).1.host.locks = s.host.locks ∧ (State.sideLine s cap slot).1.pending = s.pending := by simp only [State.sideLine]; (repeat' split) <;> simp

@[simp] theorem State.readLines_keeps (s : State) (cap : Bool) (a n : Nat) :
    (s.readLines cap a n).1.host.locks = s.host.locks ∧ (s.readLines cap a n).1.pending = s.pending := by
  simp only [State.readLines]
  exact foldl_fst_keeps _ (fun p x => by cases cap <;> simp) _ _

@[simp] theorem State.memPoke_keeps (s : State) (cap : Bool) (a : Nat) (bs : List Byte) : (State.memPoke s cap a bs).host.locks = s.host.locks ∧ (State.memPoke s cap a bs).pending = s.pending := by simp [State.memPoke]

@[simp] theorem State.sidePoke_keeps (s : State) (cap : Bool) (slot : Nat) (side : List Byte) : (State.sidePoke s cap slot side).host.locks = s.host.locks ∧ (State.sidePoke s cap slot side).pending = s.pending := by simp [State.sidePoke]

@[simp] theorem State.rankedPoke_keeps (s : State) (cap : Bool) (a : Nat) (data : List Byte) (rank : Nat) : (State.rankedPoke s cap a data rank).host.locks = s.host.locks ∧ (State.rankedPoke s cap a data rank).pending = s.pending := by simp only [State.rankedPoke]; (repeat' split) <;> simp

@[simp] theorem State.noteStore_keeps (s : State) (r : RecentStore) : (State.noteStore s r).host.locks = s.host.locks ∧ (State.noteStore s r).pending = s.pending := by simp [State.noteStore]

@[simp] theorem State.commitBlock_keeps (s : State) (cap : Bool) (a slot : Nat) (data side : List Byte) (rank : Nat) : (State.commitBlock s cap a slot data side rank).host.locks = s.host.locks ∧ (State.commitBlock s cap a slot data side rank).pending = s.pending := by simp only [State.commitBlock]; (repeat' split) <;> simp

@[simp] theorem State.rawStore_keeps (s : State) (a : Nat) (data : List Byte) (rank : Nat) : (State.rawStore s a data rank).host.locks = s.host.locks ∧ (State.rawStore s a data rank).pending = s.pending := by simp [State.rawStore]

@[simp] theorem State.holdAccess_keeps (s : State) (page o : Nat) (busy : Nat → Bool) : (State.holdAccess s page o busy).host.locks = s.host.locks ∧ (State.holdAccess s page o busy).pending = s.pending := by simp [State.holdAccess]

@[simp] theorem State.waitGroups_keeps (s : State) (l : List (Nat × Nat)) : (State.waitGroups s l).host.locks = s.host.locks ∧ (State.waitGroups s l).pending = s.pending := by simp only [State.waitGroups]; (repeat' split) <;> simp

@[simp] theorem State.refWait_keeps (s : State) (cap : Bool) (a n slot : Nat) : (State.refWait s cap a n slot).host.locks = s.host.locks ∧ (State.refWait s cap a n slot).pending = s.pending := by simp only [State.refWait]; (repeat' split) <;> simp

@[simp] theorem State.blockStore_keeps (s : State) (cap : Bool) (a slot : Nat) (data side : List Byte) (rank : Nat) : (State.blockStore s cap a slot data side rank).host.locks = s.host.locks ∧ (State.blockStore s cap a slot data side rank).pending = s.pending := by simp only [State.blockStore]; (repeat' split) <;> simp

@[simp] theorem State.stampLoad_keeps (s : State) (cap : Bool) (a n slot : Nat) : (State.stampLoad s cap a n slot).host.locks = s.host.locks ∧ (State.stampLoad s cap a n slot).pending = s.pending := by simp [State.stampLoad]

@[simp] theorem State.afterLoads_keeps (s : State) (cap : Bool) (a n slot : Nat) : (State.afterLoads s cap a n slot).host.locks = s.host.locks ∧ (State.afterLoads s cap a n slot).pending = s.pending := by simp [State.afterLoads]

@[simp] theorem State.memRead_keeps (s : State) (cap : Bool) (a n slot : Nat) : (State.memRead s cap a n slot).1.host.locks = s.host.locks ∧ (State.memRead s cap a n slot).1.pending = s.pending := by simp only [State.memRead]; (repeat' split) <;> simp

@[simp] theorem State.rawLoad_keeps (s : State) (a n : Nat) : (State.rawLoad s a n).1.host.locks = s.host.locks ∧ (State.rawLoad s a n).1.pending = s.pending := by simp [State.rawLoad]

@[simp] theorem State.undoRead_keeps (s : State) (cap : Bool) (a n slot rank : Nat) : (State.undoRead s cap a n slot rank).1.host.locks = s.host.locks ∧ (State.undoRead s cap a n slot rank).1.pending = s.pending := by simp [State.undoRead]

@[simp] theorem State.sumpHigh_keeps (s : State) (c : Nat) : (State.sumpHigh s c).host.locks = s.host.locks ∧ (State.sumpHigh s c).pending = s.pending := by simp [State.sumpHigh]

@[simp] theorem State.settleLine_keeps (s : State) (line mask : Nat) : (State.settleLine s line mask).host.locks = s.host.locks ∧ (State.settleLine s line mask).pending = s.pending := by simp only [State.settleLine]; (repeat' split) <;> simp

@[simp] theorem State.rmwNow_keeps (s : State) (line mask : Nat) : (State.rmwNow s line mask).1.host.locks = s.host.locks ∧ (State.rmwNow s line mask).1.pending = s.pending := by simp only [State.rmwNow]; (repeat' split) <;> simp

@[simp] theorem State.rmwLine_keeps (s : State) (line mask : Nat) : (State.rmwLine s line mask).1.host.locks = s.host.locks ∧ (State.rmwLine s line mask).1.pending = s.pending := by simp only [State.rmwLine]; (repeat' split) <;> simp

@[simp] theorem State.galSettle_keeps (s : State) (side : Bool) (line mask : Nat) : (State.galSettle s side line mask).host.locks = s.host.locks ∧ (State.galSettle s side line mask).pending = s.pending := by simp only [State.galSettle]; (repeat' split) <;> simp

@[simp] theorem State.galRmw_keeps (s : State) (side : Bool) (line mask : Nat) : (State.galRmw s side line mask).1.host.locks = s.host.locks ∧ (State.galRmw s side line mask).1.pending = s.pending := by simp only [State.galRmw]; (repeat' split) <;> simp

theorem State.mergeLines_alike (s : State) (rmw : State → Nat → Nat → State × Bool) (h : ∀ z l m, Alike z (rmw z l m).1) (o n : Nat) :
    Alike s (s.mergeLines rmw o n).1 :=
  foldl_fst_keeps _ (fun p i => by dsimp only; split; exact ⟨rfl, rfl⟩; exact h _ _ _) _ _

@[simp] theorem State.mergeBlock_keeps (s : State) (cap : Bool) (a n slot : Nat) :
    (State.mergeBlock s cap a n slot).1.host.locks = s.host.locks ∧ (State.mergeBlock s cap a n slot).1.pending = s.pending := by
  have k := fun (z : State) (sd : Bool) (o m : Nat) =>
    State.mergeLines_alike z (if cap then fun z => z.galRmw sd else fun z => z.rmwLine)
      (fun z l m => by unfold Alike; split <;> simp) o m
  simp only [State.mergeBlock]
  split
  · exact k s false a n
  · exact (k s false a n).trans (k _ true _ _)

@[simp] theorem State.mergeStore_keeps (s : State) (cap : Bool) (a slot : Nat) (data side : List Byte) (rank : Nat) : (State.mergeStore s cap a slot data side rank).host.locks = s.host.locks ∧ (State.mergeStore s cap a slot data side rank).pending = s.pending := by simp [State.mergeStore]

@[simp] theorem State.mergeRaw_keeps (s : State) (a : Nat) (data : List Byte) (rank : Nat) : (State.mergeRaw s a data rank).host.locks = s.host.locks ∧ (State.mergeRaw s a data rank).pending = s.pending := by simp [State.mergeRaw]

@[simp] theorem State.sumpCompare_keeps (s : State) : (State.sumpCompare s).host.locks = s.host.locks ∧ (State.sumpCompare s).pending = s.pending := by simp only [State.sumpCompare]; (repeat' split) <;> (first | simp; done | (have a := State.takeSlip_alike ‹State.takeSlip _ _ = _›; simp [a]))

@[simp] theorem State.sumpDiscard_keeps (s : State) (e : SumpEntry) :
    (s.sumpDiscard e).host.locks = s.host.locks ∧ (s.sumpDiscard e).pending = s.pending := by
  have h := fun (z : State) => foldl_alike (fun (a : State) (i : Nat) =>
    let slot := (e.line * 64 - a.mem.userBytes) / 8 + i
    if slotMask e.mask i = 0 then a
    else match e.sides.getD i none with
    | some b => a.sidePoke false slot b
    | none => { a with mem := { a.mem with devSide := Store.erase a.mem.devSide slot } })
    (fun a i => by unfold Alike; dsimp only; (repeat' split) <;> simp) (upTo e.sides.length) z
  refine ⟨(h _).1.trans ?_, (h _).2.trans ?_⟩ <;> (split <;> simp)

@[simp] theorem State.sumpDrop_keeps (s : State) : s.sumpDrop.host.locks = s.host.locks ∧ s.sumpDrop.pending = s.pending :=
  foldl_alike _ (fun a e => by simp [Alike]) _ _

@[simp] theorem State.sumpMerge_keeps (s : State) (e : SumpEntry) : (State.sumpMerge s e).host.locks = s.host.locks ∧ (State.sumpMerge s e).pending = s.pending := by simp only [State.sumpMerge]; (repeat' split) <;> simp

@[simp] theorem State.sumpOverflow_keeps (s : State) (c stream : Nat) (e : SumpEntry) : (State.sumpOverflow s c stream e).host.locks = s.host.locks ∧ (State.sumpOverflow s c stream e).pending = s.pending := by simp only [State.sumpOverflow]; (repeat' split) <;> simp

@[simp] theorem State.sumpCorrect_keeps (s : State) (e : SumpEntry) : (State.sumpCorrect s e).host.locks = s.host.locks ∧ (State.sumpCorrect s e).pending = s.pending := by simp only [State.sumpCorrect]; (repeat' split) <;> simp

@[simp] theorem State.sumpLost_keeps (s : State) (e : SumpEntry) : (State.sumpLost s e).host.locks = s.host.locks ∧ (State.sumpLost s e).pending = s.pending := by simp [State.sumpLost]

@[simp] theorem State.sumpCloseEntry_keeps (s0 : State) (e : SumpEntry) : (State.sumpCloseEntry s0 e).host.locks = s0.host.locks ∧ (State.sumpCloseEntry s0 e).pending = s0.pending := by simp only [State.sumpCloseEntry]; (repeat' split) <;> simp

@[simp] theorem State.sumpDue_keeps (s : State) : (State.sumpDue s).host.locks = s.host.locks ∧ (State.sumpDue s).pending = s.pending := by simp [State.sumpDue]

@[simp] theorem State.sumpWrite_keeps (s : State) (c stream line mask : Nat) (held : List Byte × List (Option (List Byte))) : (State.sumpWrite s c stream line mask held).host.locks = s.host.locks ∧ (State.sumpWrite s c stream line mask held).pending = s.pending := by simp only [State.sumpWrite]; (repeat' split) <;> simp

@[simp] theorem State.sumpRun_keeps (s : State) (before : State) (c stream o n : Nat) :
    (State.sumpRun s before c stream o n).host.locks = s.host.locks ∧ (State.sumpRun s before c stream o n).pending = s.pending := by
  have h := fun (z : State) => foldl_alike (fun (a : State) (i : Nat) =>
    let m := lineMask (o / 64 + i) o n
    if m = fullMask then a else a.sumpWrite c stream (o / 64 + i) m (before.lineHeld (o / 64 + i)))
    (fun a i => by unfold Alike; dsimp only; split <;> simp) (upTo ((o + n - 1) / 64 + 1 - o / 64)) z
  exact ⟨(h _).1.trans (by simp), (h _).2.trans (by simp)⟩

@[simp] theorem State.dmaStore_keeps (s : State) (c stream : Nat) (cap : Bool) (a slot : Nat) (data side : List Byte) :
    (State.dmaStore s c stream cap a slot data side).1.host.locks = s.host.locks ∧ (State.dmaStore s c stream cap a slot data side).1.pending = s.pending := by
  simp only [State.dmaStore]; (repeat' split) <;> simp

@[simp] theorem State.modDma_keeps (s : State) (c : Nat) (f : DmaState → DmaState) : (State.modDma s c f).host.locks = s.host.locks ∧ (State.modDma s c f).pending = s.pending := by simp [State.modDma]

@[simp] theorem State.modHead_keeps (s : State) (c st : Nat) (f : Desc → Desc) : (State.modHead s c st f).host.locks = s.host.locks ∧ (State.modHead s c st f).pending = s.pending := by simp [State.modHead]

@[simp] theorem State.dmaFault_keeps (s : State) (c : Nat) (d : Desc) (cls : FClass) (cause elem addr : Nat) : (State.dmaFault s c d cls cause elem addr).host.locks = s.host.locks ∧ (State.dmaFault s c d cls cause elem addr).pending = s.pending := by simp [State.dmaFault]

@[simp] theorem State.checkDescs_keeps (n : Nat) (s : State) (c st : Nat) :
    (State.checkDescs n s c st).host.locks = s.host.locks ∧ (State.checkDescs n s c st).pending = s.pending := by
  induction n generalizing s with
  | zero => exact ⟨rfl, rfl⟩
  | succ n ih => simp only [State.checkDescs]; (repeat' split) <;> simp [ih]

@[simp] theorem State.checkDescHead_keeps (s : State) (c st : Nat) :
    (s.checkDescHead c st).host.locks = s.host.locks ∧ (s.checkDescHead c st).pending = s.pending := by simp [State.checkDescHead]

@[simp] theorem State.dmaStop_keeps (s : State) (c st : Nat) (d : Desc) (e : FClass × Nat × Nat) (elem : Nat) : (State.dmaStop s c st d e elem).host.locks = s.host.locks ∧ (State.dmaStop s c st d e elem).pending = s.pending := by simp [State.dmaStop]

@[simp] theorem State.devLoad_keeps (s : State) (d : Desc) (cap : Bool) (a fmt : Nat) : (State.devLoad s d cap a fmt).1.host.locks = s.host.locks ∧ (State.devLoad s d cap a fmt).1.pending = s.pending := by simp only [State.devLoad]; (repeat' split) <;> simp

@[simp] theorem State.devStore_keeps (s : State) (c : Nat) (d : Desc) (cap : Bool) (a : Nat) (b : Moved) (check : Bool) :
    (State.devStore s c d cap a b check).1.host.locks = s.host.locks ∧ (State.devStore s c d cap a b check).1.pending = s.pending := by
  simp only [State.devStore]; (repeat' split) <;> simp

@[simp] theorem State.dmaTouch_keeps (s : State) (c a n : Nat) : (State.dmaTouch s c a n).1.host.locks = s.host.locks ∧ (State.dmaTouch s c a n).1.pending = s.pending := by simp only [State.dmaTouch]; (repeat' split) <;> simp

@[simp] theorem State.coreLoad_keeps (s : State) (c : Nat) (f : Fmt) (a : Nat) : (State.coreLoad s c f a).1.host.locks = s.host.locks ∧ (State.coreLoad s c f a).1.pending = s.pending := by simp [State.coreLoad]

@[simp] theorem State.indexEntry_keeps (s : State) (c base i : Nat) : (State.indexEntry s c base i).1.host.locks = s.host.locks ∧ (State.indexEntry s c base i).1.pending = s.pending := by simp [State.indexEntry]

@[simp] theorem State.countRead_keeps (s : State) (c n : Nat) : (State.countRead s c n).host.locks = s.host.locks ∧ (State.countRead s c n).pending = s.pending := by simp [State.countRead]

@[simp] theorem State.countWrite_keeps (s : State) (c n : Nat) : (State.countWrite s c n).host.locks = s.host.locks ∧ (State.countWrite s c n).pending = s.pending := by simp [State.countWrite]

@[simp] theorem State.putBlock_keeps (s : State) (c : Nat) (d : Desc) (space a : Nat) (b : Moved) (check : Bool) : (State.putBlock s c d space a b check).1.host.locks = s.host.locks ∧ (State.putBlock s c d space a b check).1.pending = s.pending := by simp only [State.putBlock]; (repeat' split) <;> simp

@[simp] theorem State.moveBlock_keeps (s : State) (c : Nat) (d : Desc) (fmt ssp src dsp dst : Nat) : (State.moveBlock s c d fmt ssp src dsp dst).1.host.locks = s.host.locks ∧ (State.moveBlock s c d fmt ssp src dsp dst).1.pending = s.pending := by simp only [State.moveBlock]; (repeat' split) <;> simp

@[simp] theorem State.copyBlock_keeps (s : State) (c : Nat) (d : Desc) (i : Nat) : (State.copyBlock s c d i).1.host.locks = s.host.locks ∧ (State.copyBlock s c d i).1.pending = s.pending := by simp only [State.copyBlock]; (repeat' split) <;> simp

@[simp] theorem State.gatherBlock_keeps (s : State) (c : Nat) (d : Desc) (i : Nat) : (State.gatherBlock s c d i).1.host.locks = s.host.locks ∧ (State.gatherBlock s c d i).1.pending = s.pending := by simp only [State.gatherBlock]; (repeat' split) <;> simp

@[simp] theorem State.scatterBlock_keeps (s : State) (c : Nat) (d : Desc) (i : Nat) : (State.scatterBlock s c d i).1.host.locks = s.host.locks ∧ (State.scatterBlock s c d i).1.pending = s.pending := by simp only [State.scatterBlock]; (repeat' split) <;> simp

@[simp] theorem State.rawGranules_keeps (n : Nat) (s : State) (g0 hi : Nat) :
    (State.rawGranules n s g0 hi).1.host.locks = s.host.locks ∧ (State.rawGranules n s g0 hi).1.pending = s.pending := by
  induction n generalizing s g0 with
  | zero => exact ⟨rfl, rfl⟩
  | succ n ih => simp only [State.rawGranules]; (repeat' split) <;> simp [ih]

@[simp] theorem State.ingestBlock_keeps (s : State) (c : Nat) (d : Desc) (i : Nat) :
    (s.ingestBlock c d i).1.host.locks = s.host.locks ∧ (s.ingestBlock c d i).1.pending = s.pending := by
  simp only [State.ingestBlock]; (repeat' split) <;> simp

@[simp] theorem State.transposeRow_keeps (s : State) (c : Nat) (d : Desc) (r : Nat) : (State.transposeRow s c d r).1.host.locks = s.host.locks ∧ (State.transposeRow s c d r).1.pending = s.pending := by simp [State.transposeRow]

@[simp] theorem State.transposeBlock_keeps (s : State) (c : Nat) (d : Desc) (i : Nat) : (State.transposeBlock s c d i).host.locks = s.host.locks ∧ (State.transposeBlock s c d i).pending = s.pending := by simp only [State.transposeBlock]; (repeat' split) <;> simp

@[simp] theorem State.vdtFault_keeps (s : State) (cls : FClass) (cause pos l1 l2 ctx : Nat) : (State.vdtFault s cls cause pos l1 l2 ctx).host.locks = s.host.locks ∧ (State.vdtFault s cls cause pos l1 l2 ctx).pending = s.pending := by simp [State.vdtFault]

theorem State.sendStart_keeps (s : State) (c : Nat) (d : Desc) (r : State × Option (FClass × Nat × Nat))
    (h : s.sendStart c d = some r) : r.1.host.locks = s.host.locks ∧ r.1.pending = s.pending := by
  simp only [State.sendStart] at h; (repeat' split at h) <;> simp_all <;> (subst h; simp)

@[simp] theorem State.pushFlit_keeps (s : State) (c : Nat) (d : Desc) (k : Nat) (body : List Byte) (last : Bool) : (State.pushFlit s c d k body last).host.locks = s.host.locks ∧ (State.pushFlit s c d k body last).pending = s.pending := by simp [State.pushFlit]

@[simp] theorem State.pushFlits_keeps (n : Nat) (s : State) (c : Nat) (d : Desc) (k : Nat) (bs : List Byte) (l : Bool) :
    (State.pushFlits n s c d k bs l).1.host.locks = s.host.locks ∧ (State.pushFlits n s c d k bs l).1.pending = s.pending := by
  induction n generalizing s k bs with
  | zero => exact ⟨rfl, rfl⟩
  | succ n ih => simp only [State.pushFlits]; (repeat' split) <;> simp [ih]

@[simp] theorem State.sendOut_keeps (s : State) (c st : Nat) (d : Desc) (i : Nat) (bs : List Byte) : (State.sendOut s c st d i bs).host.locks = s.host.locks ∧ (State.sendOut s c st d i bs).pending = s.pending := by simp only [State.sendOut]; (repeat' split) <;> simp

@[simp] theorem State.sendBlock_keeps (s : State) (c st : Nat) (d : Desc) (i : Nat) :
    (s.sendBlock c st d i).1.host.locks = s.host.locks ∧ (s.sendBlock c st d i).1.pending = s.pending := by
  simp only [State.sendBlock]; (repeat' split) <;> simp

@[simp] theorem State.dmaSlip_keeps (s : State) (c : Nat) : (s.dmaSlip c).2.host.locks = s.host.locks ∧ (s.dmaSlip c).2.pending = s.pending := by
  simp only [State.dmaSlip]; (repeat' split) <;> (first | simp; done | (have a := State.takeSlip_alike ‹State.takeSlip _ _ = _›; simp [a]))

theorem State.dmaSlip_alike {s z : State} {c : Nat} {b : Bool} (h : s.dmaSlip c = (b, z)) :
    z.host.locks = s.host.locks ∧ z.pending = s.pending := by
  have a := s.dmaSlip_keeps c; rw [h] at a; exact a

@[simp] theorem State.flsFaultAt_keeps (s : State) (c : Nat) (q : ChainCmd) (cls : FClass) (cause block pos : Nat) : (State.flsFaultAt s c q cls cause block pos).host.locks = s.host.locks ∧ (State.flsFaultAt s c q cls cause block pos).pending = s.pending := by simp [State.flsFaultAt]

@[simp] theorem State.flsFault_keeps (s : State) (c : Nat) (q : ChainCmd) (cls : FClass) (cause block : Nat) : (State.flsFault s c q cls cause block).host.locks = s.host.locks ∧ (State.flsFault s c q cls cause block).pending = s.pending := by simp [State.flsFault]

@[simp] theorem State.flsStall_keeps (s : State) (c : Nat) (q : ChainCmd) (cause : Nat) : (State.flsStall s c q cause).host.locks = s.host.locks ∧ (State.flsStall s c q cause).pending = s.pending := by simp [State.flsStall]

@[simp] theorem State.checkChainHead_keeps (s : State) (c : Nat) : (State.checkChainHead s c).host.locks = s.host.locks ∧ (State.checkChainHead s c).pending = s.pending := by simp only [State.checkChainHead]; (repeat' split) <;> simp

@[simp] theorem State.walkBlock_keeps (s : State) (c : Nat) (d : Desc) (k : Walk) (i : Nat) : (State.walkBlock s c d k i).1.host.locks = s.host.locks ∧ (State.walkBlock s c d k i).1.pending = s.pending := by simp [State.walkBlock]

@[simp] theorem State.setCol_keeps (s : State) (g : Nat) (x : ColGroup) : (State.setCol s g x).host.locks = s.host.locks ∧ (State.setCol s g x).pending = s.pending := by simp [State.setCol]

@[simp] theorem State.colMeasure_keeps (s : State) (p : ColPend) (slack : Nat) : (State.colMeasure s p slack).host.locks = s.host.locks ∧ (State.colMeasure s p slack).pending = s.pending := by simp only [State.colMeasure]; (repeat' split) <;> simp

@[simp] theorem State.colDelivery_keeps (s : State) (p key core ctx n : Nat) : (State.colDelivery s p key core ctx n).host.locks = s.host.locks ∧ (State.colDelivery s p key core ctx n).pending = s.pending := by simp only [State.colDelivery]; (repeat' split) <;> simp

@[simp] theorem State.colWaited_keeps (s : State) (key fn : Nat) : (State.colWaited s key fn).host.locks = s.host.locks ∧ (State.colWaited s key fn).pending = s.pending := by simp only [State.colWaited]; (repeat' split) <;> simp

@[simp] theorem State.colSent_keeps (s : State) (p n : Nat) : (State.colSent s p n).host.locks = s.host.locks ∧ (State.colSent s p n).pending = s.pending := by simp only [State.colSent]; (repeat' split) <;> simp

@[simp] theorem State.finish_keeps (s : State) (c t : Nat) (x : Thread) : (State.finish s c t x).host.locks = s.host.locks ∧ (State.finish s c t x).pending = s.pending := by simp [State.finish]

@[simp] theorem State.done_keeps (s : State) (c t : Nat) (x : Thread) : (State.done s c t x).host.locks = s.host.locks ∧ (State.done s c t x).pending = s.pending := by simp [State.done]

@[simp] theorem State.wait_keeps (s : State) (c t : Nat) (x : Thread) (h : Held) : (State.wait s c t x h).host.locks = s.host.locks ∧ (State.wait s c t x h).pending = s.pending := by simp [State.wait]

@[simp] theorem State.insFault_keeps (s : State) (c t : Nat) (cls : FClass) (cause addr : Nat) : (State.insFault s c t cls cause addr).host.locks = s.host.locks ∧ (State.insFault s c t cls cause addr).pending = s.pending := by unfold State.insFault; (repeat' split) <;> simp

@[simp] theorem State.issueAgrees_keeps (s : State) (c t : Nat) (k : State → State) (h : ∀ z, (k z).host.locks = z.host.locks ∧ (k z).pending = z.pending) :
    (s.issueAgrees c t k).host.locks = s.host.locks ∧ (s.issueAgrees c t k).pending = s.pending := by
  simp only [State.issueAgrees]; split
  · have a := State.takeSlip_alike ‹State.takeSlip _ _ = _›; simp [a]
  · exact h s

@[simp] theorem State.instr_keeps (s : State) (c t opc : Nat) (body : State → Thread → Nat → State)
    (h : ∀ z x w, (body z x w).host.locks = z.host.locks ∧ (body z x w).pending = z.pending) :
    (s.instr c t opc body).host.locks = s.host.locks ∧ (s.instr c t opc body).pending = s.pending := by
  have w : Alike s (s.awake c) := by unfold Alike; simp
  simp only [State.instr]
  split; · exact w
  split; · simp
  split; · exact w.trans (State.issueAgrees_keeps _ _ _ _ (fun z => by simp))
  split; · exact w
  refine w.trans (State.cmRead_alike _ _ _ _ _ _ (fun z => ?_))
  unfold Alike; split
  · simp
  · exact State.issueAgrees_keeps _ _ _ _ (fun z => by split <;> simp [h])

@[simp] theorem State.jump_keeps (s : State) (c t target : Nat) (x : Thread) : (State.jump s c t target x).host.locks = s.host.locks ∧ (State.jump s c t target x).pending = s.pending := by simp only [State.jump]; (repeat' split) <;> simp

@[simp] theorem State.scalarAccess_keeps (s : State) (c t a : Nat) (write : Bool) (k : State → State) (h : ∀ z, (k z).host.locks = z.host.locks ∧ (k z).pending = z.pending) : (State.scalarAccess s c t a write k).host.locks = s.host.locks ∧ (State.scalarAccess s c t a write k).pending = s.pending := by simp only [State.scalarAccess]; (repeat' split) <;> simp_all

@[simp] theorem State.countBind_keeps (s : State) (c : Nat) (b : Binding) : (State.countBind s c b).host.locks = s.host.locks ∧ (State.countBind s c b).pending = s.pending := by simp [State.countBind]

@[simp] theorem State.cmdAccess_keeps (s : State) (c t a n : Nat) (k : State → State) (h : ∀ z, (k z).host.locks = z.host.locks ∧ (k z).pending = z.pending) : (State.cmdAccess s c t a n k).host.locks = s.host.locks ∧ (State.cmdAccess s c t a n k).pending = s.pending := by simp only [State.cmdAccess]; (repeat' split) <;> simp_all

theorem State.cmdAccess_alike (s : State) (c t a n : Nat) (k : State → State) (h : Alike s (k s)) : Alike s (s.cmdAccess c t a n k) := by
  unfold State.cmdAccess
  split; · unfold Alike; simp
  split; · unfold Alike; simp
  exact h

@[simp] theorem State.issueArray_keeps (s : State) (c t : Nat) (x : Thread) (w : Nat) :
    (State.issueArray s c t x w).host.locks = s.host.locks ∧ (State.issueArray s c t x w).pending = s.pending := 
  State.cmdAccess_alike _ _ _ _ _ _ (State.cmRead_alike _ _ _ _ _ _ (fun z => by unfold Alike; dsimp only; (repeat' split) <;> simp))

@[simp] theorem State.issueChain_keeps (s : State) (c t : Nat) (x : Thread) (w : Nat) :
    (State.issueChain s c t x w).host.locks = s.host.locks ∧ (State.issueChain s c t x w).pending = s.pending := 
  State.cmdAccess_alike _ _ _ _ _ _ (State.cmdAccess_alike _ _ _ _ _ _ (State.cmRead_alike _ _ _ _ _ _ (fun z => by unfold Alike; dsimp only; (repeat' split) <;> simp)))

@[simp] theorem State.issueDesc_keeps (s : State) (c t : Nat) (x : Thread) (w : Nat) :
    (State.issueDesc s c t x w).host.locks = s.host.locks ∧ (State.issueDesc s c t x w).pending = s.pending := 
  State.cmdAccess_alike _ _ _ _ _ _ (State.cmRead_alike _ _ _ _ _ _ (fun z => by unfold Alike; dsimp only; (repeat' split) <;> simp))

@[simp] theorem State.waitTick_keeps (s : State) (c t : Nat) (x : Thread) (w : Nat) : (State.waitTick s c t x w).host.locks = s.host.locks ∧ (State.waitTick s c t x w).pending = s.pending := by simp only [State.waitTick]; (repeat' split) <;> simp

@[simp] theorem State.moveSum_keeps (s : State) (c t : Nat) (x : Thread) (w : Nat) : (State.moveSum s c t x w).host.locks = s.host.locks ∧ (State.moveSum s c t x w).pending = s.pending := by simp only [State.moveSum]; (repeat' split) <;> simp

@[simp] theorem State.branchSum_keeps (s : State) (c t : Nat) (x : Thread) (w : Nat) : (State.branchSum s c t x w).host.locks = s.host.locks ∧ (State.branchSum s c t x w).pending = s.pending := by simp only [State.branchSum]; (repeat' split) <;> simp

@[simp] theorem State.keyDone_keeps (s : State) (c : Nat) : (State.keyDone s c).host.locks = s.host.locks ∧ (State.keyDone s c).pending = s.pending := by simp [State.keyDone]

@[simp] theorem State.keyHold_keeps (s : State) (c t : Nat) (x : Thread) (h : Held) : (State.keyHold s c t x h).host.locks = s.host.locks ∧ (State.keyHold s c t x h).pending = s.pending := by simp [State.keyHold]

@[simp] theorem State.keyFunction_keeps (s : State) (c t : Nat) (x : Thread) (w : Nat) : (State.keyFunction s c t x w).host.locks = s.host.locks ∧ (State.keyFunction s c t x w).pending = s.pending := by simp only [State.keyFunction]; (repeat' split) <;> simp_all

@[simp] theorem State.keyInstr_keeps (s : State) (c t fn : Nat) :
    (State.keyInstr s c t fn).host.locks = s.host.locks ∧ (State.keyInstr s c t fn).pending = s.pending := by
  simp only [State.keyInstr]; split <;> simp

@[simp] theorem State.retest_keeps (s : State) (c t : Nat) :
    (s.retest c t).host.locks = s.host.locks ∧ (s.retest c t).pending = s.pending := by
  simp only [State.retest, State.issueAgrees]
  (repeat' split) <;> (first | simp; done | (have a := State.takeSlip_alike (by assumption); simp [a]))

@[simp] theorem State.beginServe_keeps (s : State) (c st : Nat) (d : Desc) : (State.beginServe s c st d).1.host.locks = s.host.locks ∧ (State.beginServe s c st d).1.pending = s.pending := by simp only [State.beginServe]; (repeat' split) <;> simp

@[simp] theorem State.moved_keeps (s : State) (c st n : Nat) : (State.moved s c st n).host.locks = s.host.locks ∧ (State.moved s c st n).pending = s.pending := by simp [State.moved]

@[simp] theorem State.serve_keeps (s : State) (c st kind : Nat) (move : State → Desc → Nat → State × DmaRes Unit)
    (h : ∀ z d i, (move z d i).1.host.locks = z.host.locks ∧ (move z d i).1.pending = z.pending) :
    (s.serve c st kind move).host.locks = s.host.locks ∧ (s.serve c st kind move).pending = s.pending := by
  simp only [State.serve]
  (repeat' split) <;> (first | simp; done | (have a := State.dmaSlip_alike ‹State.dmaSlip _ _ = _›; simp [a, h]))

@[simp] theorem State.serveWalk_keeps (s : State) (c st : Nat) : (State.serveWalk s c st).host.locks = s.host.locks ∧ (State.serveWalk s c st).pending = s.pending := by simp only [State.serveWalk]; (repeat' split) <;> (first | simp; done | (have a := State.dmaSlip_alike ‹State.dmaSlip _ _ = _›; simp [a]))

@[simp] theorem execCopy_keeps (c : Fin 256) (st : Fin 32) (s : State) : Keeps s (execCopy c st s) := by simp only [execCopy]; (repeat' split) <;> simp

@[simp] theorem execGather_keeps (c : Fin 256) (st : Fin 32) (s : State) : Keeps s (execGather c st s) := by simp [execGather]

@[simp] theorem execScatter_keeps (c : Fin 256) (st : Fin 32) (s : State) : Keeps s (execScatter c st s) := by simp [execScatter]

@[simp] theorem execIngest_keeps (c : Fin 256) (st : Fin 32) (s : State) : Keeps s (execIngest c st s) := by simp [execIngest]

@[simp] theorem execSend_keeps (c : Fin 256) (st : Fin 32) (s : State) : Keeps s (execSend c st s) := by
  unfold execSend
  split
  · simp
  · rename_i d _
    have h := s.sendStart_keeps c d
    split
    · rename_i hy; split at hy
      · simp at hy
      · have := h _ hy; simpa using this
    · rename_i hy; split at hy
      · simp at hy
      · have := h _ hy; simpa using this
    · rename_i hy; split at hy
      · simp at hy
      · have := h _ hy; simpa using this
    · simp

@[simp] theorem State.serveRow_keeps (s : State) (c st : Nat) (d : Desc) : (State.serveRow s c st d).host.locks = s.host.locks ∧ (State.serveRow s c st d).pending = s.pending := by simp only [State.serveRow]; (repeat' split) <;> (first | simp; done | (have a := State.dmaSlip_alike ‹State.dmaSlip _ _ = _›; simp [a]))

@[simp] theorem execTranspose_keeps (c : Fin 256) (st : Fin 32) (s : State) : Keeps s (execTranspose c st s) := by simp only [execTranspose]; (repeat' split) <;> simp

@[simp] theorem State.popDesc_keeps (s : State) (c st : Nat) : (State.popDesc s c st).host.locks = s.host.locks ∧ (State.popDesc s c st).pending = s.pending := by simp [State.popDesc]

@[simp] theorem State.endDesc_keeps (s : State) (c st : Nat) (d : Desc) : (State.endDesc s c st d).host.locks = s.host.locks ∧ (State.endDesc s c st d).pending = s.pending := by simp only [State.endDesc]; (repeat' split) <;> simp

@[simp] theorem execDescriptorDone_keeps (c : Fin 256) (st : Fin 32) (s : State) : Keeps s (execDescriptorDone c st s) := by simp only [execDescriptorDone]; (repeat' split) <;> simp

@[simp] theorem State.setCtx_keeps (s : State) (id : Nat) (x : Ctx) : (State.setCtx s id x).host.locks = s.host.locks ∧ (State.setCtx s id x).pending = s.pending := by simp [State.setCtx]

@[simp] theorem State.stragglerBlock_keeps (s : State) (id : Nat) :
    (State.stragglerBlock s id).host.locks = s.host.locks ∧ (State.stragglerBlock s id).pending = s.pending := by
  simp only [State.stragglerBlock]; split <;> simp

@[simp] theorem execMeshDelivery_keeps (c : Fin 256) (st : Fin 32) (s : State) : Keeps s (execMeshDelivery c st s) := by simp only [execMeshDelivery]; (repeat' split) <;> simp

@[simp] theorem State.missBinding_keeps (s : State) (c : Nat) (b : Binding) : (State.missBinding s c b).host.locks = s.host.locks ∧ (State.missBinding s c b).pending = s.pending := by simp [State.missBinding]

@[simp] theorem State.unresolved_keeps (s : State) (c : Nat) (iss : Issue) : (State.unresolved s c iss).host.locks = s.host.locks ∧ (State.unresolved s c iss).pending = s.pending := by simp [State.unresolved]

@[simp] theorem State.raiseFlsErrs_keeps (s : State) (c : Nat) (q : ChainCmd) (es : List FlsErr) : (State.raiseFlsErrs s c q es).host.locks = s.host.locks ∧ (State.raiseFlsErrs s c q es).pending = s.pending := by unfold State.raiseFlsErrs; refine foldl_alike _ (fun a x => ?_) _ _; unfold Alike; dsimp only; (repeat' split) <;> simp

@[simp] theorem State.fileRead_keeps (s : State) (c : Nat) (a : ChainAcc) (ecc : Store Nat) (keys : List Nat) (time block stage : Nat) : (State.fileRead s c a ecc keys time block stage).1.host.locks = s.host.locks ∧ (State.fileRead s c a ecc keys time block stage).1.pending = s.pending := by simp [State.fileRead]

@[simp] theorem State.stageReads_keeps (s : State) (c : Nat) (a : ChainAcc) (time b k w : Nat) (x : Wide) : (State.stageReads s c a time b k w x).1.host.locks = s.host.locks ∧ (State.stageReads s c a time b k w x).1.pending = s.pending := by simp only [State.stageReads]; (repeat' split) <;> simp

@[simp] theorem State.chainDue_keeps (s : State) (c : Nat) (e : ChainEnv) (a : ChainAcc) (b : Nat) : (State.chainDue s c e a b).1.host.locks = s.host.locks ∧ (State.chainDue s c e a b).1.pending = s.pending := by simp only [State.chainDue]; (repeat' split) <;> simp

@[simp] theorem State.chainRead_keeps (s : State) (c : Nat) (e : ChainEnv) (time b base : Nat) : (State.chainRead s c e time b base).1.host.locks = s.host.locks ∧ (State.chainRead s c e time b base).1.pending = s.pending := by simp [State.chainRead]

@[simp] theorem State.chainInput_keeps (s : State) (c : Nat) (e : ChainEnv) (a : ChainAcc) (time b : Nat) :
    (s.chainInput c e a time b).1.1.host.locks = s.host.locks ∧ (s.chainInput c e a time b).1.1.pending = s.pending := by
  simp only [State.chainInput]; (repeat' split) <;> simp

@[simp] theorem State.chainStages_keeps (s : State) (c : Nat) (e : ChainEnv) (a : ChainAcc) (b : Nat) (second : Wide)
    (k time : Nat) (l : List Nat) (x : FBlk) (wbs : List (Nat × Wide)) :
    (s.chainStages c e a b second k time l x wbs).1.1.host.locks = s.host.locks ∧
    (s.chainStages c e a b second k time l x wbs).1.1.pending = s.pending := by
  induction l generalizing s a k time x wbs with
  | nil => exact ⟨rfl, rfl⟩
  | cons w l ih => simp only [State.chainStages]; simp [ih]

@[simp] theorem State.chainBlock_keeps (s : State) (c : Nat) (e : ChainEnv) (a : ChainAcc) (b : Nat) :
    (s.chainBlock c e a b).1.host.locks = s.host.locks ∧ (s.chainBlock c e a b).1.pending = s.pending := by
  simp only [State.chainBlock]; (repeat' split) <;> simp

@[simp] theorem State.stageErrs_keeps (s : State) (c : Nat) (e : ChainEnv) : (State.stageErrs s c e).1.host.locks = s.host.locks ∧ (State.stageErrs s c e).1.pending = s.pending := by simp only [State.stageErrs]; (repeat' split) <;> (first | simp; done | (have a := State.takeSlip_alike ‹State.takeSlip _ _ = _›; simp [a]))

@[simp] theorem State.chainBlocks_keeps (s : State) (c : Nat) (e : ChainEnv) (a : ChainAcc) (n : Nat) : (State.chainBlocks s c e a n).1.host.locks = s.host.locks ∧ (State.chainBlocks s c e a n).1.pending = s.pending := by simp [State.chainBlocks]

@[simp] theorem State.flushDue_keeps (s : State) (c serial : Nat) : (State.flushDue s c serial).host.locks = s.host.locks ∧ (State.flushDue s c serial).pending = s.pending := by simp [State.flushDue]

@[simp] theorem State.flsCounts_keeps (s : State) (c sats rngs : Nat) : (State.flsCounts s c sats rngs).host.locks = s.host.locks ∧ (State.flsCounts s c sats rngs).pending = s.pending := by simp [State.flsCounts]

@[simp] theorem State.settleChain_keeps (s : State) (c : Nat) (r : ChainRun) : (State.settleChain s c r).1.host.locks = s.host.locks ∧ (State.settleChain s c r).1.pending = s.pending := by simp only [State.settleChain]; (repeat' split) <;> simp

@[simp] theorem State.settleFls_keeps (s : State) (c : Nat) :
    (s.settleFls c).host.locks = s.host.locks ∧ (s.settleFls c).pending = s.pending := by
  simp only [State.settleFls]
  have h := foldl_fst_keeps (fun (p : State × List ChainRun) x =>
    ((p.1.settleChain c x).1, p.2 ++ (p.1.settleChain c x).2.toList)) (fun p x => by simp) (s.core c).fls.runs (s, [])
  simp [h]

@[simp] theorem State.settleArrFaults_keeps (s : State) (c : Nat) :
    (State.settleArrFaults s c).host.locks = s.host.locks ∧ (State.settleArrFaults s c).pending = s.pending := by
  unfold State.settleArrFaults
  refine Alike.trans ?_ (foldl_alike _ (fun a r => by unfold Alike; (repeat' split) <;> simp) _ _)
  refine Alike.trans ?_ (foldl_alike _ (fun a r => by unfold Alike; (repeat' split) <;> simp) _ _)
  unfold Alike; simp

@[simp] theorem State.chainEnd_keeps (s : State) (c ch : Nat) (v : Option Nat) : (State.chainEnd s c ch v).host.locks = s.host.locks ∧ (State.chainEnd s c ch v).pending = s.pending := by simp [State.chainEnd]

@[simp] theorem State.tilFault_keeps (s : State) (c : Nat) (d : Desc) (cls : FClass) (cause operand step : Nat) : (State.tilFault s c d cls cause operand step).host.locks = s.host.locks ∧ (State.tilFault s c d cls cause operand step).pending = s.pending := by simp [State.tilFault]

@[simp] theorem State.walkReads_keeps (s : State) (c a : Nat) (b : List Byte) : (State.walkReads s c a b).1.host.locks = s.host.locks ∧ (State.walkReads s c a b).1.pending = s.pending := by simp only [State.walkReads]; (repeat' split) <;> simp

@[simp] theorem execWalk_keeps (c : Fin 256) (st : Fin 32) (s : State) : Keeps s (execWalk c st s) := by simp only [execWalk]; (repeat' split) <;> simp

@[simp] theorem State.setWalk_keeps (s : State) (c st : Nat) (k : Walk) : (State.setWalk s c st k).host.locks = s.host.locks ∧ (State.setWalk s c st k).pending = s.pending := by simp [State.setWalk]

@[simp] theorem State.trcStep_keeps (s : State) (c st : Nat) (k : Walk) : (State.trcStep s c st k).host.locks = s.host.locks ∧ (State.trcStep s c st k).pending = s.pending := by simp [State.trcStep]

@[simp] theorem State.tilSlip_keeps (s : State) (c : Nat) : (s.tilSlip c).2.host.locks = s.host.locks ∧ (s.tilSlip c).2.pending = s.pending := by
  simp only [State.tilSlip]; (repeat' split) <;> (first | simp; done | (have a := State.takeSlip_alike ‹State.takeSlip _ _ = _›; simp [a]))

theorem State.tilSlip_alike {s z : State} {c : Nat} {b : Option Nat} (h : s.tilSlip c = (b, z)) :
    z.host.locks = s.host.locks ∧ z.pending = s.pending := by
  have a := s.tilSlip_keeps c; rw [h] at a; exact a

@[simp] theorem State.walkStep_keeps (s : State) (c st : Nat) (k : Walk) : (State.walkStep s c st k).host.locks = s.host.locks ∧ (State.walkStep s c st k).pending = s.pending := by simp only [State.walkStep]; (repeat' split) <;> simp

@[simp] theorem execWalkStep_keeps (c : Fin 256) (st : Fin 32) (s : State) : Keeps s (execWalkStep c st s) := by
  simp only [execWalkStep]
  (repeat' split) <;> (first | simp; done | (have a := State.tilSlip_alike ‹State.tilSlip _ _ = _›; simp [a]))

@[simp] theorem State.markEmitted_keeps (s : State) (c t queue : Nat) : (State.markEmitted s c t queue).host.locks = s.host.locks ∧ (State.markEmitted s c t queue).pending = s.pending := by simp [State.markEmitted]

@[simp] theorem execEmitCommand_keeps (c : Fin 256) (st : Fin 32) (s : State) : Keeps s (execEmitCommand c st s) := by simp only [execEmitCommand]; (repeat' split) <;> simp

@[simp] theorem execWalkDone_keeps (c : Fin 256) (st : Fin 32) (s : State) : Keeps s (execWalkDone c st s) := by simp only [execWalkDone]; (repeat' split) <;> simp

@[simp] theorem State.openCtx_keeps (s : State) (r : CtxRec) : (State.openCtx s r).host.locks = s.host.locks ∧ (State.openCtx s r).pending = s.pending := by simp [State.openCtx]

@[simp] theorem State.ctxLog_keeps (s : State) (cls cause id : Nat) : (State.ctxLog s cls cause id).host.locks = s.host.locks ∧ (State.ctxLog s cls cause id).pending = s.pending := by simp [State.ctxLog]

@[simp] theorem State.checkHeads_keeps (s : State) : (State.checkHeads s).host.locks = s.host.locks ∧ (State.checkHeads s).pending = s.pending := by simp [State.checkHeads]

@[simp] theorem State.teardown_keeps (s : State) (id t : Nat) : (State.teardown s id t).host.locks = s.host.locks ∧ (State.teardown s id t).pending = s.pending := by simp [State.teardown]

@[simp] theorem State.parkCtx_keeps (s : State) (id : Nat) : (State.parkCtx s id).host.locks = s.host.locks ∧ (State.parkCtx s id).pending = s.pending := by simp [State.parkCtx]

@[simp] theorem State.finishTeardown_keeps (s : State) (id : Nat) : (State.finishTeardown s id).host.locks = s.host.locks ∧ (State.finishTeardown s id).pending = s.pending := by simp only [State.finishTeardown]; (repeat' split) <;> simp

@[simp] theorem State.applyClose_keeps (s : State) (l : Store Nat) (t : Nat) :
    (s.applyClose l t).host.locks = s.host.locks ∧ (s.applyClose l t).pending = s.pending := by
  simp only [State.applyClose]
  constructor
  · apply foldl_host_locks; intro a x; (repeat' split) <;> simp
  · apply foldl_pending; intro a x; (repeat' split) <;> simp

@[simp] theorem State.quotaPier_keeps (s : State) (id : Nat) : (State.quotaPier s id).host.locks = s.host.locks ∧ (State.quotaPier s id).pending = s.pending := by simp only [State.quotaPier]; (repeat' split) <;> simp

@[simp] theorem State.quotaCheck_keeps (s : State) : (State.quotaCheck s).host.locks = s.host.locks ∧ (State.quotaCheck s).pending = s.pending := by simp [State.quotaCheck]

@[simp] theorem State.ctxRefuse_keeps (s : State) (code : Nat) : (State.ctxRefuse s code).host.locks = s.host.locks ∧ (State.ctxRefuse s code).pending = s.pending := by simp [State.ctxRefuse]

@[simp] theorem State.markOver_keeps (s : State) (id : Nat) : (State.markOver s id).host.locks = s.host.locks ∧ (State.markOver s id).pending = s.pending := by simp only [State.markOver]; (repeat' split) <;> simp

@[simp] theorem State.putQuota_keeps (s : State) (c : CtxCmd) : (State.putQuota s c).host.locks = s.host.locks ∧ (State.putQuota s c).pending = s.pending := by simp only [State.putQuota]; (repeat' split) <;> simp

@[simp] theorem State.grantPages_keeps (s : State) (c : CtxCmd) : (State.grantPages s c).host.locks = s.host.locks ∧ (State.grantPages s c).pending = s.pending := by simp only [State.grantPages]; (repeat' split) <;> simp

@[simp] theorem State.returnPages_keeps (s : State) (c : CtxCmd) : (State.returnPages s c).host.locks = s.host.locks ∧ (State.returnPages s c).pending = s.pending := by simp only [State.returnPages]; (repeat' split) <;> simp

@[simp] theorem State.grantKeystone_keeps (s : State) (c : CtxCmd) : (State.grantKeystone s c).host.locks = s.host.locks ∧ (State.grantKeystone s c).pending = s.pending := by simp only [State.grantKeystone]; (repeat' split) <;> simp

@[simp] theorem State.returnKeystone_keeps (s : State) (c : CtxCmd) : (State.returnKeystone s c).host.locks = s.host.locks ∧ (State.returnKeystone s c).pending = s.pending := by simp only [State.returnKeystone]; (repeat' split) <;> simp

@[simp] theorem State.ctxEffect_keeps (s : State) (c : CtxCmd) (t : Nat) : (State.ctxEffect s c t).host.locks = s.host.locks ∧ (State.ctxEffect s c t).pending = s.pending := by simp only [State.ctxEffect]; (repeat' split) <;> simp

@[simp] theorem State.ctxRun_keeps (s : State) (c : CtxCmd) (t : Nat) : (State.ctxRun s c t).host.locks = s.host.locks ∧ (State.ctxRun s c t).pending = s.pending := by simp only [State.ctxRun]; (repeat' split) <;> simp

@[simp] theorem State.ctxPending_keeps (s : State) (seq t : Nat) : (State.ctxPending s seq t).host.locks = s.host.locks ∧ (State.ctxPending s seq t).pending = s.pending := by simp only [State.ctxPending]; (repeat' split) <;> simp

@[simp] theorem State.loadGrant_keeps (s : State) (g : GrantRec) (cores : List Nat) : (State.loadGrant s g cores).host.locks = s.host.locks ∧ (State.loadGrant s g cores).pending = s.pending := by simp only [State.loadGrant]; (repeat' split) <;> simp

@[simp] theorem State.sealStep_keeps (s : State) : (State.sealStep s).host.locks = s.host.locks ∧ (State.sealStep s).pending = s.pending := by simp only [State.sealStep]; (repeat' split) <;> simp

@[simp] theorem State.seepLose_keeps (s : State) : (State.seepLose s).host.locks = s.host.locks ∧ (State.seepLose s).pending = s.pending := by simp only [State.seepLose]; (repeat' split) <;> simp

@[simp] theorem State.seepHigh_keeps (s : State) (before : Nat) : (State.seepHigh s before).host.locks = s.host.locks ∧ (State.seepHigh s before).pending = s.pending := by simp only [State.seepHigh]; (repeat' split) <;> simp

@[simp] theorem State.ringWrite_keeps (s : State) (l : List (Nat × Nat)) (bs : List Byte) :
    (s.ringWrite l bs).host.locks = s.host.locks ∧ (s.ringWrite l bs).pending = s.pending := by
  induction l generalizing s bs with
  | nil => exact ⟨rfl, rfl⟩
  | cons r rs ih =>
    have k := State.mergeLines_alike s State.rmwNow State.rmwNow_keeps r.1 r.2
    unfold Alike at k; simp [State.ringWrite, ih, k]

@[simp] theorem State.ringPut_keeps (s : State) (pos : Nat) (bs : List Byte) :
    (State.ringPut s pos bs).host.locks = s.host.locks ∧ (State.ringPut s pos bs).pending = s.pending :=
  State.ringWrite_keeps _ _ _

@[simp] theorem State.ringGet_keeps (s : State) (pos n : Nat) : (State.ringGet s pos n).1.host.locks = s.host.locks ∧ (State.ringGet s pos n).1.pending = s.pending := by simp [State.ringGet]

@[simp] theorem State.seepStow_keeps (s : State) : (State.seepStow s).host.locks = s.host.locks ∧ (State.seepStow s).pending = s.pending := by simp [State.seepStow]

@[simp] theorem State.seepHold_keeps (s : State) (r : SeepRec) : (State.seepHold s r).host.locks = s.host.locks ∧ (State.seepHold s r).pending = s.pending := by simp only [State.seepHold]; (repeat' split) <;> simp

@[simp] theorem State.seepRelease1_keeps (s : State) (r : SeepRec) : (State.seepRelease1 s r).host.locks = s.host.locks ∧ (State.seepRelease1 s r).pending = s.pending := by simp only [State.seepRelease1]; (repeat' split) <;> simp

@[simp] theorem State.seepSeal_keeps (s : State) (step : Option (Nat × Nat)) : (State.seepSeal s step).host.locks = s.host.locks ∧ (State.seepSeal s step).pending = s.pending := by simp only [State.seepSeal]; (repeat' split) <;> simp

@[simp] theorem State.seepGapEnd_keeps (s : State) : (State.seepGapEnd s).host.locks = s.host.locks ∧ (State.seepGapEnd s).pending = s.pending := by simp only [State.seepGapEnd]; (repeat' split) <;> simp

@[simp] theorem State.seepLog_keeps (s : State) (cause : Nat) : (State.seepLog s cause).host.locks = s.host.locks ∧ (State.seepLog s cause).pending = s.pending := by simp [State.seepLog]

@[simp] theorem State.seepAcked_keeps (s : State) (n : Nat) : (State.seepAcked s n).host.locks = s.host.locks ∧ (State.seepAcked s n).pending = s.pending := by simp only [State.seepAcked]; (repeat' split) <;> simp

@[simp] theorem State.takeSeepFlit_keeps (s : State) (bytes : List Byte) : (State.takeSeepFlit s bytes).host.locks = s.host.locks ∧ (State.takeSeepFlit s bytes).pending = s.pending := by simp only [State.takeSeepFlit]; (repeat' split) <;> simp

@[simp] theorem State.descChanged_keeps (s : State) : (State.descChanged s).host.locks = s.host.locks ∧ (State.descChanged s).pending = s.pending := by simp [State.descChanged]

@[simp] theorem State.setMask_keeps (s : State) (m : Nat) : (State.setMask s m).host.locks = s.host.locks ∧ (State.setMask s m).pending = s.pending := by simp only [State.setMask]; (repeat' split) <;> simp

@[simp] theorem State.refreshMask_keeps (s : State) : (State.refreshMask s).host.locks = s.host.locks ∧ (State.refreshMask s).pending = s.pending := by simp only [State.refreshMask]; (repeat' split) <;> simp

@[simp] theorem State.portsMoved_keeps (s : State) (was : Nat) : (State.portsMoved s was).host.locks = s.host.locks ∧ (State.portsMoved s was).pending = s.pending := by simp only [State.portsMoved]; (repeat' split) <;> simp

@[simp] theorem State.patchRecord_keeps (s : State) (r : Nat) : (State.patchRecord s r).host.locks = s.host.locks ∧ (State.patchRecord s r).pending = s.pending := by simp only [State.patchRecord]; (repeat' split) <;> simp

@[simp] theorem State.patchEffect_keeps (s : State) (records : List Nat) : (State.patchEffect s records).host.locks = s.host.locks ∧ (State.patchEffect s records).pending = s.pending := by simp only [State.patchEffect]; (repeat' split) <;> simp

@[simp] theorem State.patchPending_keeps (s : State) (seq : Nat) : (State.patchPending s seq).host.locks = s.host.locks ∧ (State.patchPending s seq).pending = s.pending := by simp only [State.patchPending]; (repeat' split) <;> simp

@[simp] theorem State.lostReturns_keeps (s : State) : (State.lostReturns s).host.locks = s.host.locks ∧ (State.lostReturns s).pending = s.pending := by simp [State.lostReturns]

@[simp] theorem State.retireSwitch_keeps (s : State) : (State.retireSwitch s).host.locks = s.host.locks ∧ (State.retireSwitch s).pending = s.pending := by simp only [State.retireSwitch]; (repeat' split) <;> simp

@[simp] theorem State.retireQuiet_keeps (s : State) : (State.retireQuiet s).host.locks = s.host.locks ∧ (State.retireQuiet s).pending = s.pending := by simp only [State.retireQuiet]; (repeat' split) <;> simp

@[simp] theorem State.setJob_keeps (s : State) (j : Job) :
    (State.setJob s j).host.locks = s.host.locks ∧ (State.setJob s j).pending = s.pending := by
  simp only [State.setJob]
  split; · simp
  rw [(State.retireQuiet_keeps _).1, (State.retireQuiet_keeps _).2]
  (repeat' split) <;> simp

@[simp] theorem State.assignThreads_keeps (s : State) (m : Store Nat) : (State.assignThreads s m).host.locks = s.host.locks ∧ (State.assignThreads s m).pending = s.pending := by simp [State.assignThreads]

@[simp] theorem State.pierWaits_keeps (s : State) (seq t : Nat) : (State.pierWaits s seq t).host.locks = s.host.locks ∧ (State.pierWaits s seq t).pending = s.pending := by simp only [State.pierWaits]; (repeat' split) <;> simp

@[simp] theorem State.startSpan_keeps (s : State) (n t : Nat) : (State.startSpan s n t).host.locks = s.host.locks ∧ (State.startSpan s n t).pending = s.pending := by simp only [State.startSpan]; (repeat' split) <;> simp

theorem State.endCore_aux (s : State) (c : Nat) (l : Store Thread) :
    (l.foldl (fun a p => if p.2.a.st = .ready ∨ p.2.a.st = .wait then
      a.coreFault c .sched 0 8 p.1 p.2.tag.1 p.2.tag.2 p.2.a.pc 0 else a) s).host.locks = s.host.locks ∧
    (l.foldl (fun a p => if p.2.a.st = .ready ∨ p.2.a.st = .wait then
      a.coreFault c .sched 0 8 p.1 p.2.tag.1 p.2.tag.2 p.2.a.pc 0 else a) s).pending = s.pending := by
  constructor
  · apply foldl_host_locks; intro a x; split <;> simp
  · apply foldl_pending; intro a x; split <;> simp

@[simp] theorem State.endCore_keeps (s : State) (c : Nat) :
    (s.endCore c).host.locks = s.host.locks ∧ (s.endCore c).pending = s.pending := by
  have e := fun (l : Store Thread) => foldl_alike (fun (a : State) (p : Nat × Thread) =>
    let a1 := if p.2.damaged pierWords then a.coreFault c .hw 0 2 p.1 p.2.tag.1 p.2.tag.2 p.2.a.pc 0 else a
    if p.2.a.st == .ready || p.2.a.st == .wait then a1.coreFault c .sched 0 8 p.1 p.2.tag.1 p.2.tag.2 p.2.a.pc 0 else a1)
    (fun a x => by unfold Alike; dsimp only; (repeat' split) <;> simp) l s
  unfold State.endCore; dsimp only
  generalize hz : List.foldl _ s (s.core c).threads = z
  have e1 : Alike s z := by rw [← hz]; exact e _
  unfold Alike at e1
  constructor <;> ((repeat' split) <;> simp [e1])

@[simp] theorem State.slotError_keeps (s : State) (cause pos l1 l2 : Nat) : (State.slotError s cause pos l1 l2).host.locks = s.host.locks ∧ (State.slotError s cause pos l1 l2).pending = s.pending := by simp only [State.slotError]; (repeat' split) <;> simp

@[simp] theorem State.leftover_keeps (s : State) : (State.leftover s).host.locks = s.host.locks ∧ (State.leftover s).pending = s.pending := by simp only [State.leftover]; (repeat' split) <;> simp

@[simp] theorem State.updFault_keeps (s : State) (e : Nat) (cls : FClass) (cause slot group block pc bank ctx : Nat) : (State.updFault s e cls cause slot group block pc bank ctx).host.locks = s.host.locks ∧ (State.updFault s e cls cause slot group block pc bank ctx).pending = s.pending := by simp [State.updFault]

@[simp] theorem State.endSweeps_keeps (s : State) : (State.endSweeps s).host.locks = s.host.locks ∧ (State.endSweeps s).pending = s.pending := by simp [State.endSweeps]

@[simp] theorem State.endGated_keeps (s : State) : (State.endGated s).host.locks = s.host.locks ∧ (State.endGated s).pending = s.pending := by simp [State.endGated]

@[simp] theorem State.endWork_keeps (s : State) : (State.endWork s).host.locks = s.host.locks ∧ (State.endWork s).pending = s.pending := by simp only [State.endWork]; (repeat' split) <;> simp

@[simp] theorem State.suspect_keeps (s : State) (bit : Nat) : (State.suspect s bit).host.locks = s.host.locks ∧ (State.suspect s bit).pending = s.pending := by simp only [State.suspect]; (repeat' split) <;> simp

@[simp] theorem State.checkWindow_keeps (s : State) : (State.checkWindow s).host.locks = s.host.locks ∧ (State.checkWindow s).pending = s.pending := by simp only [State.checkWindow]; (repeat' split) <;> simp

@[simp] theorem State.windowSeal_keeps (s : State) : (State.windowSeal s).host.locks = s.host.locks ∧ (State.windowSeal s).pending = s.pending := by simp [State.windowSeal]

@[simp] theorem State.digestsRead_keeps (s : State) :
    (State.digestsRead s).host.locks = s.host.locks ∧ (State.digestsRead s).pending = s.pending := 
  foldl_alike _ (fun a p => foldl_alike _ (fun b t => by unfold Alike; split <;> simp) _ _) _ _

@[simp] theorem State.stressFail_keeps (s : State) : (State.stressFail s).host.locks = s.host.locks ∧ (State.stressFail s).pending = s.pending := by simp only [State.stressFail]; (repeat' split) <;> simp

@[simp] theorem State.stressPier_keeps (s : State) : (State.stressPier s).host.locks = s.host.locks ∧ (State.stressPier s).pending = s.pending := by simp only [State.stressPier]; (repeat' split) <;> simp

@[simp] theorem State.stressEnd_keeps (s0 : State) : (State.stressEnd s0).host.locks = s0.host.locks ∧ (State.stressEnd s0).pending = s0.pending := by simp only [State.stressEnd]; (repeat' split) <;> simp

@[simp] theorem State.buddySeal_keeps (s : State) : (State.buddySeal s).host.locks = s.host.locks ∧ (State.buddySeal s).pending = s.pending := by simp [State.buddySeal]

@[simp] theorem State.closeSeal_keeps (s : State) (t : Nat) : (State.closeSeal s t).host.locks = s.host.locks ∧ (State.closeSeal s t).pending = s.pending := by simp [State.closeSeal]

@[simp] theorem State.takeCopies_keeps (s : State) (replica : Bool) : (State.takeCopies s replica).host.locks = s.host.locks ∧ (State.takeCopies s replica).pending = s.pending := by simp [State.takeCopies]

@[simp] theorem State.seal_keeps (s : State) : (State.seal s).host.locks = s.host.locks ∧ (State.seal s).pending = s.pending := by simp only [State.seal]; (repeat' split) <;> simp

@[simp] theorem State.trcPier_keeps (s : State) (how : Nat) : (State.trcPier s how).host.locks = s.host.locks ∧ (State.trcPier s how).pending = s.pending := by simp [State.trcPier]

@[simp] theorem State.stopAtPier_keeps (s : State) : (State.stopAtPier s).host.locks = s.host.locks ∧ (State.stopAtPier s).pending = s.pending := by simp [State.stopAtPier]

@[simp] theorem State.park_keeps (s : State) : (State.park s).host.locks = s.host.locks ∧ (State.park s).pending = s.pending := by simp [State.park]

@[simp] theorem State.agree_keeps (s : State) : (State.agree s).host.locks = s.host.locks ∧ (State.agree s).pending = s.pending := by simp only [State.agree]; (repeat' split) <;> simp

@[simp] theorem State.toPier_keeps (s : State) : (State.toPier s).host.locks = s.host.locks ∧ (State.toPier s).pending = s.pending := by simp [State.toPier]

@[simp] theorem State.pointTo_keeps (s : State) (p why : Nat) : (State.pointTo s p why).host.locks = s.host.locks ∧ (State.pointTo s p why).pending = s.pending := by simp only [State.pointTo]; (repeat' split) <;> simp

@[simp] theorem State.setPoint_keeps (s : State) (p : Nat) : (State.setPoint s p).host.locks = s.host.locks ∧ (State.setPoint s p).pending = s.pending := by simp [State.setPoint]

@[simp] theorem State.enterRewind_keeps (s : State) (target : Nat) (count : Bool) :
    (State.enterRewind s target count).host.locks = s.host.locks ∧ (State.enterRewind s target count).pending = s.pending := by
  simp only [State.enterRewind]; (repeat' split) <;> simp

@[simp] theorem State.parkRestored_keeps (s : State) : (State.parkRestored s).host.locks = s.host.locks ∧ (State.parkRestored s).pending = s.pending := by simp only [State.parkRestored]; (repeat' split) <;> simp

@[simp] theorem State.takeWithdraw_keeps (s0 : State) (arg : Nat) : (State.takeWithdraw s0 arg).host.locks = s0.host.locks ∧ (State.takeWithdraw s0 arg).pending = s0.pending := by simp only [State.takeWithdraw]; (repeat' split) <;> simp

@[simp] theorem State.raiseWithdraw_keeps (s : State) (reason subject : Nat) : (State.raiseWithdraw s reason subject).host.locks = s.host.locks ∧ (State.raiseWithdraw s reason subject).pending = s.pending := by simp only [State.raiseWithdraw]; (repeat' split) <;> simp

@[simp] theorem State.replayLimit_keeps (s : State) : (State.replayLimit s).host.locks = s.host.locks ∧ (State.replayLimit s).pending = s.pending := by simp only [State.replayLimit]; (repeat' split) <;> simp

@[simp] theorem State.takeRewind_keeps (s : State) (origin arg : Nat) : (State.takeRewind s origin arg).host.locks = s.host.locks ∧ (State.takeRewind s origin arg).pending = s.pending := by simp only [State.takeRewind]; (repeat' split) <;> simp

@[simp] theorem State.takeStop_keeps (s : State) (arg : Nat) : (State.takeStop s arg).host.locks = s.host.locks ∧ (State.takeStop s arg).pending = s.pending := by simp only [State.takeStop]; (repeat' split) <;> simp

@[simp] theorem State.takeAlarm_keeps (s : State) (w : Nat) : (State.takeAlarm s w).host.locks = s.host.locks ∧ (State.takeAlarm s w).pending = s.pending := by simp only [State.takeAlarm]; (repeat' split) <;> simp

@[simp] theorem State.raiseStop_keeps (s : State) : (State.raiseStop s).host.locks = s.host.locks ∧ (State.raiseStop s).pending = s.pending := by simp [State.raiseStop]

@[simp] theorem State.raiseRewind_keeps (s : State) (n floor : Nat) : (State.raiseRewind s n floor).host.locks = s.host.locks ∧ (State.raiseRewind s n floor).pending = s.pending := by simp only [State.raiseRewind]; (repeat' split) <;> simp

@[simp] theorem State.sealCompare_keeps (s : State) : (State.sealCompare s).host.locks = s.host.locks ∧ (State.sealCompare s).pending = s.pending := by simp only [State.sealCompare]; (repeat' split) <;> (first | simp; done | (have a := State.takeSlip_alike ‹State.takeSlip _ _ = _›; simp [a]))

@[simp] theorem State.restoreRec_keeps (s : State) (r : DevRec) : (State.restoreRec s r).host.locks = s.host.locks ∧ (State.restoreRec s r).pending = s.pending := by simp only [State.restoreRec]; (repeat' split) <;> simp

@[simp] theorem State.undoDone_keeps (s : State) : (State.undoDone s).host.locks = s.host.locks ∧ (State.undoDone s).pending = s.pending := by simp [State.undoDone]

@[simp] theorem State.restoreAll_keeps (s : State) : (State.restoreAll s).host.locks = s.host.locks ∧ (State.restoreAll s).pending = s.pending := by simp [State.restoreAll]

@[simp] theorem State.restoreSome_keeps (s : State) :
    s.restoreSome.host.locks = s.host.locks ∧ s.restoreSome.pending = s.pending := by
  have h1 := fun (l : List (Nat × Nat × List Byte)) (z : State) => foldl_alike (fun (a : State) x =>
    let f := a.free
    if f.1.toNat % 2 = 1 then f.2.modCore x.1 (fun k => k.poke (x.2.1 * 64) x.2.2) else f.2)
    (fun a x => by unfold Alike; dsimp only; split <;> simp) l z
  have h2 := fun (l : List DevRec) (z : State) => foldl_alike (fun (a : State) r =>
    let f := a.free
    if f.1.toNat % 2 = 1 then f.2.restoreRec r else f.2) (fun a x => by unfold Alike; dsimp only; split <;> simp) l z
  exact ⟨((State.undoDone_keeps _).1.trans (h2 _ _).1).trans (h1 _ _).1, ((State.undoDone_keeps _).2.trans (h2 _ _).2).trans (h1 _ _).2⟩

@[simp] theorem State.afterSeal_keeps (s : State) : (State.afterSeal s).host.locks = s.host.locks ∧ (State.afterSeal s).pending = s.pending := by simp only [State.afterSeal]; (repeat' split) <;> simp

@[simp] theorem State.placeImage_keeps (s : State) (b : List Byte) : (State.placeImage s b).host.locks = s.host.locks ∧ (State.placeImage s b).pending = s.pending := by simp [State.placeImage]

@[simp] theorem State.schRefuse_keeps (s : State) (code : Nat) : (State.schRefuse s code).host.locks = s.host.locks ∧ (State.schRefuse s code).pending = s.pending := by simp [State.schRefuse]

@[simp] theorem State.stressStart_keeps (s : State) : (State.stressStart s).host.locks = s.host.locks ∧ (State.stressStart s).pending = s.pending := by simp [State.stressStart]

@[simp] theorem State.enableChecks_keeps (s : State) : (State.enableChecks s).host.locks = s.host.locks ∧ (State.enableChecks s).pending = s.pending := by simp [State.enableChecks]

@[simp] theorem State.loadThreads_keeps (s : State) : (State.loadThreads s).host.locks = s.host.locks ∧ (State.loadThreads s).pending = s.pending := by simp [State.loadThreads]

@[simp] theorem State.loadKeys_keeps (s : State) : (State.loadKeys s).host.locks = s.host.locks ∧ (State.loadKeys s).pending = s.pending := by simp [State.loadKeys]

@[simp] theorem State.loadTrain_keeps (s : State) : (State.loadTrain s).host.locks = s.host.locks ∧ (State.loadTrain s).pending = s.pending := by simp [State.loadTrain]

@[simp] theorem State.install_keeps (s : State) : (State.install s).host.locks = s.host.locks ∧ (State.install s).pending = s.pending := by simp [State.install]

@[simp] theorem State.loadFail_keeps (s : State) (e : LoadErr) : (State.loadFail s e).host.locks = s.host.locks ∧ (State.loadFail s e).pending = s.pending := by simp [State.loadFail]

@[simp] theorem State.loadEnd_keeps (s : State) (addr len : Nat) :
    (s.loadEnd addr len).host.locks = s.host.locks ∧ (s.loadEnd addr len).pending = s.pending := by
  unfold State.loadEnd
  have h := State.rawGranules_keeps (len / 32 + 1) s addr (addr + len)
  extract_lets r raw b
  have h1 : r.1.host.locks = s.host.locks ∧ r.1.pending = s.pending := h
  split <;> simp [h1]

@[simp] theorem State.sealStart_keeps (s : State) : (State.sealStart s).host.locks = s.host.locks ∧ (State.sealStart s).pending = s.pending := by simp [State.sealStart]

@[simp] theorem State.failStart_keeps (s : State) (dev reason : Nat) : (State.failStart s dev reason).host.locks = s.host.locks ∧ (State.failStart s dev reason).pending = s.pending := by simp [State.failStart]

@[simp] theorem State.seqAgrees_keeps (s : State) (p : Nat) : (State.seqAgrees s p).host.locks = s.host.locks ∧ (State.seqAgrees s p).pending = s.pending := by simp only [State.seqAgrees]; (repeat' split) <;> (first | simp; done | (have a := State.takeSlip_alike ‹State.takeSlip _ _ = _›; simp [a]))

@[simp] theorem State.vfFail_keeps (s : State) (p : Nat) : (State.vfFail s p).host.locks = s.host.locks ∧ (State.vfFail s p).pending = s.pending := by simp [State.vfFail]

@[simp] theorem State.schAgrees_keeps (s : State) (who idx : Nat) : (State.schAgrees s who idx).host.locks = s.host.locks ∧ (State.schAgrees s who idx).pending = s.pending := by simp only [State.schAgrees]; (repeat' split) <;> simp

@[simp] theorem State.gateAt_keeps (s : State) (c idx : Nat) : (State.gateAt s c idx).host.locks = s.host.locks ∧ (State.gateAt s c idx).pending = s.pending := by simp only [State.gateAt]; (repeat' split) <;> simp

@[simp] theorem State.wakeFires_keeps (s : State) (c w : Nat) : (State.wakeFires s c w).host.locks = s.host.locks ∧ (State.wakeFires s c w).pending = s.pending := by simp [State.wakeFires]

end Sys2Proof.Machine
end

