-- ==== Sys2Proof/Laws/KeepsFabric.lean ====
section
/-! SUPPORT. The fabric, the engines and their commands keep the queue and the owners of pages. -/

namespace Sys2Proof.Machine

open Sys2Proof

@[simp] theorem State.alarmArrives_keeps (s : State) (p v : Nat) : (State.alarmArrives s p v).host.locks = s.host.locks ∧ (State.alarmArrives s p v).pending = s.pending := by simp only [State.alarmArrives]; (repeat' split) <;> simp

@[simp] theorem execAlarmReceive_keeps (p : Fin 20) (w : AlarmCopies) (s : State) : Keeps s (execAlarmReceive p w s) := by simp only [execAlarmReceive]; (repeat' split) <;> simp

@[simp] theorem State.deferRaise_keeps (s : State) (r : Raise) : (State.deferRaise s r).host.locks = s.host.locks ∧ (State.deferRaise s r).pending = s.pending := by simp [State.deferRaise]

@[simp] theorem State.raiseAgain_keeps (s : State) (target : Nat) : (State.raiseAgain s target).host.locks = s.host.locks ∧ (State.raiseAgain s target).pending = s.pending := by simp only [State.raiseAgain]; (repeat' split) <;> simp

@[simp] theorem execRewindRaise_keeps (s : State) : Keeps s (execRewindRaise s) := by simp only [execRewindRaise]; (repeat' split) <;> simp

@[simp] theorem execRestoreDone_keeps (ok : Bool) (s : State) : Keeps s (execRestoreDone ok s) := by simp only [execRestoreDone]; (repeat' split) <;> simp

@[simp] theorem State.dropAbandoned_keeps (s : State) : (State.dropAbandoned s).host.locks = s.host.locks ∧ (State.dropAbandoned s).pending = s.pending := by simp [State.dropAbandoned]

@[simp] theorem State.replayJob_keeps (s : State) (r : Nat) : (State.replayJob s r).host.locks = s.host.locks ∧ (State.replayJob s r).pending = s.pending := by simp only [State.replayJob]; (repeat' split) <;> simp

@[simp] theorem State.switchMissing_keeps (s : State) (p r : Nat) : (State.switchMissing s p r).host.locks = s.host.locks ∧ (State.switchMissing s p r).pending = s.pending := by simp only [State.switchMissing]; (repeat' split) <;> simp

@[simp] theorem execRewindTick_keeps (s : State) : Keeps s (execRewindTick s) := by simp only [execRewindTick]; (repeat' split) <;> simp

@[simp] theorem execPatchApply_keeps (m : Master) (s : State) : Keeps s (execPatchApply m s) := by simp [execPatchApply]

@[simp] theorem execPatchChecked_keeps (s : State) : Keeps s (execPatchChecked s) := by simp only [execPatchChecked]; (repeat' split) <;> simp

@[simp] theorem execPatchAbort_keeps (m : Master) (s : State) : Keeps s (execPatchAbort m s) := by simp [execPatchAbort]

@[simp] theorem State.touchBlocks_keeps (s : State) (c : Nat) (f : Fmt) (rs : List (Nat × Nat)) : (State.touchBlocks s c f rs).1.host.locks = s.host.locks ∧ (State.touchBlocks s c f rs).1.pending = s.pending := by simp [State.touchBlocks]

@[simp] theorem State.bottomErrs_keeps (s : State) (c n p : Nat) : (State.bottomErrs s c n p).1.host.locks = s.host.locks ∧ (State.bottomErrs s c n p).1.pending = s.pending := by simp only [State.bottomErrs]; (repeat' split) <;> (first | simp; done | (have a := State.takeSlip_alike ‹State.takeSlip _ _ = _›; simp [a]))

@[simp] theorem State.addArrRun_keeps (s : State) (c : Nat) (r : ArrRun) : (State.addArrRun s c r).host.locks = s.host.locks ∧ (State.addArrRun s c r).pending = s.pending := by simp only [State.addArrRun]; (repeat' split) <;> simp

@[simp] theorem State.startLoad_keeps (s : State) (c : Nat) (q : ArrCmd) : (State.startLoad s c q).host.locks = s.host.locks ∧ (State.startLoad s c q).pending = s.pending := by simp only [State.startLoad]; (repeat' split) <;> simp

@[simp] theorem State.startStream_keeps (s : State) (c : Nat) (q : ArrCmd) (tile : Tile) : (State.startStream s c q tile).host.locks = s.host.locks ∧ (State.startStream s c q tile).pending = s.pending := by simp only [State.startStream]; (repeat' split) <;> simp

@[simp] theorem execLoad_keeps (c : Fin 256) (s : State) : Keeps s (execLoad c s) := by simp only [execLoad]; (repeat' split) <;> simp

@[simp] theorem execStream_keeps (c : Fin 256) (s : State) : Keeps s (execStream c s) := by simp only [execStream]; (repeat' split) <;> simp

@[simp] theorem State.takeOwner_keeps (s : State) (c : Nat) (q : ArrCmd) (rest : List ArrCmd) (up : Bool) : (State.takeOwner s c q rest up).host.locks = s.host.locks ∧ (State.takeOwner s c q rest up).pending = s.pending := by simp only [State.takeOwner]; (repeat' split) <;> simp

@[simp] theorem execClaim_keeps (c : Fin 256) (s : State) : Keeps s (execClaim c s) := by simp only [execClaim]; (repeat' split) <;> simp

@[simp] theorem execRelease_keeps (c : Fin 256) (s : State) : Keeps s (execRelease c s) := by simp only [execRelease]; (repeat' split) <;> simp

@[simp] theorem State.arrWritePoint_keeps (s : State) (c i : Nat) : (State.arrWritePoint s c i).host.locks = s.host.locks ∧ (State.arrWritePoint s c i).pending = s.pending := by simp only [State.arrWritePoint]; (repeat' split) <;> simp

@[simp] theorem State.arrComplete_keeps (s : State) (c i : Nat) : (State.arrComplete s c i).host.locks = s.host.locks ∧ (State.arrComplete s c i).pending = s.pending := by simp only [State.arrComplete]; (repeat' split) <;> simp

@[simp] theorem State.arrDone_keeps (s : State) (c op : Nat) : (State.arrDone s c op).host.locks = s.host.locks ∧ (State.arrDone s c op).pending = s.pending := by simp only [State.arrDone]; (repeat' split) <;> simp

@[simp] theorem execLoadDone_keeps (c : Fin 256) (s : State) : Keeps s (execLoadDone c s) := by simp [execLoadDone]

@[simp] theorem execStreamDone_keeps (c : Fin 256) (s : State) : Keeps s (execStreamDone c s) := by simp [execStreamDone]

@[simp] theorem State.sendFlit_keeps (s : State) (p t pos : Nat) (f : Flit) : (State.sendFlit s p t pos f).host.locks = s.host.locks ∧ (State.sendFlit s p t pos f).pending = s.pending := by simp [State.sendFlit]

@[simp] theorem State.missing_keeps (s : State) (p t : Nat) : (State.missing s p t).host.locks = s.host.locks ∧ (State.missing s p t).pending = s.pending := by simp [State.missing]

@[simp] theorem State.voteCopy_keeps (s : State) (b : VoteBlock) : (State.voteCopy s b).1.host.locks = s.host.locks ∧ (State.voteCopy s b).1.pending = s.pending := by simp only [State.voteCopy]; (repeat' split) <;> simp

@[simp] theorem State.voteCopies_keeps (s : State) (bs : List VoteBlock) : (State.voteCopies s bs).1.host.locks = s.host.locks ∧ (State.voteCopies s bs).1.pending = s.pending := by simp [State.voteCopies]

@[simp] theorem State.voteStore_keeps (s : State) (b : VoteBlock) (data side : List Byte) : (State.voteStore s b data side).host.locks = s.host.locks ∧ (State.voteStore s b data side).pending = s.pending := by simp only [State.voteStore]; (repeat' split) <;> simp

@[simp] theorem State.putVote_keeps (s : State) (v : Vote) : (State.putVote s v).host.locks = s.host.locks ∧ (State.putVote s v).pending = s.pending := by simp [State.putVote]

@[simp] theorem State.voteEnd_keeps (s : State) (v : Vote) (fixed state : Nat) : (State.voteEnd s v fixed state).host.locks = s.host.locks ∧ (State.voteEnd s v fixed state).pending = s.pending := by simp [State.voteEnd]

@[simp] theorem State.replicaMismatch_keeps (s : State) (l : List Nat) (peer : Nat) (isY : Bool) : (State.replicaMismatch s l peer isY).host.locks = s.host.locks ∧ (State.replicaMismatch s l peer isY).pending = s.pending := by simp only [State.replicaMismatch]; (repeat' split) <;> simp

@[simp] theorem State.takeSealFlit_keeps (s : State) (p : Nat) (body : List Byte) : (State.takeSealFlit s p body).host.locks = s.host.locks ∧ (State.takeSealFlit s p body).pending = s.pending := by simp only [State.takeSealFlit]; (repeat' split) <;> simp

@[simp] theorem State.takeCloseFlit_keeps (s : State) (p : Nat) (body : List Byte) : (State.takeCloseFlit s p body).host.locks = s.host.locks ∧ (State.takeCloseFlit s p body).pending = s.pending := by simp [State.takeCloseFlit]

@[simp] theorem State.setMbx_keeps (s : State) (n : Nat) (m : Mailbox) : (State.setMbx s n m).host.locks = s.host.locks ∧ (State.setMbx s n m).pending = s.pending := by simp only [State.setMbx]; (repeat' split) <;> simp

@[simp] theorem State.mbxRefuse_keeps (s : State) (n code pos who : Nat) : (State.mbxRefuse s n code pos who).host.locks = s.host.locks ∧ (State.mbxRefuse s n code pos who).pending = s.pending := by simp [State.mbxRefuse]

@[simp] theorem State.mbxRing_keeps (s : State) (n seq : Nat) (req : List Nat) (kslot pos who : Nat) : (State.mbxRing s n seq req kslot pos who).host.locks = s.host.locks ∧ (State.mbxRing s n seq req kslot pos who).pending = s.pending := by simp only [State.mbxRing]; (repeat' split) <;> simp

@[simp] theorem State.mbxAck_keeps (s : State) (n seq pos who : Nat) : (State.mbxAck s n seq pos who).host.locks = s.host.locks ∧ (State.mbxAck s n seq pos who).pending = s.pending := by simp only [State.mbxAck]; (repeat' split) <;> simp

@[simp] theorem State.mbxReply_keeps (s : State) (n status : Nat) (words : List Nat) : (State.mbxReply s n status words).host.locks = s.host.locks ∧ (State.mbxReply s n status words).pending = s.pending := by simp [State.mbxReply]

@[simp] theorem State.mbxDone_keeps (s : State) : (State.mbxDone s).host.locks = s.host.locks ∧ (State.mbxDone s).pending = s.pending := by simp only [State.mbxDone]; (repeat' split) <;> simp

@[simp] theorem State.tlItem_keeps (s : State) (w i : Nat) : (State.tlItem s w i).1.host.locks = s.host.locks ∧ (State.tlItem s w i).1.pending = s.pending := by simp only [State.tlItem]; (repeat' split) <;> simp

@[simp] theorem State.tlItems_keeps (n : Nat) (s : State) (w i : Nat) :
    (State.tlItems n s w i).1.host.locks = s.host.locks ∧ (State.tlItems n s w i).1.pending = s.pending := by
  induction n generalizing s i with
  | zero => exact ⟨rfl, rfl⟩
  | succ n ih => simp only [State.tlItems]; (repeat' split) <;> simp [ih]

@[simp] theorem State.tlStream_keeps (l : List Nat) (s : State) (k : Nat) :
    (State.tlStream l s k).1.host.locks = s.host.locks ∧ (State.tlStream l s k).1.pending = s.pending := by
  induction l generalizing s k with
  | nil => exact ⟨rfl, rfl⟩
  | cons w l ih => simp only [State.tlStream]; (repeat' split) <;> simp [ih]

@[simp] theorem State.queueXfer_keeps (s : State) (p : Nat) (f : Flit) : (State.queueXfer s p f).host.locks = s.host.locks ∧ (State.queueXfer s p f).pending = s.pending := by simp [State.queueXfer]

@[simp] theorem State.txFill_keeps (n : Nat) (s : State) :
    (State.txFill n s).host.locks = s.host.locks ∧ (State.txFill n s).pending = s.pending := by
  induction n generalizing s with
  | zero => exact ⟨rfl, rfl⟩
  | succ n ih => simp only [State.txFill]; (repeat' split) <;> simp [ih]

@[simp] theorem State.txSend_keeps (s : State) : s.txSend.host.locks = s.host.locks ∧ s.txSend.pending = s.pending := by
  simp only [State.txSend]; split <;> simp

@[simp] theorem State.txEnd_keeps (s : State) (status : Nat) (at_ : List Nat) : (State.txEnd s status at_).host.locks = s.host.locks ∧ (State.txEnd s status at_).pending = s.pending := by simp only [State.txEnd]; (repeat' split) <;> simp

@[simp] theorem State.txSent_keeps (s : State) : (State.txSent s).host.locks = s.host.locks ∧ (State.txSent s).pending = s.pending := by simp only [State.txSent]; (repeat' split) <;> simp

@[simp] theorem State.txStopped_keeps (s : State) (bytes : List Byte) : (State.txStopped s bytes).host.locks = s.host.locks ∧ (State.txStopped s bytes).pending = s.pending := by simp only [State.txStopped]; (repeat' split) <;> simp

@[simp] theorem State.txAcked_keeps (s : State) (n : Nat) : (State.txAcked s n).host.locks = s.host.locks ∧ (State.txAcked s n).pending = s.pending := by simp only [State.txAcked]; (repeat' split) <;> simp

@[simp] theorem State.rxNotice_keeps (s : State) (status : Nat) (at_ : List Nat) : (State.rxNotice s status at_).host.locks = s.host.locks ∧ (State.rxNotice s status at_).pending = s.pending := by simp only [State.rxNotice]; (repeat' split) <;> simp

@[simp] theorem State.rxDone_keeps (s0 : State) (status : Nat) (at_ : List Nat) : (State.rxDone s0 status at_).host.locks = s0.host.locks ∧ (State.rxDone s0 status at_).pending = s0.pending := by simp only [State.rxDone]; (repeat' split) <;> simp

@[simp] theorem State.rxStore_keeps (s : State) (w i : Nat) (b : List Byte) : (State.rxStore s w i b).1.host.locks = s.host.locks ∧ (State.rxStore s w i b).1.pending = s.pending := by simp only [State.rxStore]; (repeat' split) <;> simp

@[simp] theorem State.rxDrain_keeps (n : Nat) (s : State) :
    (State.rxDrain n s).host.locks = s.host.locks ∧ (State.rxDrain n s).pending = s.pending := by
  induction n generalizing s with
  | zero => exact ⟨rfl, rfl⟩
  | succ n ih => simp only [State.rxDrain]; (repeat' split) <;> simp [ih]

@[simp] theorem State.takeStateFlit_keeps (s : State) (p src offset : Nat) (last : Bool) (bytes : List Byte) :
    (s.takeStateFlit p src offset last bytes).host.locks = s.host.locks ∧
    (s.takeStateFlit p src offset last bytes).pending = s.pending := by
  simp only [State.takeStateFlit]; constructor <;> ((repeat' split) <;> simp)

@[simp] theorem State.recCtx_keeps (s : State) (b : List Byte) : (State.recCtx s b).host.locks = s.host.locks ∧ (State.recCtx s b).pending = s.pending := by simp only [State.recCtx]; (repeat' split) <;> simp

@[simp] theorem State.install__keeps (s : State) (r : List Byte) (hist : Nat → List (Nat × Int)) (seq step skipk : Nat) : (State.install_ s r hist seq step skipk).host.locks = s.host.locks ∧ (State.install_ s r hist seq step skipk).pending = s.pending := by simp [State.install_]

@[simp] theorem State.adoptEnd_keeps (s : State) (n status : Nat) : (State.adoptEnd s n status).host.locks = s.host.locks ∧ (State.adoptEnd s n status).pending = s.pending := by simp [State.adoptEnd]

@[simp] theorem State.adoptRec_keeps (s : State) (n : Nat) (r : List Byte) (hist : Nat → List (Nat × Int)) (seqOver stepOver : Option Nat) (skipk : Nat) : (State.adoptRec s n r hist seqOver stepOver skipk).host.locks = s.host.locks ∧ (State.adoptRec s n r hist seqOver stepOver skipk).pending = s.pending := by simp only [State.adoptRec]; (repeat' split) <;> simp

@[simp] theorem State.carveRestore_keeps (s : State) : (State.carveRestore s).host.locks = s.host.locks ∧ (State.carveRestore s).pending = s.pending := by simp only [State.carveRestore]; (repeat' split) <;> simp

@[simp] theorem State.restoreSomeLines_keeps (s : State) : (State.restoreSomeLines s).host.locks = s.host.locks ∧ (State.restoreSomeLines s).pending = s.pending := by simp [State.restoreSomeLines]

@[simp] theorem State.setEng_keeps (s : State) (e : Nat) (x : UpdEngine) : (State.setEng s e x).host.locks = s.host.locks ∧ (State.setEng s e x).pending = s.pending := by simp [State.setEng]

@[simp] theorem State.modEng_keeps (s : State) (e : Nat) (f : UpdEngine → UpdEngine) : (State.modEng s e f).host.locks = s.host.locks ∧ (State.modEng s e f).pending = s.pending := by simp [State.modEng]

@[simp] theorem State.putVersion_keeps (s : State) (e : Nat) (g : List Byte) (v i step : Nat) : (State.putVersion s e g v i step).host.locks = s.host.locks ∧ (State.putVersion s e g v i step).pending = s.pending := by simp only [State.putVersion]; (repeat' split) <;> simp

@[simp] theorem State.storeTurn_keeps (s : State) (t : Bool × Nat × Nat × Nat) : (State.storeTurn s t).host.locks = s.host.locks ∧ (State.storeTurn s t).pending = s.pending := by simp only [State.storeTurn]; (repeat' split) <;> simp

@[simp] theorem State.updLog_keeps (s : State) (e : Nat) (r : DevRec) : (State.updLog s e r).host.locks = s.host.locks ∧ (State.updLog s e r).pending = s.pending := by simp [State.updLog]

@[simp] theorem State.updLineFault_keeps (s : State) (e : Nat) (g : List Byte) (v i : Nat) : (State.updLineFault s e g v i).host.locks = s.host.locks ∧ (State.updLineFault s e g v i).pending = s.pending := by simp only [State.updLineFault]; (repeat' split) <;> simp

@[simp] theorem State.setVersion_keeps (s : State) (e : Nat) (g : List Byte) (v i step : Nat) : (State.setVersion s e g v i step).host.locks = s.host.locks ∧ (State.setVersion s e g v i step).pending = s.pending := by simp only [State.setVersion]; (repeat' split) <;> simp

@[simp] theorem State.versionRead_keeps (s : State) (e : Nat) (g : List Byte) (v i : Nat) : (State.versionRead s e g v i).1.host.locks = s.host.locks ∧ (State.versionRead s e g v i).1.pending = s.pending := by simp only [State.versionRead]; (repeat' split) <;> simp

@[simp] theorem State.updRead_keeps (s : State) (e : Nat) (g : List Byte) (k v i step : Nat) : (State.updRead s e g k v i step).1.host.locks = s.host.locks ∧ (State.updRead s e g k v i step).1.pending = s.pending := by simp only [State.updRead]; (repeat' split) <;> simp

@[simp] theorem State.updReadAll_keeps (s : State) (e : Nat) (g : List Byte) (v i step : Nat) :
    (s.updReadAll e g v i step).1.host.locks = s.host.locks ∧ (s.updReadAll e g v i step).1.pending = s.pending := by
  simp only [State.updReadAll]; exact foldl_fst_keeps _ (fun p x => by simp) _ _

@[simp] theorem State.sweepEnd_keeps (s : State) (e : Nat) : (State.sweepEnd s e).host.locks = s.host.locks ∧ (State.sweepEnd s e).pending = s.pending := by simp only [State.sweepEnd]; (repeat' split) <;> simp

@[simp] theorem State.blockFault_keeps (s : State) (e : Nat) (cls : FClass) (cause slot : Nat) : (State.blockFault s e cls cause slot).host.locks = s.host.locks ∧ (State.blockFault s e cls cause slot).pending = s.pending := by simp only [State.blockFault]; (repeat' split) <;> simp

@[simp] theorem State.countWithheld_keeps (s : State) (e bank n : Nat) : (State.countWithheld s e bank n).host.locks = s.host.locks ∧ (State.countWithheld s e bank n).pending = s.pending := by simp [State.countWithheld]

@[simp] theorem State.bankFault_keeps (s : State) (e cause slot : Nat) : (State.bankFault s e cause slot).host.locks = s.host.locks ∧ (State.bankFault s e cause slot).pending = s.pending := by simp only [State.bankFault]; (repeat' split) <;> simp

@[simp] theorem State.readFault_keeps (s : State) (e bad slot : Nat) (k : State → State) (h : ∀ z, (k z).host.locks = z.host.locks ∧ (k z).pending = z.pending) : (State.readFault s e bad slot k).host.locks = s.host.locks ∧ (State.readFault s e bad slot k).pending = s.pending := by simp only [State.readFault]; (repeat' split) <;> simp_all

@[simp] theorem State.updCompare_keeps (s : State) (e : Nat) : (State.updCompare s e).host.locks = s.host.locks ∧ (State.updCompare s e).pending = s.pending := by simp only [State.updCompare]; (repeat' split) <;> (first | simp; done | (have a := State.takeSlip_alike ‹State.takeSlip _ _ = _›; simp [a]))

@[simp] theorem State.updTurn_keeps (s : State) (e : Nat) : (State.updTurn s e).host.locks = s.host.locks ∧ (State.updTurn s e).pending = s.pending := by simp only [State.updTurn]; (repeat' split) <;> simp

@[simp] theorem State.updConst_keeps (s : State) (e bank k : Nat) : (State.updConst s e bank k).1.host.locks = s.host.locks ∧ (State.updConst s e bank k).1.pending = s.pending := by simp only [State.updConst]; (repeat' split) <;> simp

@[simp] theorem State.updDo_keeps (s : State) (e op : Nat) (f : State → UpdBlock → Nat → State)
    (h : ∀ z b w, (f z b w).host.locks = z.host.locks ∧ (f z b w).pending = z.pending) :
    (s.updDo e op f).host.locks = s.host.locks ∧ (s.updDo e op f).pending = s.pending := by
  simp only [State.updDo]; (repeat' split) <;> simp [h]

@[simp] theorem State.updExec_keeps (s : State) (e op : Nat) (f : UpdEngine → UpdBlock → Nat → Wide × List Bool) : (State.updExec s e op f).host.locks = s.host.locks ∧ (State.updExec s e op f).pending = s.pending := by simp only [State.updExec]; (repeat' split) <;> simp

@[simp] theorem State.updCalc_keeps (s : State) (e op : Nat) (f : Wide → Wide → UpdBlock → Nat → Wide) : (State.updCalc s e op f).host.locks = s.host.locks ∧ (State.updCalc s e op f).pending = s.pending := by simp [State.updCalc]

@[simp] theorem State.updCalcK_keeps (s : State) (e op : Nat) (f : Wide → Int × Int → Wide) : (State.updCalcK s e op f).host.locks = s.host.locks ∧ (State.updCalcK s e op f).pending = s.pending := by simp [State.updCalcK]

@[simp] theorem State.freeLanes_keeps (s : State) :
    s.freeLanes.1.host.locks = s.host.locks ∧ s.freeLanes.1.pending = s.pending := by
  simp only [State.freeLanes]; exact foldl_fst_keeps _ (fun p x => by simp) _ _

@[simp] theorem State.seepBlocks_keeps (s : State) (e : Nat) (b : UpdBlock) :
    (s.seepBlocks e b).host.locks = s.host.locks ∧ (s.seepBlocks e b).pending = s.pending := by
  simp only [State.seepBlocks]
  constructor
  · apply foldl_host_locks; intro a x; (repeat' split) <;> simp
  · apply foldl_pending; intro a x; (repeat' split) <;> simp

@[simp] theorem State.putJournal_keeps (s : State) (e : Nat) (b : UpdBlock) : (State.putJournal s e b).host.locks = s.host.locks ∧ (State.putJournal s e b).pending = s.pending := by simp only [State.putJournal]; (repeat' split) <;> simp

@[simp] theorem State.updStore_keeps (s : State) (e : Nat) (cap : Bool) (a slot : Nat) (data side : List Byte) : (State.updStore s e cap a slot data side).host.locks = s.host.locks ∧ (State.updStore s e cap a slot data side).pending = s.pending := by simp only [State.updStore]; (repeat' split) <;> simp

@[simp] theorem State.putOutput_keeps (s : State) (e : Nat) (b : UpdBlock) (o : Nat × List Byte × List Byte) : (State.putOutput s e b o).host.locks = s.host.locks ∧ (State.putOutput s e b o).pending = s.pending := by simp only [State.putOutput]; (repeat' split) <;> simp

@[simp] theorem State.commitUpd_keeps (s : State) (e : Nat) (b : UpdBlock) : (State.commitUpd s e b).host.locks = s.host.locks ∧ (State.commitUpd s e b).pending = s.pending := by simp [State.commitUpd]

@[simp] theorem State.replayOut_keeps (e : Nat) (g : List Byte) (v b step : Nat) (s : State) (o : Nat × List Byte × List Byte) :
    (State.replayOut e g v b step s o).host.locks = s.host.locks ∧ (State.replayOut e g v b step s o).pending = s.pending := by
  simp only [State.replayOut]; split <;> simp

@[simp] theorem State.replayRecord_keeps (s0 : State) (e i : Nat) :
    (State.replayRecord s0 e i).host.locks = s0.host.locks ∧ (State.replayRecord s0 e i).pending = s0.pending := by
  have h := fun (g : List Byte) (v b step : Nat) l z => foldl_alike (State.replayOut e g v b step) (fun a o => State.replayOut_keeps e g v b step a o) l z
  unfold Alike at h
  simp only [State.replayRecord]
  (repeat' split) <;> simp [h]

theorem State.replayRecord_alike (s : State) (e i : Nat) : Alike s (s.replayRecord e i) := State.replayRecord_keeps s e i

theorem replayRecords_alike (e : Nat) (f : Nat → Nat) (l : List Nat) (s : State) :
    Alike s (l.foldl (fun a i => a.replayRecord e (f i)) s) :=
  foldl_alike (fun a i => a.replayRecord e (f i)) (fun a i => by unfold Alike; exact State.replayRecord_keeps a e (f i)) l s

@[simp] theorem State.replayJournal_keeps (s : State) (e : Nat) :
    (s.replayJournal e).host.locks = s.host.locks ∧ (s.replayJournal e).pending = s.pending := by
  have h := replayRecords_alike e
  unfold Alike at h
  unfold State.replayJournal
  generalize jrnlRecords = q
  extract_lets p n before s1 s2
  have h2 : s2.host.locks = s.host.locks ∧ s2.pending = s.pending := by
    have h1 : s1.host.locks = s.host.locks ∧ s1.pending = s.pending := h (fun i => (p.applied + i) % q) _ _
    have k := s1.modEng_keeps e (fun x => { x with jreplay := false, pos := { x.pos with applied := x.pos.head } })
    exact ⟨k.1.trans h1.1, k.2.trans h1.2⟩
  split
  · exact h2
  · simp [h2]

@[simp] theorem State.sendLane_keeps (s : State) (r : List Byte) (lane p : Nat) :
    (s.sendLane r lane p).host.locks = s.host.locks ∧ (s.sendLane r lane p).pending = s.pending := by
  simp only [State.sendLane]
  constructor
  · apply foldl_host_locks; intro a x; split <;> simp
  · apply foldl_pending; intro a x; split <;> simp

@[simp] theorem execBuddySend_keeps (s : State) : Keeps s (execBuddySend s) := by simp only [execBuddySend]; (repeat' split) <;> simp

@[simp] theorem State.takeBuddyFlit_keeps (s : State) (p offset : Nat) (bytes : List Byte) : (State.takeBuddyFlit s p offset bytes).host.locks = s.host.locks ∧ (State.takeBuddyFlit s p offset bytes).pending = s.pending := by simp [State.takeBuddyFlit]

@[simp] theorem State.sendList_keeps (s : State) (n : Nat) (es : List Nat) : (State.sendList s n es).host.locks = s.host.locks ∧ (State.sendList s n es).pending = s.pending := by simp only [State.sendList]; (repeat' split) <;> simp

@[simp] theorem State.sendChecked_keeps (s : State) (n : Nat) (list : Option (List Nat)) (portsOk : Bool) : (State.sendChecked s n list portsOk).host.locks = s.host.locks ∧ (State.sendChecked s n list portsOk).pending = s.pending := by simp only [State.sendChecked]; (repeat' split) <;> simp

@[simp] theorem State.takeStateSend_keeps (s : State) (n : Nat) : (State.takeStateSend s n).host.locks = s.host.locks ∧ (State.takeStateSend s n).pending = s.pending := by simp only [State.takeStateSend]; (repeat' split) <;> simp

@[simp] theorem execStateSend_keeps (s : State) : Keeps s (execStateSend s) := by simp only [execStateSend]; (repeat' split) <;> simp

@[simp] theorem execStateRecv_keeps (s : State) : Keeps s (execStateRecv s) := by simp only [execStateRecv]; (repeat' split) <;> simp

@[simp] theorem execStateAck_keeps (n : Nat) (s : State) : Keeps s (execStateAck n s) := by simp [execStateAck]

@[simp] theorem execStateResend_keeps (s : State) : Keeps s (execStateResend s) := by simp only [execStateResend]; (repeat' split) <;> simp

@[simp] theorem State.beforeAdopt_keeps (s : State) :
    s.beforeAdopt.host.locks = s.host.locks ∧ s.beforeAdopt.pending = s.pending := by
  simp only [State.beforeAdopt]
  constructor
  · apply foldl_host_locks; intro a x; split <;> simp
  · apply foldl_pending; intro a x; split <;> simp

@[simp] theorem execAdopt_keeps (s : State) : Keeps s (execAdopt s) := by simp only [execAdopt]; (repeat' split) <;> simp

@[simp] theorem execSelfRestore_keeps (ok : Bool) (s : State) : Keeps s (execSelfRestore ok s) := by simp only [execSelfRestore]; (repeat' split) <;> simp

@[simp] theorem execProbation_keeps (s : State) : Keeps s (execProbation s) := by simp only [execProbation]; (repeat' split) <;> simp

@[simp] theorem execStateStatus_keeps (s : State) : Keeps s (execStateStatus s) := by simp only [execStateStatus]; (repeat' split) <;> simp

@[simp] theorem execNeighbourDark_keeps (nbr : Nat) (s : State) : Keeps s (execNeighbourDark nbr s) := by simp [execNeighbourDark]

@[simp] theorem execNeighbourWithdraw_keeps (nbr : Nat) (s : State) : Keeps s (execNeighbourWithdraw nbr s) := by simp only [execNeighbourWithdraw]; (repeat' split) <;> simp

@[simp] theorem State.setStk_keeps (s : State) (n : Nat) (k : Stack) : (State.setStk s n k).host.locks = s.host.locks ∧ (State.setStk s n k).pending = s.pending := by simp [State.setStk]

@[simp] theorem State.hbmRefuse_keeps (s : State) (n cause : Nat) : (State.hbmRefuse s n cause).host.locks = s.host.locks ∧ (State.hbmRefuse s n cause).pending = s.pending := by simp [State.hbmRefuse]

@[simp] theorem State.hbmStart_keeps (s : State) (n op : Nat) : (State.hbmStart s n op).host.locks = s.host.locks ∧ (State.hbmStart s n op).pending = s.pending := by simp [State.hbmStart]

@[simp] theorem execHbmInit_keeps (m : Master) (n : Fin 8) (s : State) : Keeps s (execHbmInit m n s) := by simp only [execHbmInit, keeps_next]; apply State.lk_keeps; intro z; constructor <;> ((repeat' split) <;> simp)

@[simp] theorem State.hbmRepair_keeps (s : State) (n op : Nat) : (State.hbmRepair s n op).host.locks = s.host.locks ∧ (State.hbmRepair s n op).pending = s.pending := by simp only [State.hbmRepair]; (repeat' split) <;> simp

@[simp] theorem execHbmTrain_keeps (m : Master) (n : Fin 8) (s : State) : Keeps s (execHbmTrain m n s) := by simp [execHbmTrain]

@[simp] theorem execHbmRowSoft_keeps (m : Master) (n : Fin 8) (s : State) : Keeps s (execHbmRowSoft m n s) := by simp [execHbmRowSoft]

@[simp] theorem execHbmRowHard_keeps (m : Master) (n : Fin 8) (s : State) : Keeps s (execHbmRowHard m n s) := by simp [execHbmRowHard]

@[simp] theorem execHbmLane_keeps (m : Master) (n : Fin 8) (s : State) : Keeps s (execHbmLane m n s) := by simp [execHbmLane]

@[simp] theorem State.hbmInitEnd_keeps (s : State) : (State.hbmInitEnd s).host.locks = s.host.locks ∧ (State.hbmInitEnd s).pending = s.pending := by simp only [State.hbmInitEnd]; (repeat' split) <;> simp

@[simp] theorem State.repairLines_keeps (s : State) (n op addr : Nat) : (State.repairLines s n op addr).host.locks = s.host.locks ∧ (State.repairLines s n op addr).pending = s.pending := by simp only [State.repairLines]; (repeat' split) <;> simp

@[simp] theorem execHbmCmdDone_keeps (n : Fin 8) (ok : Bool) (s : State) : Keeps s (execHbmCmdDone n ok s) := by simp only [execHbmCmdDone]; (repeat' split) <;> simp

@[simp] theorem execHbmTrainingDone_keeps (good : Nat) (s : State) : Keeps s (execHbmTrainingDone good s) := by simp [execHbmTrainingDone]

@[simp] theorem execHbmHot_keeps (n : Fin 8) (temp : Nat) (s : State) : Keeps s (execHbmHot n temp s) := by simp only [execHbmHot]; (repeat' split) <;> simp

@[simp] theorem execRefreshOutsideWindows_keeps (gallery : Bool) (n : Fin 32) (s : State) : Keeps s (execRefreshOutsideWindows gallery n s) := by simp only [execRefreshOutsideWindows]; (repeat' split) <;> simp

@[simp] theorem execSumpClose_keeps (c : Fin 256) (line : Nat) (s : State) : Keeps s (execSumpClose c line s) := by simp only [execSumpClose]; (repeat' split) <;> simp

@[simp] theorem State.galRefuse_keeps (s : State) (ch : Nat) : (State.galRefuse s ch).host.locks = s.host.locks ∧ (State.galRefuse s ch).pending = s.pending := by simp [State.galRefuse]

@[simp] theorem execGalInit_keeps (m : Master) (s : State) : Keeps s (execGalInit m s) := by simp only [execGalInit, keeps_next]; apply State.lk_keeps; intro z; constructor <;> ((repeat' split) <;> simp)

@[simp] theorem execGalTrain_keeps (m : Master) (s : State) : Keeps s (execGalTrain m s) := by simp only [execGalTrain, keeps_next]; apply State.lk_keeps; intro z; constructor <;> ((repeat' split) <;> simp)

@[simp] theorem execGalCmdDone_keeps (s : State) : Keeps s (execGalCmdDone s) := by simp only [execGalCmdDone]; (repeat' split) <;> simp

@[simp] theorem State.setChan_keeps (s : State) (ch st : Nat) : (State.setChan s ch st).host.locks = s.host.locks ∧ (State.setChan s ch st).pending = s.pending := by simp [State.setChan]

@[simp] theorem execGalRetire_keeps (m : Master) (s : State) : Keeps s (execGalRetire m s) := by simp only [execGalRetire, keeps_next]; apply State.lk_keeps; intro z; constructor <;> ((repeat' split) <;> simp)

@[simp] theorem execGalAbort_keeps (m : Master) (s : State) : Keeps s (execGalAbort m s) := by simp only [execGalAbort, keeps_next]; apply State.lk_keeps; intro z; constructor <;> ((repeat' split) <;> simp)

@[simp] theorem execMigrationDone_keeps (s : State) : Keeps s (execMigrationDone s) := by simp only [execMigrationDone]; (repeat' split) <;> simp

@[simp] theorem State.measureChan_keeps (s : State) (ch : Nat) : (State.measureChan s ch).host.locks = s.host.locks ∧ (State.measureChan s ch).pending = s.pending := by simp [State.measureChan]

@[simp] theorem execGalRefresh_keeps (ch : Fin 32) (s : State) : Keeps s (execGalRefresh ch s) := by simp [execGalRefresh]

@[simp] theorem execChannelFailed_keeps (ch : Fin 32) (s : State) : Keeps s (execChannelFailed ch s) := by simp only [execChannelFailed]; (repeat' split) <;> simp

@[simp] theorem State.b2Deny_keeps (s : State) (cause off : Nat) : (State.b2Deny s cause off).host.locks = s.host.locks ∧ (State.b2Deny s cause off).pending = s.pending := by simp [State.b2Deny]

@[simp] theorem State.rawSide_keeps (s : State) (g0 : Nat) (data : List Byte) : (State.rawSide s g0 data).1.host.locks = s.host.locks ∧ (State.rawSide s g0 data).1.pending = s.pending := by simp [State.rawSide]

@[simp] theorem State.b2Lines_keeps (s : State) (g0 g a n : Nat) :
    (s.b2Lines g0 g a n).1.host.locks = s.host.locks ∧ (s.b2Lines g0 g a n).1.pending = s.pending := by
  simp only [State.b2Lines]
  exact foldl_fst_keeps _ (fun p x => by (repeat' split) <;> simp) _ _

@[simp] theorem State.b2Granules_keeps (n : Nat) (s : State) (g0 a : Nat) (data : List Byte) :
    (State.b2Granules n s g0 a data).host.locks = s.host.locks ∧ (State.b2Granules n s g0 a data).pending = s.pending := by
  induction n generalizing s g0 with
  | zero => exact ⟨rfl, rfl⟩
  | succ n ih => simp only [State.b2Granules]; constructor <;> ((repeat' split) <;> simp [ih])

@[simp] theorem State.b2Merge_keeps (n : Nat) (s : State) (g0 a len : Nat) :
    (State.b2Merge n s g0 a len).1.host.locks = s.host.locks ∧ (State.b2Merge n s g0 a len).1.pending = s.pending := by
  induction n generalizing s g0 with
  | zero => exact ⟨rfl, rfl⟩
  | succ n ih =>
    have k := fun z o m => State.mergeLines_alike z (fun z => z.rmwLine) (fun z l m => by unfold Alike; simp) o m
    unfold Alike at k; simp only [State.b2Merge]; (repeat' split) <;> simp [ih, k]

@[simp] theorem State.b2Apply_keeps (s : State) (a : Nat) (data : List Byte) :
    (State.b2Apply s a data).host.locks = s.host.locks ∧ (State.b2Apply s a data).pending = s.pending := by
  simp only [State.b2Apply]; (repeat' split) <;> simp

@[simp] theorem State.b2Fetch_keeps (s : State) (a n : Nat) : (State.b2Fetch s a n).host.locks = s.host.locks ∧ (State.b2Fetch s a n).pending = s.pending := by simp only [State.b2Fetch]; (repeat' split) <;> simp

@[simp] theorem State.b2Drain_keeps (s : State) : (State.b2Drain s).host.locks = s.host.locks ∧ (State.b2Drain s).pending = s.pending := by simp [State.b2Drain]

@[simp] theorem State.b2Gather_keeps (s : State) (a : Nat) (data : List Byte) : (State.b2Gather s a data).host.locks = s.host.locks ∧ (State.b2Gather s a data).pending = s.pending := by unfold State.b2Gather; split <;> exact ⟨rfl, rfl⟩

@[simp] theorem State.b2Wait_keeps (s : State) (a n : Nat) : (State.b2Wait s a n).host.locks = s.host.locks ∧ (State.b2Wait s a n).pending = s.pending := ⟨rfl, rfl⟩

@[simp] theorem execBar2Write_keeps (off : Nat) (data : List Byte) (s : State) : Keeps s (execBar2Write off data s) := by simp only [execBar2Write]; (repeat' split) <;> simp

@[simp] theorem execBar2Read_keeps (off len : Nat) (s : State) : Keeps s (execBar2Read off len s) := by simp only [execBar2Read]; (repeat' split) <;> simp

@[simp] theorem execHostWriteDrain_keeps (s : State) : Keeps s (execHostWriteDrain s) := by simp only [execHostWriteDrain]; (repeat' split) <;> simp

@[simp] theorem State.ctxGo_keeps (s : State) (op : Nat) : (State.ctxGo s op).host.locks = s.host.locks ∧ (State.ctxGo s op).pending = s.pending := by simp only [State.ctxGo]; (repeat' split) <;> simp

@[simp] theorem execCtxClose_keeps (m : Master) (s : State) : Keeps s (execCtxClose m s) := by simp [execCtxClose]

@[simp] theorem execCtxPark_keeps (m : Master) (s : State) : Keeps s (execCtxPark m s) := by simp [execCtxPark]

@[simp] theorem execCtxUnpark_keeps (m : Master) (s : State) : Keeps s (execCtxUnpark m s) := by simp [execCtxUnpark]

@[simp] theorem execCtxSetQuota_keeps (m : Master) (s : State) : Keeps s (execCtxSetQuota m s) := by simp [execCtxSetQuota]

@[simp] theorem execCtxGrant_keeps (m : Master) (s : State) : Keeps s (execCtxGrant m s) := by simp [execCtxGrant]

@[simp] theorem execCtxReturn_keeps (m : Master) (s : State) : Keeps s (execCtxReturn m s) := by simp [execCtxReturn]

@[simp] theorem execCtxGrantKey_keeps (m : Master) (s : State) : Keeps s (execCtxGrantKey m s) := by simp [execCtxGrantKey]

@[simp] theorem execCtxReturnKey_keeps (m : Master) (s : State) : Keeps s (execCtxReturnKey m s) := by simp [execCtxReturnKey]

@[simp] theorem State.zeroUndo_keeps (s : State) (cap : Bool) (a n : Nat) : (State.zeroUndo s cap a n).host.locks = s.host.locks ∧ (State.zeroUndo s cap a n).pending = s.pending := by simp [State.zeroUndo]

@[simp] theorem State.zeroBytes_keeps (s0 : State) (cap : Bool) (a n : Nat) : (State.zeroBytes s0 cap a n).host.locks = s0.host.locks ∧ (State.zeroBytes s0 cap a n).pending = s0.pending := by simp [State.zeroBytes]

@[simp] theorem State.zeroEnd_keeps (s : State) (cap : Bool) (p : Nat) : (State.zeroEnd s cap p).host.locks = s.host.locks ∧ (State.zeroEnd s cap p).pending = s.pending := by simp only [State.zeroEnd]; (repeat' split) <;> simp

@[simp] theorem State.zeroAt_keeps (s : State) (cap : Bool) (cur : Option (Nat × Nat)) (n : Nat) : (State.zeroAt s cap cur n).host.locks = s.host.locks ∧ (State.zeroAt s cap cur n).pending = s.pending := by simp only [State.zeroAt]; split <;> simp

@[simp] theorem State.zeroTurn_keeps (s : State) (cap : Bool) (p done : Nat) : (State.zeroTurn s cap p done).host.locks = s.host.locks ∧ (State.zeroTurn s cap p done).pending = s.pending := by simp only [State.zeroTurn]; (repeat' split) <;> simp

@[simp] theorem State.zeroSpace_keeps (s : State) (cap : Bool) : (State.zeroSpace s cap).host.locks = s.host.locks ∧ (State.zeroSpace s cap).pending = s.pending := by simp only [State.zeroSpace]; (repeat' split) <;> simp

@[simp] theorem State.zeroCompare_keeps (s : State) : (State.zeroCompare s).host.locks = s.host.locks ∧ (State.zeroCompare s).pending = s.pending := by simp only [State.zeroCompare]; (repeat' split) <;> (first | simp; done | (have a := State.takeSlip_alike ‹State.takeSlip _ _ = _›; simp [a]))

@[simp] theorem execZeroPage_keeps (s : State) : Keeps s (execZeroPage s) := by simp only [execZeroPage]; (repeat' split) <;> simp

@[simp] theorem execQuarantineEnd_keeps (id : Fin 1024) (s : State) : Keeps s (execQuarantineEnd id s) := by simp only [execQuarantineEnd]; (repeat' split) <;> simp

@[simp] theorem State.trcChain_keeps (s : State) (ty c : Nat) (q : ChainCmd) (squashed : Bool) : (State.trcChain s ty c q squashed).host.locks = s.host.locks ∧ (State.trcChain s ty c q squashed).pending = s.pending := by simp [State.trcChain]

@[simp] theorem State.popChain_keeps (s : State) (c : Nat) : (State.popChain s c).host.locks = s.host.locks ∧ (State.popChain s c).pending = s.pending := by simp [State.popChain]

@[simp] theorem State.addChainRun_keeps (s : State) (c : Nat) (r : ChainRun) : (State.addChainRun s c r).host.locks = s.host.locks ∧ (State.addChainRun s c r).pending = s.pending := by simp only [State.addChainRun]; (repeat' split) <;> simp

@[simp] theorem State.setDue_keeps (s : State) (c : Nat) (due : List DueWrite) (past : List (Nat × Nat × Wide)) : (State.setDue s c due past).host.locks = s.host.locks ∧ (State.setDue s c due past).pending = s.pending := by simp [State.setDue]

@[simp] theorem State.startRun_keeps (s : State) (c : Nat) (q : ChainCmd) : (State.startRun s c q).host.locks = s.host.locks ∧ (State.startRun s c q).pending = s.pending := by simp only [State.startRun]; (repeat' split) <;> simp

@[simp] theorem State.resumeRun_keeps (s : State) (c i : Nat) : (State.resumeRun s c i).host.locks = s.host.locks ∧ (State.resumeRun s c i).pending = s.pending := by simp only [State.resumeRun]; (repeat' split) <;> simp

@[simp] theorem State.resumeFls_keeps (n : Nat) (s : State) (c : Nat) :
    (State.resumeFls n s c).host.locks = s.host.locks ∧ (State.resumeFls n s c).pending = s.pending := by
  induction n generalizing s with
  | zero => exact ⟨rfl, rfl⟩
  | succ n ih => simp only [State.resumeFls]; split <;> simp [ih]

@[simp] theorem State.carryOn_keeps (s : State) (c : Nat) :
    (State.carryOn s c).host.locks = s.host.locks ∧ (State.carryOn s c).pending = s.pending := State.resumeFls_keeps _ _ _

@[simp] theorem execRun_keeps (c : Fin 256) (s0 : State) : Keeps s0 (execRun c s0) := by simp only [execRun]; (repeat' split) <;> simp

@[simp] theorem execLdtab_keeps (c : Fin 256) (s : State) : Keeps s (execLdtab c s) := by
  unfold execLdtab
  split
  · simp
  · rw [keeps_alike]
    exact Alike.trans (b := (s.popChain c).trcChain 1 c _ false) (by unfold Alike; simp)
      (State.cmRead_alike _ _ _ _ _ _ (fun z => by unfold Alike; simp))

@[simp] theorem State.flsWritePoint_keeps (s : State) (c i : Nat) : (State.flsWritePoint s c i).host.locks = s.host.locks ∧ (State.flsWritePoint s c i).pending = s.pending := by simp only [State.flsWritePoint]; (repeat' split) <;> (first | simp; done | (have a := State.takeSlip_alike ‹State.takeSlip _ _ = _›; simp [a]))

@[simp] theorem State.handSummary_keeps (s0 : State) (c : Nat) (q : ChainCmd) (m : ChainSum) : (State.handSummary s0 c q m).host.locks = s0.host.locks ∧ (State.handSummary s0 c q m).pending = s0.pending := by simp only [State.handSummary]; (repeat' split) <;> simp

@[simp] theorem State.dropRun_keeps (s : State) (c : Nat) : (State.dropRun s c).host.locks = s.host.locks ∧ (State.dropRun s c).pending = s.pending := by simp [State.dropRun]

@[simp] theorem execLdtabDone_keeps (c : Fin 256) (s : State) : Keeps s (execLdtabDone c s) := by simp only [execLdtabDone]; (repeat' split) <;> (first | simp; done | (have a := State.takeSlip_alike ‹State.takeSlip _ _ = _›; simp [a]))

@[simp] theorem execChainDone_keeps (c : Fin 256) (s : State) : Keeps s (execChainDone c s) := by simp only [execChainDone]; (repeat' split) <;> (first | simp; done | (have a := State.takeSlip_alike ‹State.takeSlip _ _ = _›; simp [a]))

@[simp] theorem execWritePoint_keeps (c : Fin 256) (u : CmdUnit) (s : State) : Keeps s (execWritePoint c u s) := by simp only [execWritePoint]; (repeat' split) <;> simp

@[simp] theorem State.occTouch_keeps (s : State) (p : Nat) : (State.occTouch s p).host.locks = s.host.locks ∧ (State.occTouch s p).pending = s.pending := by simp [State.occTouch]

@[simp] theorem State.bufferA_keeps (s : State) (f : AFlit) : (State.bufferA s f).host.locks = s.host.locks ∧ (State.bufferA s f).pending = s.pending := by simp [State.bufferA]

@[simp] theorem State.freeCredit_keeps (s : State) (p vc cls : Nat) : (s.freeCredit p vc cls).host.locks = s.host.locks ∧ (s.freeCredit p vc cls).pending = s.pending := by simp [State.freeCredit]

@[simp] theorem State.unbufferA_keeps (s : State) (f : AFlit) : (State.unbufferA s f).host.locks = s.host.locks ∧ (State.unbufferA s f).pending = s.pending := by simp [State.unbufferA]

@[simp] theorem State.delivered_keeps (s : State) (p : Nat) (h : Nat) (r : ColRun) : (State.delivered s p h r).host.locks = s.host.locks ∧ (State.delivered s p h r).pending = s.pending := by simp only [State.delivered]; (repeat' split) <;> (first | simp; done | (have a := State.takeSlip_alike ‹State.takeSlip _ _ = _›; simp [a]))

@[simp] theorem State.dropCtx_keeps (s : State) (h : Nat) : (State.dropCtx s h).host.locks = s.host.locks ∧ (State.dropCtx s h).pending = s.pending := by simp only [State.dropCtx]; (repeat' split) <;> (first | simp; done | (have a := State.takeSlip_alike ‹State.takeSlip _ _ = _›; simp [a]))

@[simp] theorem State.deliver_keeps (s : State) (p : Nat) (f : Flit) :
    (State.deliver s p f).host.locks = s.host.locks ∧ (State.deliver s p f).pending = s.pending := by
  simp only [State.deliver]; (repeat' split) <;> simp

@[simp] theorem State.gapCheck_keeps (s : State) (key : Nat) (moved : Bool) : (State.gapCheck s key moved).host.locks = s.host.locks ∧ (State.gapCheck s key moved).pending = s.pending := by simp [State.gapCheck]

@[simp] theorem State.deliverA_keeps (n : Nat) (s : State) (p : Nat) (f : Flit) :
    (State.deliverA n s p f).host.locks = s.host.locks ∧ (State.deliverA n s p f).pending = s.pending := by
  induction n generalizing s p f with
  | zero => simp [State.deliverA]
  | succ n ih => simp only [State.deliverA]; constructor <;> ((repeat' split) <;> simp [ih])

@[simp] theorem State.arriveA_keeps (s : State) (p cls : Nat) (f : Flit) :
    (s.arriveA p cls f).host.locks = s.host.locks ∧ (s.arriveA p cls f).pending = s.pending := by
  simp only [State.arriveA]; (repeat' split) <;> simp

@[simp] theorem State.spend_keeps (s : State) (p vc cls : Nat) : (State.spend s p vc cls).host.locks = s.host.locks ∧ (State.spend s p vc cls).pending = s.pending := by simp [State.spend]

@[simp] theorem State.sendHop_keeps (s : State) (p t pos l cls : Nat) (sprayed : Bool) (f : Flit) : (State.sendHop s p t pos l cls sprayed f).host.locks = s.host.locks ∧ (State.sendHop s p t pos l cls sprayed f).pending = s.pending := by simp [State.sendHop]

@[simp] theorem State.engineTake_keeps (s : State) (p : Nat) (f : Flit) : (State.engineTake s p f).host.locks = s.host.locks ∧ (State.engineTake s p f).pending = s.pending := by simp only [State.engineTake]; (repeat' split) <;> (first | simp; done | (have a := State.takeSlip_alike ‹State.takeSlip _ _ = _›; simp [a]))

@[simp] theorem State.enqueueS_keeps (s : State) (p came arr : Nat) (f : Flit) : (State.enqueueS s p came arr f).host.locks = s.host.locks ∧ (State.enqueueS s p came arr f).pending = s.pending := by simp only [State.enqueueS]; (repeat' split) <;> (first | simp; done | (have a := State.takeSlip_alike ‹State.takeSlip _ _ = _›; simp [a]))

@[simp] theorem State.noBuffer_keeps (s : State) (p cls h : Nat) : (State.noBuffer s p cls h).host.locks = s.host.locks ∧ (State.noBuffer s p cls h).pending = s.pending := by simp only [State.noBuffer]; (repeat' split) <;> simp

@[simp] theorem State.vdtCompare_keeps (s : State) : (State.vdtCompare s).host.locks = s.host.locks ∧ (State.vdtCompare s).pending = s.pending := by simp only [State.vdtCompare]; (repeat' split) <;> (first | simp; done | (have a := State.takeSlip_alike ‹State.takeSlip _ _ = _›; simp [a]))

@[simp] theorem State.takeFlit_keeps (s : State) (p came arr h cls : Nat) (body : List Byte) :
    (s.takeFlit p came arr h cls body).host.locks = s.host.locks ∧ (s.takeFlit p came arr h cls body).pending = s.pending := by
  simp only [State.takeFlit]
  generalize (⟨h, (body ++ List.replicate 240 0#8).take 240⟩ : Flit) = f
  constructor <;> ((repeat' split) <;> simp)

@[simp] theorem execFlitReceive_keeps (p : Fin 20) (head : FlitHead) (body : List Byte) (s : State) : Keeps s (execFlitReceive p head body s) := by simp [execFlitReceive]

@[simp] theorem State.discardA_keeps (s : State) : (State.discardA s).host.locks = s.host.locks ∧ (State.discardA s).pending = s.pending := by simp [State.discardA]

@[simp] theorem State.discardLocal_keeps (s : State) : (State.discardLocal s).host.locks = s.host.locks ∧ (State.discardLocal s).pending = s.pending := by simp [State.discardLocal]

@[simp] theorem State.takeLocal_keeps (n : Nat) (s : State) (p t key ctx idx j : Nat) :
    (State.takeLocal n s p t key ctx idx j).s.host.locks = s.host.locks ∧
      (State.takeLocal n s p t key ctx idx j).s.pending = s.pending := by
  induction n generalizing s j with
  | zero => exact ⟨rfl, rfl⟩
  | succ n ih => simp only [State.takeLocal]; constructor <;> ((repeat' split) <;> simp [ih])

@[simp] theorem State.takeThrough_keeps (n : Nat) (s : State) (p t q ctx idx j : Nat) :
    (State.takeThrough n s p t q ctx idx j).s.host.locks = s.host.locks ∧
      (State.takeThrough n s p t q ctx idx j).s.pending = s.pending := by
  induction n generalizing s j with
  | zero => exact ⟨rfl, rfl⟩
  | succ n ih => simp only [State.takeThrough]; constructor <;> ((repeat' split) <;> simp [ih])

theorem State.sendSpare_keeps (s : State) (p t pos : Nat) (z : State) (h : s.sendSpare p t pos = some z) :
    z.host.locks = s.host.locks ∧ z.pending = s.pending := by
  simp only [State.sendSpare] at h
  (repeat' split at h) <;> simp_all <;> (subst h; simp)

@[simp] theorem State.spareFrom_keeps (s : State) (p t : Nat) (l : List Nat) :
    (s.spareFrom p t l).host.locks = s.host.locks ∧ (s.spareFrom p t l).pending = s.pending :=
  foldl_alike _ (fun a pos => by
    cases h : a.sendSpare p t pos with
    | none => simp [Alike]
    | some z => simpa [Alike] using a.sendSpare_keeps p t pos z h) _ _

@[simp] theorem State.creditContent_keeps (s : State) (p t : Nat) (retx : Option Nat) : (State.creditContent s p t retx).2.host.locks = s.host.locks ∧ (State.creditContent s p t retx).2.pending = s.pending := by simp only [State.creditContent]; (repeat' split) <;> simp

@[simp] theorem State.exchangeContent_keeps (s : State) (p t : Nat) : (State.exchangeContent s p t).2.host.locks = s.host.locks ∧ (State.exchangeContent s p t).2.pending = s.pending := by simp only [State.exchangeContent]; (repeat' split) <;> simp

@[simp] theorem State.controlContent_keeps (s : State) (p t c : Nat) : (State.controlContent s p t c).2.host.locks = s.host.locks ∧ (State.controlContent s p t c).2.pending = s.pending := by simp only [State.controlContent]; (repeat' split) <;> simp

@[simp] theorem State.framingContent_keeps (s : State) (p t : Nat) (retx : Option Nat) : (State.framingContent s p t retx).2.host.locks = s.host.locks ∧ (State.framingContent s p t retx).2.pending = s.pending := by simp only [State.framingContent]; (repeat' split) <;> simp

@[simp] theorem State.sendHalf_keeps (s : State) (p t : Nat) (flits : List (Nat × Flit)) (retx : Option Nat) : (State.sendHalf s p t flits retx).host.locks = s.host.locks ∧ (State.sendHalf s p t flits retx).pending = s.pending := by simp [State.sendHalf]

@[simp] theorem State.resent_keeps (s : State) (p t seq : Nat) : (State.resent s p t seq).host.locks = s.host.locks ∧ (State.resent s p t seq).pending = s.pending := by simp [State.resent]

@[simp] theorem State.transmitHalf_keeps (s : State) (p t : Nat) (again : List Nat) (i : Nat) : (State.transmitHalf s p t again i).host.locks = s.host.locks ∧ (State.transmitHalf s p t again i).pending = s.pending := by simp only [State.transmitHalf]; (repeat' split) <;> simp

@[simp] theorem State.slotEntryRun_keeps (s : State) (p l t : Nat) : (s.slotEntryRun p l t).s.host.locks = s.host.locks ∧ (s.slotEntryRun p l t).s.pending = s.pending := by
  simp only [State.slotEntryRun]; constructor <;> ((repeat' split) <;> simp)

@[simp] theorem State.fillSlot_keeps (s : State) (p l t : Nat) : (s.fillSlot p l t).1.host.locks = s.host.locks ∧ (s.fillSlot p l t).1.pending = s.pending := by
  simp [State.fillSlot]

@[simp] theorem State.transmitSlot_keeps (s : State) (p t : Nat) : (State.transmitSlot s p t).host.locks = s.host.locks ∧ (State.transmitSlot s p t).pending = s.pending := by simp only [State.transmitSlot]; (repeat' split) <;> simp

@[simp] theorem execSlotTransmit_keeps (p : Fin 20) (s : State) : Keeps s (execSlotTransmit p s) := by
  unfold execSlotTransmit
  rw [keeps_next]
  extract_lets v up t s0
  split <;> simp [s0]

@[simp] theorem execReorderTimeout_keeps (src : Nat) (vc : Fin 8) (s : State) : Keeps s (execReorderTimeout src vc s) := by simp only [execReorderTimeout]; (repeat' split) <;> (first | simp; done | (have a := State.takeSlip_alike ‹State.takeSlip _ _ = _›; simp [a]))

@[simp] theorem State.trsLog_keeps (s : State) (p cls cause line hseq : Nat) : (State.trsLog s p cls cause line hseq).host.locks = s.host.locks ∧ (State.trsLog s p cls cause line hseq).pending = s.pending := by simp [State.trsLog]

@[simp] theorem State.partCheck_keeps (s : State) (p : Nat) (was : Bool) : (State.partCheck s p was).host.locks = s.host.locks ∧ (State.partCheck s p was).pending = s.pending := by simp only [State.partCheck]; (repeat' split) <;> (first | simp; done | (have a := State.takeSlip_alike ‹State.takeSlip _ _ = _›; simp [a]))

@[simp] theorem State.setPort_keeps (s : State) (p : Nat) (st : PortSt) : (State.setPort s p st).host.locks = s.host.locks ∧ (State.setPort s p st).pending = s.pending := by simp only [State.setPort]; (repeat' split) <;> simp

@[simp] theorem State.restartPort_keeps (s : State) (p : Nat) : (State.restartPort s p).host.locks = s.host.locks ∧ (State.restartPort s p).pending = s.pending := by simp [State.restartPort]

@[simp] theorem State.measureLines_keeps (s : State) (p : Nat) : (State.measureLines s p).host.locks = s.host.locks ∧ (State.measureLines s p).pending = s.pending := by simp [State.measureLines]

@[simp] theorem State.reweigh_keeps (s : State) (p : Nat) : (State.reweigh s p).host.locks = s.host.locks ∧ (State.reweigh s p).pending = s.pending := by simp [State.reweigh]

@[simp] theorem State.creditWord_keeps (s : State) (p w : Nat) : (State.creditWord s p w).host.locks = s.host.locks ∧ (State.creditWord s p w).pending = s.pending := by simp [State.creditWord]

@[simp] theorem State.identify_keeps (s : State) (p : Nat) : (State.identify s p).host.locks = s.host.locks ∧ (State.identify s p).pending = s.pending := by simp only [State.identify]; (repeat' split) <;> simp

@[simp] theorem State.identWords_keeps (s : State) (p f w0 w1 : Nat) : (State.identWords s p f w0 w1).host.locks = s.host.locks ∧ (State.identWords s p f w0 w1).pending = s.pending := by simp [State.identWords]

@[simp] theorem State.controlWord_keeps (s : State) (p c w f at_ : Nat) : (State.controlWord s p c w f at_).host.locks = s.host.locks ∧ (State.controlWord s p c w f at_).pending = s.pending := by simp only [State.controlWord]; (repeat' split) <;> simp

@[simp] theorem State.badWord_keeps (s : State) (p h at_ : Nat) : (State.badWord s p h at_).host.locks = s.host.locks ∧ (State.badWord s p h at_).pending = s.pending := by simp [State.badWord]

@[simp] theorem State.framingWord_keeps (s : State) (p h w f at_ : Nat) : (State.framingWord s p h w f at_).host.locks = s.host.locks ∧ (State.framingWord s p h w f at_).pending = s.pending := by simp only [State.framingWord]; (repeat' split) <;> simp

@[simp] theorem State.cmbLog_keeps (s : State) (cls cause k engines : Nat) : (State.cmbLog s cls cause k engines).host.locks = s.host.locks ∧ (State.cmbLog s cls cause k engines).pending = s.pending := by simp [State.cmbLog]

@[simp] theorem State.measureComb_keeps (s : State) (k : Nat) : (State.measureComb s k).host.locks = s.host.locks ∧ (State.measureComb s k).pending = s.pending := by simp [State.measureComb]

@[simp] theorem State.feedPort_keeps (s : State) (loss : Bool) (p : Nat) : (State.feedPort s loss p).host.locks = s.host.locks ∧ (State.feedPort s loss p).pending = s.pending := by simp only [State.feedPort]; (repeat' split) <;> simp

@[simp] theorem State.darkPort_keeps (s : State) (p : Nat) : (State.darkPort s p).host.locks = s.host.locks ∧ (State.darkPort s p).pending = s.pending := by simp only [State.darkPort]; (repeat' split) <;> simp

@[simp] theorem State.moveFeeds_keeps (s : State) (es : List Nat) (f : Failover) :
    (State.moveFeeds s es f).host.locks = s.host.locks ∧ (State.moveFeeds s es f).pending = s.pending := 
  foldl_alike _ (fun a p => by unfold Alike; simp) _ _

@[simp] theorem State.darkEngines_keeps (s : State) (es : List Nat) : (s.darkEngines es).host.locks = s.host.locks ∧ (s.darkEngines es).pending = s.pending := by
  have h := fun (z : State) => foldl_alike (fun (a : State) (p : Nat) => a.darkPort p) (fun a p => by unfold Alike; exact a.darkPort_keeps p) (es.flatMap portsOf) z
  unfold Alike at h
  unfold State.darkEngines; dsimp only
  split
  · unfold State.setMode; split <;> simp [h]
  · exact h _

@[simp] theorem State.setMode_keeps (s : State) (m : Nat) : (State.setMode s m).host.locks = s.host.locks ∧ (State.setMode s m).pending = s.pending := by simp only [State.setMode]; (repeat' split) <;> simp

@[simp] theorem State.noComb_keeps (s : State) (k engines : Nat) : (State.noComb s k engines).host.locks = s.host.locks ∧ (State.noComb s k engines).pending = s.pending := by simp [State.noComb]

@[simp] theorem State.trsFault_keeps (s : State) (p cause hseq : Nat) : (State.trsFault s p cause hseq).host.locks = s.host.locks ∧ (State.trsFault s p cause hseq).pending = s.pending := by simp [State.trsFault]

@[simp] theorem State.halfFailed_keeps (s : State) (p seq cause : Nat) : (State.halfFailed s p seq cause).host.locks = s.host.locks ∧ (State.halfFailed s p seq cause).pending = s.pending := by simp only [State.halfFailed]; (repeat' split) <;> simp

@[simp] theorem State.halfFlitsTaken_keeps (s : State) (p : Nat) (h : HalfSlot) (flits : List Flit) (back : Nat) : (State.halfFlitsTaken s p h flits back).host.locks = s.host.locks ∧ (State.halfFlitsTaken s p h flits back).pending = s.pending := by simp [State.halfFlitsTaken]

@[simp] theorem execHalfSlotReceive_keeps (p : Fin 20) (h : HalfSlot) (s : State) : Keeps s (execHalfSlotReceive p h s) := by
  have k := fun (x : State) => x.takeSlip_keeps (pgTRS (engOf p))
  unfold execHalfSlotReceive
  rw [keeps_next]
  generalize List.map bchDecode h.words = words
  generalize flitsOf words = flits
  extract_lets o ws lost fixed fl bad s0 w sent again q s1 retx seq slip s2 q2 s3
  split
  · exact ⟨rfl, rfl⟩
  · have h0 : s0.host.locks = s.host.locks ∧ s0.pending = s.pending := by simp [s0]
    have h1 : s1.host.locks = s.host.locks ∧ s1.pending = s.pending := by simp only [s1]; split <;> simp [h0]
    have h2 : s2.host.locks = s.host.locks ∧ s2.pending = s.pending := by simp [s2, slip, k, h1]
    have h3 : s3.host.locks = s.host.locks ∧ s3.pending = s.pending := by simp only [s3]; split <;> simp [h2]
    (repeat' split) <;> simp [h2, h3]

@[simp] theorem execHalfSlotRetransmit_keeps (p : Fin 20) (s : State) : Keeps s (execHalfSlotRetransmit p s) := by simp only [execHalfSlotRetransmit]; (repeat' split) <;> simp

@[simp] theorem execPortLeaveOff_keeps (p : Fin 20) (s : State) : Keeps s (execPortLeaveOff p s) := by simp only [execPortLeaveOff]; (repeat' split) <;> simp

@[simp] theorem State.bankLocked_keeps (s : State) (p : Nat) (rx : Bool) : (State.bankLocked s p rx).host.locks = s.host.locks ∧ (State.bankLocked s p rx).pending = s.pending := by simp only [State.bankLocked]; (repeat' split) <;> simp

@[simp] theorem execRingsLocked_keeps (p : Fin 20) (rx found : Bool) (s : State) : Keeps s (execRingsLocked p rx found s) := by simp only [execRingsLocked]; (repeat' split) <;> simp

@[simp] theorem execLightFromPeer_keeps (p : Fin 20) (s : State) : Keeps s (execLightFromPeer p s) := by simp only [execLightFromPeer]; (repeat' split) <;> simp

@[simp] theorem execHalfSlotAlignment_keeps (p : Fin 20) (s : State) : Keeps s (execHalfSlotAlignment p s) := by simp [execHalfSlotAlignment]

@[simp] theorem execTrainDone_keeps (p : Fin 20) (s : State) : Keeps s (execTrainDone p s) := by simp only [execTrainDone]; (repeat' split) <;> simp

@[simp] theorem State.failLate_keeps (s : State) (p : Nat) : (State.failLate s p).host.locks = s.host.locks ∧ (State.failLate s p).pending = s.pending := by simp only [State.failLate]; (repeat' split) <;> simp

@[simp] theorem State.failLost_keeps (s : State) (p t : Nat) : (State.failLost s p t).host.locks = s.host.locks ∧ (State.failLost s p t).pending = s.pending := by simp [State.failLost]

@[simp] theorem execPortFailTimeout_keeps (p : Fin 20) (s : State) : Keeps s (execPortFailTimeout p s) := by simp only [execPortFailTimeout]; (repeat' split) <;> simp

@[simp] theorem execRingLoopUpdate_keeps (p : Fin 20) (rx : Bool) (u : List Int) (s : State) : Keeps s (execRingLoopUpdate p rx u s) := by simp only [execRingLoopUpdate]; (repeat' split) <;> simp

@[simp] theorem execRingLockLost_keeps (p : Fin 20) (rx : Bool) (ring : Fin 32) (s : State) : Keeps s (execRingLockLost p rx ring s) := by simp only [execRingLockLost]; (repeat' split) <;> simp

@[simp] theorem execTrsRelock_keeps (m : Master) (e : Fin 4) (s : State) : Keeps s (execTrsRelock m e s) := by simp only [execTrsRelock, keeps_next]; apply State.lk_keeps; intro z; constructor <;> ((repeat' split) <;> simp)

@[simp] theorem execTrsCal_keeps (m : Master) (e : Fin 4) (s : State) : Keeps s (execTrsCal m e s) := by simp only [execTrsCal, keeps_next]; apply State.lk_keeps; intro z; constructor <;> ((repeat' split) <;> simp)

@[simp] theorem execCalDone_keeps (p : Fin 20) (ktx krx : List Int) (s : State) : Keeps s (execCalDone p ktx krx s) := by simp only [execCalDone]; (repeat' split) <;> simp

@[simp] theorem execMatrixParity_keeps (p : Fin 20) (rx inK : Bool) (s : State) : Keeps s (execMatrixParity p rx inK s) := by simp only [execMatrixParity]; (repeat' split) <;> simp

@[simp] theorem execMatrixRecomputed_keeps (p : Fin 20) (rx : Bool) (s : State) : Keeps s (execMatrixRecomputed p rx s) := by simp [execMatrixRecomputed]

@[simp] theorem State.endFailover_keeps (s : State) (f : Failover) : (State.endFailover s f).host.locks = s.host.locks ∧ (State.endFailover s f).pending = s.pending := by simp [State.endFailover]

@[simp] theorem State.changeReady_keeps (s : State) :
    (State.changeReady s).host.locks = s.host.locks ∧ (State.changeReady s).pending = s.pending := by
  simp only [State.changeReady]; (repeat' split) <;> simp

@[simp] theorem execCombLocked_keeps (k : Fin 2) (s : State) : Keeps s (execCombLocked k s) := by simp only [execCombLocked]; (repeat' split) <;> simp

@[simp] theorem State.failoverTo_keeps (s : State) (other : Nat) (es : List Nat) : (State.failoverTo s other es).host.locks = s.host.locks ∧ (State.failoverTo s other es).pending = s.pending := by simp [State.failoverTo]

@[simp] theorem execCombLoss_keeps (k : Fin 2) (failed : Bool) (s : State) : Keeps s (execCombLoss k failed s) := by simp only [execCombLoss]; (repeat' split) <;> simp

@[simp] theorem State.feedSettled_keeps (s : State) (p : Nat) : (State.feedSettled s p).host.locks = s.host.locks ∧ (State.feedSettled s p).pending = s.pending := by simp only [State.feedSettled]; (repeat' split) <;> simp

@[simp] theorem execFailoverDone_keeps (s : State) : Keeps s (execFailoverDone s) := by
  unfold execFailoverDone
  rw [keeps_next]
  have h := fun (l : List Nat) (z : State) => foldl_alike (fun (a : State) (p : Nat) => a.feedSettled p) (fun a p => by simp [Alike]) l z
  unfold Alike at h
  split
  · simp
  · dsimp only; split <;> simp [h]

@[simp] theorem execFailoverTimeout_keeps (s : State) : Keeps s (execFailoverTimeout s) := by
  unfold execFailoverTimeout
  rw [keeps_next]
  extract_lets s1
  have h1 : Alike s s1 := foldl_alike _ (fun a x => by unfold Alike; simp) _ _
  unfold Alike at h1
  split
  · split <;> simp [h1]
  · exact h1

@[simp] theorem State.warmComb_keeps (s : State) (feeds k : Nat) : (State.warmComb s feeds k).host.locks = s.host.locks ∧ (State.warmComb s feeds k).pending = s.pending := by simp [State.warmComb]

@[simp] theorem State.cmbChange_keeps (s : State) (mode : Nat) : (State.cmbChange s mode).host.locks = s.host.locks ∧ (State.cmbChange s mode).pending = s.pending := by simp only [State.cmbChange]; (repeat' split) <;> simp

@[simp] theorem execCmbPaired_keeps (m : Master) (s : State) : Keeps s (execCmbPaired m s) := by simp [execCmbPaired]

@[simp] theorem execCmbSingleK0_keeps (m : Master) (s : State) : Keeps s (execCmbSingleK0 m s) := by simp [execCmbSingleK0]

@[simp] theorem execCmbSingleK1_keeps (m : Master) (s : State) : Keeps s (execCmbSingleK1 m s) := by simp [execCmbSingleK1]

@[simp] theorem execSweepStart_keeps (g : Fin 1024) (s : State) : Keeps s (execSweepStart g s) := by simp only [execSweepStart]; (repeat' split) <;> simp

@[simp] theorem State.withholdBlock_keeps (s : State) (e v i : Nat) (skip : Bool) : (State.withholdBlock s e v i skip).host.locks = s.host.locks ∧ (State.withholdBlock s e v i skip).pending = s.pending := by simp only [State.withholdBlock]; (repeat' split) <;> simp

@[simp] theorem execBlockStart_keeps (e : Fin 8) (s : State) : Keeps s (execBlockStart e s) := by unfold execBlockStart; dsimp only; (repeat' split) <;> simp

@[simp] theorem State.lateOperand_keeps (s : State) (e k : Nat) : (State.lateOperand s e k).host.locks = s.host.locks ∧ (State.lateOperand s e k).pending = s.pending := by simp only [State.lateOperand]; (repeat' split) <;> simp

@[simp] theorem execUpdLd_keeps (e : Fin 8) (late : Bool) (s : State) : Keeps s (execUpdLd e late s) := by simp only [execUpdLd]; (repeat' split) <;> simp

@[simp] theorem execUpdSt_keeps (e : Fin 8) (s : State) : Keeps s (execUpdSt e s) := by
  simp only [execUpdSt, State.updDo, keeps_next]; (repeat' split) <;> simp

@[simp] theorem execUpdAdd_keeps (e : Fin 8) (s : State) : Keeps s (execUpdAdd e s) := by simp [execUpdAdd]

@[simp] theorem execUpdSub_keeps (e : Fin 8) (s : State) : Keeps s (execUpdSub e s) := by simp [execUpdSub]

@[simp] theorem execUpdMul_keeps (e : Fin 8) (s : State) : Keeps s (execUpdMul e s) := by simp [execUpdMul]

@[simp] theorem execUpdMulk_keeps (e : Fin 8) (s : State) : Keeps s (execUpdMulk e s) := by simp [execUpdMulk]

@[simp] theorem execUpdAddk_keeps (e : Fin 8) (s : State) : Keeps s (execUpdAddk e s) := by simp [execUpdAddk]

@[simp] theorem execUpdShr_keeps (e : Fin 8) (s : State) : Keeps s (execUpdShr e s) := by simp [execUpdShr]

@[simp] theorem execUpdShl_keeps (e : Fin 8) (s : State) : Keeps s (execUpdShl e s) := by simp [execUpdShl]

@[simp] theorem execUpdMin_keeps (e : Fin 8) (s : State) : Keeps s (execUpdMin e s) := by simp [execUpdMin]

@[simp] theorem execUpdMax_keeps (e : Fin 8) (s : State) : Keeps s (execUpdMax e s) := by simp [execUpdMax]

@[simp] theorem execUpdAbs_keeps (e : Fin 8) (s : State) : Keeps s (execUpdAbs e s) := by simp [execUpdAbs]

@[simp] theorem execUpdNeg_keeps (e : Fin 8) (s : State) : Keeps s (execUpdNeg e s) := by simp [execUpdNeg]

@[simp] theorem execUpdCmpgt_keeps (e : Fin 8) (s : State) : Keeps s (execUpdCmpgt e s) := by simp [execUpdCmpgt]

@[simp] theorem execUpdSel_keeps (e : Fin 8) (s : State) : Keeps s (execUpdSel e s) := by simp [execUpdSel]

@[simp] theorem execUpdLut_keeps (e : Fin 8) (s : State) : Keeps s (execUpdLut e s) := by simp [execUpdLut]

@[simp] theorem execUpdClip_keeps (e : Fin 8) (s : State) : Keeps s (execUpdClip e s) := by
  simp only [execUpdClip, State.updDo, keeps_next]; (repeat' split) <;> simp

@[simp] theorem execUpdEnd_keeps (e : Fin 8) (s : State) : Keeps s (execUpdEnd e s) := by
  simp only [execUpdEnd, State.updDo, keeps_next]; (repeat' split) <;> simp

@[simp] theorem State.withheldTail_keeps (s : State) (e : Nat) (b : UpdBlock) : (State.withheldTail s e b).host.locks = s.host.locks ∧ (State.withheldTail s e b).pending = s.pending := by simp [State.withheldTail]

@[simp] theorem execBlockCommit_keeps (e : Fin 8) (s : State) : Keeps s (execBlockCommit e s) := by simp only [execBlockCommit]; (repeat' split) <;> simp

@[simp] theorem execJournalReplay_keeps (e : Fin 8) (s : State) : Keeps s (execJournalReplay e s) := by simp only [execJournalReplay]; (repeat' split) <;> simp

@[simp] theorem State.seepFlit_keeps (s : State) (cfg p : Nat) (body : List Byte) :
    (State.seepFlit s cfg p body).host.locks = s.host.locks ∧ (State.seepFlit s cfg p body).pending = s.pending := by
  simp [State.seepFlit]

@[simp] theorem execSeepSend_keeps (s : State) : Keeps s (execSeepSend s) := by
  unfold execSeepSend
  rw [keeps_next]
  dsimp only
  (repeat' split) <;> simp

@[simp] theorem execSeepAck_keeps (n : Nat) (s : State) : Keeps s (execSeepAck n s) := by simp only [execSeepAck]; (repeat' split) <;> simp

@[simp] theorem execSeepResend_keeps (s : State) : Keeps s (execSeepResend s) := by simp only [execSeepResend]; (repeat' split) <;> simp

@[simp] theorem execSeepGap_keeps (s : State) : Keeps s (execSeepGap s) := by simp only [execSeepGap]; (repeat' split) <;> simp

@[simp] theorem State.tckLog_keeps (s : State) (cause port : Nat) : (State.tckLog s cause port).host.locks = s.host.locks ∧ (State.tckLog s cause port).pending = s.pending := by simp [State.tckLog]

@[simp] theorem State.stepTick_keeps (s : State) (n : Int) : (State.stepTick s n).host.locks = s.host.locks ∧ (State.stepTick s n).pending = s.pending := by simp [State.stepTick]

@[simp] theorem State.slewTick_keeps (s : State) (n : Int) : (State.slewTick s n).host.locks = s.host.locks ∧ (State.slewTick s n).pending = s.pending := by simp [State.slewTick]

@[simp] theorem State.tckFilter_keeps (s : State) : (State.tckFilter s).host.locks = s.host.locks ∧ (State.tckFilter s).pending = s.pending := by simp [State.tckFilter]

@[simp] theorem State.tckEnter_keeps (s : State) (a : Align) : (State.tckEnter s a).host.locks = s.host.locks ∧ (State.tckEnter s a).pending = s.pending := by simp [State.tckEnter]

@[simp] theorem State.tckCorrect_keeps (s : State) : (State.tckCorrect s).host.locks = s.host.locks ∧ (State.tckCorrect s).pending = s.pending := by simp only [State.tckCorrect]; (repeat' split) <;> simp

@[simp] theorem State.tckAligned_keeps (s : State) : (State.tckAligned s).host.locks = s.host.locks ∧ (State.tckAligned s).pending = s.pending := by simp [State.tckAligned]

@[simp] theorem State.tckJudge_keeps (s : State) (a : Int) (port : Nat) : (State.tckJudge s a port).host.locks = s.host.locks ∧ (State.tckJudge s a port).pending = s.pending := by simp only [State.tckJudge]; (repeat' split) <;> simp

@[simp] theorem State.tckExchange_keeps (s : State) (port t1 t2 t3 t4 : Nat) (retx : Bool) : (State.tckExchange s port t1 t2 t3 t4 retx).host.locks = s.host.locks ∧ (State.tckExchange s port t1 t2 t3 t4 retx).pending = s.pending := by simp only [State.tckExchange]; (repeat' split) <;> simp

@[simp] theorem State.tckReparent_keeps (s : State) (backup : Bool) : (State.tckReparent s backup).host.locks = s.host.locks ∧ (State.tckReparent s backup).pending = s.pending := by simp [State.tckReparent]

@[simp] theorem State.takeExchange_keeps (s : State) (p : Nat) (e : Exchange) : (State.takeExchange s p e).1.host.locks = s.host.locks ∧ (State.takeExchange s p e).1.pending = s.pending := by simp only [State.takeExchange]; (repeat' split) <;> simp

@[simp] theorem execTickExchange_keeps (t1 t2 t3 t4 : Nat) (retx : Bool) (s : State) : Keeps s (execTickExchange t1 t2 t3 t4 retx s) := by simp only [execTickExchange]; (repeat' split) <;> simp

@[simp] theorem execTickHoldover_keeps (s : State) : Keeps s (execTickHoldover s) := by simp only [execTickHoldover]; (repeat' split) <;> simp

@[simp] theorem execTickLost_keeps (s : State) : Keeps s (execTickLost s) := by simp only [execTickLost]; (repeat' split) <;> simp

@[simp] theorem State.writeTckCfg_keeps (s : State) (v : Nat) : (State.writeTckCfg s v).host.locks = s.host.locks ∧ (State.writeTckCfg s v).pending = s.pending := by simp only [State.writeTckCfg]; (repeat' split) <;> simp

@[simp] theorem execTckReparent_keeps (m : Master) (v : Word) (s : State) : Keeps s (execTckReparent m v s) := by simp [execTckReparent]

end Sys2Proof.Machine
end

