-- ==== Sys2Proof/Laws/KeepsHost.lean ====
section
/-! SUPPORT. The host interface, the registers and the threads keep the queue. -/

namespace Sys2Proof.Machine

open Sys2Proof

@[simp] theorem execHifMbxDb_keeps (m : Master) (seq : BitVec 16) (s : State) : Keeps s (execHifMbxDb m seq s) := by simp only [execHifMbxDb]; (repeat' split) <;> simp

@[simp] theorem execHifMbxAck_keeps (m : Master) (seq : BitVec 16) (s : State) : Keeps s (execHifMbxAck m seq s) := by simp only [execHifMbxAck]; (repeat' split) <;> simp

@[simp] theorem execMbxDone_keeps (s : State) : Keeps s (execMbxDone s) := by simp [execMbxDone]

@[simp] theorem execShape_keeps (s : State) : Keeps s (execShape s) := by simp only [execShape]; (repeat' split) <;> simp

@[simp] theorem execEcho_keeps (s : State) : Keeps s (execEcho s) := by simp only [execEcho]; (repeat' split) <;> simp

@[simp] theorem State.setSlot_keeps (s : State) (k : Nat) (x : KeySlot) : (State.setSlot s k x).host.locks = s.host.locks ∧ (State.setSlot s k x).pending = s.pending := by simp [State.setSlot]

@[simp] theorem execKeyRotate_keeps (s : State) : Keeps s (execKeyRotate s) := by simp only [execKeyRotate]; (repeat' split) <;> simp

@[simp] theorem State.mgtLog_keeps (s : State) (cause : Nat) (f : Frame) : (State.mgtLog s cause f).host.locks = s.host.locks ∧ (State.mgtLog s cause f).pending = s.pending := by simp [State.mgtLog]

@[simp] theorem reserve_keeps (s : State) (resv n : Nat) : (reserve s resv n).2.host.locks = s.host.locks ∧ (reserve s resv n).2.pending = s.pending := by simp only [reserve]; (repeat' split) <;> simp

@[simp] theorem State.collide_keeps (s : State) :
    (State.collide s).1.host.locks = s.host.locks ∧ (State.collide s).1.pending = s.pending := by
  simp only [State.collide]; split <;> simp

@[simp] theorem State.sendFrame_keeps (s : State) (k mac : Nat) (body : List Byte) :
    (State.sendFrame s k mac body).host.locks = s.host.locks ∧ (State.sendFrame s k mac body).pending = s.pending := by
  simp only [State.sendFrame]; (repeat' split) <;> simp

@[simp] theorem State.answerFrame_keeps (s : State) (f : Frame) (run : State → Frame → Reply)
    (h : ∀ z g, (run z g).1.host.locks = z.host.locks ∧ (run z g).1.pending = z.pending) :
    (s.answerFrame f run).host.locks = s.host.locks ∧ (s.answerFrame f run).pending = s.pending := by
  simp only [State.answerFrame]; split <;> simp [h]

@[simp] theorem State.acceptFrame_keeps (s : State) (f : Frame) (serve : State → State) (h : ∀ z, (serve z).host.locks = z.host.locks ∧ (serve z).pending = z.pending) : (State.acceptFrame s f serve).host.locks = s.host.locks ∧ (State.acceptFrame s f serve).pending = s.pending := by simp only [State.acceptFrame]; (repeat' split) <;> simp_all

@[simp] theorem State.takeFrame_keeps (s : State) (f : Frame) (serve : State → State) (h : ∀ z, (serve z).host.locks = z.host.locks ∧ (serve z).pending = z.pending) : (State.takeFrame s f serve).host.locks = s.host.locks ∧ (State.takeFrame s f serve).pending = s.pending := by simp only [State.takeFrame]; (repeat' split) <;> simp_all

theorem Frame.serve_alike (s : State) (f : Frame) (run : State → Frame → Reply)
    (h : ∀ z g, (run z g).1.host.locks = z.host.locks ∧ (run z g).1.pending = z.pending) :
    (s.takeFrame f (fun z => z.answerFrame f run)).host.locks = s.host.locks ∧
    (s.takeFrame f (fun z => z.answerFrame f run)).pending = s.pending :=
  State.takeFrame_keeps s f _ (fun z => State.answerFrame_keeps z f run h)

@[simp] theorem runMbx_keeps (s : State) (f : Frame) :
    (runMbx s f).1.host.locks = s.host.locks ∧ (runMbx s f).1.pending = s.pending := by
  simp only [runMbx, State.malformed]; (repeat' split) <;> simp

@[simp] theorem runMbxAck_keeps (s : State) (f : Frame) :
    (runMbxAck s f).1.host.locks = s.host.locks ∧ (runMbxAck s f).1.pending = s.pending := by
  simp only [runMbxAck]; (repeat' split) <;> simp

@[simp] theorem execMbx_keeps (f : Frame) (s : State) : Keeps s (execMbx f s) := by
  simp only [execMbx, keeps_next]; split
  · exact Frame.serve_alike s f runMbx (fun z g => runMbx_keeps z g)
  · simp

@[simp] theorem execMbxAck_keeps (f : Frame) (s : State) : Keeps s (execMbxAck f s) := by
  simp only [execMbxAck, keeps_next]; split
  · exact Frame.serve_alike s f runMbxAck (fun z g => runMbxAck_keeps z g)
  · simp

@[simp] theorem execMbxPoll_keeps (f : Frame) (s : State) : Keeps s (execMbxPoll f s) := by
  simp only [execMbxPoll, keeps_next]; split
  · exact Frame.serve_alike s f runMbxPoll (fun z g => by simp [runMbxPoll])
  · simp

@[simp] theorem execForeignFrame_keeps (f : Frame) (s : State) : Keeps s (execForeignFrame f s) := by simp only [execForeignFrame]; (repeat' split) <;> simp

@[simp] theorem execNotify_keeps (b : Fin 32) (s : State) : Keeps s (execNotify b s) := by
  have hf : ∀ t z, Alike z (elapseTo t z) := fun t z => ⟨by simp, by simp⟩
  unfold execNotify
  generalize elapseTo = f at hf ⊢
  extract_lets n s1 h0 s2
  rw [keeps_alike]
  split
  · exact ⟨rfl, rfl⟩
  · have h1 : Alike s s1 := by
      simp only [s1]; split
      · exact ⟨rfl, rfl⟩
      · exact hf _ _
    have h2 : Alike s s2 := h1
    exact ⟨by simp [h2.1], by simp [h2.2]⟩

@[simp] theorem State.plcaStart_keeps (s : State) : (State.plcaStart s).host.locks = s.host.locks ∧ (State.plcaStart s).pending = s.pending := by simp [State.plcaStart]

@[simp] theorem execMgtLinkChange_keeps (up : Bool) (s : State) : Keeps s (execMgtLinkChange up s) := by simp only [execMgtLinkChange]; (repeat' split) <;> simp

@[simp] theorem State.clkLog_keeps (s : State) (cls cause die : Nat) : (State.clkLog s cls cause die).host.locks = s.host.locks ∧ (State.clkLog s cls cause die).pending = s.pending := by simp [State.clkLog]

@[simp] theorem State.selectRef_keeps (s : State) : (State.selectRef s).host.locks = s.host.locks ∧ (State.selectRef s).pending = s.pending := by simp only [State.selectRef]; (repeat' split) <;> simp

@[simp] theorem State.qualify_keeps (s : State) (was now : Bool) (cause : Nat) : (State.qualify s was now cause).host.locks = s.host.locks ∧ (State.qualify s was now cause).pending = s.pending := by simp only [State.qualify]; (repeat' split) <;> simp

@[simp] theorem State.measure_keeps (s : State) : (State.measure s).host.locks = s.host.locks ∧ (State.measure s).pending = s.pending := by simp [State.measure]

@[simp] theorem execQualWindow_keeps (refx xrc refrc : Nat) (s : State) : Keeps s (execQualWindow refx xrc refrc s) := by simp [execQualWindow]

@[simp] theorem execPllUnlock_keeps (pll : Fin 9) (s : State) : Keeps s (execPllUnlock pll s) := by simp [execPllUnlock]

@[simp] theorem State.pwrLog_keeps (s : State) (cause rail : Nat) : (State.pwrLog s cause rail).host.locks = s.host.locks ∧ (State.pwrLog s cause rail).pending = s.pending := by simp [State.pwrLog]

@[simp] theorem execPowerAlert_keeps (watts tmax : Nat) (s : State) : Keeps s (execPowerAlert watts tmax s) := by simp only [execPowerAlert]; (repeat' split) <;> simp

@[simp] theorem execAlertEnd_keeps (s : State) : Keeps s (execAlertEnd s) := by simp [execAlertEnd]

@[simp] theorem State.govern_keeps (s : State) (p gap : Nat) : (State.govern s p gap).host.locks = s.host.locks ∧ (State.govern s p gap).pending = s.pending := by simp [State.govern]

@[simp] theorem execGovernorStep_keeps (s : State) : Keeps s (execGovernorStep s) := by simp only [execGovernorStep]; (repeat' split) <;> simp

@[simp] theorem State.rstLog_keeps (s : State) (cls cause die core : Nat) : (State.rstLog s cls cause die core).host.locks = s.host.locks ∧ (State.rstLog s cls cause die core).pending = s.pending := by simp [State.rstLog]

@[simp] theorem execProgressExpiry_keeps (c : Fin 256) (t : Fin 16) (s : State) : Keeps s (execProgressExpiry c t s) := by simp only [execProgressExpiry]; (repeat' split) <;> simp

@[simp] theorem State.coreBarks_keeps (s : State) (c die : Nat) : (State.coreBarks s c die).host.locks = s.host.locks ∧ (State.coreBarks s c die).pending = s.pending := by simp only [State.coreBarks]; (repeat' split) <;> simp

@[simp] theorem execCoreWatchdog_keeps (c : Fin 256) (s : State) : Keeps s (execCoreWatchdog c s) := by simp only [execCoreWatchdog]; (repeat' split) <;> simp

@[simp] theorem execPartitionWatchdog_keeps (s : State) : Keeps s (execPartitionWatchdog s) := by simp only [execPartitionWatchdog]; (repeat' split) <;> simp

@[simp] theorem State.drawCycles_keeps (s : State) (n : Nat) : (State.drawCycles s n).1.host.locks = s.host.locks ∧ (State.drawCycles s n).1.pending = s.pending := by simp only [State.drawCycles]; (repeat' split) <;> simp

@[simp] theorem State.meterPage_keeps (s : State) (page : Nat) : (State.meterPage s page).host.locks = s.host.locks ∧ (State.meterPage s page).pending = s.pending := by simp only [State.meterPage]; (repeat' split) <;> simp

@[simp] theorem State.regDraw_keeps (s : State) (page o : Nat) : (State.regDraw s page o).1.host.locks = s.host.locks ∧ (State.regDraw s page o).1.pending = s.pending := by simp [State.regDraw]

@[simp] theorem State.counterDraw_keeps (s : State) (page : Nat) (c : Nat × Bool) : (State.counterDraw s page c).1.host.locks = s.host.locks ∧ (State.counterDraw s page c).1.pending = s.pending := by simp only [State.counterDraw]; (repeat' split) <;> simp

@[simp] theorem State.clearKept_keeps (s : State) (page : Nat) : (State.clearKept s page).host.locks = s.host.locks ∧ (State.clearKept s page).pending = s.pending := by simp only [State.clearKept]; (repeat' split) <;> simp

@[simp] theorem State.clearCounters_keeps (s : State) (page : Nat) : (State.clearCounters s page).host.locks = s.host.locks ∧ (State.clearCounters s page).pending = s.pending := by simp [State.clearCounters]

@[simp] theorem State.releaseLog_keeps (s : State) (page : Nat) : (State.releaseLog s page).host.locks = s.host.locks ∧ (State.releaseLog s page).pending = s.pending := by simp [State.releaseLog]

@[simp] theorem State.setOwner_keeps (s : State) (key m : Nat) : (s.setOwner key m).pending = s.pending := rfl

@[simp] theorem State.grantLock_keeps (s : State) (m : Master) (key : Nat) : (s.grantLock m key).pending = s.pending := by simp [State.grantLock]

@[simp] theorem State.claim_keeps (s : State) (m : Master) (key : Nat) : (State.claim s m key).pending = s.pending := by simp only [State.claim]; (repeat' split) <;> simp

@[simp] theorem State.unclaim_keeps (s : State) (m : Master) (key : Nat) : (State.unclaim s m key).pending = s.pending := by simp only [State.unclaim]; (repeat' split) <;> simp

@[simp] theorem State.writeLock_keeps (s : State) (m : Master) (key v : Nat) : (State.writeLock s m key v).pending = s.pending := by simp only [State.writeLock]; (repeat' split) <;> simp

@[simp] theorem State.releaseAll_keeps (s : State) (code : Nat) : (s.releaseAll code).pending = s.pending := rfl

@[simp] theorem State.semLog_keeps (s : State) (cause code : Nat) (page : Option Nat) : (State.semLog s cause code page).host.locks = s.host.locks ∧ (State.semLog s cause code page).pending = s.pending := by simp [State.semLog]

@[simp] theorem State.pcieUnlock_keeps (s : State) : (State.pcieUnlock s).pending = s.pending := by simp [State.pcieUnlock]

@[simp] theorem State.bulkStat_keeps (s : State) (m : Master) (result holder page : Nat) : (State.bulkStat s m result holder page).host.locks = s.host.locks ∧ (State.bulkStat s m result holder page).pending = s.pending := by simp only [State.bulkStat]; (repeat' split) <;> simp

@[simp] theorem State.genBulk_keeps (s : State) (m : Master) (v : Nat) : (State.genBulk s m v).pending = s.pending := by simp only [State.genBulk]; (repeat' split) <;> simp

@[simp] theorem State.lockOp_keeps (s : State) (m : Master) (op : LockOp) : (s.lockOp m op).pending = s.pending := by
  cases op <;> simp [State.lockOp]

@[simp] theorem State.beforePcie_keeps (s : State) (c : LockCycle) : (State.beforePcie s c).pending = s.pending := by
  have h : (c.pcie.foldl (fun a k => a.setOwner k 1) (s.releaseAll 1)).pending = s.pending :=
    (foldl_pending (fun (a : State) k => a.setOwner k 1) (fun a i => rfl) c.pcie (s.releaseAll 1)).trans rfl
  unfold State.beforePcie
  exact (foldl_pending _ (fun a i => by simp) _ _).trans (by simp [h])

@[simp] theorem State.lockTurn_keeps (s : State) (m : Master) (op : LockOp) : (State.lockTurn s m op).pending = s.pending := by
  simp only [State.lockTurn]
  split; · simp
  split; · simp
  split; · simp
  exact (foldl_pending _ (fun a i => by simp) _ _).trans (by simp)

@[simp] theorem State.lockWrite_keeps (s : State) (m : Master) (key v : Nat) : (State.lockWrite s m key v).pending = s.pending := by
  simp only [State.lockWrite]; (repeat' split) <;> simp

@[simp] theorem execLockClaim_keeps (m : Master) (page : Nat) (s : State) : KeepsQueue s (execLockClaim m page s) := by simp [execLockClaim]

@[simp] theorem execLockRelease_keeps (m : Master) (page : Nat) (s : State) : KeepsQueue s (execLockRelease m page s) := by simp [execLockRelease]

@[simp] theorem execGenBulkClaim_keeps (m : Master) (v : Word) (s : State) : KeepsQueue s (execGenBulkClaim m v s) := by simp [execGenBulkClaim]

@[simp] theorem execGenBulkRelease_keeps (m : Master) (v : Word) (s : State) : KeepsQueue s (execGenBulkRelease m v s) := by simp [execGenBulkRelease]

@[simp] theorem State.beat_keeps (s : State) (m : Master) : (State.beat s m).host.locks = s.host.locks ∧ (State.beat s m).pending = s.pending := by simp only [State.beat]; (repeat' split) <;> simp

@[simp] theorem execSemHb_keeps (m : Master) (s : State) : Keeps s (execSemHb m s) := by simp only [execSemHb]; (repeat' split) <;> simp

@[simp] theorem State.force_keeps (s : State) (v : Nat) : (State.force s v).pending = s.pending := by simp only [State.force]; (repeat' split) <;> simp

@[simp] theorem execSemForce_keeps (m : Master) (v : Word) (s : State) : KeepsQueue s (execSemForce m v s) := by simp [execSemForce]

theorem State.leaseEnd_queue (s : State) (n ms c : Nat) (m : Master) :
    (if ms = 0 then s
     else
      let s1 := elapseTo n s
      (((s1.releaseAll c).semLog 1 c none).setInt pgSEM 1).beat m).pending = s.pending := by
  split
  · rfl
  · simp

@[simp] theorem execLeaseExpiry_keeps (m : Master) (s : State) : KeepsQueue s (execLeaseExpiry m s) := by
  unfold execLeaseExpiry
  rw [keepsQueue_next]
  exact State.leaseEnd_queue ..

@[simp] theorem State.writeDump_keeps (s : State) (type : Nat) : (State.writeDump s type).host.locks = s.host.locks ∧ (State.writeDump s type).pending = s.pending := by simp [State.writeDump]

@[simp] theorem State.dumpDone_keeps (s : State) : (State.dumpDone s).host.locks = s.host.locks ∧ (State.dumpDone s).pending = s.pending := by simp only [State.dumpDone]; (repeat' split) <;> simp

@[simp] theorem State.clearCorePages_keeps (s : State) (c : Nat) : (State.clearCorePages s c).host.locks = s.host.locks ∧ (State.clearCorePages s c).pending = s.pending := by simp [State.clearCorePages]

@[simp] theorem State.resetCore_keeps (s : State) (c : Nat) : (State.resetCore s c).host.locks = s.host.locks ∧ (State.resetCore s c).pending = s.pending := by simp [State.resetCore]

@[simp] theorem State.resetDie_keeps (s : State) (d : Nat) : (State.resetDie s d).host.locks = s.host.locks ∧ (State.resetDie s d).pending = s.pending := by simp [State.resetDie]

@[simp] theorem State.zeroDie_keeps (s : State) (d : Nat) : (State.zeroDie s d).host.locks = s.host.locks ∧ (State.zeroDie s d).pending = s.pending := by simp [State.zeroDie]

@[simp] theorem State.loseStack_keeps (s : State) (n : Nat) : (State.loseStack s n).host.locks = s.host.locks ∧ (State.loseStack s n).pending = s.pending := by simp [State.loseStack]

@[simp] theorem State.cutTest_keeps (s : State) : (State.cutTest s).host.locks = s.host.locks ∧ (State.cutTest s).pending = s.pending := by simp only [State.cutTest]; (repeat' split) <;> simp

@[simp] theorem State.reportCut_keeps (s : State) (test : Option (Nat × Nat)) : (State.reportCut s test).host.locks = s.host.locks ∧ (State.reportCut s test).pending = s.pending := by simp only [State.reportCut]; (repeat' split) <;> simp

@[simp] theorem State.keepRegs_keeps (s : State) (f : Nat → Nat → Bool) : (State.keepRegs s f).host.locks = s.host.locks ∧ (State.keepRegs s f).pending = s.pending := by simp [State.keepRegs]

@[simp] theorem State.warmTrain_keeps (s : State) : (State.warmTrain s).host.locks = s.host.locks ∧ (State.warmTrain s).pending = s.pending := by constructorm* _ ∧ _ <;> rfl

@[simp] theorem State.warmRetire_keeps (s : State) : (State.warmRetire s).host.locks = s.host.locks ∧ (State.warmRetire s).pending = s.pending := by simp only [State.warmRetire]; (repeat' split) <;> simp

@[simp] theorem State.warmWithdraw_keeps (s : State) : (State.warmWithdraw s).host.locks = s.host.locks ∧ (State.warmWithdraw s).pending = s.pending := by simp only [State.warmWithdraw]; (repeat' split) <;> simp

@[simp] theorem State.sumpFlush_keeps (s : State) : (State.sumpFlush s).host.locks = s.host.locks ∧ (State.sumpFlush s).pending = s.pending := by simp [State.sumpFlush]

@[simp] theorem State.warmClear_keeps (s : State) : (State.warmClear s).host.locks = s.host.locks ∧ (State.warmClear s).pending = s.pending := by simp only [State.warmClear]; (repeat' split) <;> simp

@[simp] theorem State.warm_keeps (s : State) (say : State → State) (h : ∀ z, (say z).host.locks = z.host.locks ∧ (say z).pending = z.pending) : (State.warm s say).host.locks = s.host.locks ∧ (State.warm s say).pending = s.pending := by simp only [State.warm]; (repeat' split) <;> simp_all

@[simp] theorem State.bare_keeps (s : State) : s.bare.pending = s.pending := rfl

@[simp] theorem State.binLimit_keeps (s : State) : (State.binLimit s).host.locks = s.host.locks ∧ (State.binLimit s).pending = s.pending := by simp [State.binLimit]

@[simp] theorem State.coldClear_keeps (s : State) : (State.coldClear s).pending = s.pending := by simp [State.coldClear]

@[simp] theorem State.cold_keeps (s : State) (last : Nat) : (State.cold s last).pending = s.pending := by simp [State.cold]

@[simp] theorem State.coldDump_keeps (s : State) (last : Nat) : (State.coldDump s last).pending = s.pending := by simp only [State.coldDump]; (repeat' split) <;> simp

@[simp] theorem State.mainCut_keeps (s : State) : (State.mainCut s).pending = s.pending := by simp [State.mainCut]

@[simp] theorem State.rstRefuse_keeps (s : State) (code die core : Nat) : (State.rstRefuse s code die core).host.locks = s.host.locks ∧ (State.rstRefuse s code die core).pending = s.pending := by simp [State.rstRefuse]

@[simp] theorem State.rstAbsorb_keeps (s : State) (counter : Nat) : (State.rstAbsorb s counter).host.locks = s.host.locks ∧ (State.rstAbsorb s counter).pending = s.pending := by simp [State.rstAbsorb]

@[simp] theorem State.beginReset_keeps (s : State) (dom : Dom) (target last counter : Nat) : (State.beginReset s dom target last counter).host.locks = s.host.locks ∧ (State.beginReset s dom target last counter).pending = s.pending := by simp [State.beginReset]

@[simp] theorem State.takeCoreReset_keeps (s : State) (c : Nat) : (State.takeCoreReset s c).host.locks = s.host.locks ∧ (State.takeCoreReset s c).pending = s.pending := by simp [State.takeCoreReset]

@[simp] theorem State.takeDieReset_keeps (s : State) (d : Nat) : (State.takeDieReset s d).host.locks = s.host.locks ∧ (State.takeDieReset s d).pending = s.pending := by simp [State.takeDieReset]

@[simp] theorem State.requestWarm_keeps (s : State) (say : State → State) (h : ∀ z, (say z).host.locks = z.host.locks ∧ (say z).pending = z.pending) : (State.requestWarm s say).host.locks = s.host.locks ∧ (State.requestWarm s say).pending = s.pending := by simp only [State.requestWarm]; (repeat' split) <;> simp_all

@[simp] theorem State.afterDump_keeps (s : State) : (State.afterDump s).host.locks = s.host.locks ∧ (State.afterDump s).pending = s.pending := by simp only [State.afterDump]; (repeat' split) <;> simp

@[simp] theorem execRstCore_keeps (m : Master) (s : State) : Keeps s (execRstCore m s) := by simp only [execRstCore, keeps_next]; apply State.lk_keeps; intro z; constructor <;> ((repeat' split) <;> simp)

@[simp] theorem execRstDie_keeps (m : Master) (s : State) : Keeps s (execRstDie m s) := by simp only [execRstDie, keeps_next]; apply State.lk_keeps; intro z; constructor <;> ((repeat' split) <;> simp)

@[simp] theorem execRstWarm_keeps (m : Master) (s : State) : Keeps s (execRstWarm m s) := by simp [execRstWarm]

theorem State.lk_queue (s : State) (m : Master) (page o : Nat) (k : State → State) (h : ∀ z, (k z).pending = z.pending) :
    (s.lk m page o k).pending = s.pending := by
  simp only [State.lk]; (repeat' split) <;> simp [h]

@[simp] theorem execRstCold_keeps (m : Master) (s : State) : KeepsQueue s (execRstCold m s) := by
  simp only [execRstCold, keepsQueue_next]; exact State.lk_queue _ _ _ _ _ (fun z => by simp)

@[simp] theorem execRstSpare_keeps (m : Master) (s : State) : Keeps s (execRstSpare m s) := by simp only [execRstSpare, keeps_next]; apply State.lk_keeps; intro z; constructor <;> ((repeat' split) <;> simp)

@[simp] theorem execResetDone_keeps (die : Bool) (target : Nat) (s : State) : Keeps s (execResetDone die target s) := by simp only [execResetDone]; (repeat' split) <;> simp

@[simp] theorem execWarmRecoveryDone_keeps (s : State) : Keeps s (execWarmRecoveryDone s) := by simp only [execWarmRecoveryDone]; (repeat' split) <;> simp

@[simp] theorem State.escalates_keeps (s : State) (cause die core : Nat) : (State.escalates s cause die core).host.locks = s.host.locks ∧ (State.escalates s cause die core).pending = s.pending := by simp [State.escalates]

@[simp] theorem execResetEscalation_keeps (s : State) : Keeps s (execResetEscalation s) := by simp only [execResetEscalation]; (repeat' split) <;> simp

@[simp] theorem State.mbxAbort_keeps (s : State) : (State.mbxAbort s).host.locks = s.host.locks ∧ (State.mbxAbort s).pending = s.pending := by simp only [State.mbxAbort]; (repeat' split) <;> simp

@[simp] theorem State.fwBarks_keeps (s : State) : (State.fwBarks s).host.locks = s.host.locks ∧ (State.fwBarks s).pending = s.pending := by simp [State.fwBarks]

@[simp] theorem execFirmwareWatchdog_keeps (s : State) : Keeps s (execFirmwareWatchdog s) := by simp only [execFirmwareWatchdog]; (repeat' split) <;> simp

@[simp] theorem State.trainPcie_keeps (s : State) : (State.trainPcie s).host.locks = s.host.locks ∧ (State.trainPcie s).pending = s.pending := by simp [State.trainPcie]

@[simp] theorem State.pcieReset_keeps (rtype : Nat) (s : State) : (State.pcieReset rtype s).pending = s.pending := by simp [State.pcieReset]

theorem State.warm_queue (s : State) (say : State → State) (h : ∀ z, (say z).pending = z.pending) :
    (s.warm say).pending = s.pending := by simp [State.warm, h]

theorem State.requestWarm_queue (s : State) (say : State → State) (h : ∀ z, (say z).pending = z.pending) :
    (s.requestWarm say).pending = s.pending := by
  simp only [State.requestWarm]; split <;> simp [State.warm_queue, h]

@[simp] theorem execConventionalReset_keeps (s : State) : KeepsQueue s (execConventionalReset s) := by
  simp only [execConventionalReset, keepsQueue_next]; split
  · rfl
  · exact State.requestWarm_queue _ _ (fun z => by simp)

@[simp] theorem execHotReset_keeps (s : State) : KeepsQueue s (execHotReset s) := by
  simp only [execHotReset, keepsQueue_next]; split
  · rfl
  · exact State.requestWarm_queue _ _ (fun z => by simp)

@[simp] theorem execFunctionLevelReset_keeps (s : State) : KeepsQueue s (execFunctionLevelReset s) := by
  simp only [execFunctionLevelReset, keepsQueue_next]; split
  · rfl
  · exact State.requestWarm_queue _ _ (fun z => by simp)

@[simp] theorem execMrst_keeps (s : State) : KeepsQueue s (execMrst s) := by simp [execMrst]

@[simp] theorem execMrstRelease_keeps (s : State) : Keeps s (execMrstRelease s) := by
  simp only [execMrstRelease, keeps_next]; split <;> simp

@[simp] theorem execAuxPowerUp_keeps (s : State) : Keeps s (execAuxPowerUp s) := by
  simp only [execAuxPowerUp, keeps_next]; (repeat' split) <;> simp

@[simp] theorem execAuxPowerLoss_keeps (s : State) : KeepsQueue s (execAuxPowerLoss s) := by simp [execAuxPowerLoss]

@[simp] theorem execMainPowerUp_keeps (s : State) : KeepsQueue s (execMainPowerUp s) := by simp [execMainPowerUp]

@[simp] theorem execMainPowerLoss_keeps (s : State) : KeepsQueue s (execMainPowerLoss s) := by simp [execMainPowerLoss]

@[simp] theorem State.tripNow_keeps (s : State) : (State.tripNow s).pending = s.pending := by simp [State.tripNow]

@[simp] theorem execTrip_keeps (watts tmax : Nat) (s : State) : KeepsQueue s (execTrip watts tmax s) := by simp [execTrip]

@[simp] theorem execRailFault_keeps (r : Fin 9) (mv : Nat) (s : State) : KeepsQueue s (execRailFault r mv s) := by simp [execRailFault]

@[simp] theorem execD3hotEntry_keeps (s : State) : Keeps s (execD3hotEntry s) := by simp only [execD3hotEntry]; (repeat' split) <;> simp

@[simp] theorem State.sendPending_keeps (s : State) : (State.sendPending s).host.locks = s.host.locks ∧ (State.sendPending s).pending = s.pending := by unfold State.sendPending; refine foldl_alike _ (fun a x => ?_) _ _; unfold Alike; dsimp only; (repeat' split) <;> simp

@[simp] theorem execD0Resume_keeps (s : State) : Keeps s (execD0Resume s) := by simp only [execD0Resume]; (repeat' split) <;> simp

@[simp] theorem execPmeRepeat_keeps (s : State) : Keeps s (execPmeRepeat s) := by simp [execPmeRepeat]

@[simp] theorem State.ringFull_keeps (s : State) : (State.ringFull s).host.locks = s.host.locks ∧ (State.ringFull s).pending = s.pending := by simp only [State.ringFull]; (repeat' split) <;> simp

@[simp] theorem State.drainSome_keeps (n : Nat) (s : State) :
    (State.drainSome n s).host.locks = s.host.locks ∧ (State.drainSome n s).pending = s.pending := by
  induction n generalizing s with
  | zero => exact ⟨rfl, rfl⟩
  | succ n ih => simp only [State.drainSome]; (repeat' split) <;> simp [ih]

@[simp] theorem State.lostRecord_keeps (s : State) : (State.lostRecord s).host.locks = s.host.locks ∧ (State.lostRecord s).pending = s.pending := by simp only [State.lostRecord]; (repeat' split) <;> simp

@[simp] theorem execTraceDrain_keeps (s : State) : Keeps s (execTraceDrain s) := by simp only [execTraceDrain]; (repeat' split) <;> simp

@[simp] theorem execTrcSnap_keeps (m : Master) (s : State) : Keeps s (execTrcSnap m s) := by simp [execTrcSnap]

@[simp] theorem State.snapPage_keeps (s : State) (page : Nat) : (State.snapPage s page).host.locks = s.host.locks ∧ (State.snapPage s page).pending = s.pending := by simp [State.snapPage]

@[simp] theorem State.snapshot_keeps (s : State) : (State.snapshot s).host.locks = s.host.locks ∧ (State.snapshot s).pending = s.pending := by simp only [State.snapshot]; (repeat' split) <;> simp

@[simp] theorem execSnapshotLatch_keeps (s : State) : Keeps s (execSnapshotLatch s) := by simp only [execSnapshotLatch]; (repeat' split) <;> simp

@[simp] theorem State.tstRefused_keeps (s : State) (op target code : Nat) : (State.tstRefused s op target code).host.locks = s.host.locks ∧ (State.tstRefused s op target code).pending = s.pending := by simp [State.tstRefused]

@[simp] theorem State.tstStart_keeps (s : State) (op target size : Nat) : (State.tstStart s op target size).host.locks = s.host.locks ∧ (State.tstStart s op target size).pending = s.pending := by simp only [State.tstStart]; (repeat' split) <;> simp

@[simp] theorem State.tstPhase_keeps (s : State) (op : Nat) (p : Phase) : (State.tstPhase s op p).host.locks = s.host.locks ∧ (State.tstPhase s op p).pending = s.pending := by simp [State.tstPhase]

@[simp] theorem execEnterTest_keeps (m : Master) (s : State) : Keeps s (execEnterTest m s) := by simp only [execEnterTest, keeps_next]; apply State.lk_keeps; intro z; constructor <;> ((repeat' split) <;> simp)

@[simp] theorem execLeaveTest_keeps (m : Master) (s : State) : Keeps s (execLeaveTest m s) := by simp only [execLeaveTest, keeps_next]; apply State.lk_keeps; intro z; constructor <;> ((repeat' split) <;> simp)

@[simp] theorem execLbist_keeps (m : Master) (s : State) : Keeps s (execLbist m s) := by simp [execLbist]

@[simp] theorem execMbistDie_keeps (m : Master) (s : State) : Keeps s (execMbistDie m s) := by simp [execMbistDie]

@[simp] theorem execMbistDevice_keeps (m : Master) (s : State) : Keeps s (execMbistDevice m s) := by simp [execMbistDevice]

@[simp] theorem execHbmTest_keeps (m : Master) (s : State) : Keeps s (execHbmTest m s) := by simp [execHbmTest]

@[simp] theorem State.dieAfterTest_keeps (s : State) (d : Nat) : (State.dieAfterTest s d).host.locks = s.host.locks ∧ (State.dieAfterTest s d).pending = s.pending := by simp [State.dieAfterTest]

@[simp] theorem State.devAfterTest_keeps (s0 : State) : (State.devAfterTest s0).host.locks = s0.host.locks ∧ (State.devAfterTest s0).pending = s0.pending := by simp [State.devAfterTest]

@[simp] theorem State.afterTest_keeps (s : State) (op target fails : Nat) : (State.afterTest s op target fails).host.locks = s.host.locks ∧ (State.afterTest s op target fails).pending = s.pending := by simp only [State.afterTest]; (repeat' split) <;> simp

@[simp] theorem State.logFailed_keeps (s : State) (op target : Nat) : (State.logFailed s op target).host.locks = s.host.locks ∧ (State.logFailed s op target).pending = s.pending := by simp only [State.logFailed]; (repeat' split) <;> simp

@[simp] theorem execTestDone_keeps (fails : Nat) (s : State) : Keeps s (execTestDone fails s) := by simp only [execTestDone]; (repeat' split) <;> simp

@[simp] theorem State.tapSelect_keeps (s : State) (n : Nat) : (State.tapSelect s n).pending = s.pending := by simp only [State.tapSelect]; (repeat' split) <;> simp

@[simp] theorem State.tapDrive_keeps (s : State) (n : Nat) : (State.tapDrive s n).pending = s.pending := by simp [State.tapDrive]

@[simp] theorem execBypass_keeps (s : State) : KeepsQueue s (execBypass s) := by simp [execBypass]

@[simp] theorem execIdcode_keeps (s : State) : KeepsQueue s (execIdcode s) := by simp [execIdcode]

@[simp] theorem execSamplePreload_keeps (pins drv : Nat) (s : State) : KeepsQueue s (execSamplePreload pins drv s) := by simp [execSamplePreload]

@[simp] theorem execExtest_keeps (s : State) : KeepsQueue s (execExtest s) := by simp [execExtest]

@[simp] theorem execExtestPulse_keeps (s : State) : KeepsQueue s (execExtestPulse s) := by simp [execExtestPulse]

@[simp] theorem execExtestTrain_keeps (s : State) : KeepsQueue s (execExtestTrain s) := by simp [execExtestTrain]

@[simp] theorem execTestLogicReset_keeps (s : State) : KeepsQueue s (execTestLogicReset s) := by simp [execTestLogicReset]

@[simp] theorem State.unload_keeps (s : State) : (State.unload s).host.locks = s.host.locks ∧ (State.unload s).pending = s.pending := by simp [State.unload]

@[simp] theorem State.lateFlits_keeps (s : State) : (State.lateFlits s).host.locks = s.host.locks ∧ (State.lateFlits s).pending = s.pending := by simp only [State.lateFlits]; (repeat' split) <;> simp

@[simp] theorem execSchLoad_keeps (m : Master) (s : State) : Keeps s (execSchLoad m s) := by simp only [execSchLoad, keeps_next]; apply State.lk_keeps; intro z; constructor <;> ((repeat' split) <;> simp)

@[simp] theorem execImageLoadDone_keeps (s : State) : Keeps s (execImageLoadDone s) := by simp only [execImageLoadDone]; (repeat' split) <;> simp

theorem execSchArm_begin (z : State) (o : Option Nat) :
    Alike z (if z.sch.job ≠ .loaded then z.schRefuse 1
      else match o with
        | some code => z.schRefuse code
        | none => (({ z with sch := { z.sch with start := z.schArg, resume := false } }).stressStart).setJob .armed) := by
  simp only [Alike]
  split
  · simp
  · cases o <;> simp

@[simp] theorem execSchArm_keeps (m : Master) (s : State) : Keeps s (execSchArm m s) := by
  unfold execSchArm
  rw [keeps_alike]
  exact State.lk_alike _ _ _ _ _ (fun z => execSchArm_begin z _)

@[simp] theorem execSchDisarm_keeps (m : Master) (s : State) : Keeps s (execSchDisarm m s) := by simp only [execSchDisarm, keeps_next]; apply State.lk_keeps; intro z; constructor <;> ((repeat' split) <;> simp)

@[simp] theorem execSchUnload_keeps (m : Master) (s : State) : Keeps s (execSchUnload m s) := by simp only [execSchUnload, keeps_next]; apply State.lk_keeps; intro z; constructor <;> ((repeat' split) <;> simp)

@[simp] theorem execSchPark_keeps (m : Master) (s : State) : Keeps s (execSchPark m s) := by simp only [execSchPark, keeps_next]; apply State.lk_keeps; intro z; constructor <;> ((repeat' split) <;> simp)

theorem execSchResume_begin (z : State) (o : Option Nat) :
    Alike z (if z.sch.job ≠ .parked then z.schRefuse 1
      else match o with
        | some code => z.schRefuse code
        | none => ({ z with sch := { z.sch with start := z.schArg, resume := true, phase := (if z.sch.phase == Phase.test then Phase.test else .startUp) } }).setJob .armed) := by
  simp only [Alike]
  split
  · simp
  · cases o <;> simp

@[simp] theorem execSchResume_keeps (m : Master) (s : State) : Keeps s (execSchResume m s) := by
  unfold execSchResume
  rw [keeps_alike]
  exact State.lk_alike _ _ _ _ _ (fun z => execSchResume_begin z _)

@[simp] theorem execSchStop_keeps (m : Master) (s : State) : Keeps s (execSchStop m s) := by simp only [execSchStop, keeps_next]; apply State.lk_keeps; intro z; constructor <;> ((repeat' split) <;> simp)

@[simp] theorem execStartTick_keeps (s : State) : Keeps s (execStartTick s) := by simp only [execStartTick]; (repeat' split) <;> simp

@[simp] theorem execPier0Seal_keeps (reports : List PierReport) (s : State) : Keeps s (execPier0Seal reports s) := by simp only [execPier0Seal]; (repeat' split) <;> simp

@[simp] theorem execSpanStart_keeps (s : State) : Keeps s (execSpanStart s) := by simp only [execSpanStart]; (repeat' split) <;> simp

@[simp] theorem execSpanEnd_keeps (s : State) : Keeps s (execSpanEnd s) := by simp only [execSpanEnd]; (repeat' split) <;> simp

@[simp] theorem execPierSeal_keeps (s : State) : Keeps s (execPierSeal s) := by simp only [execPierSeal]; (repeat' split) <;> simp

@[simp] theorem execGate_keeps (c : Fin 256) (s : State) : Keeps s (execGate c s) := by simp only [execGate]; (repeat' split) <;> simp

@[simp] theorem execWake_keeps (c : Fin 256) (s : State) : Keeps s (execWake c s) := by simp only [execWake]; (repeat' split) <;> simp

@[simp] theorem State.refreshBanks_keeps (s : State) (n g len : Nat) : (State.refreshBanks s n g len).host.locks = s.host.locks ∧ (State.refreshBanks s n g len).pending = s.pending := by simp [State.refreshBanks]

@[simp] theorem execRefreshWindow_keeps (n g : Fin 8) (s : State) : Keeps s (execRefreshWindow n g s) := by simp only [execRefreshWindow]; (repeat' split) <;> simp

@[simp] theorem execVfChange_keeps (inBand : Bool) (s : State) : Keeps s (execVfChange inBand s) := by simp only [execVfChange]; (repeat' split) <;> simp

@[simp] theorem execSkipRound_keeps (rx : List (Nat × Nat)) (s : State) : Keeps s (execSkipRound rx s) := by simp only [execSkipRound]; (repeat' split) <;> simp

@[simp] theorem execCloseRound_keeps (rx : List (Nat × List Nat)) (s : State) : Keeps s (execCloseRound rx s) := by simp only [execCloseRound]; (repeat' split) <;> simp

@[simp] theorem execReplicaDigestSend_keeps (peer : Option (List Nat)) (s : State) : Keeps s (execReplicaDigestSend peer s) := by simp only [execReplicaDigestSend]; (repeat' split) <;> simp

@[simp] theorem execVoteWindows_keeps (peer : List (Nat × Nat × Nat)) (s : State) : Keeps s (execVoteWindows peer s) := by simp only [execVoteWindows]; (repeat' split) <;> simp

@[simp] theorem execVoteBlocks_keeps (peer : List VoteItem) (s : State) : Keeps s (execVoteBlocks peer s) := by simp only [execVoteBlocks]; (repeat' split) <;> simp

@[simp] theorem State.voteSend_keeps (s : State) (v : Vote) (l : List (VoteItem × (List Byte × List Byte) × Nat)) : (State.voteSend s v l).host.locks = s.host.locks ∧ (State.voteSend s v l).pending = s.pending := by simp [State.voteSend]

@[simp] theorem execVoteWrite_keeps (copies : List VoteItem) (s : State) : Keeps s (execVoteWrite copies s) := by simp only [execVoteWrite]; (repeat' split) <;> simp

@[simp] theorem execPieStressGo_keeps (m : Master) (s : State) : Keeps s (execPieStressGo m s) := by simp [execPieStressGo]

@[simp] theorem State.after_keeps (s : State) (o : Host.Outcome State Fault Refusal) (h : Keeps s o) :
    (s.after o).host.locks = s.host.locks ∧ (s.after o).pending = s.pending := by
  cases o with
  | next t => exact h t rfl
  | fault f => exact ⟨rfl, rfl⟩
  | refused r => exact ⟨rfl, rfl⟩

@[simp] theorem State.readNowLo_keeps (s : State) (m : Master) : (State.readNowLo s m).1.host.locks = s.host.locks ∧ (State.readNowLo s m).1.pending = s.pending := by simp [State.readNowLo]

@[simp] theorem State.readNowHi_keeps (s : State) (m : Master) : (State.readNowHi s m).1.host.locks = s.host.locks ∧ (State.readNowHi s m).1.pending = s.pending := by simp only [State.readNowHi]; (repeat' split) <;> simp

@[simp] theorem State.read32_keeps (s : State) (m : Master) (page o : Nat) : (State.read32 s m page o).1.host.locks = s.host.locks ∧ (State.read32 s m page o).1.pending = s.pending := by simp only [State.read32]; (repeat' split) <;> simp

@[simp] theorem State.read64_keeps (s : State) (page o : Nat) : (State.read64 s page o).1.host.locks = s.host.locks ∧ (State.read64 s page o).1.pending = s.pending := by unfold State.read64; (repeat' split) <;> simp

@[simp] theorem State.badAccess_keeps (s : State) (off : Nat) : (State.badAccess s off).host.locks = s.host.locks ∧ (State.badAccess s off).pending = s.pending := by simp [State.badAccess]

@[simp] theorem State.readReg_keeps (s : State) (m : Master) (off len : Nat) : (State.readReg s m off len).1.host.locks = s.host.locks ∧ (State.readReg s m off len).1.pending = s.pending := by simp only [State.readReg]; (repeat' split) <;> simp

@[simp] theorem State.storeRw_keeps (s : State) (page o v : Nat) : (State.storeRw s page o v).host.locks = s.host.locks ∧ (State.storeRw s page o v).pending = s.pending := by simp [State.storeRw]

@[simp] theorem State.writePlain_keeps (s : State) (m : Master) (page o v : Nat) : (State.writePlain s m page o v).host.locks = s.host.locks ∧ (State.writePlain s m page o v).pending = s.pending := by simp only [State.writePlain]; (repeat' split) <;> simp

@[simp] theorem State.writeGated_keeps (s : State) (m : Master) (page o v gate : Nat) : (State.writeGated s m page o v gate).host.locks = s.host.locks ∧ (State.writeGated s m page o v gate).pending = s.pending := by simp [State.writeGated]

@[simp] theorem State.writeCmd_keeps (s : State) (m : Master) (page o v : Nat) (go : State → State) (h : ∀ z, (go z).host.locks = z.host.locks ∧ (go z).pending = z.pending) : (State.writeCmd s m page o v go).host.locks = s.host.locks ∧ (State.writeCmd s m page o v go).pending = s.pending := by simp only [State.writeCmd]; (repeat' split) <;> simp_all

@[simp] theorem State.writeCtl_keeps (s : State) (m : Master) (page v : Nat) : (State.writeCtl s m page v).host.locks = s.host.locks ∧ (State.writeCtl s m page v).pending = s.pending := by simp only [State.writeCtl]; (repeat' split) <;> simp

@[simp] theorem State.writeW1c_keeps (s : State) (page o v : Nat) : (State.writeW1c s page o v).host.locks = s.host.locks ∧ (State.writeW1c s page o v).pending = s.pending := by simp [State.writeW1c]

@[simp] theorem State.writeIntStat_keeps (s : State) (page v : Nat) : (State.writeIntStat s page v).host.locks = s.host.locks ∧ (State.writeIntStat s page v).pending = s.pending := by simp [State.writeIntStat]

@[simp] theorem State.writeIntEn_keeps (s : State) (m : Master) (page v : Nat) : (State.writeIntEn s m page v).host.locks = s.host.locks ∧ (State.writeIntEn s m page v).pending = s.pending := by simp [State.writeIntEn]

@[simp] theorem State.writeIntSet_keeps (s : State) (m : Master) (page v : Nat) : (State.writeIntSet s m page v).host.locks = s.host.locks ∧ (State.writeIntSet s m page v).pending = s.pending := by simp [State.writeIntSet]

@[simp] theorem State.goSch_keeps (s : State) (m : Master) (op : Nat) : (State.goSch s m op).host.locks = s.host.locks ∧ (State.goSch s m op).pending = s.pending := by simp only [State.goSch]; (repeat' split) <;> simp

@[simp] theorem State.goCtx_keeps (s : State) (m : Master) (op : Nat) : (State.goCtx s m op).host.locks = s.host.locks ∧ (State.goCtx s m op).pending = s.pending := by simp only [State.goCtx]; (repeat' split) <;> simp

@[simp] theorem State.goHbm_keeps (s : State) (m : Master) (n op : Nat) : (State.goHbm s m n op).host.locks = s.host.locks ∧ (State.goHbm s m n op).pending = s.pending := by simp only [State.goHbm]; (repeat' split) <;> simp

@[simp] theorem State.goGal_keeps (s : State) (m : Master) (op : Nat) : (State.goGal s m op).host.locks = s.host.locks ∧ (State.goGal s m op).pending = s.pending := by simp only [State.goGal]; (repeat' split) <;> simp

@[simp] theorem State.goCmb_keeps (s : State) (m : Master) (op : Nat) : (State.goCmb s m op).host.locks = s.host.locks ∧ (State.goCmb s m op).pending = s.pending := by simp only [State.goCmb]; (repeat' split) <;> simp

@[simp] theorem State.goPatch_keeps (s : State) (m : Master) (op : Nat) : (State.goPatch s m op).host.locks = s.host.locks ∧ (State.goPatch s m op).pending = s.pending := by simp only [State.goPatch]; (repeat' split) <;> simp

@[simp] theorem State.after_queue (s : State) (o : Host.Outcome State Fault Refusal) (h : KeepsQueue s o) :
    (s.after o).pending = s.pending := by
  cases o with
  | next t => exact h t rfl
  | fault f => rfl
  | refused r => rfl

@[simp] theorem State.goRst_keeps (s : State) (m : Master) (op : Nat) : (s.goRst m op).pending = s.pending := by
  unfold State.goRst; split <;> simp

@[simp] theorem State.goTst_keeps (s : State) (m : Master) (op target : Nat) : (State.goTst s m op target).host.locks = s.host.locks ∧ (State.goTst s m op target).pending = s.pending := by simp only [State.goTst]; (repeat' split) <;> simp

@[simp] theorem State.writeMd_keeps (s : State) (m : Master) (o v : Nat) : (State.writeMd s m o v).host.locks = s.host.locks ∧ (State.writeMd s m o v).pending = s.pending := by simp only [State.writeMd]; (repeat' split) <;> simp

@[simp] theorem State.writeClk_keeps (s : State) (m : Master) (o v : Nat) : (State.writeClk s m o v).host.locks = s.host.locks ∧ (State.writeClk s m o v).pending = s.pending := by simp only [State.writeClk]; (repeat' split) <;> simp

@[simp] theorem State.writeMgt_keeps (s : State) (m : Master) (o v : Nat) :
    (State.writeMgt s m o v).host.locks = s.host.locks ∧ (State.writeMgt s m o v).pending = s.pending := by
  simp only [State.writeMgt]; split
  · exact State.lk_alike _ _ _ _ _ (fun z => by unfold Alike; split <;> simp [State.plcaStart])
  · simp

@[simp] theorem State.writeMsix_keeps (s : State) (i w v : Nat) : (State.writeMsix s i w v).host.locks = s.host.locks ∧ (State.writeMsix s i w v).pending = s.pending := by simp only [State.writeMsix]; (repeat' split) <;> simp

@[simp] theorem State.writeHif_keeps (s : State) (m : Master) (o v : Nat) : (State.writeHif s m o v).host.locks = s.host.locks ∧ (State.writeHif s m o v).pending = s.pending := by simp only [State.writeHif]; (repeat' split) <;> simp

@[simp] theorem State.writeSem_keeps (s : State) (m : Master) (o v : Nat) : (State.writeSem s m o v).pending = s.pending := by simp only [State.writeSem]; (repeat' split) <;> simp

@[simp] theorem State.writeVdt_keeps (s : State) (m : Master) (o v : Nat) :
    (s.writeVdt m o v).host.locks = s.host.locks ∧ (s.writeVdt m o v).pending = s.pending := by
  unfold State.writeVdt
  extract_lets p quiet
  have hq : ∀ k : State → State, (∀ z, Alike z (k z)) → Alike s (quiet k) := by
    intro k hk
    simp only [quiet]
    refine State.lk_alike _ _ _ _ _ (fun z => ?_)
    split
    · exact ⟨by simp [(hk z).1], by simp [(hk z).2]⟩
    · exact ⟨rfl, rfl⟩
  split
  · simp
  · exact hq _ (fun z => ⟨by simp, by simp⟩)
  · exact hq _ (fun z => ⟨by simp, by simp⟩)
  · exact hq _ (fun z => ⟨by simp, by simp⟩)
  · simp
  · exact hq _ (fun z => by split <;> exact ⟨rfl, rfl⟩)
  · exact hq _ (fun z => by split <;> exact ⟨by simp, by simp⟩)
  · simp

@[simp] theorem State.writePcfg_keeps (s : State) (p v : Nat) : (State.writePcfg s p v).host.locks = s.host.locks ∧ (State.writePcfg s p v).pending = s.pending := by simp only [State.writePcfg]; (repeat' split) <;> simp

@[simp] theorem State.writeTrs_keeps (s : State) (m : Master) (e o v : Nat) :
    (s.writeTrs m e o v).host.locks = s.host.locks ∧ (s.writeTrs m e o v).pending = s.pending := by
  simp only [State.writeTrs]
  split
  · apply State.lk_keeps; intro z; constructor <;> ((repeat' split) <;> simp)
  · apply State.lk_keeps; intro z; constructor <;> ((repeat' split) <;> simp)
  · simp

@[simp] theorem State.writeHbm_keeps (s : State) (m : Master) (n o v : Nat) : (State.writeHbm s m n o v).host.locks = s.host.locks ∧ (State.writeHbm s m n o v).pending = s.pending := by simp only [State.writeHbm]; (repeat' split) <;> simp

@[simp] theorem State.writeUpd_keeps (s : State) (m : Master) (e o v : Nat) : (State.writeUpd s m e o v).host.locks = s.host.locks ∧ (State.writeUpd s m e o v).pending = s.pending := by simp only [State.writeUpd]; (repeat' split) <;> simp

@[simp] theorem State.writePie_keeps (s : State) (m : Master) (o v : Nat) :
    (s.writePie m o v).host.locks = s.host.locks ∧ (s.writePie m o v).pending = s.pending := by
  simp only [State.writePie]
  split
  · simp
  · apply State.lk_keeps; intro z; constructor <;> ((repeat' split) <;> simp)
  · simp

@[simp] theorem State.seepEnable_keeps (s : State) : (State.seepEnable s).host.locks = s.host.locks ∧ (State.seepEnable s).pending = s.pending := by simp only [State.seepEnable]; (repeat' split) <;> simp

@[simp] theorem State.writeSeep_keeps (s : State) (m : Master) (o v : Nat) :
    (s.writeSeep m o v).host.locks = s.host.locks ∧ (s.writeSeep m o v).pending = s.pending := by
  simp only [State.writeSeep]
  split
  · apply State.lk_keeps; intro z; constructor <;> ((repeat' split) <;> simp)
  · simp

@[simp] theorem State.writeTrc_keeps (s : State) (m : Master) (o v : Nat) :
    (s.writeTrc m o v).host.locks = s.host.locks ∧ (s.writeTrc m o v).pending = s.pending := by
  simp only [State.writeTrc]
  split
  · apply State.lk_keeps; intro z; constructor <;> ((repeat' split) <;> simp)
  · split
    · split
      · simp
      · apply State.lk_keeps; intro z; simp
    · simp

theorem State.writeCmd_queue (s : State) (m : Master) (page o v : Nat) (go : State → State) (h : ∀ z, (go z).pending = z.pending) :
    (s.writeCmd m page o v go).pending = s.pending := by
  unfold State.writeCmd
  exact State.lk_queue _ _ _ _ _ (fun z => by split <;> simp [h])

@[simp] theorem State.writeDevice_keeps (s : State) (m : Master) (page o v : Nat) :
    (s.writeDevice m page o v).pending = s.pending := by
  have hc := fun k => State.writeCmd_queue s m page o v (fun z => z.goRst m k) (fun z => State.goRst_keeps z m k)
  simp only [State.writeDevice]; (repeat' split) <;> simp [hc]

@[simp] theorem State.writeCorePage_keeps (s : State) (m : Master) (page o v : Nat) : (State.writeCorePage s m page o v).host.locks = s.host.locks ∧ (State.writeCorePage s m page o v).pending = s.pending := by simp only [State.writeCorePage]; (repeat' split) <;> simp

@[simp] theorem State.write32_keeps (s : State) (m : Master) (page o v : Nat) : (State.write32 s m page o v).pending = s.pending := by simp only [State.write32]; (repeat' split) <;> simp

@[simp] theorem State.writeReg_keeps (s : State) (m : Master) (off len v : Nat) : (State.writeReg s m off len v).pending = s.pending := by simp only [State.writeReg]; (repeat' split) <;> simp

@[simp] theorem execRegisterRead_keeps (m : Master) (off len : Nat) (s : State) : Keeps s (execRegisterRead m off len s) := by simp only [execRegisterRead]; (repeat' split) <;> simp

@[simp] theorem execRegisterWrite_keeps (m : Master) (off len v : Nat) (s : State) : KeepsQueue s (execRegisterWrite m off len v s) := by simp [execRegisterWrite]

@[simp] theorem execCntClr_keeps (m : Master) (page : Nat) (s : State) : KeepsQueue s (execCntClr m page s) := by simp [execCntClr]

@[simp] theorem execLogRel_keeps (m : Master) (page : Nat) (s : State) : KeepsQueue s (execLogRel m page s) := by simp [execLogRel]

@[simp] theorem execCoreLogRel_keeps (m : Master) (c : Fin 256) (s : State) : KeepsQueue s (execCoreLogRel m c s) := by simp [execCoreLogRel]

@[simp] theorem execIntSet_keeps (m : Master) (page : Nat) (v : Word) (s : State) : KeepsQueue s (execIntSet m page v s) := by simp [execIntSet]

@[simp] theorem runReads_keeps (n a : Nat) (s : State) :
    (runReads n a s).1.host.locks = s.host.locks ∧ (runReads n a s).1.pending = s.pending := by
  induction n generalizing a s with
  | zero => exact ⟨rfl, rfl⟩
  | succ n ih => simp [runReads, ih]

@[simp] theorem runMgtRead_keeps (s : State) (f : Frame) :
    (runMgtRead s f).1.host.locks = s.host.locks ∧ (runMgtRead s f).1.pending = s.pending := by
  simp only [runMgtRead, State.malformed]; split <;> simp

@[simp] theorem execMgtRead_keeps (f : Frame) (s : State) : Keeps s (execMgtRead f s) := by
  simp only [execMgtRead, keeps_next]; split
  · exact Frame.serve_alike s f runMgtRead (fun z g => runMgtRead_keeps z g)
  · simp

theorem runMgtWrite_keeps (s : State) (f : Frame) : (runMgtWrite s f).1.pending = s.pending := by
  simp only [runMgtWrite, State.malformed]; split
  · simp
  · exact foldl_pending _ (fun a i => by simp) _ _

theorem Frame.serve_queue (s : State) (f : Frame) (run : State → Frame → Reply)
    (h : ∀ z g, (run z g).1.pending = z.pending) :
    (s.takeFrame f (fun z => z.answerFrame f run)).pending = s.pending := by
  have ha : ∀ z : State, (z.answerFrame f run).pending = z.pending := by
    intro z; simp only [State.answerFrame]; split <;> simp [h]
  simp only [State.takeFrame, State.acceptFrame]
  (repeat' split) <;> simp [ha]

@[simp] theorem execMgtWrite_keeps (f : Frame) (s : State) : KeepsQueue s (execMgtWrite f s) := by
  simp only [execMgtWrite, keepsQueue_next]; split
  · exact Frame.serve_queue s f runMgtWrite (fun z g => runMgtWrite_keeps z g)
  · rfl

@[simp] theorem execAlu_keeps (c : Fin 256) (t : Fin 16) (s : State) : Keeps s (execAlu c t s) := by simp only [execAlu, keeps_next]; apply State.instr_keeps; intro z x w; constructor <;> ((repeat' split) <;> simp)

@[simp] theorem execAlui_keeps (c : Fin 256) (t : Fin 16) (s : State) : Keeps s (execAlui c t s) := by simp only [execAlui, keeps_next]; apply State.instr_keeps; intro z x w; constructor <;> ((repeat' split) <;> simp)

@[simp] theorem execLui_keeps (c : Fin 256) (t : Fin 16) (s : State) : Keeps s (execLui c t s) := by simp [execLui]

@[simp] theorem execLdw_keeps (c : Fin 256) (t : Fin 16) (s : State) : Keeps s (execLdw c t s) := by simp [execLdw]

@[simp] theorem execStw_keeps (c : Fin 256) (t : Fin 16) (s : State) : Keeps s (execStw c t s) := by simp [execStw]

@[simp] theorem execBr_keeps (c : Fin 256) (t : Fin 16) (s : State) : Keeps s (execBr c t s) := by simp only [execBr, keeps_next]; apply State.instr_keeps; intro z x w; constructor <;> ((repeat' split) <;> simp)

@[simp] theorem execBsum_keeps (c : Fin 256) (t : Fin 16) (s : State) : Keeps s (execBsum c t s) := by simp [execBsum]

@[simp] theorem execJal_keeps (c : Fin 256) (t : Fin 16) (s : State) : Keeps s (execJal c t s) := by simp [execJal]

@[simp] theorem execJalr_keeps (c : Fin 256) (t : Fin 16) (s : State) : Keeps s (execJalr c t s) := by simp [execJalr]

@[simp] theorem execMfs_keeps (c : Fin 256) (t : Fin 16) (s : State) : Keeps s (execMfs c t s) := by simp [execMfs]

@[simp] theorem execMfsys_keeps (c : Fin 256) (t : Fin 16) (s : State) : Keeps s (execMfsys c t s) := by simp [execMfsys]

@[simp] theorem execGset_keeps (c : Fin 256) (t : Fin 16) (s : State) : Keeps s (execGset c t s) := by simp [execGset]

@[simp] theorem execGbind_keeps (c : Fin 256) (t : Fin 16) (s : State) : Keeps s (execGbind c t s) := by simp only [execGbind, keeps_next]; apply State.instr_keeps; intro z x w; constructor <;> ((repeat' split) <;> simp)

@[simp] theorem execKeyArrive_keeps (c : Fin 256) (t : Fin 16) (s : State) : Keeps s (execKeyArrive c t s) := by simp [execKeyArrive]

@[simp] theorem execKeyWait_keeps (c : Fin 256) (t : Fin 16) (s : State) : Keeps s (execKeyWait c t s) := by simp [execKeyWait]

@[simp] theorem execKeyArriveWait_keeps (c : Fin 256) (t : Fin 16) (s : State) : Keeps s (execKeyArriveWait c t s) := by simp [execKeyArriveWait]

@[simp] theorem execKeyAdd_keeps (c : Fin 256) (t : Fin 16) (s : State) : Keeps s (execKeyAdd c t s) := by simp [execKeyAdd]

@[simp] theorem execKeyRead_keeps (c : Fin 256) (t : Fin 16) (s : State) : Keeps s (execKeyRead c t s) := by simp [execKeyRead]

@[simp] theorem execKeyAcquire_keeps (c : Fin 256) (t : Fin 16) (s : State) : Keeps s (execKeyAcquire c t s) := by simp [execKeyAcquire]

@[simp] theorem execKeyRelease_keeps (c : Fin 256) (t : Fin 16) (s : State) : Keeps s (execKeyRelease c t s) := by simp [execKeyRelease]

@[simp] theorem execWaitt_keeps (c : Fin 256) (t : Fin 16) (s : State) : Keeps s (execWaitt c t s) := by simp [execWaitt]

@[simp] theorem execImx_keeps (c : Fin 256) (t : Fin 16) (s : State) : Keeps s (execImx c t s) := by simp [execImx]

@[simp] theorem execIfs_keeps (c : Fin 256) (t : Fin 16) (s : State) : Keeps s (execIfs c t s) := by simp [execIfs]

@[simp] theorem execIdma_keeps (c : Fin 256) (t : Fin 16) (s : State) : Keeps s (execIdma c t s) := by simp [execIdma]

@[simp] theorem execEnds_keeps (c : Fin 256) (t : Fin 16) (s : State) : Keeps s (execEnds c t s) := by simp [execEnds]

@[simp] theorem execNop_keeps (c : Fin 256) (t : Fin 16) (s : State) : Keeps s (execNop c t s) := by simp [execNop]

@[simp] theorem execWaitRetest_keeps (c : Fin 256) (t : Fin 16) (s : State) : Keeps s (execWaitRetest c t s) := by simp [execWaitRetest]

end Sys2Proof.Machine
end

