-- ==== Sys2Proof/Laws/Store.lean ====
section
/-! SUPPORT. Laws of sparse stores: a read after a write, and the canonical form that every write keeps. -/

namespace Sys2Proof.Machine

open Sys2Proof

variable {α : Type}

/-! Reads after writes. -/

@[simp] theorem Store.get_nil (d : α) (k : Nat) : Store.get d [] k = d := rfl

@[simp] theorem Store.find_nil (k : Nat) : Store.find ([] : Store α) k = none := rfl

theorem Store.get_insert (d : α) (m : Store α) (k j : Nat) (v : α) :
    Store.get d (Store.insert m k v) j = if j = k then v else Store.get d m j := by
  induction m with
  | nil => by_cases h : k = j <;> simp [Store.insert, Store.get, h, eq_comm]
  | cons p m ih =>
    obtain ⟨a, w⟩ := p
    simp only [Store.insert]
    split
    · subst a; by_cases h : k = j <;> simp [Store.get, h, eq_comm]
    · split
      · by_cases h : k = j <;> simp [Store.get, h, eq_comm]
      · simp only [Store.get, ih]
        by_cases h : a = j
        · have : j ≠ k := by rintro rfl; exact absurd h ‹_›
          simp [h, this]
        · simp [h]

theorem Store.get_erase (d : α) (m : Store α) (k j : Nat) :
    Store.get d (Store.erase m k) j = if j = k then d else Store.get d m j := by
  induction m with
  | nil => simp [Store.erase]
  | cons p m ih =>
    obtain ⟨a, w⟩ := p
    simp only [Store.erase]
    split
    · subst a; rw [ih]; by_cases h : j = k
      · simp [h]
      · simp [h, Store.get, Ne.symm h]
    · simp only [Store.get, ih]
      by_cases h : a = j
      · have : j ≠ k := by rintro rfl; exact absurd h ‹_›
        simp [h, this]
      · simp [h]

/-- A read after a write: the value written at its key, and every other key as before. -/
theorem Store.get_set [DecidableEq α] (d : α) (m : Store α) (k j : Nat) (v : α) :
    Store.get d (Store.set d m k v) j = if j = k then v else Store.get d m j := by
  simp only [Store.set]
  split
  · subst v; exact Store.get_erase d m k j
  · exact Store.get_insert d m k j v

@[simp] theorem Store.get_set_same [DecidableEq α] (d : α) (m : Store α) (k : Nat) (v : α) :
    Store.get d (Store.set d m k v) k = v := by simp [Store.get_set]

theorem Store.get_set_other [DecidableEq α] (d : α) (m : Store α) {k j : Nat} (v : α) (h : j ≠ k) :
    Store.get d (Store.set d m k v) j = Store.get d m j := by simp [Store.get_set, h]

theorem Store.find_insert (m : Store α) (k j : Nat) (v : α) :
    Store.find (Store.insert m k v) j = if j = k then some v else Store.find m j := by
  induction m with
  | nil => by_cases h : k = j <;> simp [Store.insert, Store.find, h, eq_comm]
  | cons p m ih =>
    obtain ⟨a, w⟩ := p
    simp only [Store.insert]
    split
    · subst a; by_cases h : k = j <;> simp [Store.find, h, eq_comm]
    · split
      · by_cases h : k = j <;> simp [Store.find, h, eq_comm]
      · simp only [Store.find, ih]
        by_cases h : a = j
        · have : j ≠ k := by rintro rfl; exact absurd h ‹_›
          simp [h, this]
        · simp [h]

theorem Store.find_erase (m : Store α) (k j : Nat) :
    Store.find (Store.erase m k) j = if j = k then none else Store.find m j := by
  induction m with
  | nil => simp [Store.erase]
  | cons p m ih =>
    obtain ⟨a, w⟩ := p
    simp only [Store.erase]
    split
    · subst a; rw [ih]; by_cases h : j = k
      · simp [h]
      · simp [h, Store.find, Ne.symm h]
    · simp only [Store.find, ih]
      by_cases h : a = j
      · have : j ≠ k := by rintro rfl; exact absurd h ‹_›
        simp [h, this]
      · simp [h]

/-- A key written to its default is not listed; another is found with the value written. -/
theorem Store.find_set [DecidableEq α] (d : α) (m : Store α) (k j : Nat) (v : α) :
    Store.find (Store.set d m k v) j = if j = k then (if v = d then none else some v) else Store.find m j := by
  simp only [Store.set]
  split
  · rw [Store.find_erase]
  · rw [Store.find_insert]

/-- A run of values read at a key it covers, and outside it. -/
theorem Store.get_setRun [DecidableEq α] (d : α) (vs : List α) (m : Store α) (k j : Nat) :
    Store.get d (Store.setRun d m k vs) j = if k ≤ j ∧ j < k + vs.length then vs.getD (j - k) d else Store.get d m j := by
  induction vs generalizing m k with
  | nil => simp [Store.setRun]
  | cons v vs ih =>
    simp only [Store.setRun, ih, Store.get_set, List.length_cons]
    by_cases h : j = k
    · subst h; simp
    · by_cases h1 : k + 1 ≤ j ∧ j < k + 1 + vs.length
      · have h2 : k ≤ j ∧ j < k + (vs.length + 1) := by omega
        have h3 : j - k = j - (k + 1) + 1 := by omega
        simp [h1, h2, h3]
      · have h2 : ¬(k ≤ j ∧ j < k + (vs.length + 1)) := by omega
        rw [if_neg h1, if_neg h2, if_neg h]

/-- Bytes outside a run stay as they were. -/
theorem Store.get_setRun_out [DecidableEq α] (d : α) (vs : List α) (m : Store α) (k j : Nat)
    (h : j < k ∨ k + vs.length ≤ j) : Store.get d (Store.setRun d m k vs) j = Store.get d m j := by
  rw [Store.get_setRun, if_neg (by omega)]

theorem Store.getRun_eq (d : α) (m : Store α) (k n : Nat) :
    Store.getRun d m k n = (List.range n).map (fun i => Store.get d m (k + i)) := by
  induction n generalizing k with
  | zero => rfl
  | succ n ih =>
    rw [Store.getRun, ih, List.range_succ_eq_map]
    simp [List.map_map, Function.comp_def, Nat.add_assoc, Nat.add_comm 1]

/-- A run reads back what was written. -/
theorem Store.getRun_setRun [DecidableEq α] (d : α) (vs : List α) (m : Store α) (k : Nat) :
    Store.getRun d (Store.setRun d m k vs) k vs.length = vs := by
  rw [Store.getRun_eq]
  apply List.ext_getElem
  · simp
  · intro i h1 h2
    simp only [List.length_map, List.length_range] at h1
    simp [Store.get_setRun, h1]

/-! The canonical form. -/

theorem Store.rising_mono (m : Store α) (a b : Nat) (h : a ≤ b) (hr : Store.rising (some b) m = true) :
    Store.rising (some a) m = true := by
  cases m with
  | nil => rfl
  | cons p m => simp only [Store.rising, Bool.and_eq_true, decide_eq_true_eq] at hr ⊢; exact ⟨by omega, hr.2⟩

theorem Store.rising_none (m : Store α) (a : Nat) (hr : Store.rising (some a) m = true) : Store.rising none m = true := by
  cases m with
  | nil => rfl
  | cons p m => simp only [Store.rising, Bool.and_eq_true, Bool.true_and] at hr ⊢; exact hr.2

theorem Store.rising_erase (lo : Option Nat) (m : Store α) (k : Nat) (h : Store.rising lo m = true) :
    Store.rising lo (Store.erase m k) = true := by
  induction m generalizing lo with
  | nil => exact h
  | cons p m ih =>
    obtain ⟨a, w⟩ := p
    simp only [Store.erase]
    simp only [Store.rising, Bool.and_eq_true] at h
    split
    · apply ih
      cases lo with
      | none => exact Store.rising_none m a h.2
      | some l => exact Store.rising_mono m l a (by have := h.1; simp at this; omega) h.2
    · simp only [Store.rising, Bool.and_eq_true]; exact ⟨h.1, ih _ h.2⟩

theorem Store.rising_filter (lo : Option Nat) (m : Store α) (f : Nat × α → Bool) (h : Store.rising lo m = true) :
    Store.rising lo (m.filter f) = true := by
  induction m generalizing lo with
  | nil => exact h
  | cons p m ih =>
    obtain ⟨a, w⟩ := p
    simp only [Store.rising, Bool.and_eq_true] at h
    simp only [List.filter_cons]
    split
    · simp only [Store.rising, Bool.and_eq_true]; exact ⟨h.1, ih _ h.2⟩
    · apply ih
      cases lo with
      | none => exact Store.rising_none m a h.2
      | some l => exact Store.rising_mono m l a (by have := h.1; simp at this; omega) h.2

theorem Store.rising_insert (lo : Option Nat) (m : Store α) (k : Nat) (v : α) (h : Store.rising lo m = true)
    (hk : ∀ l, lo = some l → l < k) : Store.rising lo (Store.insert m k v) = true := by
  induction m generalizing lo with
  | nil =>
    cases lo with
    | none => rfl
    | some l => simp [Store.insert, Store.rising, hk l rfl]
  | cons p m ih =>
    obtain ⟨a, w⟩ := p
    simp only [Store.rising, Bool.and_eq_true] at h
    simp only [Store.insert]
    split
    · subst a; simp only [Store.rising, Bool.and_eq_true]; exact h
    · split
      · simp only [Store.rising, Bool.and_eq_true, decide_eq_true_eq]
        refine ⟨?_, by omega, h.2⟩
        cases lo with
        | none => rfl
        | some l => simp [hk l rfl]
      · simp only [Store.rising, Bool.and_eq_true]
        exact ⟨h.1, ih _ h.2 (fun l e => by cases e; omega)⟩

theorem Store.wf_erase [DecidableEq α] (d : α) (m : Store α) (k : Nat) (h : Store.wf d m = true) :
    Store.wf d (Store.erase m k) = true := by
  simp only [Store.wf, Bool.and_eq_true] at h ⊢
  refine ⟨Store.rising_erase _ _ _ h.1, ?_⟩
  have h2 := h.2
  clear h
  induction m with
  | nil => rfl
  | cons p m ih =>
    obtain ⟨a, w⟩ := p
    simp only [List.all_cons, Bool.and_eq_true] at h2
    simp only [Store.erase]
    split
    · exact ih h2.2
    · simp only [List.all_cons, Bool.and_eq_true]; exact ⟨h2.1, ih h2.2⟩

theorem Store.wf_insert [DecidableEq α] (d : α) (m : Store α) (k : Nat) (v : α) (hv : v ≠ d) (h : Store.wf d m = true) :
    Store.wf d (Store.insert m k v) = true := by
  simp only [Store.wf, Bool.and_eq_true] at h ⊢
  refine ⟨Store.rising_insert _ _ _ _ h.1 (fun l e => by cases e), ?_⟩
  have h2 := h.2
  clear h
  induction m with
  | nil => simp [Store.insert, hv]
  | cons p m ih =>
    obtain ⟨a, w⟩ := p
    simp only [List.all_cons, Bool.and_eq_true] at h2
    simp only [Store.insert]
    split
    · simp only [List.all_cons, Bool.and_eq_true, decide_eq_true_eq]; exact ⟨hv, h2.2⟩
    · split
      · simp only [List.all_cons, Bool.and_eq_true]; exact ⟨by simp [hv], h2.1, h2.2⟩
      · simp only [List.all_cons, Bool.and_eq_true]; exact ⟨h2.1, ih h2.2⟩

theorem Store.wf_filter [DecidableEq α] (d : α) (m : Store α) (f : Nat × α → Bool) (h : Store.wf d m = true) :
    Store.wf d (m.filter f) = true := by
  simp only [Store.wf, Bool.and_eq_true] at h ⊢
  exact ⟨Store.rising_filter _ _ _ h.1, by
    rw [List.all_eq_true] at *; exact fun p hp => h.2 p (List.mem_filter.mp hp).1⟩

/-- A write keeps the canonical form. -/
theorem Store.wf_set [DecidableEq α] (d : α) (m : Store α) (k : Nat) (v : α) (h : Store.wf d m = true) :
    Store.wf d (Store.set d m k v) = true := by
  simp only [Store.set]
  split
  · exact Store.wf_erase d m k h
  · exact Store.wf_insert d m k v ‹_› h

theorem Store.wf_setRun [DecidableEq α] (d : α) (vs : List α) (m : Store α) (k : Nat) (h : Store.wf d m = true) :
    Store.wf d (Store.setRun d m k vs) = true := by
  induction vs generalizing m k with
  | nil => exact h
  | cons v vs ih => exact ih _ _ (Store.wf_set d m k v h)

theorem Store.wf_clearRange [DecidableEq α] (d : α) (m : Store α) (lo n : Nat) (h : Store.wf d m = true) :
    Store.wf d (Store.clearRange m lo n) = true := Store.wf_filter d m _ h

/-! What is listed after a write. -/

theorem Store.mem_erase (m : Store α) (k : Nat) (p : Nat × α) (h : p ∈ Store.erase m k) : p ∈ m := by
  induction m with
  | nil => exact h
  | cons q m ih =>
    obtain ⟨a, w⟩ := q
    simp only [Store.erase] at h
    split at h
    · exact List.mem_cons_of_mem _ (ih h)
    · rcases List.mem_cons.mp h with h | h
      · exact h ▸ List.mem_cons_self
      · exact List.mem_cons_of_mem _ (ih h)

theorem Store.mem_insert (m : Store α) (k : Nat) (v : α) (p : Nat × α) (h : p ∈ Store.insert m k v) : p = (k, v) ∨ p ∈ m := by
  induction m with
  | nil => simpa [Store.insert] using h
  | cons q m ih =>
    obtain ⟨a, w⟩ := q
    simp only [Store.insert] at h
    split at h
    · rcases List.mem_cons.mp h with h | h
      · exact .inl h
      · exact .inr (List.mem_cons_of_mem _ h)
    · split at h
      · rcases List.mem_cons.mp h with h | h
        · exact .inl h
        · exact .inr h
      · rcases List.mem_cons.mp h with h | h
        · exact .inr (h ▸ List.mem_cons_self)
        · exact (ih h).imp id (List.mem_cons_of_mem _)

theorem Store.mem_set [DecidableEq α] (d : α) (m : Store α) (k : Nat) (v : α) (p : Nat × α) (h : p ∈ Store.set d m k v) :
    p = (k, v) ∨ p ∈ m := by
  simp only [Store.set] at h
  split at h
  · exact .inr (Store.mem_erase m k p h)
  · exact Store.mem_insert m k v p h

end Sys2Proof.Machine
end

