-- ==== Sys2Proof/Laws/State.lean ====
section
/-! SUPPORT. Reads after writes of the state's accessors: registers, cores, threads, ports and keystones. -/

namespace Sys2Proof.Machine

open Sys2Proof

/-! Registers. -/

/-- The rows of every block type reset to 32-bit numbers. -/
theorem regRows_lt (ty : Nat) : (regRows ty).all (fun r => decide (r.reset < 2 ^ 32)) = true := by
  unfold regRows
  split <;> decide

/-- A row that is found is one of the list. -/
theorem findRow_mem (rs : List RegRow) (o : Nat) (r : RegRow) (h : findRow rs o = some r) : r ∈ rs := by
  induction rs with
  | nil => cases h
  | cons a rs ih =>
    simp only [findRow] at h
    split at h
    · cases h; exact List.mem_cons_self
    · exact List.mem_cons_of_mem _ (ih h)

/-- A register of any offset resets to a 32-bit number. -/
theorem regReset_lt (off : Nat) : regReset off < 2 ^ 32 := by
  unfold regReset regRow
  have h := regRows_lt (pageType (off / 0x1000))
  cases hr : findRow (regRows (pageType (off / 0x1000))) (off % 0x1000) with
  | none => simp
  | some r =>
    have := List.all_eq_true.mp h r (findRow_mem _ _ _ hr)
    simpa using this

/-- A register read after a write anywhere. -/
theorem State.rd_wr (s : State) (off v j : Nat) :
    (s.wr off v).rd j = if j = off then v % 2 ^ 32 else s.rd j := by
  simp only [State.rd, State.wr, Store.find_set]
  by_cases h : j = off
  · subst h
    by_cases h1 : BitVec.ofNat 32 v = BitVec.ofNat 32 (regReset j)
    · have h2 := congrArg BitVec.toNat h1
      have := regReset_lt j
      simp only [BitVec.toNat_ofNat] at h2
      simp only [h1, if_true]
      omega
    · simp [h1]
  · simp [h]

/-- A register read after a write of the same one. -/
@[simp] theorem State.rd_wr_same (s : State) (off v : Nat) : (s.wr off v).rd off = v % 2 ^ 32 := by simp [State.rd_wr]

/-- A register of a page read after a write of any register. -/
theorem State.reg_setReg (s : State) (p o v q n : Nat) :
    (s.setReg p o v).reg q n = if regAt q n = regAt p o then v % 2 ^ 32 else s.reg q n := by
  simp only [State.reg, State.setReg, State.rd_wr]

@[simp] theorem State.reg_setReg_same (s : State) (p o v : Nat) : (s.setReg p o v).reg p o = v % 2 ^ 32 := by
  simp [State.reg_setReg]

/-- Registers depend on the stored ones alone. -/
theorem State.reg_congr {s t : State} (h : s.regs = t.regs) (p o : Nat) : s.reg p o = t.reg p o := by
  simp only [State.reg, State.rd, h]

/-- Noting that a bit was set writes no register. -/
@[simp] theorem State.reg_markSet (s : State) (page o bit p q : Nat) : (s.markSet page o bit).reg p q = s.reg p q := rfl

/-! Cores and threads. -/

@[simp] theorem State.core_setCore_same (s : State) (c : Nat) (k : Core) : (s.setCore c k).core c = k := by
  simp [State.core, State.setCore]

@[simp] theorem State.core_setCore_other (s : State) {c d : Nat} (k : Core) (h : d ≠ c) : (s.setCore c k).core d = s.core d := by
  simp [State.core, State.setCore, Store.get_set, h]

theorem State.core_congr {s t : State} (h : s.cores = t.cores) (c : Nat) : s.core c = t.core c := by
  simp only [State.core, h]

@[simp] theorem Core.thread_setThread_same (k : Core) (t : Nat) (x : Thread) : (k.setThread t x).thread t = x := by
  simp [Core.thread, Core.setThread]

@[simp] theorem Core.thread_setThread_other (k : Core) {t u : Nat} (x : Thread) (h : u ≠ t) :
    (k.setThread t x).thread u = k.thread u := by
  simp [Core.thread, Core.setThread, Store.get_set, h]

@[simp] theorem State.thread_setThread_same (s : State) (c t : Nat) (x : Thread) : (s.setThread c t x).thread c t = x := by
  simp [State.thread, State.setThread, State.modCore]

theorem State.thread_setThread_other (s : State) {c t d u : Nat} (x : Thread) (h : d ≠ c ∨ u ≠ t) :
    (s.setThread c t x).thread d u = s.thread d u := by
  simp only [State.thread, State.setThread, State.modCore]
  by_cases hd : d = c
  · subst hd
    rw [State.core_setCore_same, Core.thread_setThread_other _ _ (by simpa using h)]
  · rw [State.core_setCore_other _ _ hd]

/-! A thread's registers. -/

@[simp] theorem Thread.greg_setGreg_same (x : Thread) {r : Nat} (v : Word) (h : r ≠ 0) : (x.setGreg r v).greg r = v := by
  simp [Thread.greg, Thread.setGreg, h]

@[simp] theorem Thread.greg_setGreg_other (x : Thread) {r q : Nat} (v : Word) (h : q ≠ r) : (x.setGreg r v).greg q = x.greg q := by
  simp only [Thread.greg, Thread.setGreg]
  split
  · rfl
  · simp [Store.get_set, h]

/-- Writes to G0 are discarded (R117). -/
@[simp] theorem Thread.setGreg_zero (x : Thread) (v : Word) : x.setGreg 0 v = x := rfl

/-! Ports and keystones. -/

@[simp] theorem State.vport_setVport_same (s : State) (p : Nat) (v : VPort) : (s.setVport p v).vport p = v := by
  simp [State.vport, State.setVport]

@[simp] theorem State.vport_setVport_other (s : State) {p q : Nat} (v : VPort) (h : q ≠ p) : (s.setVport p v).vport q = s.vport q := by
  simp [State.vport, State.setVport, Store.get_set, h]

@[simp] theorem State.oport_setOport_same (s : State) (p : Nat) (v : OptPort) : (s.setOport p v).oport p = v := by
  simp [State.oport, State.setOport]

@[simp] theorem State.oport_setOport_other (s : State) {p q : Nat} (v : OptPort) (h : q ≠ p) : (s.setOport p v).oport q = s.oport q := by
  simp [State.oport, State.setOport, Store.get_set, h]

end Sys2Proof.Machine
end

