-- ==== Sys2Proof/Laws/Memory.lean ====
section
/-! SUPPORT. Memory: what a store leaves in core memory, and that every operation on a memory keeps its canonical form. -/

namespace Sys2Proof.Machine

open Sys2Proof

/-! Bytes of a number, low byte first (R7). -/

theorem leBytes_length (n v : Nat) : (leBytes n v).length = n := by
  induction n generalizing v with
  | zero => rfl
  | succ n ih => simp [leBytes, ih]

theorem leBytes_getD (n v i : Nat) (h : i < n) : (leBytes n v).getD i 0#8 = BitVec.ofNat 8 (v / 256 ^ i) := by
  induction n generalizing v i with
  | zero => omega
  | succ n ih =>
    cases i with
    | zero => simp [leBytes]
    | succ i =>
      simp only [leBytes, List.getD_cons_succ]
      rw [ih _ _ (by omega), Nat.div_div_eq_div_mul, Nat.pow_succ, Nat.mul_comm]

/-! Core memory. -/

@[simp] theorem Core.poke_mem (k : Core) (a : Nat) (bs : List Byte) : (k.poke a bs).mem = Store.setRun 0#8 k.mem a bs := rfl
@[simp] theorem Core.poke_threads (k : Core) (a : Nat) (bs : List Byte) : (k.poke a bs).threads = k.threads := rfl

/-- A write to one line: its bytes are stored, unless the undo log discards them (R339, R342). -/
theorem State.cmPutLine_mem (s : State) (c a : Nat) (bs : List Byte) (d : Nat) :
    ((s.cmPutLine c a bs).core d).mem =
      if d = c ∧ ¬Discards s c a then Store.setRun 0#8 (s.core c).mem a bs else (s.core d).mem := by
  unfold State.cmPutLine Discards
  dsimp only
  by_cases hd : d = c
  · subst hd
    split
    · rename_i h
      have h1 : ¬(s.logs = true ∧ s.retainedCore d (a / 64 * 64) = true) := by
        rintro ⟨g1, g2⟩; simp [g1, g2] at h
      rw [if_pos ⟨rfl, fun g => h1 ⟨g.1, g.2.1⟩⟩]
      simp
    · rename_i h
      split
      · rename_i h1; simp_all
      · split
        · simp_all
        · split
          · rename_i h1 h2 h3; simp_all
          · rename_i h1 h2 h3
            rw [State.core_congr (State.raiseSched_keeps _).2.2.1, State.core_congr (State.pieErr_keeps _ _ _ _ _).2.2.1]
            simp_all
  · simp only [hd, false_and, if_false]
    split
    · simp [hd]
    · split
      · rfl
      · split
        · simp [hd]
        · split
          · simp [hd]
          · rw [State.core_congr (State.raiseSched_keeps _).2.2.1, State.core_congr (State.pieErr_keeps _ _ _ _ _).2.2.1]
            simp [hd]

/-- A write to core memory changes no thread. -/
theorem State.cmPutLine_threads (s : State) (c a : Nat) (bs : List Byte) (d : Nat) :
    ((s.cmPutLine c a bs).core d).threads = (s.core d).threads := by
  unfold State.cmPutLine
  dsimp only
  by_cases hd : d = c
  · subst hd
    split
    · simp
    · split
      · rfl
      · split
        · simp
        · split
          · simp
          · rw [State.core_congr (State.raiseSched_keeps _).2.2.1, State.core_congr (State.pieErr_keeps _ _ _ _ _).2.2.1]
            simp
  · split
    · simp [hd]
    · split
      · rfl
      · split
        · simp [hd]
        · split
          · simp [hd]
          · rw [State.core_congr (State.raiseSched_keeps _).2.2.1, State.core_congr (State.pieErr_keeps _ _ _ _ _).2.2.1]
            simp [hd]

/-- An aligned word lies in one line. -/
theorem State.cmPutWord_eq (s : State) (c a v : Nat) (h : a % 4 = 0) : s.cmPutWord c a v = s.cmPutLine c a (leBytes 4 v) := by
  unfold State.cmPutWord State.cmPut
  have : (leBytes 4 v).isEmpty = false := rfl
  rw [this]
  simp only [State.cmPutLines, leBytes_length]
  rw [if_neg (by simp), if_pos (by omega)]

end Sys2Proof.Machine
end

