-- ==== Sys2Proof/Laws/Owners.lean ====
section
/-! SUPPORT. Every operation that writes the owners of pages leaves an owner PCIe (1) or management (2), in the canonical form. -/

namespace Sys2Proof

open Machine

/-- Owners depend on the list of locks alone. -/
theorem OwnersOk.congr {s t : State} (h : OwnersOk s) (e : t.host.locks = s.host.locks) : OwnersOk t := by
  unfold OwnersOk; rw [e]; exact h

theorem OwnersOk.none {t : State} (e : t.host.locks = []) : OwnersOk t := by
  unfold OwnersOk; rw [e]; exact ⟨rfl, fun p hp => absurd hp (by simp)⟩

end Sys2Proof

namespace Sys2Proof.Machine

open Sys2Proof

/-- A change of state that keeps the owners legal. -/
def Guards (k : State → State) : Prop := ∀ z, OwnersOk z → OwnersOk (k z)

theorem Guards.of_keeps {k : State → State} (h : ∀ z, (k z).host.locks = z.host.locks) : Guards k := fun z hz => hz.congr (h z)

theorem Guards.foldl {α : Type} (f : State → α → State) (h : ∀ x, Guards (fun z => f z x)) (l : List α) : Guards (fun z => l.foldl f z) := by
  intro z hz
  induction l generalizing z with
  | nil => exact hz
  | cons x l ih => exact ih _ (h x z hz)

theorem masterCode_le (m : Master) : masterCode m ≤ 2 := by cases m <;> decide

theorem State.setOwner_ok {s : State} (h : OwnersOk s) (key v : Nat) (hv : v ≤ 2) : OwnersOk (s.setOwner key v) := by
  refine ⟨Store.wf_set _ _ _ _ h.1, fun p hp => ?_⟩
  rcases Store.mem_set _ _ _ _ _ hp with e | e
  · rw [e]; exact hv
  · exact h.2 p e

theorem State.grantLock_ok {s : State} (h : OwnersOk s) (m : Master) (key : Nat) : OwnersOk (s.grantLock m key) :=
  (State.setOwner_ok h key (masterCode m) (masterCode_le m)).congr rfl

theorem State.claim_ok {s : State} (h : OwnersOk s) (m : Master) (key : Nat) : OwnersOk (s.claim m key) := by
  unfold State.claim; split
  · exact State.grantLock_ok h m key
  · split
    · exact h.congr (by simp)
    · exact h

theorem State.unclaim_ok {s : State} (h : OwnersOk s) (m : Master) (key : Nat) : OwnersOk (s.unclaim m key) := by
  unfold State.unclaim; split
  · exact State.setOwner_ok h key 0 (by decide)
  · exact h

theorem State.writeLock_ok {s : State} (h : OwnersOk s) (m : Master) (key v : Nat) : OwnersOk (s.writeLock m key v) := by
  unfold State.writeLock; split
  · exact State.claim_ok h m key
  · exact State.unclaim_ok h m key
  · exact h

theorem State.releaseAll_ok {s : State} (h : OwnersOk s) (code : Nat) : OwnersOk (s.releaseAll code) :=
  ⟨Store.wf_filter _ _ _ h.1, fun p hp => h.2 p (List.mem_filter.mp hp).1⟩

theorem State.pcieUnlock_ok {s : State} (h : OwnersOk s) : OwnersOk s.pcieUnlock :=
  (State.releaseAll_ok h 1).congr (by simp [State.pcieUnlock])

theorem State.genBulk_ok {s : State} (h : OwnersOk s) (m : Master) (v : Nat) : OwnersOk (s.genBulk m v) := by
  have bs : ∀ (z : State) (r a b : Nat), (z.bulkStat m r a b).host.locks = z.host.locks := fun z r a b => by
    unfold State.bulkStat; dsimp only; split <;> simp
  unfold State.genBulk; split
  · exact h.congr (bs _ _ _ _)
  · dsimp only; split
    · exact (Guards.foldl (fun a p => a.unclaim m p) (fun p z hz => State.unclaim_ok hz m p) _ s h).congr (bs _ _ _ _)
    · split
      · refine h.congr ((bs _ _ _ _).trans ?_)
        split <;> simp
      · exact (Guards.foldl (fun a p => a.claim m p) (fun p z hz => State.claim_ok hz m p) _ s h).congr (bs _ _ _ _)

theorem State.lockOp_ok {s : State} (h : OwnersOk s) (m : Master) (op : LockOp) : OwnersOk (s.lockOp m op) := by
  cases op
  · exact State.writeLock_ok h m _ _
  · exact State.genBulk_ok h m _

theorem State.beforePcie_ok {s : State} (h : OwnersOk s) (c : LockCycle) : OwnersOk (s.beforePcie c) := by
  unfold State.beforePcie
  have h1 : OwnersOk (c.pcie.foldl (fun a k => a.setOwner k 1) (s.releaseAll 1)) :=
    Guards.foldl (fun a k => a.setOwner k 1) (fun k z hz => State.setOwner_ok hz k 1 (by decide)) c.pcie _ (State.releaseAll_ok h 1)
  exact Guards.foldl (fun (a : State) i => a.setReg pgGEN (0x20 + 4 * i) (c.log.getD i 0))
    (fun i => Guards.of_keeps (fun z => by simp)) (upTo 8) _ (h1.congr (by simp))

/-- The lock operations of a cycle leave every owner legal (R441, R481). -/
theorem State.lockTurn_ok {s : State} (h : OwnersOk s) (m : Master) (op : LockOp) : OwnersOk (s.lockTurn m op) := by
  unfold State.lockTurn; dsimp only
  split
  · exact State.lockOp_ok h m op
  · split
    · exact (State.lockOp_ok h .pcie op).congr rfl
    · split
      · exact State.lockOp_ok h .mgt op
      · exact (Guards.foldl (fun a o => a.lockOp .pcie o) (fun o z hz => State.lockOp_ok hz .pcie o) _ _
          (State.lockOp_ok (State.beforePcie_ok h _) .mgt op)).congr rfl

theorem State.lockWrite_ok {s : State} (h : OwnersOk s) (m : Master) (key v : Nat) : OwnersOk (s.lockWrite m key v) := by
  unfold State.lockWrite; split
  · exact h
  · split
    · split
      · exact State.lockTurn_ok h m (.page key v)
      · exact h
    · split
      · exact h.congr (by simp)
      · split
        · exact h
        · exact State.lockTurn_ok h m (.page key v)

theorem State.beat_locks (s : State) (m : Master) : (s.beat m).host.locks = s.host.locks := by cases m <;> rfl

theorem State.force_ok {s : State} (h : OwnersOk s) (v : Nat) : OwnersOk (s.force v) := by
  unfold State.force; dsimp only; split
  · exact h
  · split
    · exact (State.releaseAll_ok h (fld v 16 2)).congr (by simp)
    · split
      · exact (State.setOwner_ok h (fld v 0 14) 0 (by decide)).congr (by simp [State.setOwner])
      · exact h.congr (by simp)

theorem State.lk_ok {s : State} (h : OwnersOk s) (m : Master) (page o : Nat) (k : State → State) (hk : Guards k) :
    OwnersOk (s.lk m page o k) := by
  unfold State.lk; split
  · exact h
  · split
    · exact hk s h
    · exact h.congr (by simp)

/-! Resets and power. -/

theorem State.cold_locks (s : State) (last : Nat) : (s.cold last).host.locks = [] := by
  simp [State.cold, State.coldClear, State.bare]

theorem State.coldDump_locks (s : State) (last : Nat) : (s.coldDump last).host.locks = [] := by
  unfold State.coldDump; dsimp only; split <;> simp [State.cold_locks]

theorem State.warm_locks (s : State) (say : State → State) :
    ∃ z : State, z.host.locks = s.host.locks ∧ s.warm say = say z := by
  unfold State.warm; dsimp only
  exact ⟨_, by simp, rfl⟩

theorem State.pcieReset_ok (k : Nat) : Guards (State.pcieReset k) := by
  intro z hz
  unfold State.pcieReset; dsimp only
  have h : OwnersOk ({ z.trainPcie with host := { z.trainPcie.host with d3hot := false, l1 := false, msix := [], pba := 0 } } : State) := hz.congr rfl
  exact (State.pcieUnlock_ok h).congr (by simp)

theorem State.requestWarm_ok {s : State} (h : OwnersOk s) (say : State → State) (hs : Guards say) : OwnersOk (s.requestWarm say) := by
  unfold State.requestWarm; split
  · exact hs _ (h.congr (by simp))
  · obtain ⟨z, hz, e⟩ := State.warm_locks s say
    rw [e]; exact hs z (h.congr hz)

theorem State.mainCut_locks (s : State) : s.mainCut.host.locks = s.host.locks := rfl

theorem State.tripNow_locks (s : State) : s.tripNow.host.locks = s.host.locks := by
  unfold State.tripNow; dsimp only
  have e : (if s.pwr.alert then s else s.emit (.alert true) : State).host = s.host := by split <;> rfl
  simp [State.mainCut_locks, State.writeDump, e]

theorem State.tapSelect_ok {s : State} (h : OwnersOk s) (n : Nat) : OwnersOk (s.tapSelect n) := by
  unfold State.tapSelect; dsimp only; split
  · exact OwnersOk.none (State.cold_locks s 5)
  · exact h.congr rfl

theorem State.tapDrive_ok {s : State} (h : OwnersOk s) (n : Nat) : OwnersOk (s.tapDrive n) := by
  unfold State.tapDrive; dsimp only; split
  · exact (State.tapSelect_ok h 0).congr rfl
  · exact State.tapSelect_ok h 0

/-! Register writes. -/

theorem State.writeSem_ok {s : State} (h : OwnersOk s) (m : Master) (o v : Nat) : OwnersOk (s.writeSem m o v) := by
  unfold State.writeSem; split
  · exact State.lockTurn_ok h m _
  · split
    · refine h.congr ?_
      dsimp only
      (repeat' split) <;> simp
    · exact h.congr (State.beat_locks s m)
    · exact State.force_ok h v
    · exact h

theorem State.after_ok {s : State} (o : Host.Outcome State Fault Refusal) (t : State) (h : OwnersOk t) (e : o = .next t) :
    OwnersOk (s.after o) := by rw [e]; exact h

theorem State.goRst_ok (m : Master) (op : Nat) : Guards (fun z => z.goRst m op) := by
  intro z hz
  unfold State.goRst
  split
  · exact hz
  · exact hz.congr (State.after_keeps z _ (execRstCore_keeps m z)).1
  · exact hz.congr (State.after_keeps z _ (execRstDie_keeps m z)).1
  · exact hz.congr (State.after_keeps z _ (execRstWarm_keeps m z)).1
  · exact State.after_ok _ _ (State.lk_ok hz m pgRST 0x40 _ (fun y _ => OwnersOk.none (by simp [State.coldDump_locks]))) rfl
  · exact hz.congr (State.after_keeps z _ (execRstSpare_keeps m z)).1
  · exact hz.congr (by simp)

theorem State.writeCmd_ok {s : State} (h : OwnersOk s) (m : Master) (page o v : Nat) (go : State → State) (hg : Guards go) :
    OwnersOk (s.writeCmd m page o v go) := by
  unfold State.writeCmd
  refine State.lk_ok h m page o _ (fun z hz => ?_)
  have : OwnersOk (z.storeRw page o v) := hz.congr (State.storeRw_keeps z page o v).1
  split
  · exact hg _ this
  · exact this

theorem State.writeDevice_ok {s : State} (h : OwnersOk s) (m : Master) (page o v : Nat) : OwnersOk (s.writeDevice m page o v) := by
  have hp := h.congr (State.writePlain_keeps s m page o v).1
  unfold State.writeDevice; split
  · split
    · exact State.lockTurn_ok h m _
    · exact h
  · exact h.congr (by simp)
  · exact h.congr (by simp)
  · split
    · exact State.writeCmd_ok h m page o v _ (State.goRst_ok m _)
    · exact hp
  · exact h.congr (by simp)
  · exact h.congr (by simp)
  · split
    · exact State.writeCmd_ok h m page o v _ (Guards.of_keeps (fun z => (State.goSch_keeps z m _).1))
    · exact hp
  · split
    · exact h.congr (State.after_keeps s _ (execTckReparent_keeps m _ s)).1
    · exact hp
  · exact h.congr (State.writeVdt_keeps s m o v).1
  · exact h.congr (State.writeTrs_keeps s m _ o v).1
  · split
    · exact State.writeCmd_ok h m page o v _ (Guards.of_keeps (fun z => (State.goCmb_keeps z m _).1))
    · exact hp
  · exact h.congr (State.writeHbm_keeps s m _ o v).1
  · split
    · exact State.writeCmd_ok h m page o v _ (Guards.of_keeps (fun z => (State.goGal_keeps z m _).1))
    · exact hp
  · exact h.congr (State.writeUpd_keeps s m _ o v).1
  · exact h.congr (State.writePie_keeps s m o v).1
  · split
    · exact State.writeCmd_ok h m page o v _ (Guards.of_keeps (fun z => (State.goCtx_keeps z m _).1))
    · exact hp
  · exact h.congr (State.writeSeep_keeps s m o v).1
  · exact State.writeSem_ok h m o v
  · exact h.congr (State.writeTrc_keeps s m o v).1
  · split
    · exact State.writeCmd_ok h m page o v _ (Guards.of_keeps (fun z => (State.goTst_keeps z m _ _).1))
    · exact hp
  · exact hp

theorem State.write32_ok {s : State} (h : OwnersOk s) (m : Master) (page o v : Nat) : OwnersOk (s.write32 m page o v) := by
  unfold State.write32; split
  · exact h.congr (State.writeCtl_keeps s m page v).1
  · exact h.congr (State.writeIntStat_keeps s page v).1
  · exact h.congr (State.writeIntEn_keeps s m page v).1
  · exact h.congr (State.writeIntSet_keeps s m page v).1
  · exact State.lockTurn_ok h m _
  · split
    · exact State.writeDevice_ok h m page o v
    · exact h.congr (State.writeCorePage_keeps s m page o v).1

theorem State.writeReg_ok {s : State} (h : OwnersOk s) (m : Master) (off len v : Nat) : OwnersOk (s.writeReg m off len v) := by
  unfold State.writeReg; dsimp only; split
  · exact h.congr (State.badAccess_keeps s off).1
  · split
    · exact h.congr (by simp)
    · split
      · exact h
      · split
        · exact State.write32_ok h m _ _ _
        · exact State.write32_ok (State.write32_ok h m _ _ _) m _ _ _

theorem Frame.serve_ok {s : State} (h : OwnersOk s) (f : Frame) (run : State → Frame → Reply)
    (hr : ∀ z, OwnersOk z → OwnersOk (run z f).1) : OwnersOk (s.takeFrame f (fun z => z.answerFrame f run)) := by
  have ha : Guards (fun z => z.answerFrame f run) := by
    intro z hz
    simp only [State.answerFrame]; split
    · exact hz.congr (by simp)
    · exact (hr z hz).congr (by simp)
  simp only [State.takeFrame, State.acceptFrame]
  (repeat' split) <;> first | exact h | exact h.congr (by simp) | exact ha _ (h.congr (by simp))

theorem runMgtWrite_ok (f : Frame) (z : State) (hz : OwnersOk z) : OwnersOk (runMgtWrite z f).1 := by
  unfold runMgtWrite; split
  · exact hz.congr (by simp [State.malformed])
  · exact Guards.foldl (fun a i => a.writeReg .mgt (frAddr f.bytes + 4 * i) 4 (frWord f.bytes i))
      (fun i y hy => State.writeReg_ok hy .mgt _ 4 _) _ z hz

end Sys2Proof.Machine
end

