-- ==== Sys2Proof/Laws/RegFrame.lean ====
section
/-! SUPPORT. What raising an interrupt, a wake reason, a record and a trace record leave of the register file: every register but INT_STAT, the
error log, HIF_WAKE, the PME counter and the count of dropped trace records. -/

namespace Sys2Proof.Machine

open Sys2Proof

/-- A register that no interrupt, record or wake reason writes. -/
structure Quiet (p o : Nat) : Prop where
  low : o < 0x1000
  stat : o ≠ 0x10
  log : o < 0x20 ∨ 0x40 ≤ o
  wake : p = pgHIF → o ≠ 0x50 ∧ o ≠ 0x78
  drop : p = pgTRC → o ≠ 0x80

theorem regAt_ne {p o q n : Nat} (ho : o < 0x1000) (hn : n < 0x1000) (h : p ≠ q ∨ o ≠ n) : regAt p o ≠ regAt q n := by
  unfold regAt; omega

theorem State.setReg_quiet (s : State) (p o q n v : Nat) (ho : o < 0x1000) (hn : n < 0x1000) (h : p ≠ q ∨ o ≠ n) :
    (s.setReg q n v).reg p o = s.reg p o := by
  rw [State.reg_setReg, if_neg (regAt_ne ho hn h)]

theorem State.cnt_quiet (s : State) (p o q n k : Nat) (ho : o < 0x1000) (hn : n < 0x1000) (h : p ≠ q ∨ o ≠ n) :
    (s.cnt q n k).reg p o = s.reg p o := State.setReg_quiet s p o q n _ ho hn h

theorem State.raiseInt_quiet (s : State) (page bit : Nat) {p o : Nat} (h : Quiet p o) : (s.raiseInt page bit).reg p o = s.reg p o := by
  unfold State.raiseInt
  rw [State.reg_congr (State.refreshLine_keeps _ _).2.2.1, State.setReg_quiet _ _ _ _ _ _ h.low (by decide) (.inr h.stat),
    State.reg_markSet]

theorem State.wakeReason_quiet (s : State) (r : Nat) {p o : Nat} (h : Quiet p o) : (s.wakeReason r).reg p o = s.reg p o := by
  have hp : ∀ n, (n = 0x50 ∨ n = 0x78) → p ≠ pgHIF ∨ o ≠ n := by
    intro n hn
    by_cases e : p = pgHIF
    · right; rcases hn with rfl | rfl
      · exact (h.wake e).1
      · exact (h.wake e).2
    · exact .inl e
  unfold State.wakeReason; dsimp only; split
  · rfl
  · generalize hq : (((s.markSet pgHIF 0x50 31).setReg pgHIF 0x50 _).raiseInt pgHIF 0) = q
    have hh : q.reg p o = s.reg p o := by
      rw [← hq, State.raiseInt_quiet _ _ _ h, State.setReg_quiet _ _ _ _ _ _ h.low (by decide) (hp _ (.inl rfl)), State.reg_markSet]
    split
    · exact hh
    · split
      · exact (State.reg_congr rfl _ _).trans ((State.cnt_quiet _ _ _ _ _ _ h.low (by decide) (hp _ (.inr rfl))).trans
          ((State.reg_congr rfl _ _).trans hh))
      · exact (State.reg_congr rfl _ _).trans hh

theorem State.setInt_quiet (s : State) (page bit : Nat) {p o : Nat} (h : Quiet p o) : (s.setInt page bit).reg p o = s.reg p o := by
  unfold State.setInt; dsimp only
  split
  · rw [State.wakeReason_quiet _ _ h, State.raiseInt_quiet _ _ _ h]
  · split
    · rw [State.wakeReason_quiet _ _ h, State.raiseInt_quiet _ _ _ h]
    · split
      · rw [State.wakeReason_quiet _ _ h, State.raiseInt_quiet _ _ _ h]
      · rw [State.raiseInt_quiet _ _ _ h]

theorem State.setReg64_quiet (s : State) (p o q n v : Nat) (ho : o < 0x1000) (hn : n + 4 < 0x1000) (h : p ≠ q ∨ (o ≠ n ∧ o ≠ n + 4)) :
    (s.setReg64 q n v).reg p o = s.reg p o := by
  unfold State.setReg64
  rw [State.setReg_quiet _ _ _ _ _ _ ho (by omega) (by rcases h with h | h; exact .inl h; exact .inr h.2),
    State.setReg_quiet _ _ _ _ _ _ ho (by omega) (by rcases h with h | h; exact .inl h; exact .inr h.1)]

theorem State.logRaw_quiet (s : State) (page l0 l1 l2 : Nat) {p o : Nat} (h : Quiet p o) : (s.logRaw page l0 l1 l2).reg p o = s.reg p o := by
  have ne : ∀ n, 0x20 ≤ n → n < 0x40 → p ≠ page ∨ o ≠ n := fun n h1 h2 => .inr (by have := h.log; omega)
  unfold State.logRaw; split
  · exact State.setInt_quiet _ _ _ h
  · have w : ∀ z : State, (z.wakeHw l0).reg p o = z.reg p o := by
      intro z; unfold State.wakeHw; split
      · exact State.wakeReason_quiet _ _ h
      · rfl
    rw [w, State.setReg64_quiet _ _ _ _ _ _ h.low (by decide) (.inr ⟨by have := h.log; omega, by have := h.log; omega⟩),
      State.setReg64_quiet _ _ _ _ _ _ h.low (by decide) (.inr ⟨by have := h.log; omega, by have := h.log; omega⟩),
      State.setReg_quiet _ _ _ _ _ _ h.low (by decide) (ne _ (by decide) (by decide)),
      State.setReg_quiet _ _ _ _ _ _ h.low (by decide) (ne _ (by decide) (by decide)),
      State.setReg_quiet _ _ _ _ _ _ h.low (by decide) (ne _ (by decide) (by decide))]

theorem State.trcPut_quiet (s : State) (ty src : Nat) (b : List Byte) {p o : Nat} (h : Quiet p o) : (s.trcPut ty src b).reg p o = s.reg p o := by
  unfold State.trcPut; split
  · rfl
  · rw [State.logRaw_quiet _ _ _ _ _ h, State.setInt_quiet _ _ _ h,
      State.cnt_quiet _ _ _ _ _ _ h.low (by decide) (by by_cases e : p = pgTRC; exact .inr (h.drop e); exact .inl e)]
    exact State.reg_congr rfl _ _

theorem State.trc_quiet (s : State) (ty src : Nat) (c : Option Nat) (b : List Byte) {p o : Nat} (h : Quiet p o) :
    (s.trc ty src c b).reg p o = s.reg p o := by
  unfold State.trc; split
  · exact State.trcPut_quiet _ _ _ _ h
  · rfl

theorem State.logErr_quiet (s : State) (page l0 l1 l2 : Nat) {p o : Nat} (h : Quiet p o) : (s.logErr page l0 l1 l2).reg p o = s.reg p o := by
  unfold State.logErr; dsimp only; split
  · exact State.logRaw_quiet _ _ _ _ _ h
  · unfold State.trcFault; split
    · exact State.logRaw_quiet _ _ _ _ _ h
    · rw [State.trc_quiet _ _ _ _ _ h, State.logRaw_quiet _ _ _ _ _ h]

end Sys2Proof.Machine
end

