-- ==== Sys2Proof/Laws/Schedule.lean ====
section
/-! SUPPORT. What a change of the job state leaves in the schedule's state. -/

namespace Sys2Proof.Machine

open Sys2Proof

theorem State.descChanged_sch (s : State) : s.descChanged.sch = s.sch := by
  simp [State.descChanged]

theorem State.refreshMask_sch (s : State) : s.refreshMask.sch = s.sch := by
  unfold State.refreshMask State.setMask
  split <;> (try split) <;> simp [State.descChanged_sch]

theorem State.ctxRefuse_sch (s : State) (code : Nat) : (s.ctxRefuse code).sch = s.sch := by
  simp [State.ctxRefuse]

theorem State.lostReturns_sch (s : State) : s.lostReturns.sch = s.sch := by
  unfold State.lostReturns; split <;> rfl

theorem State.retireSwitch_sch (s : State) : s.retireSwitch.sch = s.sch := by
  unfold State.retireSwitch; split <;> simp [State.descChanged_sch]

theorem State.retireQuiet_sch (s : State) : s.retireQuiet.sch = s.sch := by
  unfold State.retireQuiet; (repeat' split) <;> simp [State.retireSwitch_sch]

/-- The job state changes, and nothing else of the schedule's state (R29). -/
@[simp] theorem State.setJob_sch (s : State) (j : Job) : (s.setJob j).sch = { s.sch with job := j } := by
  by_cases h : s.sch.job = j
  · subst h; simp [State.setJob]
  · simp only [State.setJob, h, if_false, State.retireQuiet_sch, apply_ite State.sch, State.refreshMask_sch, State.lostReturns_sch, State.ctxRefuse_sch, State.setInt_keeps,
      ite_self]

@[simp] theorem State.schRefuse_sch (s : State) (code : Nat) : (s.schRefuse code).sch = { s.sch with refuse := code } := by
  simp [State.schRefuse]

/-- A descriptor change leaves these alone. -/
theorem State.descChanged_frame (s : State) : (State.descChanged s).tick = s.tick ∧
    (State.descChanged s).frac = s.frac ∧
    (State.descChanged s).cores = s.cores ∧
    (State.descChanged s).mesh = s.mesh ∧
    (State.descChanged s).pie = s.pie ∧
    (State.descChanged s).vdt = s.vdt ∧
    (State.descChanged s).colGroups = s.colGroups ∧
    (State.descChanged s).colPend = s.colPend ∧
    (State.descChanged s).opt = s.opt ∧
    (State.descChanged s).mem = s.mem ∧
    (State.descChanged s).train = s.train ∧
    (State.descChanged s).clk = s.clk ∧
    (State.descChanged s).pwr = s.pwr ∧
    (State.descChanged s).rst = s.rst ∧
    (State.descChanged s).buddy = s.buddy := by
  simp [State.descChanged]

/-- Bringing the port mask up to date leaves these alone. -/
theorem State.refreshMask_frame (s : State) : (State.refreshMask s).tick = s.tick ∧
    (State.refreshMask s).frac = s.frac ∧
    (State.refreshMask s).cores = s.cores ∧
    (State.refreshMask s).mesh = s.mesh ∧
    (State.refreshMask s).pie = s.pie ∧
    (State.refreshMask s).vdt = s.vdt ∧
    (State.refreshMask s).colGroups = s.colGroups ∧
    (State.refreshMask s).colPend = s.colPend ∧
    (State.refreshMask s).opt = s.opt ∧
    (State.refreshMask s).mem = s.mem ∧
    (State.refreshMask s).train = s.train ∧
    (State.refreshMask s).clk = s.clk ∧
    (State.refreshMask s).pwr = s.pwr ∧
    (State.refreshMask s).rst = s.rst ∧
    (State.refreshMask s).buddy = s.buddy := by
  unfold State.refreshMask State.setMask
  split <;> (try split) <;> simp [State.descChanged_frame]

/-- A retirement that takes effect leaves these alone. -/
theorem State.retireQuiet_frame (s : State) : (State.retireQuiet s).tick = s.tick ∧
    (State.retireQuiet s).frac = s.frac ∧
    (State.retireQuiet s).cores = s.cores ∧
    (State.retireQuiet s).mesh = s.mesh ∧
    (State.retireQuiet s).vdt = s.vdt ∧
    (State.retireQuiet s).colGroups = s.colGroups ∧
    (State.retireQuiet s).colPend = s.colPend ∧
    (State.retireQuiet s).opt = s.opt ∧
    (State.retireQuiet s).train = s.train ∧
    (State.retireQuiet s).clk = s.clk ∧
    (State.retireQuiet s).pwr = s.pwr ∧
    (State.retireQuiet s).rst = s.rst ∧
    (State.retireQuiet s).buddy = s.buddy ∧
    (State.retireQuiet s).pie = s.pie := by
  unfold State.retireQuiet State.retireSwitch
  (repeat' split) <;> simp [State.descChanged_frame]

/-- A change of the job state leaves these alone. -/
theorem State.setJob_frame (s : State) (j : Job) : (State.setJob s j).tick = s.tick ∧
    (State.setJob s j).frac = s.frac ∧
    (State.setJob s j).cores = s.cores ∧
    (State.setJob s j).mesh = s.mesh ∧
    (State.setJob s j).vdt = s.vdt ∧
    (State.setJob s j).colGroups = s.colGroups ∧
    (State.setJob s j).colPend = s.colPend ∧
    (State.setJob s j).opt = s.opt ∧
    (State.setJob s j).train = s.train ∧
    (State.setJob s j).clk = s.clk ∧
    (State.setJob s j).pwr = s.pwr ∧
    (State.setJob s j).rst = s.rst := by
  unfold State.setJob
  split
  · simp
  · dsimp only
    simp only [State.retireQuiet_frame]
    (repeat' split) <;> simp [State.refreshMask_frame, State.ctxRefuse, State.lostReturns]

/-- A job that runs or rewinds keeps its raises. -/
theorem State.setJob_pie (s : State) (j : Job) (h : j = .running ∨ j = .rewinding) : (s.setJob j).pie = s.pie := by
  unfold State.setJob
  rcases h with h | h <;> subst h <;> split <;> simp [State.retireQuiet_frame]

end Sys2Proof.Machine
end

