-- ==== Sys2Proof/Laws/Threads.lean ====
section
/-! SUPPORT. What reading core memory leaves unchanged, and what an instruction does once its word is legal. -/

namespace Sys2Proof.Machine

open Sys2Proof

/-- Two states whose cores hold the same threads, memory and units, apart from their fault queues. -/
def SameCores (s t : State) : Prop :=
  ∀ d, (s.core d).threads = (t.core d).threads ∧ (s.core d).mem = (t.core d).mem ∧ (s.core d).arr = (t.core d).arr ∧
    (s.core d).fls = (t.core d).fls ∧ (s.core d).dma = (t.core d).dma ∧ (s.core d).undo = (t.core d).undo ∧
    (s.core d).chains = (t.core d).chains ∧ (s.core d).clocked = (t.core d).clocked ∧ (s.core d).inReset = (t.core d).inReset

theorem SameCores.of_cores {s t : State} (h : s.cores = t.cores) : SameCores s t := by
  intro d; simp [State.core, h]

theorem SameCores.trans {s t u : State} (h : SameCores s t) (g : SameCores t u) : SameCores s u := by
  intro d
  have := h d; have := g d
  simp_all

theorem SameCores.pushRec (s : State) (c : Nat) (r : FaultRec) : SameCores (s.pushRec c r) s := by
  unfold State.pushRec
  intro d
  simp only [State.core_congr (State.wakeHw_keeps _ _).2.2.1, State.core_congr (State.setInt_keeps _ _ _).2.2.1]
  split
  · rw [State.core_congr (State.trcFault_keeps _ _ _ _ _).2.2.1]
    by_cases h : d = c
    · subst h; simp
    · simp [h]
  · rw [State.core_congr (State.setInt_keeps _ _ _).2.2.1]
    by_cases h : d = c
    · subst h; simp
    · simp [h]

theorem SameCores.refl (s : State) : SameCores s s := SameCores.of_cores rfl

/-- The fault of a word of core memory changes no thread, no memory and no unit of a core (R161). -/
theorem SameCores.cmFault (s : State) (c : Nat) (w : Reader) (b : Nat) : SameCores (s.cmFault c w b) s := by
  unfold State.cmFault State.coreFault State.raiseClass
  refine (SameCores.of_cores (State.raiseHw_keeps _).2.2.2.1).trans ((SameCores.pushRec _ _ _).trans (SameCores.of_cores ?_))
  simp

theorem SameCores.cmFaults (s : State) (c : Nat) (w : Reader) (bs : List Nat) : SameCores (s.cmFaults c w bs) s := by
  unfold State.cmFaults
  induction bs generalizing s with
  | nil => exact SameCores.refl s
  | cons b l ih => exact (ih _).trans (SameCores.cmFault s c w b)

/-- Reading core memory changes no thread, no memory and no unit of a core (R161). -/
theorem SameCores.cmTouch (s : State) (c a n : Nat) (w : Reader) : SameCores (s.cmTouch c a n w) s :=
  (SameCores.cmFaults _ c w _).trans (SameCores.of_cores (by simp))

/-- What follows an instruction in its core cycle changes no thread, no memory and no unit of a core (R137, R161). -/
theorem SameCores.lands (s : State) (c t : Nat) (z : State) : SameCores (lands s c t z) z := SameCores.cmFaults _ _ _ _

theorem SameCores.thread {s t : State} (h : SameCores s t) (c u : Nat) : s.thread c u = t.thread c u := by
  simp [State.thread, Core.thread, (h c).1]

theorem SameCores.cmBytes {s t : State} (h : SameCores s t) (c a n : Nat) : s.cmBytes c a n = t.cmBytes c a n := by
  simp [State.cmBytes, (h c).2.1]

@[simp] theorem fetched_thread (s : State) (c t d u : Nat) : (fetched s c t).thread d u = (s.awake c).thread d u :=
  (SameCores.of_cores (by simp [fetched])).thread d u

@[simp] theorem fetched_cmBytes (s : State) (c t d a n : Nat) : (fetched s c t).cmBytes d a n = (s.awake c).cmBytes d a n :=
  (SameCores.of_cores (by simp [fetched])).cmBytes d a n

/-- An instruction whose duplicated logic shows no mismatch executes (R135). -/
theorem State.issueAgrees_none {s : State} {c : Nat} (h : Store.find s.slips (pgCORE c) = none) (t : Nat) (k : State → State) :
    s.issueAgrees c t k = k s := by
  simp [State.issueAgrees, State.takeSlip, h]

/-- A word whose fields are legal has an opcode that names an instruction. -/
theorem opcKnown_of_legal {w : Nat} (h : insLegal w = true) : opcKnown (insOpc w) = true := by
  unfold insLegal at h
  split at h <;> first | (rename_i h1; rw [h1]; decide) | cases h

/-- A legal word that is issued runs the body of its opcode's meaning on the state after the fetch; the records of a word that cannot be
corrected follow. -/
theorem State.instr_issues {s : State} {c t w : Nat} (h : Issues s c t w) {opc : Nat} (ho : insOpc w = opc)
    (body : State → Thread → Nat → State) :
    s.instr c t opc body = lands s c t (body (fetched s c t) ((fetched s c t).thread c t) w) := by
  obtain ⟨h1, h2, h3, h4, h5, h6, h7, h8⟩ := h
  have hd : ((s.awake c).thread c t).damaged [32, 33] = false ∧ ((s.awake c).thread c t).damaged (insReads w) = false := by
    unfold Thread.damaged at h7 ⊢
    rwa [List.any_append, Bool.or_eq_false_iff] at h7
  have hw : (fetched s c t).cmWord c ((s.awake c).thread c t).a.pc = w := by
    rw [← h5]; exact congrArg leNat (fetched_cmBytes s c t c _ 4)
  have hs : Store.find (fetched s c t).slips (pgCORE c) = none := by
    unfold fetched; simpa using h8
  have hk : opcKnown opc = true := ho ▸ opcKnown_of_legal h6
  have fe : ((s.awake c).cmCorrect c ((s.awake c).thread c t).a.pc 4).1 = fetched s c t := rfl
  unfold State.instr State.cmRead lands
  simp only [h1, h2, h3, h4, hd, fe]
  simp [h5, ho, hk, hd, h6, State.issueAgrees_none hs]

/-- The end of an instruction in the statements' terms. -/
theorem State.done_eq (s : State) (c t : Nat) (x : Thread) : s.done c t x = retire s c t (Sys2Proof.goesOn x) := by
  rfl

/-! Schedule faults of a unit leave every thread, memory and unit as they were. -/

theorem SameCores.coreFault_sched (s : State) (c unit cause thread ctx gen pc addr : Nat) :
    SameCores (s.coreFault c .sched unit cause thread ctx gen pc addr) s := by
  unfold State.coreFault State.raiseClass
  exact (SameCores.of_cores ((State.raiseSched_keeps _).2.2.1)).trans (SameCores.pushRec _ _ _)

theorem SameCores.arrFault_sched (s : State) (c : Nat) (q : ArrCmd) (cause pos wcol : Nat) :
    SameCores (s.arrFault c q .sched cause pos wcol) s := by
  unfold State.arrFault
  refine (SameCores.coreFault_sched _ _ _ _ _ _ _ _ _).trans (SameCores.of_cores ?_)
  rw [(State.setInt_keeps _ _ _).2.2.1, (State.logErr_keeps _ _ _ _ _).2.2.1]

theorem SameCores.flsFault_sched (s : State) (c : Nat) (q : ChainCmd) (cause block : Nat) :
    SameCores (s.flsFault c q .sched cause block) s := by
  unfold State.flsFault State.flsFaultAt
  refine (SameCores.coreFault_sched _ _ _ _ _ _ _ _ _).trans (SameCores.of_cores ?_)
  rw [(State.setInt_keeps _ _ _).2.2.1, (State.logErr_keeps _ _ _ _ _).2.2.1]

/-- The check of the head of the load queue changes no thread and no queue (R69). -/
theorem State.checkLoadHead_core (s : State) (c : Nat) :
    ((s.checkLoadHead c).core c).threads = (s.core c).threads ∧ ((s.checkLoadHead c).core c).arr.loadQ = (s.core c).arr.loadQ ∧
    ((s.checkLoadHead c).core c).arr.streamQ = (s.core c).arr.streamQ ∧
    ((s.checkLoadHead c).core c).arr.issued = (s.core c).arr.issued := by
  unfold State.checkLoadHead
  dsimp only
  split
  · simp
  · split
    · simp
    · split
      · simp
      · rename_i q _ _ _ _ e _
        have h := SameCores.arrFault_sched (s.setCore c { s.core c with arr := { (s.core c).arr with loadStall := true } }) c q e (arrBuf q.word * 2 ^ 16) 0 c
        unfold State.arrSched
        rw [h.1, h.2.2.1]; simp

/-- The check of the head of the stream queue changes no thread and no queue (R69). -/
theorem State.checkStreamHead_core (s : State) (c : Nat) :
    ((s.checkStreamHead c).core c).threads = (s.core c).threads ∧ ((s.checkStreamHead c).core c).arr.loadQ = (s.core c).arr.loadQ ∧
    ((s.checkStreamHead c).core c).arr.streamQ = (s.core c).arr.streamQ ∧
    ((s.checkStreamHead c).core c).arr.issued = (s.core c).arr.issued := by
  unfold State.checkStreamHead
  dsimp only
  split
  · simp
  · split
    · simp
    · split
      · simp
      · rename_i q _ _ _ _ e _
        have h := SameCores.arrFault_sched (s.setCore c { s.core c with arr := { (s.core c).arr with streamStall := true } }) c q e (arrBuf q.word * 2 ^ 16) 0 c
        unfold State.arrSched
        rw [h.1, h.2.2.1]; simp

/-- The check of the head of the chain queue changes no thread and no queue (R108). -/
theorem State.checkChainHead_core (s : State) (c : Nat) :
    ((s.checkChainHead c).core c).threads = (s.core c).threads ∧ ((s.checkChainHead c).core c).fls.queue = (s.core c).fls.queue ∧
    ((s.checkChainHead c).core c).chains = (s.core c).chains := by
  unfold State.checkChainHead
  dsimp only
  split
  · simp
  · split
    · simp
    · split
      · simp
      · rename_i q _ _ _ _ e _
        unfold State.flsStall
        have h := SameCores.flsFault_sched (s.modCore c (fun k => { k with fls := { k.fls with stall := true } })) c q e 0 c
        rw [h.1, h.2.2.2.1, h.2.2.2.2.2.2.1]; simp [State.modCore]

/-- An array command put into its queue: it stands at the queue's end, and the threads are as they were (R67). -/
theorem State.pushArray_core (s : State) (c w : Nat) (iss : Issue) :
    let k := s.core c
    let q : ArrCmd := ⟨w, iss, k.arr.issued, k.chains⟩
    let u := s.pushArray c w iss
    (u.core c).threads = k.threads ∧
    (u.core c).arr.loadQ = (if arrOp w = 1 then k.arr.loadQ ++ [q] else k.arr.loadQ) ∧
    (u.core c).arr.streamQ = (if arrOp w = 1 then k.arr.streamQ else k.arr.streamQ ++ [q]) ∧
    (u.core c).arr.issued = k.arr.issued + 1 := by
  dsimp only
  unfold State.pushArray
  dsimp only
  split
  · rename_i h
    split
    · have g := State.checkLoadHead_core (s.setCore c { s.core c with
        arr := { (s.core c).arr with issued := (s.core c).arr.issued + 1
                                     loadQ := (s.core c).arr.loadQ ++ [⟨w, iss, (s.core c).arr.issued, (s.core c).chains⟩] } }) c
      simp only [g, State.core_setCore_same, and_self]
    · simp
  · rename_i h
    split
    · have g := State.checkStreamHead_core (s.setCore c { s.core c with
        arr := { (s.core c).arr with issued := (s.core c).arr.issued + 1
                                     streamQ := (s.core c).arr.streamQ ++ [⟨w, iss, (s.core c).arr.issued, (s.core c).chains⟩] } }) c
      simp only [g, State.core_setCore_same, and_self]
    · simp

end Sys2Proof.Machine
end

