-- ==== Sys2Proof/Machine/Module.lean ====
section
/-! DEFINITION. The module's interfaces as far as the package sees them: the pins of the host edge connector (R498, R499), the node ID
straps (R503) and the fibres of the array connectors (R504). -/

namespace Sys2Proof.Machine

open Sys2Proof

/-! The host edge connector. -/

/-- The groups of pins (R498). -/
inductive PinGroup where
  | input
  | inputReturn
  | sideband
  | pcie
  | ground
  deriving DecidableEq, Repr

/-- The group of pin `n`, the same on both sides; none outside 1 to 105 (R498). -/
def pinGroup (n : Nat) : Option PinGroup :=
  if n = 0 ∨ 105 < n then none
  else if n ≤ 12 then some .input
  else if n ≤ 24 then some .inputReturn
  else if n ≤ 40 then some .sideband
  else if n ≤ 104 then some .pcie
  else some .ground

/-- The PCIe lane of a pin and its place in the lane's four, GND, P, N, GND (R498). -/
def pcieLane (n : Nat) : Option (Nat × Nat) :=
  if pinGroup n = some .pcie then some ((n - 41) / 4, (n - 41) % 4) else none

/-- The sideband signals of side A and of side B, from pin 25 on (R499). -/
def sidebandA : List String :=
  ["GND", "PCIE_REFCLK_P", "PCIE_REFCLK_N", "GND", "RACK_REF_P", "RACK_REF_N", "GND", "PERST#", "WAKE#", "MRST#", "ALERT#",
   "CLKOBS_P", "CLKOBS_N", "GND", "P3V3_AUX", "P3V3_AUX"]
def sidebandB : List String :=
  ["GND", "T1S_P", "T1S_N", "GND", "TCK", "TMS", "TDI", "TDO", "TRST#", "NODE0", "NODE1", "NODE2", "NODE3", "NODE4", "PRSNT#", "GND"]

/-- The signal of a sideband pin on side A or B. -/
def sidebandPin (sideB : Bool) (n : Nat) : Option String :=
  if n < 25 then none else (if sideB then sidebandB else sidebandA)[n - 25]?

/-- The node ID that straps NODE0 to NODE4 form, each open (1) or tied to GND (0) (R503). -/
def strapNode (opened : List Bool) : Nat := (opened.take 5).foldr (fun b a => b2n b + 2 * a) 0

/-! The array connectors (R504). -/

/-- The connector of a physical port, and the fibres it transmits and receives on. -/
def fibres (p : Nat) : Nat × Nat × Nat := (engOf p, 1 + locOf p, 16 - locOf p)

/-- The physical port that transmits on fibre `f` of connector `e`; none on a receive fibre or a dark one. -/
def fibrePort (e f : Nat) : Option Nat := if f = 0 ∨ 5 < f then none else some (4 * (f - 1) + e)

/-- Whether light leaves fibre `f` of connector `e`: its port is not OFF (R269, R504). -/
def State.fibreLit (s : State) (e f : Nat) : Bool :=
  match fibrePort e f with
  | some p => decide ((s.oport p).st ≠ .off)
  | none => false

end Sys2Proof.Machine
end

