-- ==== Sys2Proof/Tests/Slice0.lean ====
section
/-! SUPPORT. The model's own tests: what the check of well-formedness refuses, words and results that the spec works out, one step each, and a
witness for the premises of the statements: small states that meet them, at the edges of their ranges. -/

namespace Sys2Proof.Tests

open Sys2Proof Sys2Proof.Machine

/-! Well-formedness. -/

theorem test_wf_offset : Instr.wellFormed (.registerWrite .pcie 0x4000000 4 0) = false := by decide
theorem test_wf_last_offset : Instr.wellFormed (.registerWrite .pcie 0x3FFFFFC 4 0) = true := by decide

/-! States. -/

/-- A device in a span, with thread 0 of core 0 READY at address 0, where the word `w` stands. -/
def inSpan (w : Nat) : State :=
  { sch := { job := .running, place := .span, seq := 1 }
    cores := [(0, { mem := Store.setRun 0#8 [] 0 (leBytes 4 w), clocked := true, threads := [(0, { a := { st := .ready } })] })] }

/-- A device whose job stands in `j`, with the page `p` owned by the master `m`. -/
def owned (m : Master) (p : Nat) (j : Job) : State :=
  { host := { locks := [(p, masterCode m)] }, sch := { job := j } }

/-- A device whose main rails are cut. -/
def dark : State := { pwr := { mainOk := false } }

/-- A device in the warm reset that began at tick 5. -/
def recovering : State := { tick := 7, rst := { runs := [⟨.warm, 0, 5⟩] } }

/-! Words that the spec works out or lays out (R122, R123, R128, R129). -/

theorem test_word_imx : insOpc 0x81140010 = 0x10 ∧ fld 0x81140010 24 3 = 1 ∧ fld 0x81140010 18 5 = 5 ∧ fld 0x81140010 0 18 = 0x10 ∧
    bitAt 0x81140010 23 = false := by decide
theorem test_word_gbind : insOpc 0x69000000 = 0x0D ∧ fld 0x69000000 24 3 = 1 ∧ fld 0x69000000 20 3 = 0 ∧ insLegal 0x69000000 = true := by decide
theorem test_word_zero : opcKnown (insOpc 0) = false := by decide
theorem test_word_bsum_bit6 : insLegal (7 * 2 ^ 27 + 5 * 2 ^ 23) = true ∧ insLegal (7 * 2 ^ 27 + 6 * 2 ^ 23) = false := by decide

/-- One word of each opcode, its fields at their least; ALU and ALUI once more with NEG, GSET and GBIND with guard 1. -/
def words : List Nat :=
  [0x01, 0x02, 0x03, 0x04, 0x05, 0x06, 0x07, 0x08, 0x09, 0x0A, 0x0B, 0x0E, 0x0F, 0x10, 0x11, 0x12, 0x13, 0x14].map (· * 2 ^ 27) ++
    [0x0800000F, 0x1000F000, 0x61000000, 0x69000000, 0x81140010]

/-- Statements on instructions: a thread issues every one of them (ScalarInstructions, GuardBinding, LoadsAndStores, StoreFrame, Branches, Waits,
KeyFunctions, KeyWaits, Issue). -/
theorem test_issues : ∀ w ∈ words, Issues (inSpan w) 0 0 w := by
  have h : ∀ w ∈ words, let s := (inSpan w).awake 0
      s.canIssue 0 = true ∧ (s.thread 0 0).a.st = .ready ∧ (s.thread 0 0).a.pc % 4 = 0 ∧
      s.cmIn (s.thread 0 0).a.pc 4 = true ∧ s.cmWord 0 (s.thread 0 0).a.pc = w ∧ insLegal w = true ∧
      (s.thread 0 0).damaged ([32, 33] ++ insReads w) = false ∧ Store.find s.slips (pgCORE 0) = none := by decide
  intro w hw
  obtain ⟨a, b, c, d, e, f, g, k⟩ := h w hw
  exact ⟨a, b, c, d, e, f, ⟨g, k⟩⟩

/-- A reserved bit of a branch makes the word illegal (R123). -/
theorem test_word_br_reserved : insLegal 0x30000000 = true ∧ insLegal 0x30400000 = false := by decide

/-! Results of the scalar ALU (R59, R60). -/

theorem test_add_wraps : aluOp 0x00 0xFFFFFFFF#32 1#32 {} = some (some 0#32, { z := true, c := true }) := by decide
theorem test_sub_borrows : aluOp 0x01 0#32 1#32 {} = some (some 0xFFFFFFFF#32, { n := true, c := true }) := by decide
theorem test_div_by_zero : aluOp 0x0B 7#32 0#32 {} = some (some 0#32, { z := true, dz := true }) := by decide
theorem test_cond_ls : condHolds 0xA { c := true } = true ∧ condHolds 0xA {} = false := by decide

/-! One step each. -/

/-- LUI G1, 0x12345 (R123). -/
theorem test_lui : ∃ u, exec (.lui 0 0) (inSpan 0x18412345) = .next u ∧ (u.thread 0 0).greg 1 = 0x12345000#32 ∧ (u.thread 0 0).a.pc = 4 :=
  ⟨_, rfl, by decide, by decide⟩

/-- An all-zero word is a schedule fault of the thread (R122, R135). -/
theorem test_zero_word_faults : ∃ u, exec (.nop 0 0) (inSpan 0) = .next u ∧ (u.thread 0 0).a.st = .faulted := ⟨_, rfl, by decide +kernel⟩

/-- A tick passes where nothing waits, and a cycle of RC without main power (R189, R453). -/
theorem test_idle_tick : step State.reset = .next { State.reset with tick := 1, aon := State.reset.aon + 1 } := by rfl
theorem test_idle_dark : step dark = .next { dark with aon := 1000 } := by rfl

/-- IDCODE shifts the device's code out (R494). -/
theorem test_idcode : ∃ u, exec .idcode State.reset = .next u ∧ u.out = [.scan 0x15A209C7] := ⟨_, rfl, rfl⟩

/-- A page that nobody owns is claimed, and one that is owned is not (R441). -/
theorem test_claim : ∃ u, exec (.lockClaim .pcie pgSCH) State.reset = .next u ∧ u.owner pgSCH = 1 := ⟨_, rfl, by decide⟩
theorem test_claim_owned : ∃ u, exec (.lockClaim .pcie pgSCH) (owned .mgt pgSCH .idle) = .next u ∧ u.owner pgSCH = 2 := ⟨_, rfl, by decide⟩

/-- SCH_LOAD outside IDLE is refused with code 1 (R30). -/
theorem test_load_refused : ∃ u, exec (.schLoad .pcie) (owned .pcie pgSCH .loaded) = .next u ∧ u.sch.refuse = 1 ∧ u.sch.job = .loaded :=
  ⟨_, rfl, by decide, by decide⟩

/-- A trip cuts the main rails and drives ALERT# (R458). -/
theorem test_trip : ∃ u, exec (.trip 0 110) State.reset = .next u ∧ u.pwr.mainOk = false ∧ u.pwr.tripped = true := ⟨_, rfl, rfl, rfl⟩
theorem test_no_trip : exec (.trip 0 109) State.reset = .next State.reset := by rfl

/-! Witnesses: premises on the units of a core. -/

/-- A core in a span with the units `arr`, `fls` and `dma`. -/
def units (arr : ArrayState) (fls : FlsState) (dma : DmaState) : State :=
  { sch := { job := .running, place := .span, seq := 1 }, cores := [(255, { arr := arr, fls := fls, dma := dma, clocked := true })] }

/-- An issue by thread 15 with a resolved binding. -/
def iss : Machine.Issue := ⟨0, 15, 0, 0, 0, .resolved true, false⟩

/-- A LOAD of buffer 0 heads its queue, and a STREAM of buffer 1 its own, with no command running (ArrayStarts). -/
theorem test_array_heads : let s := units { loadQ := [⟨0x01, iss, 0, 0⟩], streamQ := [⟨0x12, iss, 1, 0⟩] } {} {}
    s.arrRuns 255 = true ∧ (s.core 255).arr.loadStall = false ∧ (s.core 255).arr.frozen = false ∧ (s.core 255).arr.runs = [] ∧
      arrOp 0x01 = 1 ∧ arrOp 0x12 = 2 ∧ arrBuf 0x12 = 1 ∧ (s.core 255).arr.buf 1 = none := by decide

/-- The oldest LOAD and STREAM hold nothing; one has not passed its write point (CommandEnds, WritePoint). -/
theorem test_array_runs : let a : ArrayState := { runs := [{ cmd := ⟨0x01, iss, 0, 0⟩ }, { cmd := ⟨0x02, iss, 1, 0⟩, pastWrite := true }] }
    a.oldest 1 = some 0 ∧ a.oldest 2 = some 1 ∧
      firstIdx (fun r => arrOp r.cmd.word == 1 && !r.stopped && !r.pastWrite) a.runs 0 = some 0 := by decide

/-- A chain heads its queue and may start, and waits for no bank (ChainStarts). -/
theorem test_chain_head : let q : ChainCmd := ⟨0x02, [], 0, iss⟩
    let s := units {} { queue := [q] } {}
    s.arrRuns 255 = true ∧ (s.core 255).fls.stall = false ∧ (s.core 255).fls.mayStart q = true ∧ fhOp q.head = 2 := by decide

/-- A descriptor of each kind heads the last stream and is served, a WALK once it has started (DmaBlocks, TileWalk). -/
theorem test_served : ∀ kind ∈ [1, 2, 3, 4, 5, 6], let d : Desc := ⟨kind, 0, 0, 0, 0, 0, 0, 0, false, false, false, 0, [], []⟩
    (units {} {} { streams := [(31, [d])] }).served 255 31 kind = some d := by decide
theorem test_walk_head : let d : Desc := ⟨7, 0, 0, 0, 0, 0, 0, 0, false, false, false, 0, [], []⟩
    (units {} {} { streams := [(31, [d])] }).walkHead 255 31 = some d := by decide

/-- Streams are served in turn from the one after the last (R165). -/
theorem test_turn : let d : Desc := ⟨1, 0, 0, 0, 0, 0, 0, 0, false, false, false, 0, [], []⟩
    ({ streams := [(2, [d]), (5, [d])], lastServed := 2 } : DmaState).turn = some 5 ∧
      ({ streams := [(2, [d]), (5, [d])], lastServed := 5 } : DmaState).turn = some 2 := by decide

/-- A descriptor whose last block has moved (DmaCompletions). -/
theorem test_moved : let d : Desc := ⟨1, 0, 0, 0, 0, 0, 0, 1, true, false, true, 0, [], []⟩
    ((((units {} {} { streams := [(0, [d])] }).core 255).dma.stream 0).head? = some d ∧ dsKeyEn d.word = false) := by decide

/-- A thread waits at an issue opportunity, holding a WAITT that is due (WaitRetest). -/
theorem test_wait_retest : let s : State := { sch := { job := .running, place := .span }
                                              cores := [(0, { threads := [(15, { a := { st := .wait }, held := some { word := 0x78000000, reason := 6 } })] })] }
    s.canIssue 0 = true ∧ (s.thread 0 15).a.st = .wait ∧ insOpc 0x78000000 = 0x0F ∧ fld 0x78000000 0 16 ≤ s.tick - s.sch.first := by decide

/-- A thread counts its progress up to its window, and a core waits on a keystone (HangDetection). -/
theorem test_counts : let s : State := { sch := { job := .running, place := .span }, regs := [(0x4044, 1#32), (0x80040, 1#32)]
                                         cores := [(0, { threads := [(0, { a := { st := .wait }, held := some { word := 0, reason := 5 }, pwin := 9, pcnt := 9 })] })] }
    s.inSpan = true ∧ bitAt (s.reg (pgCORE 0) 0x40) 0 = true ∧ (s.thread 0 0).counts = true ∧ (s.thread 0 0).onKey = true ∧
      fld (s.reg pgRST 0x44) 0 16 = 1 ∧ (s.core 0).wd ≤ 1000 := by decide

/-- A keystone of the thread's context (KeyFunctions, KeyWaits). -/
theorem test_owns_key : let s : State := { (inSpan 0x70000000) with ctx := { keys := [(0, { cfg := 1 * 2 ^ 14 })] } }
    (s.key (keyNo 0x70000000)).kind = 1 ∧ (s.key (keyNo 0x70000000)).owner = (s.thread 0 0).tag.1 := by decide

/-! Witnesses: premises on the device. -/

/-- A physical port in partition, its link up, in a torus of 2 along each axis: port 0 (FlitArrivals, SlotTransmission, AlarmsAndGaps,
Rewinds, HalfSlots). -/
def linked : State :=
  { sch := { job := .running, place := .span, seq := 1 }
    regs := [(0xA04C, 0x02020202#32)]
    vdt := { ports := [(0, { peerLport := 2 })] }
    opt := { ports := [(0, { st := .up, aligned := true })] } }

theorem test_in_part : linked.lport 0 = some 0 ∧ linked.inPart 0 = true ∧ (linked.vport 0).retire = false ∧ linked.knowsAlarm 1 = false ∧
    linked.tagOpen 0 = true ∧ linked.framingOn 0 32 = true ∧ linked.retryOn 0 = true := by decide

/-- Of two copies of an alarm word the first good one counts, and a word without one is none (AlarmsAndGaps). -/
theorem test_alarm_copies : let c := BitVec.ofNat 8 (crc8 (leBytes 8 0x103))
    goodCopy ⟨0x103#64, c, 0x203#64, c⟩ = some 0x103 ∧ goodCopy ⟨0x203#64, c, 0x103#64, c⟩ = some 0x103 ∧
      goodCopy ⟨0x203#64, c, 0x203#64, c⟩ = none := by decide +kernel

/-- A disagreement is due at the Viaduct, and an exchange measured on a port stands before the command's own (FlitArrivals, TickExchanges). -/
theorem test_slip_and_exchange : Store.find ({ linked with slips := [(pgVDT, 0)] } : State).slips pgVDT = some 0 ∧
    (({ opt := { ports := [(0, { exch := some ⟨1, 2, 3, 4, false⟩ })] } } : State).takeExchange 0 ⟨0, 0, 0, 0, true⟩).2 = ⟨1, 2, 3, 4, false⟩ := by decide

/-- An axis of extent 1 carries nothing (R217). -/
theorem test_extent_one : ({ linked with regs := [(0xA04C, 0x01010101#32)] } : State).inPart 0 = false := by decide

/-- A parent port is named, and a backup port (TickExchanges, TickStates). -/
theorem test_tick_port : State.tckPort { regs := [(0x9048, 15#32)] } = some 15 ∧ State.tckPort { regs := [(0x9048, 16#32)] } = none := by decide

/-- The engine runs the mailbox command that heads its queue: each code (Mailboxes, Standby). -/
theorem test_mbx_runs : ∀ code ∈ [0x01, 0x02, 0x10, 0x40, 0x41, 0x42, 0x43, 0x44, 0x45],
    ({ host := { engineQ := [1, 0], mbx1 := { st := .running, req := [code] } } } : State).mbxRuns code = some 1 := by decide

/-- A context command on a quiet device is accepted and takes effect at once (Contexts). -/
theorem test_ctx : let s : State := { owned .pcie pgCTX .idle with regs := [(0x11044, 1#32)] }
    s.ctxAccept (s.ctxCmd 1) = none ∧ s.quietJob = true ∧ (s.ctxCmd 1).seq = 0 := by decide

/-- A vote at each stage, in the pier frame after the last, and none in its own (Rounds). -/
theorem test_vote : ∀ n ∈ [1, 2, 3],
    let s := fun (seq : Nat) => ({ sch := { job := .running, place := .pier, seq := seq }, pie := { votes := [⟨2, true, 1, n, 8, [], [], []⟩] } } : State)
    ((s 9).voteAt n).isSome = true ∧ (s 8).voteAt n = none := by decide

/-- The majority of three copies of a block: all agree, the own one loses, the peer's loses, none agree (R362; Rounds). -/
theorem test_verdict : let i : VoteItem := ⟨0, 0, 0, 0, 0, [1#8], [2#8], [3#8], [2#8]⟩
    voteVerdict ([1#8], [2#8]) i = 0 ∧ voteVerdict ([7#8], [2#8]) { i with buddyData := [1#8] } = 1 ∧
      voteVerdict ([3#8], [2#8]) i = 2 ∧ voteVerdict ([7#8], [2#8]) i = 3 := by decide

/-- A rewind under way: a raise of a second kind may propose, unless the agreed tick is too near (Rewinds). -/
theorem test_raises : let s : State := { sch := { job := .rewinding }, pie := { raises := [{ tick := 1 }, { tick := 2, second := true }], agreed := some 5 } }
    s.pie.raises.find? (·.second) = some { tick := 2, second := true } ∧ 5 < s.tick + s.flood + 64 ∧ s.pie.restored = false := by decide

/-- A trained port with four reports, one that a comb's loss took from UP, and a half-slot kept that the peer has not had (PortStates,
HalfSlots). -/
theorem test_ports : let o : OptPort := { st := .train, aligned := true, reports := [3, 4, 5, 6], lossAt := some 9, nacked := [8], sentHalf := [(8, [])] }
    let s : State := { opt := { ports := [(19, o)] } }
    (s.oport 19).st = .train ∧ (s.oport 19).reports = [3, 4, 5, 6] ∧ (s.oport 19).lossAt ≠ none ∧
      (∃ x ∈ (s.oport 19).sentHalf, x.1 = 8) ∧ 8 ∉ (s.oport 19).resend := by decide

/-- A change of comb mode waits, and its combs are ready (Combs). -/
theorem test_combs : let o : OptState := { waiting := some 1, k0 := .locked }
    o.failover = none ∧ o.otherFeeds (modeFeeds 1) ≠ [] ∧ o.feedsReady (o.otherFeeds (modeFeeds 1)) (modeFeeds 1) = true ∧
      o.feedsReady (o.otherFeeds (modeFeeds 2)) (modeFeeds 2) = false := by decide

/-- A page of each space waits to be zeroed, and the engine may (Contexts). -/
theorem test_zero : let s : State := { ctx := { zeroQ := [(false, 7, 1), (false, 3, 1), (true, 5, 1)] } }
    s.zeroNext false = some (3, 0) ∧ s.zeroNext true = some (5, 0) ∧ s.zeroBudget false = 2048 := by decide

/-- A third expiry of firmware within 10 s, on the always-on domain's own time (HangDetection). -/
theorem test_firmware : let s : State := { aon := 10 ^ 10 + 4, rst := { fwRun := true, fwExp := [5, 4, 3] } }
    (s.rst.fwExp.filter (fun t => decide (s.aon ≤ t + 10000000000))).length = 2 := by decide


/-- An engine carries a block at an ADD (UpdateInstructions), behind one whose END has executed (UpdateWork). -/
theorem test_block : let b : UpdBlock := { bank := 0, block := 0, ordinal := 0 }
    let s : State := { sch := { job := .running, place := .span, seq := 1
                                image := some { update := { progs := [[0x0C000000, 0x48000000]], groups := [⟨List.replicate 64 0#8⟩] } } }
                       train := { engines := [(7, { cur := some b, tail := [b] })] } }
    s.inSpan = true ∧ s.updAt 7 = some (b, 0x0C000000) ∧ uiOp 0x0C000000 = 3 ∧ (s.eng 7).tail = [b] ∧ s.updAt 6 = none := by decide

/-- An aperture access that reaches the window, and one byte beyond its end, which does not (SumpAndAperture). -/
theorem test_aperture : State.b2Reaches {} (16 * 2 ^ 30 - 1) 1 = true ∧ State.b2Reaches {} (16 * 2 ^ 30) 1 = false := by decide

/-- A frame of another station (Management), and a request of each type for this one. -/
theorem test_foreign : State.foreign State.reset ⟨false, 0, 0, 0, []⟩ = true ∧ State.reset.pwr.auxOk = true ∧ State.reset.rst.mrstLow = false := by decide

/-- A request for this device, with the tag of the key slot's key, that is new (Management): a poll, and a frame of an unknown type. -/
def polls (type : Nat) : List Byte :=
  let b := leBytes 1 1 ++ leBytes 1 type ++ leBytes 6 0 ++ leBytes 8 1 ++ leBytes 8 0
  b ++ frTag [] b

theorem test_addressed : ∀ type ∈ [5, 9], let s : State := { host := { slots := [(0, { rxResv := 1 })] } }
    s.portOn = true ∧ s.addressed (polls type) = true ∧ s.authentic (polls type) = true ∧ frType (polls type) = type ∧
      (s.slot 0).rxFloor < frCounter (polls type) ∧ frCounter (polls type) ≤ (s.slot 0).rxResv := by decide +kernel

/-- Claims of one cycle: management's acts before that of PCIe though it is taken after it, and a cycle later it comes too late (R481;
Locks). -/
theorem test_contends : let s : State := { tick := 7 }
    let p := s.lockTurn .pcie (.page pgSCH (2 ^ 8))
    p.owner pgSCH = 1 ∧ p.cycleNow.ops = [.page pgSCH (2 ^ 8)] ∧ (p.lockTurn .mgt (.page pgSCH (2 ^ 8))).owner pgSCH = 2 ∧
      (({ p with tick := 8 } : State).lockTurn .mgt (.page pgSCH (2 ^ 8))).owner pgSCH = 1 := by decide +kernel

/-- The events of a job: each place and job state that they start from (JobEvents, RefreshAndPoint, WakeEntries, Standby, Seep). -/
theorem test_job_places : ∀ p ∈ [Place.none, .pier0, .span, .pier], ∀ j ∈ [Job.running, .armed, .rewinding],
    ({ sch := { job := j, place := p } } : State).sch.place = p ∧ ({ sch := { job := j, place := p } } : State).sch.job = j := by decide

/-- A register access that is taken and one that is not aligned (RegisterAccess, Locks). -/
theorem test_register : State.reset.reaches .pcie = true ∧ State.reset.implemented pgSCH = true ∧ State.reset.takes pgSCH = true ∧
    State.reset.implemented 0x15 = false ∧ State.reset.answers pgSEM = true := by decide

/-! Witnesses: premises on masters and on the job. -/

/-- Each master owns a page that has commands, in a job of each state that the statements name (JobRequests, Patches, RingControl, Combs,
HbmCommands, Gallery, Rounds, Contexts, Mailboxes, CoreAndDieResets, WarmAndColdResets, TraceAndTests, TickStates). -/
theorem test_commands : ∀ p ∈ [pgSCH, pgVDT, pgTRS 3, pgCMB, pgHBM 7, pgGAL, pgPIE, pgCTX, pgHIF, pgRST, pgTRC, pgTST, pgTCK],
    ∀ m ∈ [Master.pcie, Master.mgt], ∀ j ∈ [Job.idle, .loaded, .armed, .running, .parked, .stopped],
      Commands (owned m p j) m p ∧ (owned m p j).sch.job = j := by
  have h : ∀ p ∈ [pgSCH, pgVDT, pgTRS 3, pgCMB, pgHBM 7, pgGAL, pgPIE, pgCTX, pgHIF, pgRST, pgTRC, pgTST, pgTCK],
      ∀ m ∈ [Master.pcie, Master.mgt], ∀ j ∈ [Job.idle, .loaded, .armed, .running, .parked, .stopped],
      (owned m p j).reaches m = true ∧ (owned m p j).answers p = true ∧ Store.get 0 (owned m p j).host.locks p = masterCode m := by decide
  intro p hp m hm j hj
  obtain ⟨a, b, c⟩ := h p hp m hm j hj
  exact ⟨⟨a, b, c⟩, rfl⟩

/-- A warm and a cold reset command are taken, and a second warm one is absorbed (WarmAndColdResets). -/
theorem test_warm : ∃ u, exec (.rstWarm .pcie) (owned .pcie pgRST .idle) = .next u ∧ u.rst.last = 3 ∧ u.sch.phase = .recovery :=
  ⟨_, rfl, by decide, by decide⟩
theorem test_warm_busy : recovering.rst.runs.any (fun r => r.dom == .warm) = true ∧ recovering.pwr.mainOk = true ∧
    recovering.rst.mrstLow = false := by decide

/-- A reset of each domain overruns first (HangDetection). -/
theorem test_overrun : overrun [⟨.warm, 0, 5⟩] = some ⟨.warm, 0, 5⟩ ∧ overrun [⟨.die, 3, 0⟩, ⟨.core, 255, 0⟩] = some ⟨.core, 255, 0⟩ ∧
    overrun [⟨.die, 3, 0⟩, ⟨.core, 255, 9000001⟩] = some ⟨.die, 3, 0⟩ := by decide

/-- The governor, an alert and a trip: the edges of their limits (ClocksAndAlerts, PowerStates). -/
theorem test_rail_edges : State.railOk State.reset 8 727 = false ∧ State.railOk State.reset 8 728 = true ∧ State.railOk State.reset 6 3465 = true ∧
    State.railOk State.reset 6 3466 = false := by decide

/-- Main and auxiliary power in each state that the statements name (PowerStates). -/
theorem test_power_states : dark.pwr.mainOk = false ∧ dark.pwr.auxOk = true ∧ State.reset.pwr.mainOk = true ∧ State.reset.allUp = true ∧
    State.reset.rst.fwRun = true := by decide

/-- The pins are driven (TestAccessPort): EXTEST from reset. -/
theorem test_extest : ∃ u, exec .extest State.reset = .next u ∧ u.trace.extest = true ∧ u.trace.tap = 3 := ⟨_, rfl, rfl, rfl⟩

/-- A self-test starts in IDLE with its TARGET in range, and one with no test running ends without effect (TraceAndTests). -/
theorem test_lbist : ∃ u, exec (.lbist .pcie) (owned .pcie pgTST .idle) = .next u ∧ u.trace.test = some (3, 0) := ⟨_, rfl, rfl⟩
theorem test_done_idle : exec (.testDone 0) State.reset = .next State.reset := by rfl

/-! Witnesses: the invariants hold of states beyond reset. -/

theorem test_owners_ok : ∀ m ∈ [Master.pcie, Master.mgt], OwnersOk (owned m 0x3FFF .running) := by
  have h : ∀ m ∈ [Master.pcie, Master.mgt], Store.wf 0 (owned m 0x3FFF .running).host.locks = true ∧
      ∀ p ∈ (owned m 0x3FFF .running).host.locks, p.2 ≤ 2 := by decide
  exact fun m hm => ⟨(h m hm).1, (h m hm).2⟩

theorem test_owners_reserved : ¬OwnersOk { host := { locks := [(0, 3)] } } := by
  intro h; exact absurd (h.2 _ (List.mem_singleton.mpr rfl)) (by decide)

theorem test_memories_ok : MemoriesOk (inSpan 0x18412345) :=
  ⟨by decide, by decide, by decide, by decide⟩

theorem test_tick_ok : TickOk { tick := 2 ^ 64 - 1, frac := 15 } := ⟨by decide, by decide⟩

end Sys2Proof.Tests
end

section
/-! PROOFS. Single bits of a number: what setting and clearing one leaves of it. -/

namespace Sys2Proof.Machine

open Sys2Proof

theorem bitAt_eq_testBit (v i : Nat) : bitAt v i = v.testBit i := by
  rw [Nat.testBit_eq_decide_div_mod_eq]; rfl

/-- An odd multiple of `2 ^ i` taken down by one differs in bit `i` alone. -/
theorem testBit_sub_two_pow {v i : Nat} (h : v.testBit i = true) (b : Nat) :
    (v - 2 ^ i).testBit b = (v.testBit b && b != i) := by
  have hodd : v / 2 ^ i % 2 = 1 := by simpa [Nat.testBit_eq_decide_div_mod_eq] using h
  have hr : v % 2 ^ i < 2 ^ i := Nat.mod_lt _ (Nat.two_pow_pos i)
  have hv : v = 2 ^ i * (v / 2 ^ i) + v % 2 ^ i := (Nat.div_add_mod v (2 ^ i)).symm
  generalize v / 2 ^ i = q at hodd hv
  generalize v % 2 ^ i = r at hr hv
  obtain ⟨k, rfl⟩ : ∃ k, q = 2 * k + 1 := ⟨q / 2, by omega⟩
  have hsub : v - 2 ^ i = 2 ^ i * (2 * k) + r := by rw [hv, Nat.mul_add]; omega
  rw [hsub, hv, Nat.testBit_two_pow_mul_add _ hr, Nat.testBit_two_pow_mul_add _ hr]
  rcases Nat.lt_trichotomy b i with hb | rfl | hb
  · simp [hb, Nat.ne_of_lt hb]
  · simp
  · obtain ⟨j, rfl⟩ : ∃ j, b = i + (j + 1) := ⟨b - i - 1, by omega⟩
    have hk : (2 * k + 1) / 2 = k := by omega
    simp [Nat.testBit_add_one, hk]

/-- Clearing a bit clears that one alone. -/
theorem bitAt_clrBit (v i b : Nat) : bitAt (clrBit v i) b = (bitAt v b && b != i) := by
  simp only [clrBit, bitAt_eq_testBit]
  split
  · exact testBit_sub_two_pow ‹_› b
  · by_cases hb : b = i
    · subst hb; simp_all
    · simp [hb]

@[simp] theorem bitAt_setBit_same (v i : Nat) : bitAt (setBit v i) i = true := by
  simp only [setBit, bitAt_eq_testBit]
  split
  · assumption
  · next h => rw [Nat.add_comm, Nat.testBit_two_pow_add_eq]; simpa using h

/-- The low `n` bits of a number hold each bit below `n`. -/
theorem bitAt_mod_two_pow {i n : Nat} (v : Nat) (h : i < n) : bitAt (v % 2 ^ n) i = bitAt v i := by
  simp [bitAt_eq_testBit, h]

end Sys2Proof.Machine
end

section
/-! PROOFS. What a register access does (R9, R13, R471, R476, R478): one equation per case of a write and of a read, what a write of
the common block's registers comes to, and which registers a clearing leaves at 0. -/

namespace Sys2Proof.Machine

open Sys2Proof

/-! Folds. -/

/-- What one element of a list establishes and every element keeps holds after a fold over the list. -/
theorem foldl_of_mem {α β : Type} {P : β → Prop} {f : β → α → β} (keeps : ∀ a x, P a → P (f a x)) {l : List α} {x : α} (hx : x ∈ l)
    (holds : ∀ a, P (f a x)) (a : β) : P (l.foldl f a) := by
  induction l generalizing a with
  | nil => cases hx
  | cons y l ih =>
    rcases List.mem_cons.mp hx with rfl | hx
    · exact List.foldlRecOn (motive := P) l f (holds a) (fun b hb z _ => keeps b z hb)
    · exact ih hx (f a y)

/-! Addresses of registers. -/

theorem aligned_iff (off len : Nat) : aligned off len = true ↔ (len = 4 ∨ len = 8) ∧ off % len = 0 := by
  simp [aligned]

theorem regAt_div (page : Nat) {o : Nat} (ho : o < 0x1000) : regAt page o / 0x1000 = page := by unfold regAt; omega

theorem regAt_mod (page : Nat) {o : Nat} (ho : o < 0x1000) : regAt page o % 0x1000 = o := by unfold regAt; omega

theorem aligned_regAt (page : Nat) {o len : Nat} (hl : len = 4 ∨ len = 8) (ha : o % len = 0) : aligned (regAt page o) len = true := by
  rw [aligned_iff]
  refine ⟨hl, ?_⟩
  unfold regAt
  rcases hl with rfl | rfl <;> omega

/-! Writes and reads, case by case. -/

section
variable {s : State} (m : Master)

theorem State.writeReg_misaligned {off len : Nat} (h : aligned off len = false) (v : Nat) : s.writeReg m off len v = s.badAccess off := by
  simp [State.writeReg, h]

theorem State.writeReg_empty {off len : Nat} (h : aligned off len = true) (hi : s.implemented (off / 0x1000) = false) (v : Nat) :
    s.writeReg m off len v = s.genLog 1 m true off := by
  simp [State.writeReg, h, hi]

theorem State.readReg_misaligned {off len : Nat} (h : aligned off len = false) : s.readReg m off len = (s.badAccess off, 0) := by
  simp [State.readReg, h]

theorem State.readReg_empty {off len : Nat} (h : aligned off len = true) (hi : s.implemented (off / 0x1000) = false) :
    s.readReg m off len = (s.genLog 1 m false off, 0) := by
  simp [State.readReg, h, hi]

variable {page o : Nat} (hi : s.implemented page = true) (ho : o < 0x1000)
include hi ho

theorem State.writeReg_untaken {len : Nat} (hl : len = 4 ∨ len = 8) (ha : o % len = 0) (ht : s.takes page = false) (v : Nat) :
    s.writeReg m (regAt page o) len v = s := by
  simp [State.writeReg, aligned_regAt page hl ha, regAt_div page ho, hi, ht]

theorem State.writeReg_word (ha : o % 4 = 0) (ht : s.takes page = true) (v : Nat) :
    s.writeReg m (regAt page o) 4 v = s.write32 m page o (v % 2 ^ 32) := by
  simp [State.writeReg, aligned_regAt page (.inl rfl) ha, regAt_div page ho, regAt_mod page ho, hi, ht]

theorem State.writeReg_pair (ha : o % 8 = 0) (ht : s.takes page = true) (v : Nat) :
    s.writeReg m (regAt page o) 8 v = (s.write32 m page o (v % 2 ^ 32)).write32 m page (o + 4) (v / 2 ^ 32 % 2 ^ 32) := by
  simp [State.writeReg, aligned_regAt page (.inr rfl) ha, regAt_div page ho, regAt_mod page ho, hi, ht]

theorem State.readReg_silent {len : Nat} (hl : len = 4 ∨ len = 8) (ha : o % len = 0) (hs : s.answers page = false) :
    s.readReg m (regAt page o) len = (s, 0) := by
  simp [State.readReg, aligned_regAt page hl ha, regAt_div page ho, hi, hs]

theorem State.readReg_word (ha : o % 4 = 0) (hs : s.answers page = true) (hn : page = pgTCK → o ≠ 0x40 ∧ o ≠ 0x44) :
    s.readReg m (regAt page o) 4 = s.regDraw page o := by
  have h1 : ¬(page = pgTCK ∧ o = 0x40) := fun h => (hn h.1).1 h.2
  have h2 : ¬(page = pgTCK ∧ o = 0x44) := fun h => (hn h.1).2 h.2
  simp [State.readReg, State.read32, aligned_regAt page (.inl rfl) ha, regAt_div page ho, regAt_mod page ho, hi, hs, h1, h2]

theorem State.readReg_pair (ha : o % 8 = 0) (hs : s.answers page = true) : s.readReg m (regAt page o) 8 = s.read64 page o := by
  simp [State.readReg, aligned_regAt page (.inr rfl) ha, regAt_div page ho, regAt_mod page ho, hi, hs]

end

theorem State.write32_intEn (s : State) (m : Master) (page v : Nat) : s.write32 m page 0x14 v = s.writeIntEn m page v := rfl

theorem State.takes_answers {s : State} {page : Nat} (h : s.takes page = true) : s.answers page = true := by
  simp only [State.takes, Bool.and_eq_true] at h
  exact h.1

/-- Only the pages of array, Flowstone and DMA engine keep counters of core cycles. -/
theorem State.meterPage_other (s : State) {page : Nat} (h9 : pageType page ≠ 9) (hA : pageType page ≠ 0xA) (hB : pageType page ≠ 0xB) :
    s.meterPage page = s := by
  unfold State.meterPage
  split
  · next e => exact (h9 e).elim
  · next e => exact (hA e).elim
  · next e => exact (hB e).elim
  · rfl

/-! The commands of the register window. -/

section
variable {s : State} {m : Master} (hr : s.reaches m = true)
include hr

theorem exec_registerWrite_eq (off len v : Nat) : exec (.registerWrite m off len v) s = .next (s.writeReg m off len v) := by
  change execRegisterWrite m off len v s = _
  simp [execRegisterWrite, hr]

theorem exec_registerRead_eq (off len : Nat) :
    exec (.registerRead m off len) s = .next ((s.readReg m off len).1.emit (.readData (masterCode m) off (s.readReg m off len).2)) := by
  change execRegisterRead m off len s = _
  simp [execRegisterRead, hr]

variable {page : Nat} (hi : s.implemented page = true) (ht : s.takes page = true)
include hi ht

theorem exec_cntClr_eq : exec (.cntClr m page) s = .next (s.writeCtl m page 2) := by
  change execCntClr m page s = _
  rw [execCntClr, if_pos hr, State.writeReg_word m hi (by decide) (by decide) ht]
  rfl

theorem exec_logRel_eq : exec (.logRel m page) s = .next (s.writeCtl m page 1) := by
  change execLogRel m page s = _
  rw [execLogRel, if_pos hr, State.writeReg_word m hi (by decide) (by decide) ht]
  rfl

theorem exec_intSet_eq (v : Word) : exec (.intSet m page v) s = .next (s.writeIntSet m page v.toNat) := by
  change execIntSet m page v s = _
  rw [execIntSet, if_pos hr, State.writeReg_word m hi (by decide) (by decide) ht, Nat.mod_eq_of_lt v.isLt]
  rfl

end

/-! LK fields: the owner's write takes effect, another master's is logged (R9, R479). -/

section
variable {s : State} {m : Master} {page : Nat} (hr : s.reaches m = true) (ha : s.answers page = true)
include hr ha

theorem State.lk_owner (h : Store.get 0 s.host.locks page = masterCode m) (o : Nat) (k : State → State) : s.lk m page o k = k s := by
  simp [State.lk, hr, ha, h]

theorem State.lk_other (h : Store.get 0 s.host.locks page ≠ masterCode m) (o : Nat) (k : State → State) :
    s.lk m page o k = s.genLog 2 m true (regAt page o) := by
  simp [State.lk, hr, ha, h]

theorem State.writeCtl_cntClr (h : Store.get 0 s.host.locks page = masterCode m) : s.writeCtl m page 2 = s.clearCounters page :=
  State.lk_owner hr ha h 0x08 _

theorem State.writeCtl_logRel (h : Store.get 0 s.host.locks page = masterCode m) : s.writeCtl m page 1 = s.releaseLog page :=
  State.lk_owner hr ha h 0x08 _

end

/-! What CNT_CLR and LOG_REL clear. -/

theorem State.setReg_zero_keeps {s : State} {page n : Nat} (h : s.reg page n = 0) (o : Nat) : (s.setReg page o 0).reg page n = 0 := by
  rw [State.reg_setReg]; split
  · rfl
  · exact h

theorem State.setReg64_zero_keeps {s : State} {page n : Nat} (h : s.reg page n = 0) (o : Nat) : (s.setReg64 page o 0).reg page n = 0 :=
  State.setReg_zero_keeps (State.setReg_zero_keeps h o) (o + 4)

theorem State.clearKept_regs (s : State) (page : Nat) : (s.clearKept page).regs = s.regs := by
  unfold State.clearKept; split <;> rfl

/-- CNT_CLR leaves every counter of the page at 0, a 64-bit one in both its registers. -/
theorem State.clearCounters_reg (s : State) (page : Nat) {c : Nat × Bool} (hc : c ∈ counters (pageType page)) :
    (s.clearCounters page).reg page c.1 = 0 ∧ (c.2 = true → (s.clearCounters page).reg page (c.1 + 4) = 0) := by
  simp only [State.clearCounters, State.reg_congr (State.clearKept_regs _ page)]
  refine foldl_of_mem (P := fun u : State => u.reg page c.1 = 0 ∧ (c.2 = true → u.reg page (c.1 + 4) = 0)) ?_ hc ?_ s
  · rintro u d ⟨h1, h2⟩
    split
    · exact ⟨State.setReg64_zero_keeps h1 _, fun h => State.setReg64_zero_keeps (h2 h) _⟩
    · exact ⟨State.setReg_zero_keeps h1 _, fun h => State.setReg_zero_keeps (h2 h) _⟩
  · intro u
    split
    · exact ⟨State.setReg_zero_keeps (State.reg_setReg_same u page c.1 0) _, fun _ => State.reg_setReg_same _ page _ 0⟩
    · next h32 => exact ⟨State.reg_setReg_same u page c.1 0, fun h => (h32 h).elim⟩

/-- LOG_REL leaves the eight registers of a page's error log at 0. -/
theorem State.releaseLog_reg (s : State) {page i : Nat} (hp : pageType page ≠ 8) (hi : i < 8) :
    (s.releaseLog page).reg page (0x20 + 4 * i) = 0 := by
  rw [State.releaseLog, if_neg hp]
  have hm : i ∈ upTo 8 := List.mem_range.mpr hi
  refine foldl_of_mem (P := fun u : State => u.reg page (0x20 + 4 * i) = 0) ?_ hm ?_ s
  · exact fun u j h => State.setReg_zero_keeps h _
  · exact fun u => State.reg_setReg_same u page _ 0

theorem pageType_pgCORE (c : Fin 256) : pageType (pgCORE c) = 8 := by
  have h1 : ¬(pgCORE c < 0x80) := by unfold pgCORE; omega
  have h2 : pgCORE c < 0x1080 := by unfold pgCORE; omega
  have h3 : (pgCORE c - 0x80) % 16 = 0 := by unfold pgCORE; omega
  simp [pageType, h1, h2, h3]

theorem pgCORE_index (c : Nat) : (pgCORE c - 0x80) / 16 = c := by unfold pgCORE; omega

/-- In a CORE page LOG_REL takes the head record off the core's fault queue (R140). -/
theorem State.releaseLog_faultQ (s : State) (c : Fin 256) : ((s.releaseLog (pgCORE c)).core c).faultQ = (s.core c).faultQ.tail := by
  rw [State.releaseLog, if_pos (pageType_pgCORE c), pgCORE_index, State.modCore, State.core_setCore_same]

/-! W1C bits (R12). -/

theorem State.clears_of_none {s : State} (h : s.setNow = []) (page o v : Nat) : s.clears page o v = v := by
  simp [State.clears, h]

/-- A bit that hardware has set in the same cycle does not clear. -/
theorem State.clears_setNow {s : State} {page o t b : Nat} (hb : b < 32) (hm : (t, regAt page o * 32 + b) ∈ s.setNow)
    (hc : s.sameCycle page t = true) (v : Nat) : bitAt (s.clears page o v) b = false := by
  have hreg : (regAt page o * 32 + b) / 32 = regAt page o := by omega
  have hbit : (regAt page o * 32 + b) % 32 = b := by omega
  refine foldl_of_mem (P := fun w => bitAt w b = false) ?_ hm ?_ v
  · intro w p hw
    split
    · simp [bitAt_clrBit, hw]
    · exact hw
  · intro w
    rw [if_pos ⟨hreg, hc⟩, bitAt_clrBit, hbit]
    simp

end Sys2Proof.Machine

namespace Sys2Proof

open Machine

/-- Settles O41: each clause is the equation of the access it speaks of. -/
theorem registerAccess : Obligations.RegisterAccess := by
  unfold Obligations.RegisterAccess
  intro s m hr
  refine ⟨?misaligned, ?empty, fun page hi => ⟨?write, ?read32, ?read64, ?silent, s.meterPage_other, ?intStat, ?setNow, ?other, ?owner⟩,
    ?coreLogRel⟩
  case misaligned =>
    intro off len v h
    have ha : aligned off len = false := Bool.eq_false_iff.mpr (fun ha => h ((aligned_iff off len).mp ha))
    rw [exec_registerWrite_eq hr, exec_registerRead_eq hr, State.writeReg_misaligned m ha, State.readReg_misaligned m ha]
    exact ⟨rfl, rfl⟩
  case empty =>
    intro off len v hl ha hi
    have ha : aligned off len = true := (aligned_iff off len).mpr ⟨hl, ha⟩
    rw [exec_registerWrite_eq hr, exec_registerRead_eq hr, State.writeReg_empty m ha hi, State.readReg_empty m ha hi]
    exact ⟨rfl, rfl⟩
  case write =>
    intro o v ho ha ht
    exact ⟨(exec_registerWrite_eq hr _ 4 v).trans (congrArg _ (State.writeReg_word m hi ho ha ht v)),
      fun h8 => (exec_registerWrite_eq hr _ 8 v).trans (congrArg _ (State.writeReg_pair m hi ho h8 ht v))⟩
  case read32 =>
    intro o ho ha hs hn
    refine (exec_registerRead_eq hr (regAt page o) 4).trans ?_
    rw [State.readReg_word m hi ho ha hs hn]; rfl
  case read64 =>
    intro o ho ha hs
    refine (exec_registerRead_eq hr (regAt page o) 8).trans ?_
    rw [State.readReg_pair m hi ho ha hs]; rfl
  case silent =>
    intro o len ho hl ha
    refine ⟨fun hs => (exec_registerRead_eq hr (regAt page o) len).trans ?_,
      fun ht v => (exec_registerWrite_eq hr _ len v).trans (congrArg _ (State.writeReg_untaken m hi ho hl ha ht v))⟩
    rw [State.readReg_silent m hi ho hl ha hs]; rfl
  case intStat =>
    intro v hv ht
    refine (exec_registerWrite_eq hr _ 4 v).trans (congrArg _ ((State.writeReg_word m hi (by decide) (by decide) ht v).trans ?_))
    rw [Nat.mod_eq_of_lt hv]; rfl
  case setNow =>
    exact fun v => ⟨fun h => State.clears_of_none h page 0x10 v, fun t b hb hm hc => State.clears_setNow hb hm hc v⟩
  case other =>
    intro ht hl
    have logged := State.lk_other hr (State.takes_answers ht) hl
    exact ⟨(exec_cntClr_eq hr hi ht).trans (congrArg _ (logged 0x08 _)), (exec_logRel_eq hr hi ht).trans (congrArg _ (logged 0x08 _)),
      fun v => (exec_intSet_eq hr hi ht v).trans (congrArg _ (logged 0x18 _)),
      fun v => (exec_registerWrite_eq hr _ 4 v).trans (congrArg _ ((State.writeReg_word m hi (by decide) (by decide) ht v).trans
        ((State.write32_intEn s m page _).trans (logged 0x14 _))))⟩
  case owner =>
    intro ht hl
    have ha := State.takes_answers ht
    have cleared := (exec_cntClr_eq hr hi ht).trans (congrArg _ (State.writeCtl_cntClr hr ha hl))
    have released := (exec_logRel_eq hr hi ht).trans (congrArg _ (State.writeCtl_logRel hr ha hl))
    exact ⟨⟨_, cleared, fun c hc => State.clearCounters_reg s page hc⟩, fun hp => ⟨_, released, fun i => State.releaseLog_reg s hp⟩,
      fun v => (exec_intSet_eq hr hi ht v).trans (congrArg _ (State.lk_owner hr ha hl 0x18 _))⟩
  case coreLogRel =>
    intro c hi ht hl
    exact ⟨_, (exec_logRel_eq hr hi ht).trans (congrArg _ (State.writeCtl_logRel hr (State.takes_answers ht) hl)),
      State.releaseLog_faultQ s c⟩

end Sys2Proof
end

section
/-! PROOFS. Who owns what after each operation on page locks (R12, R441, R442, R479 to R481): one equation for the owner of any key
after a claim, a release, a bulk command, a whole cycle of both masters, and a release of all that a master holds. -/

namespace Sys2Proof.Machine

open Sys2Proof

/-! Sparse stores. -/

theorem Store.get_of_rising {α : Type} (d : α) {m : Store α} {l k : Nat} (h : Store.rising (some l) m = true) (hk : k ≤ l) :
    Store.get d m k = d := by
  induction m generalizing l with
  | nil => rfl
  | cons p m ih =>
    obtain ⟨a, w⟩ := p
    simp only [Store.rising, Bool.and_eq_true, decide_eq_true_eq] at h
    obtain ⟨hl, hm⟩ := h
    rw [Store.get, if_neg (by omega), ih hm (by omega)]

/-- Where no key is listed twice, the entries equal to `c` taken out leave their keys at the default. -/
theorem Store.get_filter_ne {α : Type} [DecidableEq α] (d c : α) {m : Store α} {lo : Option Nat} (h : Store.rising lo m = true) (k : Nat) :
    Store.get d (m.filter (fun p => p.2 != c)) k = if Store.get d m k = c then d else Store.get d m k := by
  induction m generalizing lo with
  | nil => exact (ite_self d).symm
  | cons p m ih =>
    obtain ⟨a, w⟩ := p
    simp only [Store.rising, Bool.and_eq_true] at h
    have hm := h.2
    by_cases hw : w = c
    · have hf : ((a, w) :: m).filter (fun p => p.2 != c) = m.filter (fun p => p.2 != c) := by simp [hw]
      rw [hf, ih hm]
      by_cases ha : a = k
      · simp [Store.get, ha, hw, Store.get_of_rising d hm (Nat.le_of_eq ha.symm)]
      · simp [Store.get, ha]
    · have hf : ((a, w) :: m).filter (fun p => p.2 != c) = (a, w) :: m.filter (fun p => p.2 != c) := by simp [hw]
      rw [hf, Store.get, ih hm]
      by_cases ha : a = k
      · simp [Store.get, ha, hw]
      · simp [Store.get, ha]

/-! Owners. -/

theorem masterCode_ne_zero (m : Master) : masterCode m ≠ 0 := by cases m <;> decide

theorem State.owner_congr {s t : State} (h : t.host.locks = s.host.locks) (p : Nat) : t.owner p = s.owner p := by
  simp only [State.owner, h]

theorem State.owner_setOwner (s : State) (key v p : Nat) : (s.setOwner key v).owner p = if p = key then v else s.owner p :=
  Store.get_set 0 s.host.locks key p v

theorem State.owner_grantLock (s : State) (m : Master) (key p : Nat) :
    (s.grantLock m key).owner p = if p = key then masterCode m else s.owner p :=
  State.owner_setOwner s key (masterCode m) p

@[simp] theorem State.owner_setInt (s : State) (page bit p : Nat) : (s.setInt page bit).owner p = s.owner p :=
  State.owner_congr (by simp) p

@[simp] theorem State.owner_semLog (s : State) (cause code : Nat) (page : Option Nat) (p : Nat) :
    (s.semLog cause code page).owner p = s.owner p :=
  State.owner_congr (by simp) p

@[simp] theorem State.owner_bulkStat (s : State) (m : Master) (result holder page p : Nat) :
    (s.bulkStat m result holder page).owner p = s.owner p :=
  State.owner_congr (by simp) p

@[simp] theorem State.owner_beat (s : State) (m : Master) (p : Nat) : (s.beat m).owner p = s.owner p :=
  State.owner_congr (s.beat_locks m) p

/-- A claim takes its key where nobody owns it, and nothing else. -/
theorem State.owner_claim (s : State) (m : Master) (key p : Nat) :
    (s.claim m key).owner p = if p = key ∧ s.owner key = 0 then masterCode m else s.owner p := by
  unfold State.claim
  split
  · next h => simp [State.owner_grantLock, h]
  · next h => split <;> simp [h]

/-- A release frees its key where the master owns it, and nothing else. -/
theorem State.owner_unclaim (s : State) (m : Master) (key p : Nat) :
    (s.unclaim m key).owner p = if p = key ∧ s.owner key = masterCode m then 0 else s.owner p := by
  unfold State.unclaim
  split
  · next h => simp [State.owner_setOwner, h]
  · next h => simp [h]

theorem State.owner_foldl_claim (m : Master) (ps : List Nat) (s : State) (p : Nat) :
    (ps.foldl (fun a q => a.claim m q) s).owner p = if p ∈ ps ∧ s.owner p = 0 then masterCode m else s.owner p := by
  induction ps generalizing s with
  | nil => simp
  | cons q ps ih =>
    rw [List.foldl_cons, ih, State.owner_claim]
    by_cases hq : p = q
    · subst hq
      by_cases h0 : s.owner p = 0 <;> simp [h0, masterCode_ne_zero]
    · simp [hq]

theorem State.owner_foldl_unclaim (m : Master) (ps : List Nat) (s : State) (p : Nat) :
    (ps.foldl (fun a q => a.unclaim m q) s).owner p = if p ∈ ps ∧ s.owner p = masterCode m then 0 else s.owner p := by
  induction ps generalizing s with
  | nil => simp
  | cons q ps ih =>
    rw [List.foldl_cons, ih, State.owner_unclaim]
    by_cases hq : p = q
    · subst hq
      by_cases h0 : s.owner p = masterCode m <;> simp [h0]
    · simp [hq]

theorem State.owner_foldl_setOwner (v : Nat) (ps : List Nat) (s : State) (p : Nat) :
    (ps.foldl (fun a q => a.setOwner q v) s).owner p = if p ∈ ps then v else s.owner p := by
  induction ps generalizing s with
  | nil => simp
  | cons q ps ih =>
    rw [List.foldl_cons, ih, State.owner_setOwner]
    by_cases hq : p = q <;> simp [hq]

/-- A release of all that a master holds leaves every other owner. -/
theorem State.owner_releaseAll {s : State} (h : OwnersOk s) (code p : Nat) :
    (s.releaseAll code).owner p = if s.owner p = code then 0 else s.owner p := by
  obtain ⟨hwf, -⟩ := h
  simp only [Store.wf, Bool.and_eq_true] at hwf
  exact Store.get_filter_ne 0 code hwf.1 p

/-! LOCK registers (R441). -/

theorem State.writeLock_claim (s : State) (m : Master) (key : Nat) {v : Nat} (h8 : bitAt v 8 = true) (h9 : bitAt v 9 = false) :
    s.writeLock m key v = s.claim m key := by simp [State.writeLock, h8, h9]

theorem State.writeLock_release (s : State) (m : Master) (key : Nat) {v : Nat} (h8 : bitAt v 8 = false) (h9 : bitAt v 9 = true) :
    s.writeLock m key v = s.unclaim m key := by simp [State.writeLock, h8, h9]

theorem State.writeLock_neither (s : State) (m : Master) (key : Nat) {v : Nat} (h : bitAt v 8 = bitAt v 9) : s.writeLock m key v = s := by
  cases h9 : bitAt v 9 <;> simp [State.writeLock, h, h9]

theorem State.raiseInt_bit (s : State) (page : Nat) {bit : Nat} (hb : bit < 32) :
    bitAt ((s.raiseInt page bit).reg page 0x10) bit = true := by
  unfold State.raiseInt
  rw [State.reg_congr (State.refreshLine_keeps _ _).2.2.1, State.reg_setReg_same, bitAt_mod_two_pow _ hb, bitAt_setBit_same]

theorem State.setInt_sem (s : State) (bit : Nat) : s.setInt pgSEM bit = s.raiseInt pgSEM bit := by
  simp [State.setInt, pgSEM, pgSCH, pgCTX, pgPWR]

/-- A claim that meets the other master's of the same cycle sets CONTENDED. -/
theorem State.claim_contended {s : State} {m : Master} {key : Nat} (h : s.contends m key = true) :
    bitAt ((s.claim m key).reg pgSEM 0x10) 0 = true := by
  have hown : s.owner key ≠ 0 := by simp only [State.contends, Bool.and_eq_true, bne_iff_ne] at h; exact h.1.1.1
  rw [State.claim, if_neg hown, if_pos h, State.setInt_sem]
  exact State.raiseInt_bit s pgSEM (by decide)

theorem exec_lock_eq (s : State) (m : Master) {i : Instr} {page v : Nat}
    (h : (i, v) ∈ [(Instr.lockClaim m page, 2 ^ 8), (.lockRelease m page, 2 ^ 9)]) : exec i s = .next (s.lockWrite m page v) := by
  simp only [List.mem_cons, Prod.mk.injEq, List.not_mem_nil, or_false] at h
  rcases h with ⟨rfl, rfl⟩ | ⟨rfl, rfl⟩ <;> rfl

theorem State.lockWrite_unreached {s : State} {m : Master} (hr : s.reaches m = false) (key v : Nat) : s.lockWrite m key v = s := by
  simp [State.lockWrite, hr]

/-- The LOCK register of a page is written like any other (R471, R479). -/
theorem State.lockWrite_page {s : State} {m : Master} (hr : s.reaches m = true) {key : Nat} (hk : key < 0x4000) (v : Nat) :
    s.lockWrite m key v =
      if s.implemented key = false then s.genLog 1 m true (regAt key 0x1C)
      else if s.takes key = false then s
      else s.lockTurn m (.page key v) := by
  simp [State.lockWrite, hr, Nat.not_le.mpr hk]

/-- Semaphores lie beyond the pages, in SEM. -/
theorem State.lockWrite_semaphore {s : State} {m : Master} (hr : s.reaches m = true) {key : Nat} (hk : 0x4000 ≤ key) (v : Nat) :
    s.lockWrite m key v = if s.answers pgSEM = true then s.lockTurn m (.page key v) else s := by
  simp [State.lockWrite, hr, hk]

/-! Bulk commands (R480). -/

theorem exec_bulk_eq (s : State) {m : Master} {v : Word} {i : Instr} {op : Nat}
    (h : (i, op) ∈ [(Instr.genBulkClaim m v, 1), (.genBulkRelease m v, 2)]) :
    exec i s = .next (if s.reaches m && s.answers pgGEN then s.lockTurn m (.bulk (setFld v.toNat 28 2 op)) else s) := by
  simp only [List.mem_cons, Prod.mk.injEq, List.not_mem_nil, or_false] at h
  rcases h with ⟨rfl, rfl⟩ | ⟨rfl, rfl⟩ <;> rfl

section
variable (s : State) (m : Master) {v : Nat}

theorem State.genBulk_malformed (h : bulkBad v = true) : s.genBulk m v = s.bulkStat m 3 0 0 := by simp [State.genBulk, h]

theorem State.owner_genBulk_release (h : bulkBad v = false) (hop : bulkOp v = 2) (p : Nat) :
    (s.genBulk m v).owner p = if p ∈ s.bulkPages v ∧ s.owner p = masterCode m then 0 else s.owner p := by
  simp [State.genBulk, h, hop, State.owner_foldl_unclaim]

theorem State.genBulk_held (h : bulkBad v = false) (hop : bulkOp v = 1) {p : Nat}
    (hp : (s.bulkPages v).find? (fun q => s.owner q != 0) = some p) :
    s.genBulk m v = (if s.contends m p then s.setInt pgSEM 0 else s).bulkStat m 2 (s.owner p) p := by
  simp [State.genBulk, h, hop, hp]

theorem State.owner_genBulk_claim (h : bulkBad v = false) (hop : bulkOp v = 1) (hfree : ∀ p ∈ s.bulkPages v, s.owner p = 0) (p : Nat) :
    (s.genBulk m v).owner p = if p ∈ s.bulkPages v then masterCode m else s.owner p := by
  have hnone : (s.bulkPages v).find? (fun q => s.owner q != 0) = none := by
    simpa [List.find?_eq_none] using hfree
  by_cases hm : p ∈ s.bulkPages v
  · simp [State.genBulk, h, hop, hnone, State.owner_foldl_claim, hm, hfree p hm]
  · simp [State.genBulk, h, hop, hnone, State.owner_foldl_claim, hm]

end

/-! The two masters in one cycle (R481). -/

/-- Before PCIe's operations of the cycle PCIe owned what the cycle's record lists, and every other owner was as it is. -/
theorem State.owner_beforePcie {s : State} (h : OwnersOk s) (c : LockCycle) (p : Nat) :
    (s.beforePcie c).owner p = if p ∈ c.pcie then 1 else if s.owner p = 1 then 0 else s.owner p := by
  have hregs : (s.beforePcie c).owner p = (c.pcie.foldl (fun a k => a.setOwner k 1) (s.releaseAll 1)).owner p :=
    State.owner_congr ((foldl_host_locks _ (fun a i => by simp) _ _).trans (by simp)) p
  rw [hregs, State.owner_foldl_setOwner, State.owner_releaseAll h]

/-- PCIe's operations, and management's where PCIe has made none in the cycle, act as they come. -/
theorem State.owner_lockTurn (s : State) (m : Master) (op : LockOp) (h : m = .pcie ∨ s.pwr.mainOk = false ∨ s.cycleNow.ops = [])
    (p : Nat) : (s.lockTurn m op).owner p = (s.lockOp m op).owner p := by
  cases hmain : s.pwr.mainOk with
  | false => simp [State.lockTurn, hmain]
  | true =>
    cases m with
    | pcie => simp only [State.lockTurn, hmain]; rfl
    | mgt =>
      have hops : s.cycleNow.ops = [] := by simpa [hmain] using h
      simp [State.lockTurn, hmain, hops]

/-- Management's operation that is taken after some of PCIe's acts before them. -/
theorem State.owner_lockTurn_late (s : State) (op : LockOp) (hmain : s.pwr.mainOk = true) (hops : s.cycleNow.ops ≠ []) (p : Nat) :
    (s.lockTurn .mgt op).owner p =
      (s.cycleNow.ops.foldl (fun a o => a.lockOp .pcie o) ((s.beforePcie s.cycleNow).lockOp .mgt op)).owner p := by
  have hne : s.cycleNow.ops.isEmpty = false := by simpa using hops
  simp only [State.lockTurn, hmain, hne]
  rfl

/-! SEM_HB, SEM_FORCE and leases (R442). -/

theorem State.beat_tick (s : State) (m : Master) : (s.beat m).tick = s.tick := by cases m <;> rfl

theorem State.beat_regs (s : State) (m : Master) : (s.beat m).regs = s.regs := by cases m <;> rfl

theorem State.beat_hb (s : State) (m : Master) :
    (m = .pcie → (s.beat m).host.hbPcie = s.tick) ∧ (m = .mgt → (s.beat m).host.hbMgt = s.tick) := by
  constructor <;> rintro rfl <;> rfl

theorem State.force_reserved (s : State) {v : Nat} (h : fld v 16 2 = 0 ∨ fld v 16 2 = 3) : s.force v = s := by
  simp only [State.force, if_pos h]

/-- SEM_FORCE frees all that the master holds, or one page. -/
theorem State.owner_force {s : State} (hok : OwnersOk s) {v : Nat} (h : fld v 16 2 = 1 ∨ fld v 16 2 = 2) (p : Nat) :
    (s.force v).owner p = if s.owner p = fld v 16 2 ∧ (bitAt v 31 = true ∨ p = fld v 0 14) then 0 else s.owner p := by
  have hcode : ¬(fld v 16 2 = 0 ∨ fld v 16 2 = 3) := by omega
  simp only [State.force, if_neg hcode]
  cases bitAt v 31 with
  | true => simp [State.owner_releaseAll hok]
  | false =>
    have hcycle : ∀ q, ({ s with host := { s.host with lockCycle := none } } : State).owner q = s.owner q := fun q => rfl
    simp only [Bool.false_eq_true, if_false, false_or, State.owner_setInt, State.owner_semLog]
    by_cases e : p = fld v 0 14
    · split <;> simp_all [State.owner_setOwner]
    · split <;> simp [State.owner_setOwner, hcycle, e]

/-- The period of a master's lease in SEM_CFG, in ms. -/
def State.leaseMs (s : State) : Master → Nat
  | .pcie => fld (s.reg pgSEM 0x40) 0 16
  | .mgt => fld (s.reg pgSEM 0x40) 16 16

/-- A master's lease that has run out at tick `t`. -/
def State.endLease (s : State) (m : Master) (t : Nat) : State :=
  ((((elapseTo t s).releaseAll (masterCode m)).semLog 1 (masterCode m) none).setInt pgSEM 1).beat m

theorem exec_leaseExpiry_unset {s : State} {m : Master} (h : s.leaseMs m = 0) : exec (.leaseExpiry m) s = .next s := by
  cases m <;> exact congrArg Host.Outcome.next (if_pos h)

theorem exec_leaseExpiry_due {s : State} {m : Master} (h : s.leaseMs m ≠ 0) : ∃ t, exec (.leaseExpiry m) s = .next (s.endLease m t) := by
  cases m <;> exact ⟨_, congrArg Host.Outcome.next (if_neg h)⟩

theorem State.owner_endLease {s : State} (hok : OwnersOk s) (m : Master) (t p : Nat) :
    (s.endLease m t).owner p = if s.owner p = masterCode m then 0 else s.owner p := by
  have hhost : (elapseTo t s).host.locks = s.host.locks := by simp
  simp only [State.endLease, State.owner_beat, State.owner_setInt, State.owner_semLog, State.owner_releaseAll (hok.congr hhost),
    State.owner_congr hhost]

theorem State.endLease_hb (s : State) (m : Master) (t : Nat) :
    (m = .pcie → (s.endLease m t).host.hbPcie = (s.endLease m t).tick) ∧
      (m = .mgt → (s.endLease m t).host.hbMgt = (s.endLease m t).tick) := by
  unfold State.endLease
  rw [State.beat_tick]
  exact State.beat_hb _ m

end Sys2Proof.Machine

namespace Sys2Proof

open Machine

/-- Settles O50: each clause is the equation for the owners, or for the command, of which it speaks. -/
theorem locks : Obligations.Locks := by
  unfold Obligations.Locks
  intro s m
  refine ⟨?lock, ?bulk, ⟨s.owner_lockTurn m, s.owner_lockTurn_late⟩, fun hok => State.owner_beforePcie hok, ?lockOp, ?bulkOp,
    ?unreached, ?heartbeat, ?force, ?lease⟩
  case lock =>
    intro i page v hi
    rw [exec_lock_eq s m hi]
    refine ⟨fun hr => congrArg _ (State.lockWrite_unreached hr page v), fun hr hp => ?_, fun hr hp => ?_⟩
    · rw [State.lockWrite_page hr hp]
      exact ⟨fun him => by simp [him], fun him ht => by simp [him, ht], fun him ht => by simp [him, ht]⟩
    · rw [State.lockWrite_semaphore hr hp]
      exact ⟨fun ha => by simp [ha], fun ha => by simp [ha]⟩
  case bulk =>
    intro v i op hi
    rw [exec_bulk_eq s hi]
    refine ⟨fun hr ha => by simp [hr, ha], fun h => ?_⟩
    rcases h with h | h <;> simp [h]
  case lockOp =>
    intro key v
    refine ⟨fun h8 h9 => ?_, fun h8 h9 => ?_, s.writeLock_neither m key⟩
    · rw [State.lockOp, s.writeLock_claim m key h8 h9]
      exact ⟨State.claim_contended, s.owner_claim m key⟩
    · rw [State.lockOp, s.writeLock_release m key h8 h9]
      exact s.owner_unclaim m key
  case bulkOp =>
    exact fun v => ⟨s.genBulk_malformed m, s.owner_genBulk_release m,
      fun h hop => ⟨fun p => s.genBulk_held m h hop, s.owner_genBulk_claim m h hop⟩⟩
  case unreached =>
    intro h v
    have hno : ¬((s.reaches m && s.answers pgSEM) = true) := by rcases h with h | h <;> simp [h]
    exact ⟨congrArg _ (if_neg hno), congrArg _ (if_neg hno)⟩
  case heartbeat =>
    intro hr ha
    exact ⟨s.beat m, congrArg _ (if_pos (by simp [hr, ha])), s.beat_regs m, s.beat_hb m⟩
  case force =>
    intro v hr ha
    have e : exec (.semForce m v) s = .next (s.force v.toNat) := congrArg _ (if_pos (by simp [hr, ha]))
    exact ⟨fun hc => e.trans (congrArg _ (s.force_reserved hc)), fun hok hc => ⟨_, e, State.owner_force hok hc⟩⟩
  case lease =>
    refine ⟨exec_leaseExpiry_unset, fun hok hms => ?_⟩
    obtain ⟨t, e⟩ := exec_leaseExpiry_due (Nat.ne_of_gt hms)
    exact ⟨_, e, State.owner_endLease hok m t, s.endLease_hb m t⟩

end Sys2Proof
end

section
/-! PROOFS. The requests of SCH_CMD (R29, R30, R185, R212): what each answers in each job state, for a master that owns the page. -/

namespace Sys2Proof

open Machine

/-- A write of the page's owner to an LK field takes effect. -/
theorem Commands.lk {s : State} {m : Master} {page : Nat} (h : Commands s m page) (o : Nat) (k : State → State) :
    s.lk m page o k = k s := State.lk_owner h.reaches h.answers h.owns o k

end Sys2Proof

namespace Sys2Proof.Machine

open Sys2Proof

/-! The checks of a start tick (R30). -/

section
variable {s : State} {t : Nat}

theorem State.startRefusal_early (h : ¬(s.tick + 1000000 ≤ t)) : s.startRefusal t = some 2 := by
  rw [State.startRefusal, if_pos (Nat.lt_of_not_le h)]

theorem State.startRefusal_unframed (h : s.tick + 1000000 ≤ t) (hf : ¬(t % 2048 = 0)) : s.startRefusal t = some 3 := by
  rw [State.startRefusal, if_neg (Nat.not_lt.mpr h), if_pos hf]

theorem State.startRefusal_unaligned (h : s.tick + 1000000 ≤ t) (hf : t % 2048 = 0)
    (ht : ¬(s.tck.state = .aligned ∨ s.tck.state = .root)) : s.startRefusal t = some 4 := by
  rw [State.startRefusal, if_neg (Nat.not_lt.mpr h), if_neg (not_not_intro hf), if_pos (not_or.mp ht)]

theorem State.startRefusal_none (h : s.tick + 1000000 ≤ t) (hf : t % 2048 = 0)
    (ht : s.tck.state = .aligned ∨ s.tck.state = .root) : s.startRefusal t = none := by
  rw [State.startRefusal, if_neg (Nat.not_lt.mpr h), if_neg (not_not_intro hf), if_neg (fun g => not_or.mpr g ht)]

end

/-! What the requests share. -/

/-- A request refused with a code, the job state as it was. -/
def Refuses (s : State) (i : Instr) (code : Nat) : Prop :=
  ∃ u, exec i s = .next u ∧ u.sch.job = s.sch.job ∧ u.sch.refuse = code

theorem refuses_of_schRefuse {s : State} {i : Instr} {code : Nat} (h : exec i s = .next (s.schRefuse code)) : Refuses s i code :=
  ⟨_, h, by simp, by simp⟩

theorem State.stressStart_sch (s : State) : s.stressStart.sch = s.sch := by
  unfold State.stressStart; split <;> rfl

/-- The device's own STOP stops a job that runs, is parked or rewinds (R29, R234). -/
theorem State.raiseStop_job {s : State} (h : s.sch.job = .running ∨ s.sch.job = .parked ∨ s.sch.job = .rewinding) :
    s.raiseStop.sch.job = .stopped := by
  have h8 : bitAt 0 8 = false := by decide
  simp only [State.raiseStop, State.takeStop, h8]
  rcases h with h | h | h <;> simp [h]

theorem State.unload_sch (s : State) : s.unload.sch.job = .idle ∧ s.unload.sch.image = none := by
  simp [State.unload]

/-! The requests, case by case. -/

section
variable {s : State} {m : Master} (hm : Commands s m pgSCH)
include hm

theorem exec_schLoad_accepted (hj : s.sch.job = .idle) (ha : s.reg64 pgSCH 0x48 % 4096 = 0) (hl : 64 ≤ s.reg pgSCH 0x50) :
    exec (.schLoad m) s = .next (({ s with sch := { s.sch with
      load := some (s.reg64 pgSCH 0x48, s.reg pgSCH 0x50), loadErr := 0 } }).setJob .loading) := by
  change execSchLoad m s = _
  have hx : ¬(s.schArg % 4096 ≠ 0 ∨ s.reg pgSCH 0x50 < 64) := by unfold State.schArg; omega
  simp only [execSchLoad, hm.lk, hj, hx, ne_eq, not_true_eq_false, if_false]
  rfl

theorem exec_schLoad_job (hj : s.sch.job ≠ .idle) : exec (.schLoad m) s = .next (s.schRefuse 1) := by
  change execSchLoad m s = _
  simp [execSchLoad, hm.lk, hj]

theorem exec_schLoad_place (hj : s.sch.job = .idle) (h : s.reg64 pgSCH 0x48 % 4096 ≠ 0 ∨ s.reg pgSCH 0x50 < 64) :
    exec (.schLoad m) s = .next (s.schRefuse 6) := by
  change execSchLoad m s = _
  have hx : s.schArg % 4096 ≠ 0 ∨ s.reg pgSCH 0x50 < 64 := h
  simp only [execSchLoad, hm.lk, hj, hx, ne_eq, not_true_eq_false, if_false, if_true]

theorem exec_schArm_job (hj : s.sch.job ≠ .loaded) : exec (.schArm m) s = .next (s.schRefuse 1) := by
  change execSchArm m s = _
  rw [execSchArm, hm.lk, if_pos hj]

theorem exec_schArm_refused (hj : s.sch.job = .loaded) {code : Nat} (hr : s.startRefusal s.schArg = some code) :
    exec (.schArm m) s = .next (s.schRefuse code) := by
  change execSchArm m s = _
  rw [execSchArm, hm.lk, if_neg (not_not_intro hj), hr]

theorem exec_schArm_accepted (hj : s.sch.job = .loaded) (hr : s.startRefusal s.schArg = none) :
    exec (.schArm m) s = .next ((State.stressStart { s with sch := { s.sch with start := s.schArg, resume := false } }).setJob .armed) := by
  change execSchArm m s = _
  rw [execSchArm, hm.lk, if_neg (not_not_intro hj), hr]

theorem schArm_arms (hj : s.sch.job = .loaded) (hr : s.startRefusal s.schArg = none) :
    ∃ u, exec (.schArm m) s = .next u ∧ u.sch.job = .armed ∧ u.sch.start = s.schArg :=
  ⟨_, exec_schArm_accepted hm hj hr, by rw [State.setJob_sch], by rw [State.setJob_sch, State.stressStart_sch]⟩

theorem exec_schResume_job (hj : s.sch.job ≠ .parked) : exec (.schResume m) s = .next (s.schRefuse 1) := by
  change execSchResume m s = _
  rw [execSchResume, hm.lk, if_pos hj]

theorem exec_schResume_refused (hj : s.sch.job = .parked) {code : Nat} (hr : s.startRefusal s.schArg = some code) :
    exec (.schResume m) s = .next (s.schRefuse code) := by
  change execSchResume m s = _
  rw [execSchResume, hm.lk, if_neg (not_not_intro hj), hr]

theorem exec_schResume_accepted (hj : s.sch.job = .parked) (hr : s.startRefusal s.schArg = none) :
    exec (.schResume m) s = .next (({ s with sch := { s.sch with
      start := s.schArg, resume := true, phase := if s.sch.phase == Phase.test then Phase.test else .startUp } }).setJob .armed) := by
  change execSchResume m s = _
  rw [execSchResume, hm.lk, if_neg (not_not_intro hj), hr]

theorem schResume_arms (hj : s.sch.job = .parked) (hr : s.startRefusal s.schArg = none) :
    ∃ u, exec (.schResume m) s = .next u ∧ u.sch.job = .armed ∧ u.sch.start = s.schArg :=
  ⟨_, exec_schResume_accepted hm hj hr, by rw [State.setJob_sch], by rw [State.setJob_sch]⟩

/-- Of the two requests that name a start tick, the one of the present job state is refused as the tick is. -/
theorem refuses_start {i : Instr} (hi : i = .schArm m ∧ s.sch.job = .loaded ∨ i = .schResume m ∧ s.sch.job = .parked) {code : Nat}
    (hr : s.startRefusal s.schArg = some code) : Refuses s i code := by
  rcases hi with ⟨rfl, hj⟩ | ⟨rfl, hj⟩
  · exact refuses_of_schRefuse (exec_schArm_refused hm hj hr)
  · exact refuses_of_schRefuse (exec_schResume_refused hm hj hr)

theorem exec_schDisarm_eq : exec (.schDisarm m) s = .next
    (if s.sch.job = .armed ∧ s.tick < s.sch.start then State.setJob { s with sch := { s.sch with resume := false } } .loaded
     else s.schRefuse 1) :=
  congrArg _ (hm.lk 0x40 _)

theorem exec_schPark_eq : exec (.schPark m) s = .next
    (if s.sch.job = .running then { s with sch := { s.sch with parkReq := true } } else s.schRefuse 1) :=
  congrArg _ (hm.lk 0x40 _)

theorem exec_schStop_stops (hj : s.sch.job = .running ∨ s.sch.job = .parked ∨ s.sch.job = .rewinding) :
    exec (.schStop m) s = .next s.raiseStop := by
  change execSchStop m s = _
  rw [execSchStop, hm.lk]
  rcases hj with hj | hj | hj <;> simp [hj]

theorem exec_schStop_job (hj : ¬(s.sch.job = .running ∨ s.sch.job = .parked ∨ s.sch.job = .rewinding)) :
    exec (.schStop m) s = .next (s.schRefuse 1) := by
  change execSchStop m s = _
  rw [execSchStop, hm.lk]
  cases h : s.sch.job <;> simp_all

theorem exec_schUnload_unloads (hj : s.sch.job = .loaded ∨ s.sch.job = .stopped) : exec (.schUnload m) s = .next s.unload := by
  change execSchUnload m s = _
  rw [execSchUnload, hm.lk]
  rcases hj with hj | hj <;> simp [hj]

theorem exec_schUnload_stops (hj : s.sch.job = .running ∨ s.sch.job = .parked) : exec (.schUnload m) s = .next s.raiseStop := by
  change execSchUnload m s = _
  rw [execSchUnload, hm.lk]
  rcases hj with hj | hj <;> simp [hj]

theorem exec_schUnload_job (hj : s.sch.job = .idle ∨ s.sch.job = .loading ∨ s.sch.job = .armed ∨ s.sch.job = .rewinding) :
    exec (.schUnload m) s = .next (s.schRefuse 1) := by
  change execSchUnload m s = _
  rw [execSchUnload, hm.lk]
  rcases hj with hj | hj | hj | hj <;> simp [hj]

end

end Sys2Proof.Machine

namespace Sys2Proof

open Machine

/-- Settles O23: each clause is the equation of its request in the job states that it names. -/
theorem jobRequests : Obligations.JobRequests := by
  unfold Obligations.JobRequests
  intro s m hm
  refine ⟨?load, fun hj => refuses_of_schRefuse (exec_schLoad_job hm hj), fun hj h => refuses_of_schRefuse (exec_schLoad_place hm hj h),
    ?arm, ?resume, fun hj => refuses_of_schRefuse (exec_schArm_job hm hj), fun hj => refuses_of_schRefuse (exec_schResume_job hm hj),
    ?start, ?disarm, ?disarmJob, ?park, ?parkJob, ?stop, fun hj => refuses_of_schRefuse (exec_schStop_job hm hj),
    ?unload, ?unloadStop, fun hj => refuses_of_schRefuse (exec_schUnload_job hm hj)⟩
  case load => exact fun hj ha hl => ⟨_, exec_schLoad_accepted hm hj ha hl, by simp, by simp⟩
  case arm => exact fun hj ht hf ha => schArm_arms hm hj (State.startRefusal_none ht hf ha)
  case resume => exact fun hj ht hf ha => schResume_arms hm hj (State.startRefusal_none ht hf ha)
  case start =>
    exact fun i hi => ⟨fun ht => refuses_start hm hi (State.startRefusal_early ht),
      fun ht hf => refuses_start hm hi (State.startRefusal_unframed ht hf),
      fun ht hf ha => refuses_start hm hi (State.startRefusal_unaligned ht hf ha)⟩
  case disarm => exact fun hj ht => ⟨_, (exec_schDisarm_eq hm).trans (congrArg _ (if_pos ⟨hj, ht⟩)), by simp⟩
  case disarmJob =>
    intro h
    have hn : ¬(s.sch.job = .armed ∧ s.tick < s.sch.start) := fun g => h.elim (· g.1) (fun ht => Nat.not_lt.mpr ht g.2)
    exact refuses_of_schRefuse ((exec_schDisarm_eq hm).trans (congrArg _ (if_neg hn)))
  case park => exact fun hj => ⟨_, (exec_schPark_eq hm).trans (congrArg _ (if_pos hj)), hj, rfl⟩
  case parkJob => exact fun hj => refuses_of_schRefuse ((exec_schPark_eq hm).trans (congrArg _ (if_neg hj)))
  case stop => exact fun hj => ⟨_, exec_schStop_stops hm hj, State.raiseStop_job hj⟩
  case unload => exact fun hj => ⟨_, exec_schUnload_unloads hm hj, s.unload_sch⟩
  case unloadStop =>
    exact fun hj => ⟨_, exec_schUnload_stops hm hj, State.raiseStop_job (hj.imp_right .inl)⟩

end Sys2Proof
end

section
/-! PROOFS. The state after reset (R28, R189, R211, R441). -/

namespace Sys2Proof

open Machine

theorem reset_ownersOk : OwnersOk State.reset := ⟨rfl, fun _ hp => (List.not_mem_nil hp).elim⟩

theorem reset_memoriesOk : MemoriesOk State.reset where
  device := rfl
  capacity := rfl
  cores := fun _ hp => (List.not_mem_nil hp).elim
  registers := rfl

theorem reset_tickOk : TickOk State.reset := ⟨by decide, by decide⟩

/-- No register is stored at reset, so each reads as the table gives it. -/
theorem reset_reg (page o : Nat) : State.reset.reg page o = regReset (regAt page o) := rfl

/-- Settles O60: nothing is listed at reset, so that every store reads its default. -/
theorem resetIsLegal : Obligations.ResetIsLegal :=
  ⟨reset_ownersOk, reset_memoriesOk, reset_tickOk, rfl, rfl, rfl, rfl, rfl, rfl, fun _ => rfl, reset_reg, fun _ _ => rfl, fun _ => rfl⟩

end Sys2Proof
end

section
/-! PROOFS. The events of a job (R29, R31, R186, R187, R345, R510): the state that each leaves in the schedule, and the pier copies that
the end of a span's work takes. -/

namespace Sys2Proof.Machine

open Sys2Proof

/-! Every entry of a store changed. -/

theorem Store.get_mapVals {α : Type} (d : α) (f : Nat → α → α) (m : Store α) (k : Nat) :
    Store.get d (Store.mapVals f m) k = (Store.find m k).elim d (f k) := by
  induction m with
  | nil => rfl
  | cons p m ih =>
    obtain ⟨j, v⟩ := p
    simp only [Store.mapVals, Store.get, Store.find]
    by_cases h : j = k
    · simp [h]
    · simp [h, ih]

/-! What the operations of a job's events leave in the schedule. -/

theorem State.setPoint_sch (s : State) (p : Nat) : (s.setPoint p).sch = s.sch := by
  unfold State.setPoint State.pointTo; split <;> simp

theorem State.setPoint_vdt (s : State) (p : Nat) : (s.setPoint p).vdt = s.vdt := by
  unfold State.setPoint State.pointTo; split <;> simp

theorem State.loadFail_job (s : State) (e : LoadErr) : (s.loadFail e).sch.job = .idle := by
  simp [State.loadFail]

/-- A load ends in LOADED, or in IDLE with its failure (R185, R186). -/
theorem State.loadEnd_job (s : State) (addr len : Nat) : (s.loadEnd addr len).sch.job = .loaded ∨ (s.loadEnd addr len).sch.job = .idle := by
  unfold State.loadEnd
  dsimp only
  split
  · exact .inr (State.loadFail_job _ _)
  · exact .inl (by rw [State.setJob_sch])

theorem State.failStart_sch (s : State) (d r : Nat) :
    (s.failStart d r).sch = { s.sch with p0Err := d * 2 ^ 16 + r, place := .none, resume := false, job := .loaded } := by
  simp [State.failStart]

theorem State.stopAtPier_sch (s : State) :
    s.stopAtPier.sch = { s.sch with seq := s.sch.seq - 1, place := .none, job := .stopped } := by
  simp [State.stopAtPier]

theorem State.trcPier_sch (s : State) (how : Nat) : (s.trcPier how).sch = s.sch := by
  simp [State.trcPier]

/-! Pier copies (R138). -/

/-- A core whose threads' pier copies are taken. -/
def Core.pierCopied (k : Core) : Core :=
  { k with threads := Store.mapVals (fun _ x => { x with pierCopy := some x.a }) k.threads }

theorem Core.pierCopied_thread (k : Core) (t : Nat) :
    (k.pierCopied.thread t).pierCopy = some (k.pierCopied.thread t).a ∨ k.pierCopied.thread t = {} := by
  simp only [Core.thread, Core.pierCopied, Store.get_mapVals]
  cases Store.find k.threads t with
  | none => exact .inr rfl
  | some x => exact .inl rfl

/-- Whatever faults the end of the work raises, it takes the copies of every core as the faults leave it. -/
theorem State.endWork_cores (s : State) : ∃ cs, s.endWork.cores = Store.mapVals (fun _ k => Core.pierCopied k) cs := ⟨_, rfl⟩

theorem State.endWork_place (s : State) : s.endWork.sch.place = .pier := rfl

/-- Every thread that is not at reset has its pier copy. -/
theorem State.endWork_thread (s : State) (c t : Nat) :
    (s.endWork.thread c t).pierCopy = some (s.endWork.thread c t).a ∨ s.endWork.thread c t = {} := by
  obtain ⟨cs, hcs⟩ := s.endWork_cores
  simp only [State.thread, State.core, hcs, Store.get_mapVals]
  cases Store.find cs c with
  | none => exact .inr rfl
  | some k => exact k.pierCopied_thread t

/-! The events, case by case. -/

section
variable {s : State}

theorem exec_imageLoadDone_eq {addr len : Nat} (hj : s.sch.job = .loading) (hl : s.sch.load = some (addr, len)) :
    exec .imageLoadDone s = .next (s.loadEnd addr len) := by
  change execImageLoadDone s = _
  rw [execImageLoadDone, hj, hl]

/-- The start tick takes an armed device to pier 0, with the span count at 0 unless it resumes or adopts. -/
theorem exec_startTick_armed (hj : s.sch.job = .armed) (ht : s.tick ≤ s.sch.start) :
    ∃ u, exec .startTick s = .next u ∧ u.sch.job = .running ∧ u.sch.place = .pier0 ∧ u.sch.first = s.sch.start ∧ u.vdt.epoch = 0 ∧
      u.sch.seq = if (!s.sch.resume && !s.sch.adopted) = true then 0 else s.sch.seq := by
  have hn : ¬(s.sch.job ≠ .armed ∨ s.sch.start < s.tick) := not_or.mpr ⟨not_not_intro hj, Nat.not_lt.mpr ht⟩
  refine ⟨_, congrArg Host.Outcome.next (if_neg hn), ?_⟩
  simp [State.setPoint_sch, State.setPoint_vdt, State.setJob_frame]

section
variable {reports : List PierReport} (hj : s.sch.job = .running) (hp : s.sch.place = .pier0)
include hj hp

theorem exec_pier0Seal_seals (hf : (elapseTo (s.sch.first + 2047) s).p0Fault reports = none) :
    exec (.pier0Seal reports) s = .next (elapseTo (s.sch.first + 2047) s).sealStart := by
  change execPier0Seal reports s = _
  rw [execPier0Seal, if_neg (not_or.mpr ⟨not_not_intro hj, not_not_intro hp⟩)]
  simp only [hf]

theorem exec_pier0Seal_fails {d r : Nat} (hf : (elapseTo (s.sch.first + 2047) s).p0Fault reports = some (d, r)) :
    exec (.pier0Seal reports) s = .next ((elapseTo (s.sch.first + 2047) s).failStart d r) := by
  change execPier0Seal reports s = _
  rw [execPier0Seal, if_neg (not_or.mpr ⟨not_not_intro hj, not_not_intro hp⟩)]
  simp only [hf]

end

theorem exec_spanStart_due (hj : s.sch.job = .running) (hp : s.sch.place = .none) :
    exec .spanStart s = .next (((elapseTo s.sch.first s).startSpan (s.sch.seq + 1) s.sch.first).schAgrees 0 0) :=
  congrArg Host.Outcome.next (if_neg (not_or.mpr ⟨not_not_intro hj, not_not_intro hp⟩))

theorem exec_spanEnd_due (hj : s.sch.job = .running) (hp : s.sch.place = .span) (hb : s.train.engines.any (fun e => e.2.busy) = false) :
    exec .spanEnd s = .next ((elapseTo s.workEnd s).schAgrees 0 0).endWork :=
  congrArg Host.Outcome.next (if_neg (not_or.mpr ⟨not_not_intro hj, not_or.mpr ⟨not_not_intro hp, ne_true_of_eq_false hb⟩⟩))

theorem exec_pierSeal_due (hj : s.sch.job = .running) (hp : s.sch.place = .pier)
    (hr : s.pie.raises.any (fun r => !r.next && decide (r.tick + 32 ≤ s.deadline)) = false) : exec .pierSeal s =
    .next (let z := (elapseTo (s.pierFirst + 2047) s).sealCompare
      if z.sch.stops.contains (z.sch.seq % 256) then (z.trcPier 2).stopAtPier else ((z.lateFlits.trcPier 1).seal).afterSeal) :=
  congrArg Host.Outcome.next (if_neg (not_or.mpr ⟨not_not_intro hj, not_or.mpr ⟨not_not_intro hp, ne_true_of_eq_false hr⟩⟩))

end

end Sys2Proof.Machine

namespace Sys2Proof

open Machine

/-- Settles O24: each clause is the equation of its event, and what the operation that it applies leaves in the schedule. -/
theorem jobEvents : Obligations.JobEvents := by
  unfold Obligations.JobEvents
  intro s
  refine ⟨?load, ?start, ?pier0, fun hj hp => exec_spanStart_due hj hp, ?spanEnd, ?pierSeal⟩
  case load => exact fun addr len hj hl => ⟨_, exec_imageLoadDone_eq hj hl, State.loadEnd_job s addr len⟩
  case start =>
    intro hj ht
    obtain ⟨u, hu, hjob, hplace, hfirst, hepoch, hseq⟩ := exec_startTick_armed hj ht
    refine ⟨u, hu, hjob, hplace, hfirst, hepoch, fun hr ha => ?_, fun h => ?_⟩
    · simp [hseq, hr, ha]
    · rcases h with h | h <;> simp [hseq, h]
  case pier0 =>
    exact fun hj hp reports => ⟨fun hf => exec_pier0Seal_seals hj hp hf,
      fun d r hf => ⟨_, exec_pier0Seal_fails hj hp hf, by rw [State.failStart_sch], by rw [State.failStart_sch]⟩⟩
  case spanEnd =>
    exact fun hj hp hb => ⟨_, exec_spanEnd_due hj hp hb, State.endWork_place _, State.endWork_thread _⟩
  case pierSeal =>
    intro hj hp hr
    have e := exec_pierSeal_due hj hp hr
    refine ⟨fun hs => ⟨_, e.trans (congrArg _ (if_pos hs)), ?_, ?_⟩, fun hs => e.trans (congrArg _ (if_neg (ne_true_of_eq_false hs)))⟩
    · rw [State.stopAtPier_sch]
    · rw [State.stopAtPier_sch, State.trcPier_sch]

end Sys2Proof
end

section
/-! PROOFS. The commands of an HBM stack (R17, R283, R287, R290, R296, R298, R304): when each starts, when it is turned away, and what
each that ends leaves of the stacks and of the layout of device memory. -/

namespace Sys2Proof.Machine

open Sys2Proof

/-! Stacks. -/

@[simp] theorem State.stk_setStk_same (s : State) (n : Nat) (k : Stack) : (s.setStk n k).stk n = k := by
  simp [State.stk, State.setStk]

theorem State.stk_setStk_other (s : State) {n i : Nat} (k : Stack) (h : i ≠ n) : (s.setStk n k).stk i = s.stk i := by
  simp [State.stk, State.setStk, Store.get_set, h]

theorem State.stk_congr {s t : State} (h : s.mem.stack = t.mem.stack) (n : Nat) : s.stk n = t.stk n := by
  simp only [State.stk, h]

@[simp] theorem State.stk_setInt (s : State) (page bit n : Nat) : (s.setInt page bit).stk n = s.stk n := State.stk_congr (by simp) n

@[simp] theorem State.stk_cnt (s : State) (page o k n : Nat) : (s.cnt page o k).stk n = s.stk n := State.stk_congr (by simp) n

@[simp] theorem State.stk_logErr (s : State) (page l0 l1 l2 n : Nat) : (s.logErr page l0 l1 l2).stk n = s.stk n :=
  State.stk_congr (by simp) n

/-- Each of the first stacks changed in turn, as a function of its own number and state. -/
theorem State.stk_foldl_setStk (f : Nat → Stack → Stack) (s : State) (n i : Nat) :
    ((upTo n).foldl (fun a j => a.setStk j (f j (a.stk j))) s).stk i = if i < n then f i (s.stk i) else s.stk i := by
  induction n with
  | zero => rfl
  | succ n ih =>
    have hstep : (upTo (n + 1)).foldl (fun a j => a.setStk j (f j (a.stk j))) s =
        ((upTo n).foldl (fun a j => a.setStk j (f j (a.stk j))) s).setStk n
          (f n (((upTo n).foldl (fun a j => a.setStk j (f j (a.stk j))) s).stk n)) := by
      simp [upTo, List.range_succ]
    rw [hstep]
    by_cases hi : i = n
    · subst hi
      rw [State.stk_setStk_same, ih, if_neg (Nat.lt_irrefl i), if_pos (Nat.lt_succ_self i)]
    · rw [State.stk_setStk_other _ _ hi, ih]
      by_cases h : i < n
      · rw [if_pos h, if_pos (Nat.lt_succ_of_lt h)]
      · rw [if_neg h, if_neg (by omega)]

/-! INIT starts (R287). -/

theorem State.anyStackBusy_iff (s : State) : (upTo 8).any (fun i => (s.stk i).cmd.isSome) = true ↔ ¬∀ i < 8, (s.stk i).cmd = none := by
  simp [upTo, Option.isSome_iff_ne_none]

section
variable {s : State} {m : Master} {n : Fin 8} (hm : Commands s m (pgHBM n))
include hm

theorem exec_hbmInit_starts (hn : n = 0) (hj : s.sch.job = .idle) (hi : ∀ i < 8, (s.stk i).cmd = none)
    (hf : s.sideFits s.initMask = true) : exec (.hbmInit m n) s = .next { s.hbmStart 0 1 with
      mem := { (s.hbmStart 0 1).mem with initPlan := some (s.initMask, s.reg (pgHBM 0) 0x44, s.mem.granCfg) } } := by
  refine congrArg Host.Outcome.next ((hm.lk 0x50 _).trans (if_neg ?_))
  rintro (h | h | h | h)
  · exact h (congrArg Fin.val hn)
  · exact h hj
  · exact s.anyStackBusy_iff.mp h hi
  · exact ne_true_of_eq_false h hf

theorem exec_hbmInit_refused (h : n ≠ 0 ∨ s.sch.job ≠ .idle ∨ (¬∀ i < 8, (s.stk i).cmd = none) ∨ s.sideFits s.initMask = false) :
    exec (.hbmInit m n) s = .next (s.hbmRefuse n 3) := by
  rw [← State.anyStackBusy_iff, ne_eq n, Fin.ext_iff] at h
  exact congrArg Host.Outcome.next ((hm.lk 0x50 _).trans (if_pos h))

end

/-! Training and repairs start (R298). -/

/-- Training or a repair of a stack may start: the job is quiet, no command of the stack and no INIT is in progress, and no host access
to the stack waits. -/
def State.hbmOpen (s : State) (n : Nat) : Prop :=
  s.quietJob = true ∧ (s.stk n).cmd = none ∧ (∀ a, (s.stk 0).cmd ≠ some (1, a)) ∧
    (∀ w ∈ s.host.wbuf, s.hostTouches n w.1 w.2.length true = false) ∧ (∀ r ∈ s.host.rwait, s.hostTouches n r.1 r.2 false = false)

/-- A command of the stack is in progress, or stack 0's INIT of all of them. -/
theorem State.stackBusy_iff (s : State) {n : Nat} (hn : n < 8) :
    (upTo 8).any (fun i => (s.stk i).cmd.isSome && (i == n || i == 0 && (s.stk 0).cmd.map (·.1) == some 1)) = true ↔
      ¬((s.stk n).cmd = none ∧ ∀ a, (s.stk 0).cmd ≠ some (1, a)) := by
  have hinit : (s.stk 0).cmd.map (·.1) = some 1 ↔ ∃ a, (s.stk 0).cmd = some (1, a) := by simp
  simp only [List.any_eq_true, upTo, List.mem_range, Bool.and_eq_true, Bool.or_eq_true, beq_iff_eq, Option.isSome_iff_ne_none, hinit]
  constructor
  · rintro ⟨i, -, hi, rfl | ⟨-, a, ha⟩⟩ ⟨hnone, hno⟩
    · exact hi hnone
    · exact hno a ha
  · intro h
    by_cases hc : (s.stk n).cmd = none
    · obtain ⟨a, ha⟩ : ∃ a, (s.stk 0).cmd = some (1, a) := by simpa [hc] using h
      exact ⟨0, by decide, by simp [ha], .inr ⟨rfl, a, ha⟩⟩
    · exact ⟨n, hn, hc, .inl rfl⟩

/-- The model's test before a repair is that the stack is not open. -/
theorem State.hbmClosed_iff (s : State) {n : Nat} (hn : n < 8) :
    (!s.quietJob || (upTo 8).any (fun i => (s.stk i).cmd.isSome && (i == n || i == 0 && (s.stk 0).cmd.map (·.1) == some 1)) ||
      s.host.wbuf.any (fun w => s.hostTouches n w.1 w.2.length true) || s.host.rwait.any (fun r => s.hostTouches n r.1 r.2 false)) = true ↔
      ¬s.hbmOpen n := by
  rw [Bool.or_eq_true, Bool.or_eq_true, Bool.or_eq_true, s.stackBusy_iff hn, State.hbmOpen]
  simp only [Bool.not_eq_true', List.any_eq_true, not_and_or, not_forall, Bool.not_eq_false, Bool.not_eq_true, exists_prop, or_assoc]

section
variable {s : State} {n : Nat} (hn : n < 8)
include hn

theorem State.hbmRepair_closed (h : ¬s.hbmOpen n) (op : Nat) : s.hbmRepair n op = s.hbmRefuse n 3 := by
  rw [State.hbmRepair, if_pos ((s.hbmClosed_iff hn).mpr h)]

theorem State.hbmRepair_spent (h : s.hbmOpen n) {op : Nat} (ho : op ≠ 2) (hs : s.sparesOut n op = true) :
    s.hbmRepair n op = s.hbmRefuse n 4 := by
  rw [State.hbmRepair, if_neg (fun g => (s.hbmClosed_iff hn).mp g h), if_pos ⟨ho, hs⟩]

theorem State.hbmRepair_starts (h : s.hbmOpen n) {op : Nat} (hs : op = 2 ∨ s.sparesOut n op = false) :
    s.hbmRepair n op = s.hbmStart n op := by
  rw [State.hbmRepair, if_neg (fun g => (s.hbmClosed_iff hn).mp g h), if_neg (fun g => hs.elim g.1 (by simp [g.2]))]

end

theorem State.hbmStart_cmd (s : State) (n op : Nat) : ((s.hbmStart n op).stk n).cmd = some (op, s.reg (pgHBM n) 0x54) := by
  rw [State.hbmStart, State.stk_setStk_same]

/-- A repair by its command and its OP. -/
theorem exec_hbmRepair_eq {s : State} {m : Master} {n : Fin 8} (hm : Commands s m (pgHBM n)) {i : Instr} {op : Nat}
    (h : (i, op) ∈ [(Instr.hbmTrain m n, 2), (.hbmRowSoft m n, 3), (.hbmRowHard m n, 4), (.hbmLane m n, 5)]) :
    exec i s = .next (s.hbmRepair n op) := by
  simp only [List.mem_cons, Prod.mk.injEq, List.not_mem_nil, or_false] at h
  rcases h with ⟨rfl, rfl⟩ | ⟨rfl, rfl⟩ | ⟨rfl, rfl⟩ | ⟨rfl, rfl⟩ <;> exact congrArg Host.Outcome.next (hm.lk 0x50 _)

/-- A repair is turned away where the stack is not open or no spare is left, and starts otherwise. -/
theorem exec_hbmRepair_cases {s : State} {m : Master} {n : Fin 8} (hm : Commands s m (pgHBM n)) {i : Instr} {op : Nat}
    (h : (i, op) ∈ [(Instr.hbmRowSoft m n, 3), (.hbmRowHard m n, 4), (.hbmLane m n, 5)]) :
    (¬s.hbmOpen n → exec i s = .next (s.hbmRefuse n 3)) ∧
      (s.hbmOpen n → s.sparesOut n op = true → exec i s = .next (s.hbmRefuse n 4)) ∧
      (s.hbmOpen n → s.sparesOut n op = false → ∃ u, exec i s = .next u ∧ (u.stk n).cmd = some (op, s.reg (pgHBM n) 0x54)) := by
  have e := exec_hbmRepair_eq hm (List.mem_cons_of_mem _ h)
  have ho : op ≠ 2 := by
    simp only [List.mem_cons, Prod.mk.injEq, List.not_mem_nil, or_false] at h
    omega
  exact ⟨fun hc => e.trans (congrArg _ (State.hbmRepair_closed n.isLt hc op)),
    fun hc hs => e.trans (congrArg _ (State.hbmRepair_spent n.isLt hc ho hs)),
    fun hc hs => ⟨_, e.trans (congrArg _ (State.hbmRepair_starts n.isLt hc (.inr hs))), s.hbmStart_cmd n op⟩⟩

/-! INIT ends (R290). -/

theorem State.descChanged_mem (s : State) : s.descChanged.mem = s.mem := by simp [State.descChanged_frame]

theorem State.hbmInitEnd_none {s : State} (h : s.mem.initPlan = none) : s.hbmInitEnd = s := by
  simp [State.hbmInitEnd, h]

section
variable {s : State} {mask g : Nat} {gran : Store Nat} (hp : s.mem.initPlan = some (mask, g, gran))
include hp

/-- Where the shape may not change, INIT ends with no effect (R17). -/
theorem State.hbmInitEnd_closed (h : s.shapeOpen = false) : s.hbmInitEnd = { s with mem := { s.mem with initPlan := none } } := by
  have h' : ({ s with mem := { s.mem with initPlan := none } } : State).shapeOpen = false := h
  simp only [State.hbmInitEnd, hp, h', Bool.not_false, if_true]

/-- Where it may, the layout of INIT's start takes effect, with device memory empty. -/
theorem State.hbmInitEnd_open (h : s.shapeOpen = true) : ∃ r : State, s.hbmInitEnd.mem = { r.mem with
      dev := [], devSide := [], devBad := [], initDone := true, gran := gran, sidecarGib := g, stackMask := mask } ∧
    ∀ i, r.stk i = if i < 8 then { s.stk i with inService := bitAt mask i, lost := false } else s.stk i := by
  have h' : ({ s with mem := { s.mem with initPlan := none } } : State).shapeOpen = true := h
  refine ⟨(upTo 8).foldl (fun a i => a.setStk i { a.stk i with inService := bitAt mask i, lost := false })
    { s with mem := { s.mem with initPlan := none } }, ?_, fun i =>
      State.stk_foldl_setStk (fun j k => { k with inService := bitAt mask j, lost := false }) _ 8 i⟩
  simp only [State.hbmInitEnd, hp, h', Bool.not_true, Bool.false_eq_true, if_false, apply_ite State.mem, State.descChanged_mem, ite_self]

end

/-- The end of INIT leaves every stack's command as it was. -/
theorem State.hbmInitEnd_cmd (s : State) (i : Nat) : (s.hbmInitEnd.stk i).cmd = (s.stk i).cmd := by
  rcases hp : s.mem.initPlan with _ | ⟨mask, g, gran⟩
  · rw [State.hbmInitEnd_none hp]
  · cases h : s.shapeOpen with
    | false => rw [State.hbmInitEnd_closed hp h]; rfl
    | true =>
      obtain ⟨r, hmem, hstk⟩ := State.hbmInitEnd_open hp h
      have hr : s.hbmInitEnd.stk i = r.stk i := State.stk_congr (by rw [hmem]) i
      rw [hr, hstk]
      split <;> rfl

theorem State.shapeOpen_iff (s : State) : s.shapeOpen = true ↔ s.sch.job = .idle ∨ s.sch.job = .loaded ∨ s.sch.job = .stopped := by
  simp [State.shapeOpen, or_assoc]

/-! Commands end (R298, R304). -/

/-- The command taken off a stack, the lines of a repaired place read and written back. -/
def State.hbmTaken (s : State) (n op addr : Nat) : State :=
  let z := if 3 ≤ op then s.repairLines n op addr else s
  z.setStk n { z.stk n with cmd := none }

theorem State.hbmTaken_cmd (s : State) (n op addr : Nat) : ((s.hbmTaken n op addr).stk n).cmd = none := by
  simp [State.hbmTaken]

/-- A training that ends, and is logged where it failed. -/
def State.hbmTrained (s : State) (n : Nat) (ok : Bool) : State :=
  let z := s.setStk n { s.stk n with trained := ok }
  if ok then z else z.logErr (pgHBM n) (5 * 2 ^ 24) 0 0

theorem State.hbmTrained_stk (s : State) (n : Nat) (ok : Bool) : (s.hbmTrained n ok).stk n = { s.stk n with trained := ok } := by
  unfold State.hbmTrained; dsimp only; split <;> simp

theorem exec_hbmCmdDone_none {s : State} {n : Fin 8} (h : (s.stk n).cmd = none) (ok : Bool) : exec (.hbmCmdDone n ok) s = .next s := by
  change execHbmCmdDone n ok s = _
  simp only [execHbmCmdDone, h]

section
variable {s : State} {n : Fin 8} {op addr : Nat} (h : (s.stk n).cmd = some (op, addr)) (ok : Bool)
include h

theorem exec_hbmCmdDone_init (ho : op = 1) :
    exec (.hbmCmdDone n ok) s = .next ((s.hbmTaken n op addr).hbmInitEnd.setInt (pgHBM n) 5) := by
  change execHbmCmdDone n ok s = _
  subst ho
  simp only [execHbmCmdDone, h]
  rfl

theorem exec_hbmCmdDone_train (ho : op = 2) :
    exec (.hbmCmdDone n ok) s = .next (((s.hbmTaken n op addr).hbmTrained n ok).setInt (pgHBM n) 5) := by
  change execHbmCmdDone n ok s = _
  subst ho
  simp only [execHbmCmdDone, h]
  rfl

theorem exec_hbmCmdDone_rowSoft (ho : op = 3) : exec (.hbmCmdDone n ok) s =
    .next ((((s.hbmTaken n op addr).setStk n { (s.hbmTaken n op addr).stk n with soft := (s.stk n).soft ++ [addr] }).cnt
      (pgHBM n) 0x6C 1).setInt (pgHBM n) 5) := by
  change execHbmCmdDone n ok s = _
  subst ho
  simp only [execHbmCmdDone, h]
  rfl

theorem exec_hbmCmdDone_rowHard (ho : op = 4) : exec (.hbmCmdDone n ok) s =
    .next ((((s.hbmTaken n op addr).setStk n { (s.hbmTaken n op addr).stk n with hard := (s.stk n).hard ++ [addr] }).cnt
      (pgHBM n) 0x6C 1).setInt (pgHBM n) 5) := by
  change execHbmCmdDone n ok s = _
  subst ho
  simp only [execHbmCmdDone, h]
  rfl

/-- Any other command is a lane's. -/
theorem exec_hbmCmdDone_lane (h1 : op ≠ 1) (h2 : op ≠ 2) (h3 : op ≠ 3) (h4 : op ≠ 4) : exec (.hbmCmdDone n ok) s =
    .next (((((s.hbmTaken n op addr).setStk n { (s.hbmTaken n op addr).stk n with lanes := (s.stk n).lanes ++ [addr] }).cnt
      (pgHBM n) 0x6C 1).hbmTrained n ok).setInt (pgHBM n) 5) := by
  change execHbmCmdDone n ok s = _
  simp only [execHbmCmdDone, h]
  rfl

end

/-! What each command that ends leaves. -/

theorem State.hbmTaken_init (s : State) (n addr : Nat) : s.hbmTaken n 1 addr = s.setStk n { s.stk n with cmd := none } := rfl

/-- INIT's end where the shape may change: the layout it began with, over an empty device memory. -/
theorem State.initEnds_open {s : State} {mask g : Nat} {gran : Store Nat} (hp : s.mem.initPlan = some (mask, g, gran))
    (hj : s.sch.job = .idle ∨ s.sch.job = .loaded ∨ s.sch.job = .stopped) (n addr page bit : Nat) :
    let u := (s.hbmTaken n 1 addr).hbmInitEnd.setInt page bit
    u.mem.dev = [] ∧ u.mem.devSide = [] ∧ u.mem.devBad = [] ∧ u.mem.initDone = true ∧ u.mem.gran = gran ∧ u.mem.sidecarGib = g ∧
      u.mem.stackMask = mask ∧ ∀ i < 8, (u.stk i).inService = bitAt mask i := by
  intro u
  have hp' : (s.hbmTaken n 1 addr).mem.initPlan = some (mask, g, gran) := hp
  obtain ⟨r, hmem, hstk⟩ := State.hbmInitEnd_open hp' ((State.shapeOpen_iff _).mpr hj)
  have hu : u.mem = (s.hbmTaken n 1 addr).hbmInitEnd.mem := by simp [u]
  rw [hu, hmem]
  refine ⟨rfl, rfl, rfl, rfl, rfl, rfl, rfl, fun i hi => ?_⟩
  have hr : u.stk i = r.stk i := State.stk_congr (by rw [hu, hmem]) i
  rw [hr, hstk, if_pos hi]

/-- INIT's end where it may not: the layout and device memory stand. -/
theorem State.initEnds_closed {s : State} {mask g : Nat} {gran : Store Nat} (hp : s.mem.initPlan = some (mask, g, gran))
    (hj : ¬(s.sch.job = .idle ∨ s.sch.job = .loaded ∨ s.sch.job = .stopped)) (n addr page bit : Nat) :
    let u := (s.hbmTaken n 1 addr).hbmInitEnd.setInt page bit
    u.mem.dev = s.mem.dev ∧ u.mem.stackMask = s.mem.stackMask ∧ u.mem.sidecarGib = s.mem.sidecarGib ∧ u.mem.gran = s.mem.gran := by
  intro u
  have hp' : (s.hbmTaken n 1 addr).mem.initPlan = some (mask, g, gran) := hp
  have hclosed : (s.hbmTaken n 1 addr).shapeOpen = false := Bool.eq_false_iff.mpr (fun h => hj ((State.shapeOpen_iff _).mp h))
  have hu : u.mem = (s.hbmTaken n 1 addr).hbmInitEnd.mem := by simp [u]
  rw [hu, State.hbmInitEnd_closed hp' hclosed]
  exact ⟨rfl, rfl, rfl, rfl⟩

/-- Training of every stack ends (R283). -/
theorem exec_hbmTrainingDone_stk (s : State) (good : Nat) {i : Nat} (hi : i < 8) : ∃ u, exec (.hbmTrainingDone good) s = .next u ∧
    u.stk i = { s.stk i with trained := true, odd := !bitAt good i, inService := (s.stk i).inService && bitAt good i } :=
  ⟨_, rfl, (State.stk_foldl_setStk (fun j k => { k with trained := true, odd := !bitAt good j, inService := k.inService && bitAt good j })
    s 8 i).trans (if_pos hi)⟩

/-- A stack's temperature changes, and no other stack (R296, R304). -/
theorem exec_hbmHot_stk (s : State) (n : Fin 8) (temp : Nat) : ∃ u, exec (.hbmHot n temp) s = .next u ∧
    ∀ i, u.stk i = (s.setStk n { s.stk n with hot := decide (85 < temp), temp := temp % 256 }).stk i := by
  refine ⟨_, rfl, fun i => ?_⟩
  dsimp only
  split
  · rw [State.stk_setInt]
  · rfl

end Sys2Proof.Machine

namespace Sys2Proof

open Machine

/-- Settles O38: each clause is the equation of its command; a command that ends is an INIT, a training, a repair of a row or one of a
lane. -/
theorem hbmCommands : Obligations.HbmCommands := by
  unfold Obligations.HbmCommands
  intro s n
  refine ⟨fun m hm => ⟨?init, fun h => exec_hbmInit_refused hm h, ?trainClosed, ?train, exec_hbmRepair_cases hm (by simp),
      exec_hbmRepair_cases hm (by simp), exec_hbmRepair_cases hm (by simp)⟩,
    fun ok => ⟨fun h => exec_hbmCmdDone_none h ok, ?ends⟩, ?trained, ?hot⟩
  case init =>
    intro hn hj hi hf
    have e := exec_hbmInit_starts hm hn hj hi hf
    subst hn
    exact ⟨⟨_, e, s.hbmStart_cmd 0 1⟩, _, e, rfl⟩
  case trainClosed => exact fun h => (exec_hbmRepair_eq hm (by simp)).trans (congrArg _ (State.hbmRepair_closed n.isLt h 2))
  case train =>
    exact fun h => ⟨_, (exec_hbmRepair_eq hm (by simp)).trans (congrArg _ (State.hbmRepair_starts n.isLt h (.inl rfl))), s.hbmStart_cmd n 2⟩
  case ends =>
    intro op addr h
    obtain h1 | h2 | h3 | h4 | ⟨h1, h2, h3, h4⟩ :
        op = 1 ∨ op = 2 ∨ op = 3 ∨ op = 4 ∨ op ≠ 1 ∧ op ≠ 2 ∧ op ≠ 3 ∧ op ≠ 4 := by omega
    · have e := exec_hbmCmdDone_init h ok h1
      subst h1
      refine ⟨_, e, ?_, fun mask g gran _ hp =>
        ⟨fun hj => State.initEnds_open hp hj _ _ _ _, fun hj => State.initEnds_closed hp hj _ _ _ _⟩,
        by simp, by simp, by simp, by simp⟩
      rw [State.stk_setInt, State.hbmInitEnd_cmd, State.hbmTaken_cmd]
    · refine ⟨_, exec_hbmCmdDone_train h ok h2, ?_⟩
      simp [State.hbmTrained_stk, State.hbmTaken_cmd, h2]
    · refine ⟨_, exec_hbmCmdDone_rowSoft h ok h3, ?_⟩
      simp [State.hbmTaken_cmd, h3]
    · refine ⟨_, exec_hbmCmdDone_rowHard h ok h4, ?_⟩
      simp [State.hbmTaken_cmd, h4]
    · refine ⟨_, exec_hbmCmdDone_lane h ok h1 h2 h3 h4, ?_⟩
      simp [State.hbmTrained_stk, State.hbmTaken_cmd, h1, h2, h3, h4]
  case trained =>
    intro good
    obtain ⟨u, hu, hs⟩ := exec_hbmTrainingDone_stk s good n.isLt
    exact ⟨u, hu, by rw [hs], by rw [hs], by rw [hs]⟩
  case hot =>
    intro temp
    obtain ⟨u, hu, hs⟩ := exec_hbmHot_stk s n temp
    exact ⟨u, hu, by rw [hs, State.stk_setStk_same], by rw [hs, State.stk_setStk_same],
      fun i _ hi => by rw [hs, State.stk_setStk_other _ _ hi]⟩

end Sys2Proof
end

section
/-! PROOFS. The mailboxes and their command engine (R16, R429 to R433, R440, R443): what a doorbell, an ACK, the end of a command and
the commands of this chapter leave of the mailboxes, of the engine's queue and of the key slots. -/

namespace Sys2Proof.Machine

open Sys2Proof

/-! The host's part that the mailboxes stand in: no interrupt and no record changes it. -/

/-- The mailboxes, the engine's queue and the key slots of two states agree. -/
structure SameMail (u z : State) : Prop where
  mbx0 : u.host.mbx0 = z.host.mbx0
  mbx1 : u.host.mbx1 = z.host.mbx1
  queue : u.host.engineQ = z.host.engineQ
  slots : u.host.slots = z.host.slots

theorem SameMail.of_still {u z : State} (h : u.host.still = z.host.still) : SameMail u z := by
  obtain ⟨h0, h1, hq, hs, -⟩ := HostState.still_fields h
  exact ⟨h0, h1, hq, hs⟩

theorem SameMail.mbx {u z : State} (h : SameMail u z) (n : Nat) : u.mbx n = z.mbx n := by
  simp only [State.mbx, h.mbx0, h.mbx1]

theorem SameMail.slot {u z : State} (h : SameMail u z) (k : Nat) : u.slot k = z.slot k := by
  simp only [State.slot, h.slots]

/-! Mailboxes and slots read after a write. -/

@[simp] theorem State.mbx_setMbx_same (s : State) (n : Nat) (m : Mailbox) : (s.setMbx n m).mbx n = m := by
  by_cases h : n = 0 <;> simp [State.mbx, State.setMbx, h]

/-- There are two mailboxes: one is written and the other stands. -/
theorem State.mbx_setMbx_other (s : State) {n k : Nat} (m : Mailbox) (hn : n < 2) (hk : k < 2) (h : k ≠ n) :
    (s.setMbx n m).mbx k = s.mbx k := by
  obtain ⟨rfl, rfl⟩ | ⟨rfl, rfl⟩ : n = 0 ∧ k = 1 ∨ n = 1 ∧ k = 0 := by omega
  · rfl
  · rfl

@[simp] theorem State.engineQ_setMbx (s : State) (n : Nat) (m : Mailbox) : (s.setMbx n m).host.engineQ = s.host.engineQ := by
  unfold State.setMbx; split <;> rfl

@[simp] theorem State.slots_setMbx (s : State) (n : Nat) (m : Mailbox) : (s.setMbx n m).host.slots = s.host.slots := by
  unfold State.setMbx; split <;> rfl

theorem State.slot_setSlot (s : State) (t k : Nat) (x : KeySlot) : (s.setSlot t x).slot k = if k = t then x else s.slot k :=
  Store.get_set _ s.host.slots t k x

/-! Doorbells and ACKs of mailbox 0 (R430, R432). -/

/-- A refusal changes REFUSE of its mailbox alone. -/
theorem State.mbxRefuse_mail (s : State) (n code pos who : Nat) :
    SameMail (s.mbxRefuse n code pos who) (s.setMbx n { s.mbx n with refuse := code }) :=
  SameMail.of_still (by simp [State.mbxRefuse])

theorem exec_hifMbx_closed {s : State} {m : Master} (h : s.hifOpen m = false) (seq : BitVec 16) :
    exec (.hifMbxDb m seq) s = .next s ∧ exec (.hifMbxAck m seq) s = .next s :=
  ⟨congrArg _ (if_neg (ne_true_of_eq_false h)), congrArg _ (if_neg (ne_true_of_eq_false h))⟩

section
variable {s : State} {m : Master} (h : s.hifOpen m = true) (seq : BitVec 16)
include h

theorem exec_hifMbxDb_open : exec (.hifMbxDb m seq) s = .next (s.mbxRing 0 seq.toNat s.hifReq 0 0 (regAt pgHIF 0x60)) :=
  congrArg _ (if_pos h)

theorem exec_hifMbxAck_open : exec (.hifMbxAck m seq) s = .next (s.mbxAck 0 seq.toNat 0 (regAt pgHIF 0x64)) :=
  congrArg _ (if_pos h)

end

theorem State.mbxRing_refused {s : State} {n seq code : Nat} {req : List Nat} (h : (s.mbx n).refusal seq (req.headD 0) = some code)
    (kslot pos who : Nat) : s.mbxRing n seq req kslot pos who = s.mbxRefuse n code pos who := by
  simp only [State.mbxRing, h]

/-- A request that mailbox 0 takes waits behind those in the engine's queue. -/
theorem State.mbxRing_zero {s : State} {seq : Nat} {req : List Nat} (h : s.host.mbx0.refusal seq (req.headD 0) = none)
    (kslot pos who : Nat) : (s.mbxRing 0 seq req kslot pos who).host = { s.host with
      mbx0 := { s.host.mbx0 with st := if s.host.engineQ = [] then .running else .queued, last := seq, refuse := 0
                                 req := req.take (1 + fld (req.headD 0) 8 6), rsp := [], status := 0, kslot := kslot, pos := pos
                                 who := who, since := s.tick + 1 }
      engineQ := s.host.engineQ ++ [0] } := by
  have h' : (s.mbx 0).refusal seq (req.headD 0) = none := h
  simp only [State.mbxRing, h']
  simp [State.setMbx]

theorem State.mbxAck_done {s : State} {n seq : Nat} (h : (s.mbx n).st = .done ∧ seq = (s.mbx n).last) (pos who : Nat) :
    s.mbxAck n seq pos who = s.setMbx n { s.mbx n with st := .idle, refuse := 0 } := if_pos h

theorem State.mbxAck_refused {s : State} {n seq : Nat} (h : ¬((s.mbx n).st = .done ∧ seq = (s.mbx n).last)) (pos who : Nat) :
    s.mbxAck n seq pos who = s.mbxRefuse n 5 pos who := if_neg h

/-! The engine's command completes (R431, R432). -/

/-- The command of mailbox `n` completes, and `rest` is left in the queue. -/
def State.mbxFinish (s : State) (n : Nat) (rest : List Nat) : State :=
  let z := s.setMbx n { s.mbx n with st := .done }
  { z with host := { z.host with engineQ := rest } }

theorem State.mbx_mbxFinish (s : State) (n : Nat) (rest : List Nat) : (s.mbxFinish n rest).mbx n = { s.mbx n with st := .done } :=
  State.mbx_setMbx_same s n _

theorem State.mbx_mbxFinish_other (s : State) {n k : Nat} (rest : List Nat) (hn : n < 2) (hk : k < 2) (h : k ≠ n) :
    (s.mbxFinish n rest).mbx k = s.mbx k := State.mbx_setMbx_other s _ hn hk h

theorem State.mbxDone_idle {s : State} (h : s.host.engineQ = []) : s.mbxDone = s := by
  simp [State.mbxDone, h]

section
variable {s : State} {n : Nat} {rest : List Nat} (hq : s.host.engineQ = n :: rest)
include hq

theorem State.mbxDone_unformed (h : (s.mbx n).rsp = []) : s.mbxDone = s := by
  simp [State.mbxDone, hq, h]

/-- The last command of the queue completes. -/
theorem State.mbxDone_last (h : (s.mbx n).rsp ≠ []) (hr : rest = []) : SameMail s.mbxDone (s.mbxFinish n []) := by
  subst hr
  apply SameMail.of_still
  simp only [State.mbxDone, hq, if_neg h, State.wakeReason_still, State.setInt_still]
  split
  · rw [State.cnt_still]; rfl
  · rfl

/-- Behind it, the next command runs. -/
theorem State.mbxDone_next (h : (s.mbx n).rsp ≠ []) {k : Nat} {l : List Nat} (hr : rest = k :: l) :
    SameMail s.mbxDone ((s.mbxFinish n rest).setMbx k { (s.mbxFinish n rest).mbx k with st := .running }) := by
  subst hr
  apply SameMail.of_still
  simp only [State.mbxDone, hq, if_neg h, State.wakeReason_still, State.setInt_still]
  split
  · rw [State.cnt_still]; rfl
  · rfl

end

/-! The commands of this chapter (R16, R429, R440). -/

theorem State.mbx_mbxReply (s : State) (n status : Nat) (words : List Nat) :
    ((s.mbxReply n status words).mbx n).status = status ∧ ((s.mbxReply n status words).mbx n).rsp.tail = words := by
  rw [State.mbxReply, State.mbx_setMbx_same]
  exact ⟨rfl, rfl⟩

theorem State.slots_mbxReply (s : State) (n status : Nat) (words : List Nat) : (s.mbxReply n status words).host.slots = s.host.slots :=
  State.slots_setMbx s n _

theorem State.slot_mbxReply (s : State) (n status : Nat) (words : List Nat) (k : Nat) : (s.mbxReply n status words).slot k = s.slot k := by
  simp only [State.slot, State.slots_mbxReply]

/-- A command that the engine does not run has no effect. -/
theorem exec_mailbox_none {s : State} {i : Instr} {code : Nat} (hi : (i, code) ∈ [(Instr.shape, 0x01), (.echo, 0x02), (.keyRotate, 0x10)])
    (h : s.mbxRuns code = none) : exec i s = .next s := by
  simp only [List.mem_cons, Prod.mk.injEq, List.not_mem_nil, or_false] at hi
  rcases hi with ⟨rfl, rfl⟩ | ⟨rfl, rfl⟩ | ⟨rfl, rfl⟩
  · change execShape s = _
    rw [execShape, h]
  · change execEcho s = _
    rw [execEcho, h]
  · change execKeyRotate s = _
    rw [execKeyRotate, h]

section
variable {s : State} {n : Nat}

theorem exec_shape_eq (h : s.mbxRuns 0x01 = some n) :
    exec .shape s = .next (s.mbxReply n 0 ((upTo 32).map (fun i => leAt s.shape (4 * i) 4))) := by
  change execShape s = _
  rw [execShape, h]

theorem exec_echo_eq (h : s.mbxRuns 0x02 = some n) : exec .echo s = .next (s.mbxReply n 0 (s.mbx n).req.tail) := by
  change execEcho s = _
  rw [execEcho, h]

/-- KEY_ROTATE is refused on mailbox 0, for a slot outside 1 to 3, for a parent outside 0 to 3, and for the slot of its own frame. -/
def State.keyRefused (s : State) (n : Nat) : Prop :=
  n = 0 ∨ fld (s.mbxArg n 1) 0 8 = 0 ∨ 3 < fld (s.mbxArg n 1) 0 8 ∨ 3 < fld (s.mbxArg n 1) 8 8 ∨
    fld (s.mbxArg n 1) 0 8 = (s.mbx n).kslot

/-- The key that KEY_ROTATE derives. -/
def State.newKey (s : State) (n : Nat) : List Byte :=
  hmacSha256 (s.slot (fld (s.mbxArg n 1) 8 8)).key
    ((upTo 8).flatMap (fun i => leBytes 4 (s.mbxArg n (2 + i))) ++ [BitVec.ofNat 8 (fld (s.mbxArg n 1) 0 8)])

theorem exec_keyRotate_refused (h : s.mbxRuns 0x10 = some n) (hb : s.keyRefused n) :
    ∃ z, exec .keyRotate s = .next (State.mbxReply z n 1 []) ∧
    SameMail z s := by
  refine ⟨_, ?_, SameMail.of_still (State.logErr_still s pgMGT (5 * 2 ^ 24 + (s.mbx n).pos) ((s.mbx n).who % 2 ^ 32)
    ((s.mbx n).who / 2 ^ 32 % 2 ^ 16))⟩
  change execKeyRotate s = _
  rw [execKeyRotate, h]
  exact congrArg _ (if_pos hb)

theorem exec_keyRotate_rotates (h : s.mbxRuns 0x10 = some n) (hb : ¬s.keyRefused n) :
    ∃ z, exec .keyRotate s = .next (State.mbxReply z n 0 []) ∧
    SameMail z (s.setSlot (fld (s.mbxArg n 1) 0 8) { s.slot (fld (s.mbxArg n 1) 0 8) with key := s.newKey n }) := by
  refine ⟨_, ?_, SameMail.of_still (State.setInt_still _ pgMGT 4)⟩
  change execKeyRotate s = _
  rw [execKeyRotate, h]
  exact congrArg _ (if_neg hb)

end

end Sys2Proof.Machine

namespace Sys2Proof

open Machine

/-- Settles O48: each clause is the equation of its command; what interrupts and records follow leaves the mailboxes as they are. -/
theorem mailboxes : Obligations.Mailboxes := by
  unfold Obligations.Mailboxes
  intro s
  refine ⟨fun m seq h => exec_hifMbx_closed h seq, fun m seq h => ⟨?refused, ?taken, ?acked, ?unacked⟩,
    fun h => congrArg _ (State.mbxDone_idle h), fun n rest hq => ⟨fun h => congrArg _ (State.mbxDone_unformed hq h), ?last, ?next⟩,
    fun i code hi h => exec_mailbox_none hi h, fun n h => ⟨_, exec_shape_eq h, State.mbx_mbxReply _ _ _ _⟩,
    fun n h => ⟨_, exec_echo_eq h, State.mbx_mbxReply _ _ _ _⟩, fun n h => ⟨?keyRefused, ?keyRotates⟩⟩
  case refused =>
    intro code hr
    have hm := s.mbxRefuse_mail 0 code 0 (regAt pgHIF 0x60)
    exact ⟨_, (exec_hifMbxDb_open h seq).trans (congrArg _ (State.mbxRing_refused (n := 0) hr 0 0 _)), hm.mbx0, hm.queue⟩
  case taken =>
    intro hr
    have hh := State.mbxRing_zero hr 0 0 (regAt pgHIF 0x60)
    exact ⟨_, exec_hifMbxDb_open h seq, by rw [hh], by rw [hh], by rw [hh]⟩
  case acked =>
    exact fun hd => ⟨_, (exec_hifMbxAck_open h seq).trans (congrArg _ (State.mbxAck_done (n := 0) hd 0 _)), rfl⟩
  case unacked =>
    exact fun hd => ⟨_, (exec_hifMbxAck_open h seq).trans (congrArg _ (State.mbxAck_refused (n := 0) hd 0 _)),
      (s.mbxRefuse_mail 0 5 0 _).mbx0⟩
  case last =>
    intro h hr
    have hm := State.mbxDone_last hq h hr
    exact ⟨_, rfl, hm.queue, (hm.mbx n).trans (State.mbx_mbxFinish s n [])⟩
  case next =>
    intro h hn k l hr hk hkn
    have hm := State.mbxDone_next hq h hr
    refine ⟨_, rfl, hm.queue.trans (State.engineQ_setMbx _ _ _), ?_, ?_⟩
    · rw [hm.mbx n, State.mbx_setMbx_other _ _ hk hn (Ne.symm hkn), State.mbx_mbxFinish]
    · rw [hm.mbx k, State.mbx_setMbx_same, State.mbx_mbxFinish_other s rest hn hk hkn]
  case keyRefused =>
    intro hb
    obtain ⟨z, hz, hm⟩ := exec_keyRotate_refused h hb
    exact ⟨_, hz, (State.mbx_mbxReply z n 1 []).1, (State.slots_mbxReply z n 1 []).trans hm.slots⟩
  case keyRotates =>
    intro hb
    obtain ⟨z, hz, hm⟩ := exec_keyRotate_rotates h hb
    refine ⟨_, hz, (State.mbx_mbxReply z n 0 []).1, ?_, fun k hk => ?_⟩
    · rw [State.slot_mbxReply, hm.slot, State.slot_setSlot, if_pos rfl]
      rfl
    · rw [State.slot_mbxReply, hm.slot, State.slot_setSlot, if_neg hk]

end Sys2Proof
end

section
/-! PROOFS. The scalar ALU (R59, R60, R124): what each operation returns, as a number, and the flags that it writes. -/

namespace Sys2Proof.Machine

open Sys2Proof

/-! Operands. -/

theorem word_eq_min_iff {a : Word} : a = 0x80000000#32 ↔ a.toInt = -2 ^ 31 :=
  BitVec.toInt_inj.symm

theorem word_eq_negOne_iff {b : Word} : b = 0xFFFFFFFF#32 ↔ b.toInt = -1 :=
  BitVec.toInt_inj.symm

/-! Flags. -/

/-- N and Z as R59 words them: the result negative, the result zero. -/
theorem Flags.nz_eq (f : Flags) (r : Word) : f.nz r = { f with n := decide (r.toInt < 0), z := decide (r = 0) } := by
  rw [Flags.nz, BitVec.msb_eq_toInt, beq_eq_decide]
  rfl

theorem outS32_eq (v : Int) : outS32 v = decide (v < -2 ^ 31 ∨ 2 ^ 31 ≤ v) := by
  rw [outS32, ← Bool.decide_or]
  exact decide_eq_decide.2 (by omega)

/-! Operations that are their definition. -/

/-- A result and flags that `aluOp` hands on, with the result written. -/
def aluWritten (x : Word × Flags) : Option (Option Word × Flags) := some (some x.1, x.2)

section
variable (a b r : Word) (v : Bool) (f : Flags)

theorem aluAdd_eq : aluAdd a b f = (a + b, { f with
    n := decide ((a + b).toInt < 0), z := decide (a + b = 0), c := decide (2 ^ 32 ≤ a.toNat + b.toNat)
    v := decide (a.toInt + b.toInt < -2 ^ 31 ∨ 2 ^ 31 ≤ a.toInt + b.toInt) }) := by
  rw [aluAdd, Flags.nz_eq, outS32_eq]

theorem aluSub_eq : aluSub a b f = (a - b, { f with
    n := decide ((a - b).toInt < 0), z := decide (a - b = 0), c := decide (a.toNat < b.toNat)
    v := decide (a.toInt - b.toInt < -2 ^ 31 ∨ 2 ^ 31 ≤ a.toInt - b.toInt) }) := by
  rw [aluSub, Flags.nz_eq, outS32_eq]

theorem aluPlain_eq : aluPlain r f = (r, { f with n := decide (r.toInt < 0), z := decide (r = 0) }) := by
  rw [aluPlain, Flags.nz_eq]

theorem aluV_eq : aluV r v f = (r, { f with n := decide (r.toInt < 0), z := decide (r = 0), v := v }) := by
  rw [aluV, Flags.nz_eq]

theorem aluMul_eq : aluMul a b f = (a * b, { f with
    n := decide ((a * b).toInt < 0), z := decide (a * b = 0)
    v := decide (a.toInt * b.toInt < -2 ^ 31 ∨ 2 ^ 31 ≤ a.toInt * b.toInt) }) := by
  rw [aluMul, aluV_eq, outS32_eq]

theorem aluNeg_eq : aluV (-a) (a == 0x80000000#32) f = (-a, { f with
    n := decide ((-a).toInt < 0), z := decide (-a = 0), v := decide (a.toInt = -2 ^ 31) }) := by
  rw [aluV_eq, beq_eq_decide, decide_eq_decide.2 word_eq_min_iff]

end

/-! Shifts (R60): the count is never reduced modulo 32. -/

section
variable (a b : Word)

theorem toNat_shl32 : (shl32 a b).toNat = if 32 ≤ b.toNat then 0 else a.toNat * 2 ^ b.toNat % 2 ^ 32 := by
  rw [shl32, apply_ite BitVec.toNat, BitVec.toNat_shiftLeft, Nat.shiftLeft_eq]
  rfl

theorem toNat_shr32 : (shr32 a b).toNat = if 32 ≤ b.toNat then 0 else a.toNat / 2 ^ b.toNat := by
  rw [shr32, apply_ite BitVec.toNat, BitVec.toNat_ushiftRight, Nat.shiftRight_eq_div_pow]
  rfl

theorem toInt_sar32 :
    (sar32 a b).toInt = if 32 ≤ b.toNat then (if a.toInt < 0 then -1 else 0) else a.toInt / 2 ^ b.toNat := by
  rw [sar32, apply_ite BitVec.toInt, apply_ite BitVec.toInt, BitVec.toInt_sshiftRight, Int.shiftRight_eq_div_pow,
    BitVec.msb_eq_toInt]
  simp

/-! High halves of the products. -/

theorem toInt_mulhs : (mulhs a b).toInt = a.toInt * b.toInt / 2 ^ 32 := by
  have hlo : -2 ^ 62 ≤ a.toInt * b.toInt := BitVec.le_toInt_mul_toInt
  have hhi : a.toInt * b.toInt ≤ 2 ^ 62 := BitVec.toInt_mul_toInt_le
  exact BitVec.toInt_ofInt_eq_self (by decide) (by omega) (by omega)

theorem toNat_mulhu : (mulhu a b).toNat = a.toNat * b.toNat / 2 ^ 32 := by
  have h : a.toNat * b.toNat < 2 ^ 32 * 2 ^ 32 := Nat.mul_lt_mul'' a.isLt b.isLt
  exact BitVec.toNat_ofNat .. |>.trans (Nat.mod_eq_of_lt (Nat.div_lt_of_lt_mul h))

/-! Minimum and maximum. -/

theorem toInt_minS : (if a.slt b then a else b).toInt = min a.toInt b.toInt := by
  simp only [apply_ite BitVec.toInt, BitVec.slt_iff_toInt_lt, min_def_lt]

theorem toInt_maxS : (if a.slt b then b else a).toInt = max a.toInt b.toInt := by
  simp only [apply_ite BitVec.toInt, BitVec.slt_iff_toInt_lt, max_def_lt]

theorem toNat_minU : (if a.ult b then a else b).toNat = min a.toNat b.toNat := by
  simp only [apply_ite BitVec.toNat, BitVec.ult_iff_toNat_lt, min_def_lt]

theorem toNat_maxU : (if a.ult b then b else a).toNat = max a.toNat b.toNat := by
  simp only [apply_ite BitVec.toNat, BitVec.ult_iff_toNat_lt, max_def_lt]

end

/-! Divisions. -/

/-- A division's result and flags: N and Z from the result, V and DZ as given, C as it was. -/
def aluDivided (r : Word) (v dz : Bool) (f : Flags) : Word × Flags := (r, { f.nz r with v := v, dz := dz })

theorem aluDivided_eq (r : Word) (v dz : Bool) (f : Flags) : aluDivided r v dz f = (r, { f with
    n := decide (r.toInt < 0), z := decide (r = 0), v := v, dz := dz }) := by
  rw [aluDivided, Flags.nz_eq]

section
variable {a b : Word} (rem : Bool) (f : Flags)

theorem aluDivS_zero (h : b = 0) : aluDivS rem a b f = aluDivided (if rem then a else 0) false true f := if_pos h

theorem aluDivS_overflow (h : a.toInt = -2 ^ 31 ∧ b.toInt = -1) :
    aluDivS rem a b f = aluDivided (if rem then 0 else a) true false f := by
  rw [← word_eq_min_iff, ← word_eq_negOne_iff] at h
  exact (if_neg (by simp [h.2])).trans (if_pos h)

theorem aluDivS_exact (h0 : b ≠ 0) (h : ¬(a.toInt = -2 ^ 31 ∧ b.toInt = -1)) : aluDivS rem a b f =
    aluDivided (if rem then BitVec.ofInt 32 (a.toInt.tmod b.toInt) else BitVec.ofInt 32 (a.toInt.tdiv b.toInt)) false false f := by
  rw [← word_eq_min_iff, ← word_eq_negOne_iff] at h
  exact (if_neg h0).trans (if_neg h)

theorem aluDivU_zero (h : b = 0) : aluDivU rem a b f = aluDivided (if rem then a else 0) false true f := if_pos h

theorem aluDivU_exact (h : b ≠ 0) : aluDivU rem a b f = aluDivided (if rem then a % b else a / b) false false f := by
  rw [BitVec.umod_def, BitVec.udiv_def]
  exact if_neg h

/-- The only quotient of two words out of s32 is that of MIN by -1. -/
theorem toInt_ofInt_tdiv (h : ¬(a.toInt = -2 ^ 31 ∧ b.toInt = -1)) :
    (BitVec.ofInt 32 (a.toInt.tdiv b.toInt)).toInt = a.toInt.tdiv b.toInt := by
  rw [← word_eq_min_iff, ← word_eq_negOne_iff, not_and_or] at h
  rw [BitVec.toInt_ofInt, ← BitVec.toInt_sdiv, BitVec.toInt_sdiv_of_ne_or_ne a b h]

theorem toInt_ofInt_tmod : (BitVec.ofInt 32 (a.toInt.tmod b.toInt)).toInt = a.toInt.tmod b.toInt := by
  rw [← BitVec.toInt_srem, BitVec.ofInt_toInt]

end

/-- DIV and REM (R59): by zero, MIN by -1, and every other pair. -/
theorem aluDivS_cases (a b : Word) (f : Flags) : ∃ q r : Word, ∃ dz v : Bool,
    aluDivS false a b f = aluDivided q v dz f ∧ aluDivS true a b f = aluDivided r v dz f ∧
    (b = 0 → q = 0 ∧ r = a ∧ dz = true ∧ v = false) ∧
    (a.toInt = -2 ^ 31 ∧ b.toInt = -1 → q = a ∧ r = 0 ∧ v = true ∧ dz = false) ∧
    (b ≠ 0 → ¬(a.toInt = -2 ^ 31 ∧ b.toInt = -1) →
      q.toInt = a.toInt.tdiv b.toInt ∧ r.toInt = a.toInt.tmod b.toInt ∧ dz = false ∧ v = false) := by
  by_cases h0 : b = 0
  · have hn : ¬(a.toInt = -2 ^ 31 ∧ b.toInt = -1) := by simp [h0]
    exact ⟨_, _, _, _, aluDivS_zero false f h0, aluDivS_zero true f h0, fun _ => ⟨rfl, rfl, rfl, rfl⟩,
      fun h => absurd h hn, fun h => absurd h0 h⟩
  · by_cases hm : a.toInt = -2 ^ 31 ∧ b.toInt = -1
    · exact ⟨_, _, _, _, aluDivS_overflow false f hm, aluDivS_overflow true f hm, fun h => absurd h h0,
        fun _ => ⟨rfl, rfl, rfl, rfl⟩, fun _ h => absurd hm h⟩
    · exact ⟨_, _, _, _, aluDivS_exact false f h0 hm, aluDivS_exact true f h0 hm, fun h => absurd h h0,
        fun h => absurd h hm, fun _ _ => ⟨toInt_ofInt_tdiv hm, toInt_ofInt_tmod, rfl, rfl⟩⟩

/-- DIVU and REMU (R59): by zero, and every other pair. -/
theorem aluDivU_cases (a b : Word) (f : Flags) : ∃ q r : Word, ∃ dz : Bool,
    aluDivU false a b f = aluDivided q false dz f ∧ aluDivU true a b f = aluDivided r false dz f ∧
    (b = 0 → q = 0 ∧ r = a ∧ dz = true) ∧
    (b ≠ 0 → q.toNat = a.toNat / b.toNat ∧ r.toNat = a.toNat % b.toNat ∧ dz = false) := by
  by_cases h0 : b = 0
  · exact ⟨_, _, _, aluDivU_zero false f h0, aluDivU_zero true f h0, fun _ => ⟨rfl, rfl, rfl⟩, fun h => absurd h0 h⟩
  · exact ⟨_, _, _, aluDivU_exact false f h0, aluDivU_exact true f h0, fun h => absurd h h0,
      fun _ => ⟨BitVec.toNat_udiv, BitVec.toNat_umod, rfl⟩⟩

theorem aluOp_reserved {fn : Nat} (h : 0x15 < fn) (a b : Word) (f : Flags) : aluOp fn a b f = none := by
  obtain ⟨k, rfl⟩ := Nat.exists_eq_add_of_lt h
  rw [Nat.add_comm 0x15 k]
  rfl

end Sys2Proof.Machine

namespace Sys2Proof

open Machine

/-- Settles O4: each clause is the equation of its operation, and the number that its result stands for. -/
theorem aluResults : Obligations.AluResults := by
  unfold Obligations.AluResults
  intro a b f
  have plain (r : Word) := congrArg aluWritten (aluPlain_eq r f)
  have shifted (r : Word) := congrArg aluWritten (aluV_eq r false f)
  have divided {x : Word × Flags} {r : Word} {v dz : Bool} (h : x = aluDivided r v dz f) :=
    congrArg aluWritten (h.trans (aluDivided_eq r v dz f))
  refine ⟨congrArg aluWritten (aluAdd_eq a b f), congrArg aluWritten (aluSub_eq a b f), plain _, plain _, plain _,
    ⟨_, shifted _, toNat_shl32 a b⟩, ⟨_, shifted _, toNat_shr32 a b⟩, ⟨_, shifted _, toInt_sar32 a b⟩,
    congrArg aluWritten (aluMul_eq a b f), ⟨_, plain _, toInt_mulhs a b⟩, ⟨_, plain _, toNat_mulhu a b⟩,
    ?signed, ?unsigned, congrArg aluWritten (aluNeg_eq a f),
    ⟨_, plain _, toInt_minS a b⟩, ⟨_, plain _, toInt_maxS a b⟩, ⟨_, plain _, toNat_minU a b⟩, ⟨_, plain _, toNat_maxU a b⟩,
    rfl, rfl, fun fn h => aluOp_reserved h a b f⟩
  case signed =>
    obtain ⟨q, r, dz, v, hq, hr, h⟩ := aluDivS_cases a b f
    exact ⟨q, r, dz, v, divided hq, divided hr, h⟩
  case unsigned =>
    obtain ⟨q, r, dz, hq, hr, h⟩ := aluDivU_cases a b f
    exact ⟨q, r, dz, divided hq, divided hr, h⟩

end Sys2Proof
end

section
/-! PROOFS. The instructions that issue a command (R67, R95, R107, R128, R130, R136, R151, R165): IMX, IFS and IDMA at a command address
that their thread's context may read, with the command entered or the thread in WAIT. -/

namespace Sys2Proof.Machine

open Sys2Proof

/-! What the operations of an issue leave of a core. -/

@[simp] theorem State.core_cmCorrect (s : State) (c a n d : Nat) : (s.cmCorrect c a n).1.core d = s.core d :=
  State.core_congr (by simp) d

@[simp] theorem State.cmBytes_cmCorrect (s : State) (c a n d b m : Nat) : (s.cmCorrect c a n).1.cmBytes d b m = s.cmBytes d b m := by
  simp only [State.cmBytes, State.core_cmCorrect]

@[simp] theorem State.core_countBind (s : State) (c d : Nat) (b : Binding) : (s.countBind c b).core d = s.core d := by
  unfold State.countBind
  split
  · exact State.core_congr (by simp) d
  · rfl

/-- An instruction that ends changes nothing of its core but its thread. -/
@[simp] theorem core_retire (s : State) (c t : Nat) (x : Thread) : (retire s c t x).core c = (s.core c).setThread t x := by
  have hcount : (retire s c t x).cores = (s.setThread c t x).cores := by simp [retire]
  exact (State.core_congr hcount c).trans (State.core_setCore_same _ _ _)

/-- A thread of a core depends on the core's threads alone. -/
theorem State.thread_of_threads {s : State} {k : Core} {c : Nat} (h : (s.core c).threads = k.threads) (t : Nat) :
    s.thread c t = k.thread t := by
  simp only [State.thread, Core.thread, h]

/-- A command address that is aligned, in core memory below the carve-out and granted passes the checks of an issue (R135). -/
theorem State.cmdAccess_granted {s : State} {c t a n : Nat} (ha : a % 16 = 0) (hi : s.cmIn a n = true)
    (hg : s.cmOk c (s.thread c t).tag.1 a n false = true) (k : State → State) : s.cmdAccess c t a n k = k s := by
  simp [State.cmdAccess, ha, hi, hg]

/-- The issue of a command by the instruction word `w` of thread `t`, with the binding that it takes (R130). -/
def issuedBy (x : Thread) (t w : Nat) : Issue :=
  ⟨x.cmdAddr w, t, x.a.pc, x.tag.1, x.tag.2, x.binding (fld w 24 3) (bitAt w 23), false⟩

/-! IMX. -/

/-- Whether an array command finds its queue full or stalled, or its opportunity taken by a walk of the thread (R67, R136, R151). -/
def Core.arrTurns (k : Core) (x : Thread) (cmd : Nat) : Bool :=
  k.arr.full cmd || k.arr.stalls cmd || bitAt x.emitted (if arrOp cmd = 1 then 0 else 1)

/-- The state `z` with an array command in its queue and the thread gone on. -/
def State.arrEntered (z : State) (c t : Nat) (x : Thread) (cmd : Nat) (i : Issue) : State :=
  (retire (z.countBind c i.bind) c t (Sys2Proof.goesOn x)).pushArray c cmd i

/-- An array command that enters stands at the end of its queue, and its thread goes on (R67, R130). -/
theorem SameCores.arrEntered {u z : State} {c t cmd : Nat} {x : Thread} {i : Issue} {k : Core} (hk : z.core c = k)
    (h : SameCores u (z.arrEntered c t x cmd i)) :
    let q : ArrCmd := ⟨cmd, i, k.arr.issued, k.chains⟩
    u.thread c t = Sys2Proof.goesOn x ∧ (u.core c).arr.loadQ = (if arrOp cmd = 1 then k.arr.loadQ ++ [q] else k.arr.loadQ) ∧
      (u.core c).arr.streamQ = (if arrOp cmd = 1 then k.arr.streamQ else k.arr.streamQ ++ [q]) ∧
      (u.core c).arr.issued = k.arr.issued + 1 := by
  have hpush := (retire (z.countBind c i.bind) c t (Sys2Proof.goesOn x)).pushArray_core c cmd i
  rw [core_retire, State.core_countBind, hk] at hpush
  obtain ⟨hthreads, hqueues⟩ := hpush
  obtain ⟨-, -, harr, -⟩ := h c
  dsimp only
  rw [h.thread, harr]
  exact ⟨(State.thread_of_threads hthreads t).trans (Core.thread_setThread_same _ _ _), hqueues⟩

section
variable {s : State} {c t w cmd : Nat} {x : Thread} (hx : s.thread c t = x) (ha : x.cmdAddr w % 16 = 0)
  (hi : s.cmIn (x.cmdAddr w) 16 = true) (hg : s.cmOk c x.tag.1 (x.cmdAddr w) 16 false = true)
  (hc : leNat (s.cmBytes c (x.cmdAddr w) 16) = cmd)
include hx ha hi hg hc

theorem State.issueArray_waits (hw : (s.core c).arrTurns x cmd = true) : s.issueArray c t x w =
    s.cmRead c (x.cmdAddr w) 16 (x.reader t (x.cmdAddr w)) (fun z =>
      holds z c t x { word := w, reason := if arrOp cmd = 1 then 1 else 2 }) := by
  unfold Core.arrTurns at hw
  rw [State.issueArray, State.cmdAccess_granted ha hi (hx ▸ hg)]
  simp only [State.cmRead, State.cmBytes_cmCorrect, State.core_cmCorrect, hc, hw, if_true]
  rfl

theorem State.issueArray_enters (hw : (s.core c).arrTurns x cmd = false) : s.issueArray c t x w =
    s.cmRead c (x.cmdAddr w) 16 (x.reader t (x.cmdAddr w)) (fun z => z.arrEntered c t x cmd (issuedBy x t w)) := by
  unfold Core.arrTurns at hw
  rw [State.issueArray, State.cmdAccess_granted ha hi (hx ▸ hg)]
  simp only [State.cmRead, State.cmBytes_cmCorrect, State.core_cmCorrect, hc, hw, Bool.false_eq_true, if_false]
  rfl

end

/-! IFS. -/

/-- The chain command that IFS enters, `n` bytes long, with the core's next serial number (R95, R107, R130). -/
def State.issuedChain (s : State) (c t w : Nat) (x : Thread) (head n : Nat) : ChainCmd :=
  ⟨head, (upTo ((n - 32) / 8)).map (fun i => leNat (s.cmBytes c (x.cmdAddr w + 32 + 8 * i) 8)), (s.core c).chains, issuedBy x t w⟩

/-- The thread after its IFS: the chain, number `n`, is its last (R129). -/
def afterIfs (x : Thread) (n : Nat) : Thread := Sys2Proof.goesOn { x with lastIfs := some n, lastSum := none }

/-- The state `z` with the chain `q` in its queue and the thread gone on; a chain that heads the queue is checked (R107, R108). -/
def State.chainEntered (z : State) (c t : Nat) (x : Thread) (q : ChainCmd) : State :=
  let y := retire ((z.setCore c ((z.core c).enqueueChain q)).countBind c q.iss.bind) c t (afterIfs x (z.core c).chains)
  if (z.core c).fls.queue.isEmpty then y.checkChainHead c else y

/-- The check of a chain that heads its queue changes no thread, no queue and no serial number. -/
theorem State.checkChainHead_ite_core (y : State) (c : Nat) (b : Bool) :
    let v := if b then y.checkChainHead c else y
    (v.core c).threads = (y.core c).threads ∧ (v.core c).fls.queue = (y.core c).fls.queue ∧ (v.core c).chains = (y.core c).chains := by
  cases b
  · exact ⟨rfl, rfl, rfl⟩
  · exact y.checkChainHead_core c

/-- A chain that enters stands at the end of its queue with the core's next serial number, and its thread goes on (R107, R129). -/
theorem SameCores.chainEntered {u z : State} {c t : Nat} {x : Thread} {q : ChainCmd} {k : Core} (hk : z.core c = k)
    (h : SameCores u (z.chainEntered c t x q)) :
    (u.core c).fls.queue = k.fls.queue ++ [{ q with serial := k.chains }] ∧ (u.core c).chains = k.chains + 1 ∧
      u.thread c t = afterIfs x k.chains := by
  subst hk
  have hcheck := (retire ((z.setCore c ((z.core c).enqueueChain q)).countBind c q.iss.bind) c t
    (afterIfs x (z.core c).chains)).checkChainHead_ite_core c (z.core c).fls.queue.isEmpty
  rw [core_retire, State.core_countBind, State.core_setCore_same] at hcheck
  obtain ⟨hthreads, hqueue, hserial⟩ := hcheck
  obtain ⟨-, -, -, hfls, -, -, hchains, -⟩ := h c
  exact ⟨(congrArg FlsState.queue hfls).trans hqueue, hchains.trans hserial,
    (h.thread c t).trans ((State.thread_of_threads hthreads t).trans (Core.thread_setThread_same _ _ _))⟩

section
variable {s : State} {c t w head n : Nat} {x : Thread} (hx : s.thread c t = x) (ha : x.cmdAddr w % 16 = 0)
  (hi : s.cmIn (x.cmdAddr w) 32 = true) (hg : s.cmOk c x.tag.1 (x.cmdAddr w) 32 false = true)
  (hh : leNat (s.cmBytes c (x.cmdAddr w) 32) = head) (hn : chainBytes head = n)
  (hin : s.cmIn (x.cmdAddr w) n = true) (hgn : s.cmOk c x.tag.1 (x.cmdAddr w) n false = true)
include hx ha hi hg hh hn hin hgn

theorem State.issueChain_waits (hw : 4 ≤ (s.core c).fls.queue.length ∨ (s.core c).fls.stall = true ∨ bitAt x.emitted 2 = true) :
    s.issueChain c t x w = s.cmRead c (x.cmdAddr w) n (x.reader t (x.cmdAddr w)) (fun z =>
      holds z c t x { word := w, reason := 3 }) := by
  have turned : (decide (chainDepth ≤ (s.core c).fls.queue.length) || (s.core c).fls.stall || bitAt x.emitted 2) = true := by
    simp only [Bool.or_eq_true, decide_eq_true_eq, or_assoc]
    exact hw
  rw [State.issueChain, State.cmdAccess_granted ha hi (hx ▸ hg)]
  simp only [hh, hn]
  rw [State.cmdAccess_granted ha hin (hx ▸ hgn)]
  simp only [State.cmRead, State.core_cmCorrect, turned, if_true]
  rfl

theorem State.issueChain_enters (hq : (s.core c).fls.queue.length < 4) (hs : (s.core c).fls.stall = false)
    (he : bitAt x.emitted 2 = false) : s.issueChain c t x w =
    s.cmRead c (x.cmdAddr w) n (x.reader t (x.cmdAddr w)) (fun z => z.chainEntered c t x (s.issuedChain c t w x head n)) := by
  have room : decide (chainDepth ≤ (s.core c).fls.queue.length) = false := decide_eq_false (Nat.not_le.2 hq)
  rw [State.issueChain, State.cmdAccess_granted ha hi (hx ▸ hg)]
  simp only [hh, hn]
  rw [State.cmdAccess_granted ha hin (hx ▸ hgn)]
  simp only [State.cmRead, State.chainEntered, State.core_cmCorrect, State.cmBytes_cmCorrect, room, hs, he, Bool.or_self,
    Bool.false_eq_true, if_false]
  rfl

end

/-! IDMA. -/

/-- The descriptor that IDMA hands to the DMA engine, with the core's next serial number (R165). -/
def State.issuedDesc (s : State) (c t w : Nat) (x : Thread) (d : Nat) : Desc :=
  { word := d, addr := x.cmdAddr w, thread := t, pc := x.a.pc, ctx := x.tag.1, gen := x.tag.2, serial := (s.core c).dma.issued }

/-- The state `z` with the descriptor `q` in its stream's queue and the thread gone on, before the check of the queue's head. -/
def State.descEntered (z : State) (c t : Nat) (x : Thread) (q : Desc) : State :=
  retire (z.modDma c (fun m => m.enqueue (fld q.word 4 5) q)) c t (Sys2Proof.goesOn x)

/-- A descriptor that enters stands at the end of its stream's queue with the core's next serial number (R165). -/
theorem State.stream_descEntered (z : State) (c t : Nat) (x : Thread) (q : Desc) :
    ((z.descEntered c t x q).core c).dma.stream (fld q.word 4 5) =
      (z.core c).dma.stream (fld q.word 4 5) ++ [{ q with serial := (z.core c).dma.issued }] := by
  rw [State.descEntered, core_retire, State.modDma, State.modCore, State.core_setCore_same]
  exact Store.get_set_same _ _ _ _

section
variable {s : State} {c t w d : Nat} {x : Thread} (hx : s.thread c t = x) (ha : x.cmdAddr w % 16 = 0)
  (hi : s.cmIn (x.cmdAddr w) 32 = true) (hg : s.cmOk c x.tag.1 (x.cmdAddr w) 32 false = true)
  (hd : leNat (s.cmBytes c (x.cmdAddr w) 32) = d)
include hx ha hi hg hd

theorem State.issueDesc_waits (hw : 4 ≤ ((s.core c).dma.stream (fld d 4 5)).length ∨
    ((s.core c).dma.stream (fld d 4 5)).any (·.stalled) = true) : s.issueDesc c t x w =
    s.cmRead c (x.cmdAddr w) 32 (x.reader t (x.cmdAddr w)) (fun z => holds z c t x { word := w, reason := 4 }) := by
  have turned : (decide (dmaDepth ≤ ((s.core c).dma.stream (fld d 4 5)).length) ||
      ((s.core c).dma.stream (fld d 4 5)).any (·.stalled)) = true := by
    simp only [Bool.or_eq_true, decide_eq_true_eq]
    exact hw
  rw [State.issueDesc, State.cmdAccess_granted ha hi (hx ▸ hg)]
  simp only [State.cmRead, State.cmBytes_cmCorrect, State.core_cmCorrect, hd, turned, if_true]
  rfl

theorem State.issueDesc_enters (hl : ((s.core c).dma.stream (fld d 4 5)).length < 4)
    (hs : ((s.core c).dma.stream (fld d 4 5)).any (·.stalled) = false) : s.issueDesc c t x w =
    s.cmRead c (x.cmdAddr w) 32 (x.reader t (x.cmdAddr w)) (fun z =>
      let y := z.descEntered c t x (s.issuedDesc c t w x d)
      if ((s.core c).dma.stream (fld d 4 5)).isEmpty then y.checkDescHead c (fld d 4 5) else y) := by
  have room : decide (dmaDepth ≤ ((s.core c).dma.stream (fld d 4 5)).length) = false := decide_eq_false (Nat.not_le.2 hl)
  rw [State.issueDesc, State.cmdAccess_granted ha hi (hx ▸ hg)]
  simp only [State.cmRead, State.descEntered, State.modDma, State.modCore, State.cmBytes_cmCorrect, State.core_cmCorrect, hd, room,
    hs, Bool.or_self, Bool.false_eq_true, if_false]
  rfl

theorem State.issueDesc_first (he : (s.core c).dma.stream (fld d 4 5) = []) : s.issueDesc c t x w =
    s.cmRead c (x.cmdAddr w) 32 (x.reader t (x.cmdAddr w)) (fun z =>
      (z.descEntered c t x (s.issuedDesc c t w x d)).checkDescHead c (fld d 4 5)) := by
  rw [State.issueDesc_enters hx ha hi hg hd (by simp [he]) (by simp [he]), he]
  rfl

theorem State.issueDesc_later (he : (s.core c).dma.stream (fld d 4 5) ≠ []) (hl : ((s.core c).dma.stream (fld d 4 5)).length < 4)
    (hs : ((s.core c).dma.stream (fld d 4 5)).any (·.stalled) = false) : s.issueDesc c t x w =
    s.cmRead c (x.cmdAddr w) 32 (x.reader t (x.cmdAddr w)) (fun z => z.descEntered c t x (s.issuedDesc c t w x d)) := by
  rw [State.issueDesc_enters hx ha hi hg hd hl hs]
  simp [he]

end

/-! The instructions as commands. -/

/-- An instruction whose body is a read, with what follows it in its core cycle, answers a state whose cores are those that follow the
read: the faults of what was read change no thread and no unit (R137, R161). -/
theorem exists_next_of_lands_cmRead {o : Host.Outcome State Fault Refusal} {s y z : State} {c t a n : Nat} {r : Reader}
    {k : State → State} (ho : o = .next (Sys2Proof.lands s c t y)) (hy : y = z.cmRead c a n r k) :
    ∃ u, o = .next u ∧ SameCores u (k (z.cmCorrect c a n).1) :=
  ⟨_, ho, (SameCores.lands s c t y).trans (hy ▸ SameCores.cmFaults _ _ _ _)⟩

section
variable {s : State} {c : Fin 256} {t : Fin 16} {w : Nat} (h : Issues s c t w)
include h

theorem exec_imx_issues (ho : insOpc w = 0x10) : exec (.imx c t) s =
    .next (Sys2Proof.lands s c t ((fetched s c t).issueArray c t ((fetched s c t).thread c t) w)) :=
  congrArg Host.Outcome.next (State.instr_issues h ho _)

theorem exec_ifs_issues (ho : insOpc w = 0x11) : exec (.ifs c t) s =
    .next (Sys2Proof.lands s c t ((fetched s c t).issueChain c t ((fetched s c t).thread c t) w)) :=
  congrArg Host.Outcome.next (State.instr_issues h ho _)

theorem exec_idma_issues (ho : insOpc w = 0x12) : exec (.idma c t) s =
    .next (Sys2Proof.lands s c t ((fetched s c t).issueDesc c t ((fetched s c t).thread c t) w)) :=
  congrArg Host.Outcome.next (State.instr_issues h ho _)

end

end Sys2Proof.Machine

namespace Sys2Proof

open Machine

/-- Settles O12: each instruction by the outcome of its own issue, the command waiting or entered, on the state after the fetch. -/
theorem issue : Obligations.Issue := by
  unfold Obligations.Issue
  intro s c t w h
  dsimp only
  intro ha
  refine ⟨fun ho hi hg => ⟨fun hw => ?arrWaits, fun hw => ?arrEnters⟩,
    fun ho hi hg hin hgn => ⟨fun hw => ?chainWaits, fun hq hs he => ?chainEnters⟩,
    fun ho hi hg => ⟨fun hw => ?descWaits, fun he => ?descFirst, fun he hl hs => ⟨?descLater, ?descLast⟩⟩⟩
  case arrWaits => rw [exec_imx_issues h ho, State.issueArray_waits rfl ha hi hg rfl hw]
  case arrEnters =>
    obtain ⟨u, hu, hsame⟩ := exists_next_of_lands_cmRead (exec_imx_issues h ho) (State.issueArray_enters rfl ha hi hg rfl hw)
    exact ⟨u, hu, hsame.arrEntered (State.core_cmCorrect _ _ _ _ _)⟩
  case chainWaits => rw [exec_ifs_issues h ho, State.issueChain_waits rfl ha hi hg rfl rfl hin hgn hw]
  case chainEnters =>
    obtain ⟨u, hu, hsame⟩ := exists_next_of_lands_cmRead (exec_ifs_issues h ho)
      (State.issueChain_enters rfl ha hi hg rfl rfl hin hgn hq hs he)
    have hentered := hsame.chainEntered (State.core_cmCorrect _ _ _ _ _)
    exact ⟨u, hu, hentered⟩
  case descWaits => rw [exec_idma_issues h ho, State.issueDesc_waits rfl ha hi hg rfl hw]
  case descFirst =>
    rw [exec_idma_issues h ho, State.issueDesc_first rfl ha hi hg rfl he]
    rfl
  case descLater =>
    rw [exec_idma_issues h ho, State.issueDesc_later rfl ha hi hg rfl he hl hs]
    rfl
  case descLast => exact (fetched s c t).stream_descEntered c t _ ((fetched s c t).issuedDesc c t w _ _)

end Sys2Proof
end

section
/-! PROOFS. The starts of LOAD, STREAM, CLAIM and RELEASE (R65, R67 to R69, R94): what the command at the head of each of the array's
queues does once its order allows it. -/

namespace Sys2Proof.Machine

open Sys2Proof

section
variable {s : State} {c : Fin 256} {q : ArrCmd} {rest : List ArrCmd} (hr : s.arrRuns c = true)
include hr

/-- LOAD starts: nothing runs that is a LOAD, and no earlier STREAM of its buffer is still queued (R67). -/
theorem exec_load_starts (hq : (s.core c).arr.loadQ = q :: rest) (hs : (s.core c).arr.loadStall = false)
    (hf : (s.core c).arr.frozen = false) (hbusy : ∀ r ∈ (s.core c).arr.runs, arrOp r.cmd.word = 1 → r.stopped = true)
    (hbehind : ∀ p ∈ (s.core c).arr.streamQ, arrOp p.word = 2 → p.serial < q.serial →
      ¬arrFmt (arrFmtX q.word) = .s32 ∧ ¬arrFmt (arrFmtX p.word) = .s32 ∧ arrBuf p.word ≠ arrBuf q.word) :
    exec (.load c) s = .next (((s.modCore c (fun k => { k with arr := { k.arr with loadQ := rest } })).startLoad c
      q).checkLoadHead c) := by
  have behind : (s.core c).arr.streamQ.any (fun p => arrOp p.word == 2 && decide (p.serial < q.serial) &&
      (arrFmt (arrFmtX q.word) == .s32 || arrFmt (arrFmtX p.word) == .s32 || arrBuf p.word == arrBuf q.word)) = false := by
    simpa [and_assoc] using hbehind
  have busy : (s.core c).arr.runs.any (fun r => arrOp r.cmd.word == 1 && !r.stopped) = false := by simpa using hbusy
  change execLoad c s = _
  simp only [execLoad, hq, hr, hs, hf, behind, busy, Bool.not_true, Bool.or_self, Bool.false_eq_true, if_false]

section
variable (hq : (s.core c).arr.streamQ = q :: rest) (hs : (s.core c).arr.streamStall = false)
include hq hs

section
variable (ho : arrOp q.word = 2) (hf : (s.core c).arr.frozen = false)
  (ha : (s.core c).arr.loadAhead (arrBuf q.word) q.serial (arrFmt (arrFmtX q.word) == .s32) = false)
include ho hf ha

theorem exec_stream_starts {tile : Tile} (ht : (s.core c).arr.tileCheck q.word false = none)
    (hb : (s.core c).arr.buf (arrBuf q.word) = some tile) :
    exec (.stream c) s = .next (((s.modCore c (fun k => { k with arr := { k.arr with streamQ := rest } })).startStream c q
      tile).checkStreamHead c) := by
  change execStream c s = _
  simp [execStream, hq, hr, hs, hf, ho, ha, ht, hb]

theorem exec_stream_stalls (hb : (s.core c).arr.buf (arrBuf q.word) = none) :
    exec (.stream c) s = .next ((s.modCore c (fun k => { k with arr := { k.arr with streamStall := true } })).arrSched c q 9) := by
  change execStream c s = _
  simp [execStream, hq, hr, hs, hf, ho, ha, hb]

end

theorem exec_claim_takes (ho : arrOp q.word = 3) (hp : (s.core c).fls.pendingAccess (arrBank q.word) q.after = false) :
    exec (.claim c) s = .next (s.takeOwner c q rest true) := by
  change execClaim c s = _
  simp [execClaim, hq, hr, hs, ho, hp]

theorem exec_release_takes (ho : arrOp q.word = 4)
    (hw : ∀ r ∈ (s.core c).arr.runs, arrOp r.cmd.word = 2 → r.stopped = true ∧ r.held = []) :
    exec (.release c) s = .next (s.takeOwner c q rest false) := by
  have writing : (s.core c).arr.runs.any (fun r => arrOp r.cmd.word == 2 && (!r.stopped || !r.held.isEmpty)) = false := by
    simpa using hw
  change execRelease c s = _
  simp only [execRelease, hq, hr, hs, ho, writing, bne_self_eq_false, Bool.not_true, Bool.or_self, Bool.false_eq_true, if_false]

end
end

end Sys2Proof.Machine

namespace Sys2Proof

open Machine

/-- Settles O16: one equation for the start of each command, and one for the STREAM whose buffer holds no tile. -/
theorem arrayStarts : Obligations.ArrayStarts := by
  unfold Obligations.ArrayStarts
  intro s c q rest hr
  refine ⟨exec_load_starts hr, fun hq hs => ⟨fun ho hf ha => ⟨?starts, ?stalls⟩, exec_claim_takes hr hq hs,
    exec_release_takes hr hq hs⟩⟩
  case starts => exact fun tile ht hb => exec_stream_starts hr hq hs ho hf ha ht hb
  case stalls => exact fun hb => exec_stream_stalls hr hq hs ho hf ha hb

end Sys2Proof
end

section
/-! PROOFS. The ends of LOAD, STREAM, RUN and LDTAB (R65, R87, R99, R104, R112, R131): what the oldest started command of a unit leaves once
its write point has passed and nothing of it is held. -/

namespace Sys2Proof.Machine

open Sys2Proof

/-- The oldest LOAD or STREAM, nothing of which is held past its write point, completes (R65, R87). -/
theorem State.arrDone_completes {s : State} {c op i : Nat} (hr : s.arrRuns c = true) (ho : (s.core c).arr.oldest op = some i)
    (he : ∃ r, ((s.arrWritePoint c i).core c).arr.runs[i]? = some r ∧ r.held = []) :
    s.arrDone c op = (s.arrWritePoint c i).arrComplete c i := by
  obtain ⟨r, hrun, hheld⟩ := he
  simp [State.arrDone, hr, ho, hrun, hheld]

/-! The oldest started chain. -/

theorem FlsState.first_eq_some {f : FlsState} {op : Nat} {r : ChainRun} (h : f.first op = some r) :
    ∃ l, f.runs = r :: l ∧ fhOp r.cmd.head = op ∧ r.stopped = false := by
  unfold FlsState.first at h
  split at h
  case h_1 q l hl =>
    obtain ⟨hq, he⟩ := Option.ite_none_right_eq_some.mp h
    cases he
    exact ⟨l, hl, by simpa using hq⟩
  case h_2 => cases h

/-- A started chain whose write point has passed (R131). -/
def ChainRun.passed (r : ChainRun) : ChainRun := { r with pastWrite := true }

/-- The oldest chain of Flowstone, its binding known, passes its write point and is otherwise as it was (R131). -/
theorem State.first_flsWritePoint {s : State} {c op : Nat} {r : ChainRun} {b : Bool} (hf : (s.core c).fls.first op = some r)
    (hb : r.cmd.iss.bind = .resolved b) : ((s.flsWritePoint c 0).core c).fls.first op = some r.passed := by
  obtain ⟨l, hl, ho, hs⟩ := FlsState.first_eq_some hf
  simp [State.flsWritePoint, State.modCore, hl, hb, modAt, FlsState.first, ChainRun.passed, ho, hs]

/-! CHAIN_DONE. -/

/-- The chain carried on is the one whose end was asked for. -/
theorem ChainRun.filter_serial {q r : ChainRun} (hn : r.cmd.serial = q.cmd.serial) :
    (some r).filter (fun x => x.cmd.serial == q.cmd.serial) = some r := Option.filter_some_pos (beq_iff_eq.2 hn)

/-- Chain `r`, the oldest, leaves Flowstone: its writes that are still due are made, and its end is traced (R106, R112, R487). -/
def State.chainLeaves (s : State) (c : Nat) (r : ChainRun) : State :=
  ((s.flushDue c r.cmd.serial).dropRun c).trcChain 2 c r.cmd r.squashed

section
variable {s : State} {c : Fin 256} {q r : ChainRun} (hr : s.arrRuns c = true) (hq : (s.core c).fls.first 1 = some q)
  (hf : (((s.flsWritePoint c 0).carryOn c).core c).fls.first 1 = some r) (hn : r.cmd.serial = q.cmd.serial)
include hr hq hf hn

theorem exec_chainDone_sums {m : ChainSum} (hs : r.squashed = false) (hm : r.sum = some m) : exec (.chainDone c) s =
    .next (((((s.flsWritePoint c 0).carryOn c).chainLeaves c r).handSummary c r.cmd m).chainEnd c r.cmd.serial (some m.sum0)) := by
  change execChainDone c s = _
  simp [execChainDone, State.chainLeaves, hr, hq, hf, ChainRun.filter_serial hn, hs, hm]

theorem exec_chainDone_squashed (hs : r.squashed = true) : exec (.chainDone c) s =
    .next (((((s.flsWritePoint c 0).carryOn c).chainLeaves c r).cnt (pgFLS c) 0x58 1).chainEnd c r.cmd.serial none) := by
  change execChainDone c s = _
  simp [execChainDone, State.chainLeaves, hr, hq, hf, ChainRun.filter_serial hn, hs]

end

/-! LDTAB_DONE. -/

/-- An LDTAB that ends leaves the tables `f ts` in place of `ts`, and no wrong bit in the rows of the one it loaded (R99, R112). -/
def State.tableLoaded (s : State) (c : Nat) (r : ChainRun) (f : Store Table → Store Table) : State :=
  (((s.flsWritePoint c 0).dropRun c).trcChain 2 c r.cmd false).modCore c (fun k => { k with fls := { k.fls with
    tables := f k.fls.tables, tabPar := k.fls.tabPar.filter (fun p => p / 256 != fhDst r.cmd.head) } })

section
variable {s : State} {c : Fin 256} {r : ChainRun} {b : Bool} (hr : s.arrRuns c = true) (hf : (s.core c).fls.first 2 = some r)
  (hb : r.cmd.iss.bind = .resolved b) (hs : r.squashed = false)
include hr hf hb hs

theorem exec_ldtabDone_valid {t : Table} (ht : r.table = some t) : exec (.ldtabDone c) s =
    .next ((s.tableLoaded c r (fun ts => Store.insert ts (fhDst r.cmd.head) t)).chainEnd c r.cmd.serial none) := by
  change execLdtabDone c s = _
  simp [execLdtabDone, State.tableLoaded, hr, hf, State.first_flsWritePoint hf hb, ChainRun.passed, hs, ht]

theorem exec_ldtabDone_invalid (ht : r.table = none) : exec (.ldtabDone c) s =
    .next (((s.tableLoaded c r (fun ts => Store.erase ts (fhDst r.cmd.head))).flsFault c r.cmd .hw 6 0).chainEnd c r.cmd.serial
      none) := by
  change execLdtabDone c s = _
  simp [execLdtabDone, State.tableLoaded, hr, hf, State.first_flsWritePoint hf hb, ChainRun.passed, hs, ht]

end

end Sys2Proof.Machine

namespace Sys2Proof

open Machine

/-- Settles O17: the completion of the array's oldest command, then the two ends of a chain and the two of a table. -/
theorem commandEnds : Obligations.CommandEnds := by
  unfold Obligations.CommandEnds
  intro s c hr
  refine ⟨fun i => ⟨?load, ?stream⟩, fun q r hq hf hn => ⟨?sums, ?squashed⟩, fun r b hf hb hs => ⟨?valid, ?invalid⟩⟩
  case load => exact fun ho he => congrArg _ (State.arrDone_completes hr ho he)
  case stream => exact fun ho he => congrArg _ (State.arrDone_completes hr ho he)
  case sums => exact fun m hs hm => exec_chainDone_sums hr hq hf hn hs hm
  case squashed => exact fun hs => exec_chainDone_squashed hr hq hf hn hs
  case valid => exact fun t ht => exec_ldtabDone_valid hr hf hb hs ht
  case invalid => exact fun ht => exec_ldtabDone_invalid hr hf hb hs ht

end Sys2Proof
end

section
/-! PROOFS. The starts of RUN and LDTAB (R94, R99, R106 to R108): when the chain at the head of Flowstone's queue may start, and what it
then does. -/

namespace Sys2Proof.Machine

open Sys2Proof

/-- The chain that is ready heads its queue, is of the kind asked for, and waits for no fault, chain or bank (R94, R107, R108). -/
theorem State.chainReady_eq_some_iff (s : State) (c op : Nat) (q : ChainCmd) : s.chainReady c op = some q ↔
    s.arrRuns c = true ∧ ∃ rest, (s.core c).fls.queue = q :: rest ∧ (s.core c).fls.stall = false ∧ fhOp q.head = op ∧
      (s.core c).fls.mayStart q = true ∧ (op = 1 → (s.core c).bankWaits q = false) := by
  simp only [State.chainReady]
  cases (s.core c).fls.queue with
  | nil => simp
  | cons p rest =>
    have allowed : (s.arrRuns c && !(s.core c).fls.stall && fhOp p.head == op && (s.core c).fls.mayStart p &&
        !(op == 1 && (s.core c).bankWaits p)) = true ↔ s.arrRuns c = true ∧ (s.core c).fls.stall = false ∧ fhOp p.head = op ∧
        (s.core c).fls.mayStart p = true ∧ (op = 1 → (s.core c).bankWaits p = false) := by
      simp [and_assoc, imp_iff_not_or]
    simp only [Option.ite_none_right_eq_some, allowed, Option.some.injEq, List.cons.injEq]
    constructor
    · rintro ⟨⟨hr, h⟩, rfl⟩
      exact ⟨hr, rest, ⟨rfl, rfl⟩, h⟩
    · rintro ⟨hr, _, ⟨rfl, -⟩, h⟩
      exact ⟨⟨hr, h⟩, rfl⟩

section
variable {s : State} {c : Fin 256} {q : ChainCmd}

section
variable (hr : s.arrRuns c = true) (hq : (s.carryOn c).chainReady c 1 = some q)
include hr hq

/-- RUN starts on tables that are valid (R106, R108). -/
theorem exec_run_starts (ht : ((s.carryOn c).core c).fls.tablesOk q.stages q.serial false = true) : exec (.run c) s =
    .next (((((s.carryOn c).popChain c).trcChain 1 c q false).startRun c q).checkChainHead c) := by
  change execRun c s = _
  simp only [execRun, hr, hq, ht, if_true]

/-- RUN stalls the queue where a table that it looks up is not valid (R108). -/
theorem exec_run_stalls (ht : ((s.carryOn c).core c).fls.tablesOk q.stages q.serial false = false) : exec (.run c) s =
    .next ((s.carryOn c).flsStall c q 0xA) := by
  change execRun c s = _
  simp only [execRun, hr, hq, ht, if_true, Bool.false_eq_true, if_false]

end

/-- LDTAB starts with a read of its image, which it keeps where the CRC holds (R99). -/
theorem exec_ldtab_starts (hq : s.chainReady c 2 = some q) : exec (.ldtab c) s =
    .next (((s.popChain c).trcChain 1 c q false).cmRead c (fhSrc q.head) tableBytes q.iss.reader (fun z =>
      let image := z.cmBytes c (fhSrc q.head) tableBytes
      (z.addChainRun c { cmd := q, table := if tableCrcOk image then some (Table.ofBytes image) else none }).checkChainHead c)) := by
  change execLdtab c s = _
  simp only [execLdtab, hq]

end

end Sys2Proof.Machine

namespace Sys2Proof

open Machine

/-- Settles O19: the two outcomes of a RUN, the start of an LDTAB, and what being ready means. -/
theorem chainStarts : Obligations.ChainStarts := by
  unfold Obligations.ChainStarts
  intro s c q hr
  refine ⟨fun hq => ⟨?starts, ?stalls⟩, exec_ldtab_starts, fun op => ?ready⟩
  case starts => exact exec_run_starts hr hq
  case stalls => exact exec_run_stalls hr hq
  case ready => exact (s.chainReady_eq_some_iff c op q).trans (and_iff_right hr)

end Sys2Proof
end

section
/-! PROOFS. The instructions of a thread that issue no command (R117 to R135): what each leaves where its word is issued. -/

namespace Sys2Proof.Machine

open Sys2Proof

/-! An issued instruction. -/

/-- A command of the control core whose word is issued lands what the body of its meaning makes of the state after the fetch. -/
theorem exec_of_issues {s u : State} {c : Fin 256} {t : Fin 16} {w opc : Nat} {i : Instr} {body : State → Thread → Nat → State}
    (hi : exec i s = .next (s.instr c t opc body)) (h : Issues s c t w) (ho : insOpc w = opc)
    (hb : body (fetched s c t) ((fetched s c t).thread c t) w = u) : exec i s = .next (Sys2Proof.lands s c t u) :=
  hi.trans (congrArg _ ((State.instr_issues h ho body).trans (congrArg _ hb)))

/-! ALU and ALUI (R124). -/

theorem aluOp_isSome {fn : Nat} (h : fn ≤ 0x15) (a b : Word) (f : Flags) : (aluOp fn a b f).isSome = true := by
  interval_cases fn <;> rfl

theorem insLegal_alu {w : Nat} (h : insLegal w = true) (ho : insOpc w = 0x01) : insFn w ≤ 0x15 := by
  simp only [insLegal, ho, Bool.and_eq_true, decide_eq_true_eq] at h
  exact h.1.2

theorem insLegal_alui {w : Nat} (h : insLegal w = true) (ho : insOpc w = 0x02) : insRb w ≤ 0x15 := by
  simp only [insLegal, ho, Bool.and_eq_true, decide_eq_true_eq] at h
  exact h.1

/-! MFSYS (R126). -/

theorem State.sysValue_tick (s : State) (c t : Nat) : s.sysValue c t 5 = s.tick % 2 ^ 32 := rfl

/-! Guards (R129). -/

theorem guardOf_false : guardOf false = .ff := rfl

theorem guardOf_beq (a b : Bool) : guardOf (a == b) = if a = b then .tt else .ff := by cases a <;> cases b <;> rfl

/-! Scalar accesses (R135). -/

section
variable {s : State} {c t a : Nat} {write : Bool} (k : State → State)

theorem State.scalarAccess_misplaced (h : ¬(a % 4 = 0 ∧ s.cmIn a 4 = true)) :
    s.scalarAccess c t a write k = s.insFault c t .sched 5 a := by
  simp [State.scalarAccess]
  intro h1 h2
  exact (h ⟨h1, h2⟩).elim

theorem State.scalarAccess_refused (ha : a % 4 = 0) (hi : s.cmIn a 4 = true) (hg : s.cmOk c (s.thread c t).tag.1 a 4 write = false) :
    s.scalarAccess c t a write k = s.insFault c t .ctx 0xA a := by
  simp [State.scalarAccess, ha, hi, hg]

theorem State.scalarAccess_granted (ha : a % 4 = 0) (hi : s.cmIn a 4 = true) (hg : s.cmOk c (s.thread c t).tag.1 a 4 write = true) :
    s.scalarAccess c t a write k = k s := by
  simp [State.scalarAccess, ha, hi, hg]

end

/-! Jumps (R123, R135). -/

theorem State.jump_placed {s : State} {c t target : Nat} (ha : target % 4 = 0) (hi : s.cmIn target 4 = true) (x : Thread) :
    s.jump c t target x = retire s c t (goesTo x target) := by
  simp only [State.jump, ha, hi]
  rfl

theorem State.jump_misplaced {s : State} {c t target : Nat} (h : ¬(target % 4 = 0 ∧ s.cmIn target 4 = true)) (x : Thread) :
    s.jump c t target x = s.insFault c t .sched 5 target := by
  have hno : ¬((target % 4 == 0 && s.cmIn target 4) = true) := by simpa using h
  rw [State.jump, if_neg hno]

/-- An issued instruction whose body is a jump: it lands at its target, or is a schedule fault (R123, R135). -/
theorem exec_jump_of_issues {s : State} {c : Fin 256} {t : Fin 16} {w opc target : Nat} {i : Instr} {x : Thread}
    {body : State → Thread → Nat → State} (hi : exec i s = .next (s.instr c t opc body)) (h : Issues s c t w) (ho : insOpc w = opc)
    (hb : body (fetched s c t) ((fetched s c t).thread c t) w = (fetched s c t).jump c t target x) :
    (target % 4 = 0 → (fetched s c t).cmIn target 4 = true →
      exec i s = .next (Sys2Proof.lands s c t (retire (fetched s c t) c t (goesTo x target)))) ∧
    (¬(target % 4 = 0 ∧ (fetched s c t).cmIn target 4 = true) →
      exec i s = .next (Sys2Proof.lands s c t ((fetched s c t).insFault c t .sched 5 target))) :=
  ⟨fun ha hp => exec_of_issues hi h ho (hb.trans (State.jump_placed ha hp x)),
    fun hn => exec_of_issues hi h ho (hb.trans (State.jump_misplaced hn x))⟩

/-! Waiting (R120, R128, R133). -/

section
variable {s : State} {c t w : Nat} {x : Thread}

theorem State.waitTick_due (h : (x.gr (insRd w) + fld w 0 16) % 2 ^ 32 ≤ s.tick - s.sch.first) :
    s.waitTick c t x w = retire s c t (Sys2Proof.goesOn x) := if_pos h

theorem State.waitTick_early (h : s.tick - s.sch.first < (x.gr (insRd w) + fld w 0 16) % 2 ^ 32) :
    s.waitTick c t x w = Sys2Proof.holds s c t x { word := w, reason := 6 } := if_neg (Nat.not_le.mpr h)

theorem State.moveSum_pending (h : (s.core c).chainsPending t = true) :
    s.moveSum c t x w = Sys2Proof.holds s c t x { word := w, reason := 7 } := if_pos h

theorem State.moveSum_ended (h : (s.core c).chainsPending t = false) : s.moveSum c t x w =
    let sum := match fld w 20 2 with | 0 => x.sum0 | 1 => x.sum1 | 2 => x.sum2 | _ => x.sum3
    retire s c t (Sys2Proof.goesOn (x.setGreg (insRd w) (BitVec.ofNat 32 (if bitAt w 19 then sum / 2 ^ 32 else sum % 2 ^ 32)))) :=
  if_neg (ne_true_of_eq_false h)

theorem State.branchSum_pending (h : (s.core c).chainsPending t = true) :
    s.branchSum c t x w = Sys2Proof.holds s c t x { word := w, reason := 7 } := if_pos h

theorem State.branchSum_taken (h : (s.core c).chainsPending t = false) (hb : bitAt x.sum0 (fld w 23 3) = bitAt w 26) :
    s.branchSum c t x w = s.jump c t (addr32 x.a.pc (4 * sext 22 w)) x := by
  simp [State.branchSum, h, hb, relTarget, insOff22]

theorem State.branchSum_passed (h : (s.core c).chainsPending t = false) (hb : bitAt x.sum0 (fld w 23 3) ≠ bitAt w 26) :
    s.branchSum c t x w = retire s c t (Sys2Proof.goesOn x) := by
  simp [State.branchSum, h, hb, State.done_eq]

end

end Sys2Proof.Machine

namespace Sys2Proof

open Machine

/-- Settles O2: each instruction by the body of its meaning; a legal word names an operation of the ALU. -/
theorem scalarInstructions : Obligations.ScalarInstructions := by
  unfold Obligations.ScalarInstructions
  intro s c t w h
  refine ⟨fun ho => ?alu, fun ho => ?alui, fun ho => ?lui, fun ho hs => ?mfsys, fun ho hs => ?tick, fun ho => ?gset, fun ho => ?ends,
    fun ho => ?nop⟩
  case alu =>
    have hsome := aluOp_isSome (insLegal_alu h.legal ho)
    split
    · next hr => refine exec_of_issues rfl h ho ?_; simp only [hr, State.done_eq]
    · next hr => refine exec_of_issues rfl h ho ?_; simp only [hr, State.done_eq]
    · next hr => exact (Option.isSome_iff_ne_none.mp (hsome _ _ _) hr).elim
  case alui =>
    have hsome := aluOp_isSome (insLegal_alui h.legal ho)
    split
    · next hr => refine exec_of_issues rfl h ho ?_; simp only [hr, State.done_eq]
    · next hr => refine exec_of_issues rfl h ho ?_; simp only [hr, State.done_eq]
    · next hr => exact (Option.isSome_iff_ne_none.mp (hsome _ _ _) hr).elim
  case lui => exact exec_of_issues rfl h ho rfl
  case mfsys =>
    refine exec_of_issues rfl h ho ?_
    simp only [if_neg hs, State.done_eq]
  case tick =>
    refine exec_of_issues rfl h ho ?_
    simp only [hs, State.sysValue_tick, if_true, State.done_eq]
  case gset =>
    refine exec_of_issues rfl h ho ?_
    simp only [guardOf, State.done_eq]
  case ends => exact exec_of_issues rfl h ho rfl
  case nop => exact exec_of_issues rfl h ho rfl

/-- Settles O3: by whether the thread has issued an IFS in the span, and how its chain stands. -/
theorem guardBinding : Obligations.GuardBinding := by
  unfold Obligations.GuardBinding
  intro s c t w h ho
  refine ⟨fun ch hc hs => ?pending, fun ch v hc hs => ?ended, fun ch hc hs => ?silent, fun hc => ?unissued⟩
  case pending => refine exec_of_issues rfl h ho ?_; simp only [hc, hs, State.done_eq]
  case ended =>
    refine exec_of_issues rfl h ho ?_
    simp only [hc, hs, bindValue, guardOf_beq, State.done_eq]
  case silent =>
    refine exec_of_issues rfl h ho ?_
    simp only [hc, hs, bindValue, guardOf_false, State.done_eq]
  case unissued => refine exec_of_issues rfl h ho ?_; simp only [hc]

/-- Settles O5: by the checks of a scalar access, in their order. -/
theorem loadsAndStores : Obligations.LoadsAndStores := by
  unfold Obligations.LoadsAndStores
  intro s c t w h
  refine ⟨fun ho => ⟨fun hp => ?_, fun ha hi hg => ?_, fun ha hi hg => ?_⟩, fun ho => ⟨fun hp => ?_, fun ha hi hg => ?_, fun ha hi hg => ?_⟩⟩
  · exact exec_of_issues rfl h ho (State.scalarAccess_misplaced _ hp)
  · exact exec_of_issues rfl h ho (State.scalarAccess_refused _ ha hi hg)
  · exact exec_of_issues rfl h ho (State.scalarAccess_granted _ ha hi hg)
  · exact exec_of_issues rfl h ho (State.scalarAccess_misplaced _ hp)
  · exact exec_of_issues rfl h ho (State.scalarAccess_refused _ ha hi hg)
  · exact exec_of_issues rfl h ho (State.scalarAccess_granted _ ha hi hg)

/-- Settles O8: each condition is its flags. -/
theorem conditions : Obligations.Conditions := by
  unfold Obligations.Conditions
  intro f
  simp [condHolds]

/-- Settles O7: a branch that is taken is a jump to its target, and one that is not goes on. -/
theorem branches : Obligations.Branches := by
  unfold Obligations.Branches
  intro s c t w h
  refine ⟨fun ho hc => ?taken, fun ho hc => ?passed, fun ho => ?jal, fun ho => ?jalr, fun ho hp hb => ?sumTaken, fun ho hp hb => ?sumPassed⟩
  case taken => exact exec_jump_of_issues rfl h ho (if_pos hc)
  case passed => exact exec_of_issues rfl h ho (if_neg (ne_true_of_eq_false hc))
  case jal => exact exec_jump_of_issues rfl h ho rfl
  case jalr => exact exec_jump_of_issues rfl h ho rfl
  case sumTaken => exact exec_jump_of_issues rfl h ho (State.branchSum_taken hp hb)
  case sumPassed => exact exec_of_issues rfl h ho (State.branchSum_passed hp hb)

/-- Settles O9: by whether the condition of the wait holds. -/
theorem waits : Obligations.Waits := by
  unfold Obligations.Waits
  intro s c t w h
  exact ⟨fun ho hd => exec_of_issues rfl h ho (State.waitTick_due hd), fun ho hd => exec_of_issues rfl h ho (State.waitTick_early hd),
    fun ho hp => exec_of_issues rfl h ho (State.moveSum_ended hp), fun ho hp => exec_of_issues rfl h ho (State.moveSum_pending hp),
    fun ho hp => exec_of_issues rfl h ho (State.branchSum_pending hp)⟩

end Sys2Proof
end

section
/-! PROOFS. The end of an instruction, and what STW leaves in core memory (R117, R123, R134, R140, R339, R342). -/

namespace Sys2Proof.Machine

open Sys2Proof

/-! The end of an instruction (R117, R134, R140). -/

/-- A 64-bit counter of a page read after it has counted: it wraps (R141). -/
theorem State.reg64_cnt64 (s : State) (page o n : Nat) : (s.cnt64 page o n).reg64 page o = (s.reg64 page o + n) % 2 ^ 64 := by
  have hne : regAt page o ≠ regAt page (o + 4) := by unfold regAt; omega
  simp only [State.cnt64, State.setReg64, State.reg64, State.reg_setReg, if_neg hne, if_true]
  omega

/-- A 64-bit counter is held in two registers. -/
theorem State.rd_cnt64_other (s : State) {page o off : Nat} (hl : off ≠ regAt page o) (hh : off ≠ regAt page (o + 4)) (n : Nat) :
    (s.cnt64 page o n).rd off = s.rd off := by
  simp only [State.cnt64, State.setReg64, State.setReg, State.rd_wr, if_neg hl, if_neg hh]

@[simp] theorem State.thread_cnt64 (s : State) (page o n d v : Nat) : (s.cnt64 page o n).thread d v = s.thread d v :=
  (SameCores.of_cores (by simp)).thread d v

/-- A core whose thread is replaced is otherwise as it was. -/
theorem State.core_setThread (s : State) (c t : Nat) (x : Thread) (d : Nat) :
    ((s.setThread c t x).core d) = if d = c then (s.core c).setThread t x else s.core d := by
  split
  · next h => subst h; exact State.core_setCore_same _ _ _
  · next h => exact State.core_setCore_other _ _ h

theorem State.core_retire_all (s : State) (c t : Nat) (x : Thread) (d : Nat) :
    (retire s c t x).core d = if d = c then (s.core c).setThread t x else s.core d :=
  (State.core_congr (by simp [retire]) d).trans (s.core_setThread c t x d)

/-! Time that passes for a core (R134, R189, R202). -/

/-- A core once `n` ticks of the state `s` have passed: what `elapse` makes of it. -/
def Core.passed (s : State) (n c : Nat) (k : Core) : Core :=
  let r := k.clockTo s.tick (s.tick + n)
  let k1 := r.1.elapse (s.inSpan && bitAt (s.reg (pgCORE c) 0x40) 0) n r.2
  if s.inSpan && !k.inReset then k1.meter r.2 else k1

theorem elapse_still {n : Nat} {s : State} (h : n = 0 ∨ s.pwr.mainOk = false) : elapse n s = s := if_pos h

theorem elapse_cores {n : Nat} {s : State} (h : ¬(n = 0 ∨ s.pwr.mainOk = false)) :
    (elapse n s).cores = Store.mapVals (fun c k => k.passed s n c) s.cores := by
  simp only [elapse, if_neg h]
  rfl

theorem Store.get_of_find_some {α : Type} (d : α) {m : Store α} {k : Nat} {v : α} (h : Store.find m k = some v) : Store.get d m k = v := by
  induction m with
  | nil => cases h
  | cons p m ih =>
    obtain ⟨j, w⟩ := p
    simp only [Store.find] at h
    simp only [Store.get]
    split at h
    · next hj => rw [if_pos hj]; exact Option.some.inj h
    · next hj => rw [if_neg hj]; exact ih h

theorem Store.get_of_find_none {α : Type} (d : α) {m : Store α} {k : Nat} (h : Store.find m k = none) : Store.get d m k = d := by
  induction m with
  | nil => rfl
  | cons p m ih =>
    obtain ⟨j, w⟩ := p
    simp only [Store.find] at h
    simp only [Store.get]
    split at h
    · cases h
    · next hj => rw [if_neg hj]; exact ih h

/-- A core after some ticks: as it was, or with the ticks passed. -/
theorem State.core_elapse (n : Nat) (s : State) (c : Nat) :
    (elapse n s).core c = s.core c ∨ (elapse n s).core c = (s.core c).passed s n c := by
  by_cases h : n = 0 ∨ s.pwr.mainOk = false
  · exact .inl (by rw [elapse_still h])
  · simp only [State.core, elapse_cores h, Store.get_mapVals]
    cases hk : Store.find s.cores c with
    | none => exact .inl (Store.get_of_find_none _ hk).symm
    | some k => exact .inr (by rw [Store.get_of_find_some _ hk]; rfl)

/-- Ticks leave a core's memory, its units, its queue of faults and its reset alone. -/
theorem Core.passed_keeps (s : State) (n c : Nat) (k : Core) : (k.passed s n c).mem = k.mem ∧ (k.passed s n c).undo = k.undo ∧
    (k.passed s n c).inReset = k.inReset := by
  unfold Core.passed Core.clockTo
  dsimp only
  (repeat' split) <;> simp [Core.meter, Core.elapse]

theorem State.core_elapse_keeps (n : Nat) (s : State) (c : Nat) : ((elapse n s).core c).mem = (s.core c).mem ∧
    ((elapse n s).core c).undo = (s.core c).undo ∧ ((elapse n s).core c).inReset = (s.core c).inReset := by
  rcases State.core_elapse n s c with h | h
  · simp [h]
  · simpa only [h] using Core.passed_keeps s n c (s.core c)

theorem State.core_awake_mem (s : State) (c d : Nat) : ((s.awake c).core d).mem = (s.core d).mem := by
  unfold State.awake
  split
  · exact (State.core_elapse_keeps _ s d).1
  · rfl

theorem State.core_fetched_mem (s : State) (c t d : Nat) : ((fetched s c t).core d).mem = (s.core d).mem :=
  (congrArg Core.mem (State.core_cmCorrect _ _ _ _ _)).trans (State.core_awake_mem s c d)

/-! A word stored (R123, R339, R342). -/

theorem State.core_retire_mem (s : State) (c t : Nat) (x : Thread) (d : Nat) : ((retire s c t x).core d).mem = (s.core d).mem := by
  rw [State.core_retire_all]
  split
  · next h => subst h; rfl
  · rfl

theorem State.core_cmPutWord_mem (s : State) (c a v : Nat) (h : a % 4 = 0) (d : Nat) : ((s.cmPutWord c a v).core d).mem =
    if d = c ∧ ¬Discards s c a then Store.setRun 0#8 (s.core c).mem a (leBytes 4 v) else (s.core d).mem := by
  rw [State.cmPutWord_eq s c a v h, State.cmPutLine_mem]

theorem State.thread_cmPutWord (s : State) (c a v : Nat) (h : a % 4 = 0) (d u : Nat) :
    (s.cmPutWord c a v).thread d u = s.thread d u := by
  simp only [State.thread, Core.thread, State.cmPutWord_eq s c a v h, State.cmPutLine_threads]

theorem Store.get_setRun_word (m : Store Byte) (a v b : Nat) : Store.get 0#8 (Store.setRun 0#8 m a (leBytes 4 v)) b =
    if a ≤ b ∧ b < a + 4 then BitVec.ofNat 8 (v / 256 ^ (b - a)) else Store.get 0#8 m b := by
  rw [Store.get_setRun, leBytes_length]
  split
  · next h => exact leBytes_getD 4 v (b - a) (by omega)
  · rfl

/-- What STW leaves in every core's memory, once it has ended. -/
theorem SameCores.stored_mem {u s : State} {c t a v : Nat} {x : Thread} (h : SameCores u (retire ((fetched s c t).cmPutWord c a v) c t x))
    (ha : a % 4 = 0) (d : Nat) : (u.core d).mem =
      if d = c ∧ ¬Discards (fetched s c t) c a then Store.setRun 0#8 (s.core c).mem a (leBytes 4 v) else (s.core d).mem := by
  obtain ⟨-, hmem, -⟩ := h d
  rw [hmem, State.core_retire_mem, State.core_cmPutWord_mem _ _ _ _ ha, State.core_fetched_mem, State.core_fetched_mem]

/-- STW changes no thread but its own. -/
theorem SameCores.stored_thread {u z : State} {c t a v : Nat} {x : Thread} (h : SameCores u (retire (z.cmPutWord c a v) c t x))
    (ha : a % 4 = 0) {d r : Nat} (hd : d ≠ c ∨ r ≠ t) : u.thread d r = z.thread d r :=
  (h.thread d r).trans (((State.thread_cnt64 _ _ _ _ _ _).trans (State.thread_setThread_other _ x hd)).trans
    (State.thread_cmPutWord z c a v ha d r))

end Sys2Proof.Machine

namespace Sys2Proof

open Machine

/-- Settles O14: a retirement writes its thread and the two registers of the counter. -/
theorem retireFrame : Obligations.RetireFrame := by
  unfold Obligations.RetireFrame
  intro s c t x
  refine ⟨?self, fun d v h => ?others, fun d => ?units, ?counter, fun off hl hh => ?registers, ?block⟩
  case self => exact ((s.setThread c t x).thread_cnt64 _ _ _ _ _).trans (s.thread_setThread_same c t x)
  case others => exact ((s.setThread c t x).thread_cnt64 _ _ _ _ _).trans (s.thread_setThread_other x h)
  case units =>
    rw [State.core_retire_all]
    split
    · next h => subst h; simp [Core.setThread]
    · simp
  case counter => exact State.reg64_cnt64 _ _ _ _
  case registers => exact State.rd_cnt64_other _ hl hh 1
  case block => simp [retire]

/-- Settles O6: STW ends as O5 says, the fetch changes no memory, and an aligned word lies in one line. -/
theorem storeFrame : Obligations.StoreFrame := by
  unfold Obligations.StoreFrame
  intro s u c t w h ho z x a ha hi hg hu
  obtain ⟨-, hstw⟩ := loadsAndStores s c t w h
  obtain ⟨-, -, hstores⟩ := hstw ho
  cases hu.symm.trans (hstores ha hi hg)
  have hsame := SameCores.lands s c t (retire (z.cmPutWord c a (x.gr (insRd w))) c t (goesOn x))
  have hmem := hsame.stored_mem ha
  refine ⟨fun d b hb => ?other, fun hd i hi => ?word, fun hd b => ?discarded, fun d v hv => hsame.stored_thread ha hv⟩
  case other =>
    rw [hmem]
    split
    · next hc => rw [Store.get_setRun_word, if_neg (by omega), hc.1]
    · rfl
  case word =>
    rw [hmem, if_pos ⟨rfl, hd⟩, Store.get_setRun_word, if_pos (by omega), Nat.add_sub_cancel_left]
  case discarded => rw [hmem, if_neg (fun hc => hc.2 hd)]

end Sys2Proof
end

section
/-! PROOFS. A thread in WAIT at an issue opportunity (R120, R202, R410). -/

namespace Sys2Proof.Machine

open Sys2Proof

/-! A held instruction tested again (R120, R410). -/

/-- What a thread in WAIT does at an issue opportunity with its held instruction, by opcode (R120). -/
def State.retried (z : State) (c t : Nat) (x : Thread) (h : Held) : Nat → State
  | 0x07 => z.branchSum c t x h.word
  | 0x0A => z.moveSum c t x h.word
  | 0x0E =>
    match h.res with
    | some (r, back) =>
      if z.tick < back then z.wait c t x h
      else ((z.done c t (x.setGreg (keyRd h.word) (BitVec.ofNat 32 r))).keyDone c).colWaited h.key (keyFn h.word)
    | none => z.wait c t x h
  | 0x0F => z.waitTick c t x h.word
  | 0x10 => z.issueArray c t x h.word
  | 0x11 => z.issueChain c t x h.word
  | 0x12 => z.issueDesc c t x h.word
  | _ => z

theorem State.retest_sound {z : State} {c t : Nat} {h : Held} (hc : z.canIssue c = true) (hw : (z.thread c t).a.st = .wait)
    (hh : (z.thread c t).held = some h) (hs : Sound z c t h.word) :
    z.retest c t = z.retried c t (z.thread c t) h (insOpc h.word) := by
  obtain ⟨hd, ha⟩ := hs
  simp only [State.retest, hh, hc, hw, hd, State.issueAgrees_none ha]
  rfl

theorem exec_waitRetest_of_retried {s u : State} {c : Fin 256} {t : Fin 16} {h : Held} {opc : Nat}
    (hc : (s.awake c).canIssue c = true) (hw : ((s.awake c).thread c t).a.st = .wait)
    (hh : ((s.awake c).thread c t).held = some h) (hs : Sound (s.awake c) c t h.word) (ho : insOpc h.word = opc)
    (hr : (s.awake c).retried c t ((s.awake c).thread c t) h opc = u) : exec (.waitRetest c t) s = .next u :=
  congrArg Host.Outcome.next ((State.retest_sound hc hw hh hs).trans (ho ▸ hr))

section
variable (z : State) (c t : Nat) (x : Thread) {h : Held}

theorem State.retried_key_unknown (hr : h.res = none) : z.retried c t x h 0x0E = Sys2Proof.holds z c t x h := by
  simp only [State.retried, hr]
  rfl

theorem State.retried_key_early {v back : Nat} (hr : h.res = some (v, back)) (hb : z.tick < back) :
    z.retried c t x h 0x0E = Sys2Proof.holds z c t x h := by
  simp only [State.retried, hr, if_pos hb]
  rfl

theorem State.retried_key_back {v back : Nat} (hr : h.res = some (v, back)) (hb : back ≤ z.tick) :
    z.retried c t (z.thread c t) h 0x0E = (Sys2Proof.keyEnds z c t h.word v).colWaited h.key (keyFn h.word) := by
  simp only [State.retried, hr, if_neg (Nat.not_lt.mpr hb)]
  rfl

end

end Sys2Proof.Machine

namespace Sys2Proof

open Machine

/-- Settles O15: by the opcode of the held instruction, and for KEY by its result. -/
theorem waitRetest : Obligations.WaitRetest := by
  unfold Obligations.WaitRetest
  intro s c t h z x w hc hw hh hs
  have retries {u : State} {opc : Nat} (ho : insOpc w = opc) (hr : z.retried c t x h opc = u) :=
    exec_waitRetest_of_retried hc hw hh hs ho hr
  refine ⟨fun ho hd => ?due, fun ho hd => ?early, fun v back ho hr => ⟨fun hb => ?back, fun hb => ?awaited⟩, fun ho hr => ?unknown,
    fun ho hp => ?sums, fun ho hp => ?pending, fun ho => ?array, fun ho => ?chain, fun ho => ?desc⟩
  case due => exact retries ho (State.waitTick_due hd)
  case early => exact retries ho (State.waitTick_early hd)
  case back => exact retries ho (z.retried_key_back c t hr hb)
  case awaited => exact retries ho (z.retried_key_early c t x hr hb)
  case unknown => exact retries ho (z.retried_key_unknown c t x hr)
  case sums => exact retries ho (State.moveSum_ended hp)
  case pending =>
    rcases ho with ho | ho
    · exact retries ho (State.moveSum_pending hp)
    · exact retries ho (State.branchSum_pending hp)
  case array => exact retries ho rfl
  case chain => exact retries ho rfl
  case desc => exact retries ho rfl

end Sys2Proof
end

section
/-! PROOFS. The write point of a bound command (R131). -/

namespace Sys2Proof.Machine

open Sys2Proof

/-! The write point (R131). -/

/-- A started array command whose write point has passed (R131). -/
def ArrRun.passed (q : ArrRun) : ArrRun := { q with pastWrite := true }

/-- A started array command whose binding is PENDING at its write point: every write of it is withheld (R131). -/
def ArrRun.withheld (q : ArrRun) : ArrRun :=
  { q.passed with
    squashed := true, held := [], tile := none, fault := none
    cmd := { q.cmd with iss := { q.cmd.iss with bind := .resolved false } } }

/-- The array of core `c` with its started command `i` changed. -/
def State.modRun (s : State) (c i : Nat) (f : ArrRun → ArrRun) : State :=
  s.modCore c (fun k => { k with arr := { k.arr with runs := modAt f k.arr.runs i } })

section
variable {s : State} {c : Nat} {i : Nat} {r : ArrRun} (hi : (s.core c).arr.runs[i]? = some r)
include hi

theorem State.arrWritePoint_resolved {b : Bool} (hb : r.cmd.iss.bind = .resolved b) :
    s.arrWritePoint c i = (s.modRun c i ArrRun.passed).settleArr c := by
  simp only [State.arrWritePoint, hi, hb]
  rfl

theorem State.arrWritePoint_pending {ch bit : Nat} {sense inv : Bool} (hb : r.cmd.iss.bind = .pending ch bit sense inv) :
    s.arrWritePoint c i =
      ((((s.accReads c r).modRun c i ArrRun.withheld).missBinding c r.cmd.iss.bind).unresolved c r.cmd.iss).settleArr c := by
  simp only [State.arrWritePoint, hi, hb]
  rfl

end

/-- The command of an OP that the array carries through its write point next (R131). -/
theorem exec_writePoint_array {s : State} {c : Fin 256} {i op : Nat} (hr : s.arrRuns c = true)
    (hi : firstIdx (fun r => arrOp r.cmd.word == op && !r.stopped && !r.pastWrite) (s.core c).arr.runs 0 = some i) {u : CmdUnit}
    (hu : (u = .load ∧ op = 1) ∨ (u = .stream ∧ op = 2)) : exec (.writePoint c u) s = .next (s.arrWritePoint c i) := by
  change execWritePoint c u s = _
  rcases hu with ⟨rfl, rfl⟩ | ⟨rfl, rfl⟩
  · simp only [execWritePoint, hr, hi]; rfl
  · simp only [execWritePoint, hr, hi]; rfl

theorem exec_writePoint_fls {s : State} {c : Fin 256} {i : Nat} (hr : s.arrRuns c = true)
    (hi : firstIdx (fun r => !r.stopped && !r.pastWrite) (s.core c).fls.runs 0 = some i) :
    exec (.writePoint c .fls) s = .next (s.flsWritePoint c i) := by
  change execWritePoint c .fls s = _
  simp only [execWritePoint, hr, hi]
  rfl

end Sys2Proof.Machine

namespace Sys2Proof

open Machine

/-- Settles O18: by the binding of the command at its write point. -/
theorem writePoint : Obligations.WritePoint := by
  unfold Obligations.WritePoint
  intro s c i hr
  refine ⟨fun op r hi hrun u hu => ⟨fun b hb => ?resolved, fun ch bit sense inv hb => ?pending⟩, exec_writePoint_fls hr⟩
  case resolved => exact (exec_writePoint_array hr hi hu).trans (congrArg _ (State.arrWritePoint_resolved hrun hb))
  case pending => exact (exec_writePoint_array hr hi hu).trans (congrArg _ (State.arrWritePoint_pending hrun hb))

end Sys2Proof
end

section
/-! PROOFS. The faults that an issue finds (R117, R135): where the word at the PC is a KEY word of another function, the command does not occur. -/

namespace Sys2Proof.Machine

open Sys2Proof

/-- A device in a span whose thread 0 of core 0 is READY at a KEY WAIT, with an error in its PC that cannot be corrected. -/
def damagedAtKeyWait : State :=
  { sch := { job := .running, place := .span, seq := 1 }
    cores := [(0, { mem := Store.setRun 0#8 [] 0 (leBytes 4 0x71000000)
                    threads := [(0, { a := { st := .ready }, ecc := [(32, 2)] })] })] }

/-- A KEY word of another function is another command (R409). -/
theorem State.keyInstr_other {s : State} {c t fn w : Nat} (hw : (s.awake c).cmWord c ((s.awake c).thread c t).a.pc = w)
    (ho : insOpc w = 0x0E) (hl : insLegal w = true) (hf : keyFn w ≠ fn) : s.keyInstr c t fn = s.awake c := by
  simp [State.keyInstr, hw, ho, hl, hf]

theorem damagedAtKeyWait_word : damagedAtKeyWait.cmWord 0 0 = 0x71000000 := by decide

/-- KEY ARRIVE does not occur there, so that nothing finds the error. -/
theorem exec_keyArrive_damagedAtKeyWait : exec (.keyArrive 0 0) damagedAtKeyWait = .next damagedAtKeyWait :=
  congrArg Host.Outcome.next (State.keyInstr_other damagedAtKeyWait_word (by decide) (by decide) (by decide))

theorem damagedAtKeyWait_faultQ : (damagedAtKeyWait.core 0).faultQ.length = 0 ∧
    ((damagedAtKeyWait.insFault 0 0 .hw 2 0).core 0).faultQ.length = 1 := by decide +kernel

end Sys2Proof.Machine

namespace Sys2Proof

open Machine

/-- Refutes O13: an error in the state of a thread that stands at a KEY WAIT is no fault of KEY ARRIVE, which does not occur there. -/
theorem not_issueFaults : ¬ Obligations.IssueFaults := by
  unfold Obligations.IssueFaults
  intro h
  obtain ⟨hdamaged, -⟩ := h damagedAtKeyWait 0 0 rfl rfl (.keyArrive 0 0) 0x0E (by simp)
  have hfault := Host.Outcome.next.inj (exec_keyArrive_damagedAtKeyWait.symm.trans (hdamaged (by decide)))
  obtain ⟨hquiet, hrecord⟩ := damagedAtKeyWait_faultQ
  have hlen : (damagedAtKeyWait.core 0).faultQ.length = ((damagedAtKeyWait.insFault 0 0 .hw 2 0).core 0).faultQ.length :=
    congrArg (fun u => (u.core 0).faultQ.length) hfault
  omega

end Sys2Proof
end

section
/-! PROOFS. What reports leave of the state (R12, R235, R421, R476, R485): counters, interrupts, records and trace records change registers,
the trace and the host's interrupt lines, and no more; an alarm word changes what the Viaduct remembers and sends as well. -/

namespace Sys2Proof.Machine

open Sys2Proof

/-- What stands through a change of the device's own description: all but its registers, the trace, what it sends, and the state of the
memories that is not their contents. -/
structure Settles (z u : State) : Prop where
  time : u.tick = z.tick ∧ u.frac = z.frac ∧ u.tck = z.tck
  cores : u.cores = z.cores ∧ u.mesh = z.mesh
  job : u.sch = z.sch ∧ u.pie = z.pie
  fabric : u.vdt = z.vdt ∧ u.opt = z.opt
  contents : u.mem.dev = z.mem.dev ∧ u.mem.cap = z.mem.cap
  contexts : u.ctx = z.ctx
  training : u.train = z.train ∧ u.buddy = z.buddy
  power : u.pwr = z.pwr ∧ u.rst = z.rst
  host : u.host.still = z.host.still
  test : u.trace.test = z.trace.test

/-- What stands through a report: the memories whole. -/
structure Reported (z u : State) : Prop extends Settles z u where
  memory : u.mem = z.mem

theorem State.trc_test (s : State) (ty src : Nat) (c : Option Nat) (b : List Byte) : (s.trc ty src c b).trace.test = s.trace.test := by
  unfold State.trc State.trcPut
  (repeat' split) <;> simp

theorem State.logErr_test (s : State) (page l0 l1 l2 : Nat) : (s.logErr page l0 l1 l2).trace.test = s.trace.test := by
  unfold State.logErr State.trcFault
  (repeat' split) <;> simp [State.trc_test]

theorem Settles.refl (z : State) : Settles z z := by constructor <;> simp

theorem Settles.trans {a b c : State} (h : Settles a b) (g : Settles b c) : Settles a c := by
  obtain ⟨ht, hc, hj, hf, hm, hx, hr, hp, hh, hs⟩ := h
  obtain ⟨gt, gc, gj, gf, gm, gx, gr, gp, gh, gs⟩ := g
  constructor <;> simp [*]

theorem Reported.refl (z : State) : Reported z z := ⟨Settles.refl z, rfl⟩

theorem Reported.trans {a b c : State} (h : Reported a b) (g : Reported b c) : Reported a c :=
  ⟨h.toSettles.trans g.toSettles, g.memory.trans h.memory⟩

theorem Reported.setReg (s : State) (page o v : Nat) : Reported s (s.setReg page o v) :=
  ⟨by constructor <;> simp, by simp⟩

theorem Reported.cnt (s : State) (page o n : Nat) : Reported s (s.cnt page o n) := Reported.setReg s page o _

theorem Reported.setInt (s : State) (page bit : Nat) : Reported s (s.setInt page bit) :=
  ⟨by constructor <;> simp, by simp⟩

theorem Reported.wakeReason (s : State) (r : Nat) : Reported s (s.wakeReason r) :=
  ⟨by constructor <;> simp, by simp⟩

theorem Reported.logErr (s : State) (page l0 l1 l2 : Nat) : Reported s (s.logErr page l0 l1 l2) :=
  ⟨by constructor <;> simp [State.logErr_test], by simp⟩

theorem Reported.rstLog (s : State) (cls cause die core : Nat) : Reported s (s.rstLog cls cause die core) := Reported.logErr s _ _ _ _

theorem Reported.escalates (s : State) (cause die core : Nat) : Reported s (s.escalates cause die core) :=
  (Reported.rstLog s _ _ _ _).trans (Reported.setInt _ _ _)

theorem Reported.dumpDone (s : State) : Reported s s.dumpDone := by
  unfold State.dumpDone
  dsimp only
  refine Reported.trans ?_ (Reported.setInt _ _ _)
  split
  · exact Reported.refl s
  · exact Reported.logErr s _ _ _ _

theorem Reported.core {z u : State} (h : Reported z u) (c : Nat) : u.core c = z.core c := State.core_congr h.cores.1 c

/-! Registers of other pages. -/

section
variable {p o : Nat} (ho : o < 0x1000)
include ho

theorem State.raiseInt_other (s : State) {page : Nat} (bit : Nat) (h : p ≠ page) : (s.raiseInt page bit).reg p o = s.reg p o := by
  unfold State.raiseInt
  rw [State.reg_congr (State.refreshLine_keeps _ _).2.2.1, State.setReg_quiet _ _ _ _ _ _ ho (by decide) (.inl h), State.reg_markSet]

theorem State.wakeReason_other (s : State) (r : Nat) (h : p ≠ pgHIF) : (s.wakeReason r).reg p o = s.reg p o := by
  unfold State.wakeReason
  dsimp only
  split
  · rfl
  · generalize hq : (((s.markSet pgHIF 0x50 31).setReg pgHIF 0x50 _).raiseInt pgHIF 0) = q
    have hreg : q.reg p o = s.reg p o := by
      rw [← hq, State.raiseInt_other ho _ _ h, State.setReg_quiet _ _ _ _ _ _ ho (by decide) (.inl h), State.reg_markSet]
    split
    · exact hreg
    · split
      · exact (State.cnt_quiet _ p o pgHIF 0x78 1 ho (by decide) (.inl h)).trans hreg
      · exact hreg

theorem State.setInt_other (s : State) {page : Nat} (bit : Nat) (h : p ≠ page) (hw : p ≠ pgHIF) :
    (s.setInt page bit).reg p o = s.reg p o := by
  have hraise := State.raiseInt_other ho s bit h
  unfold State.setInt
  dsimp only
  (repeat' split) <;> simp only [State.wakeReason_other ho _ _ hw, hraise]

/-- A record that is no fault's is not traced, and writes registers of its own page alone (R476). -/
theorem State.logErr_other (s : State) {page l0 : Nat} (l1 l2 : Nat) (hf : fld l0 28 3 = 0) (h : p ≠ page) (hw : p ≠ pgHIF) :
    (s.logErr page l0 l1 l2).reg p o = s.reg p o := by
  have hraw : (s.logRaw page l0 l1 l2).reg p o = s.reg p o := by
    unfold State.logRaw
    split
    · exact State.setInt_other ho s _ h hw
    · have hno : ¬(fld l0 28 3 = 1) := by omega
      simp only [State.wakeHw, if_neg hno]
      rw [State.setReg64_quiet _ _ _ _ _ _ ho (by decide) (.inl h), State.setReg64_quiet _ _ _ _ _ _ ho (by decide) (.inl h),
        State.setReg_quiet _ _ _ _ _ _ ho (by decide) (.inl h), State.setReg_quiet _ _ _ _ _ _ ho (by decide) (.inl h),
        State.setReg_quiet _ _ _ _ _ _ ho (by decide) (.inl h)]
  simp only [State.logErr, State.trcFault, if_pos hf]
  split <;> exact hraw

end

theorem State.dumpDone_other (s : State) {p o : Nat} (ho : o < 0x1000) (h : p ≠ pgMD) (hw : p ≠ pgHIF) :
    s.dumpDone.reg p o = s.reg p o := by
  unfold State.dumpDone
  dsimp only
  rw [State.setInt_other ho _ _ h hw]
  split
  · rfl
  · exact State.logErr_other ho s _ _ (by decide) h hw

/-! Registers that no report writes. -/

theorem State.floodAlarm_quiet (s : State) (w : Nat) (skip : Option Nat) {p o : Nat} (h : Quiet p o) :
    (s.floodAlarm w skip).reg p o = s.reg p o := by
  unfold State.floodAlarm
  dsimp only
  refine (State.reg_congr (foldl_regs (fun a q => a.sendAlarm q w) (fun _ _ => rfl) _ _) p o).trans ?_
  exact (State.trc_quiet _ _ _ _ _ h).trans (State.reg_congr rfl _ _)

theorem State.raiseAlarm_quiet (s : State) (w : Nat) {p o : Nat} (h : Quiet p o) : (s.raiseAlarm w).reg p o = s.reg p o := by
  unfold State.raiseAlarm
  split
  · rfl
  · exact State.floodAlarm_quiet s w none h

theorem State.raiseSched_quiet (s : State) {p o : Nat} (h : Quiet p o) : s.raiseSched.reg p o = s.reg p o := by
  unfold State.raiseSched
  split
  · exact (State.raiseAlarm_quiet _ _ h).trans (State.reg_congr (State.holdStop_keeps _ _).2.2.1 _ _)
  · rfl

theorem State.pushRec_quiet (s : State) (c : Nat) (r : FaultRec) {p o : Nat} (h : Quiet p o) : (s.pushRec c r).reg p o = s.reg p o := by
  have hwake : ∀ (z : State) (l : Nat), (z.wakeHw l).reg p o = z.reg p o := by
    intro z l
    unfold State.wakeHw
    split
    · exact State.wakeReason_quiet z 3 h
    · rfl
  unfold State.pushRec
  dsimp only
  rw [hwake, State.setInt_quiet _ _ _ h]
  split
  · unfold State.trcFault
    split
    · rfl
    · exact (State.trc_quiet _ _ _ _ _ h).trans (State.reg_congr rfl _ _)
  · exact (State.setInt_quiet _ _ _ h).trans (State.reg_congr rfl _ _)

/-- A counter that no report writes counts by what is counted, up to its largest value (R141). -/
theorem State.reg_cnt_same (s : State) (page o n : Nat) : (s.cnt page o n).reg page o = satAt max32 (s.reg page o + n) := by
  have hle : satAt max32 (s.reg page o + n) < 2 ^ 32 := by unfold satAt max32; split <;> omega
  rw [State.cnt, State.reg_setReg_same, Nat.mod_eq_of_lt hle]

theorem State.setInt_bit_rst (s : State) {bit : Nat} (hb : bit < 32) : bitAt ((s.setInt pgRST bit).reg pgRST 0x10) bit = true := by
  have hraise : s.setInt pgRST bit = s.raiseInt pgRST bit := by simp [State.setInt, pgRST, pgSCH, pgCTX, pgPWR]
  rw [hraise]
  exact State.raiseInt_bit s pgRST hb

end Sys2Proof.Machine
end

section
/-! PROOFS. What ticks leave (R134, R189, R202): the registers but those of the two counters of waking cores and stalled streams, and of
every thread all but its progress count. -/

namespace Sys2Proof.Machine

open Sys2Proof

/-! Registers and resets. -/

/-- A register that neither a report nor the passing of time writes. -/
structure Untimed (p o : Nat) : Prop extends Quiet p o where
  wakes : p = pgSCH → o ≠ 0x88
  stalls : p = pgVDT → o ≠ 0xB4

theorem elapse_reg {p o : Nat} (h : Untimed p o) (n : Nat) (s : State) : (elapse n s).reg p o = s.reg p o := by
  have hwakes : p ≠ pgSCH ∨ o ≠ 0x88 := by by_cases e : p = pgSCH; exacts [.inr (h.wakes e), .inl e]
  have hstalls : p ≠ pgVDT ∨ o ≠ 0xB4 := by by_cases e : p = pgVDT; exacts [.inr (h.stalls e), .inl e]
  unfold elapse
  dsimp only
  split
  · rfl
  · refine (State.reg_congr (State.ackStream_keeps _ n).2.2.1 p o).trans ?_
    split
    · split
      · rfl
      · exact State.cnt_quiet s p o _ _ _ h.low (by decide) hwakes
    · rw [State.cnt_quiet _ p o _ _ _ h.low (by decide) hstalls]
      split
      · rfl
      · exact State.cnt_quiet s p o _ _ _ h.low (by decide) hwakes

theorem elapse_rst (n : Nat) (s : State) : ∃ wd, (elapse n s).rst = { s.rst with wdPart := wd } := by
  by_cases h : n = 0 ∨ s.pwr.mainOk = false
  · exact ⟨s.rst.wdPart, by rw [elapse_still h]⟩
  · refine ⟨if s.sch.job == .running || s.sch.job == .rewinding then s.rst.wdPart + n else s.rst.wdPart, ?_⟩
    simp only [elapse, if_neg h]
    split <;> rfl

/-! Threads. -/

/-- A thread once `m` core cycles' ticks have passed for it: `prog` says that its progress counter counts (R134). -/
def Thread.passed (prog : Bool) (m : Nat) (x : Thread) : Thread :=
  if prog && x.counts then { x with pcnt := satAt max32 (x.pcnt + m) } else x

theorem Core.clockTo_threads (t0 t1 : Nat) (k : Core) : (k.clockTo t0 t1).1.threads = k.threads := by
  unfold Core.clockTo
  (repeat' split) <;> rfl

theorem Core.thread_passed (s : State) (n c : Nat) (k : Core) (t : Nat) : (k.passed s n c).thread t =
    (k.thread t).passed (s.inSpan && bitAt (s.reg (pgCORE c) 0x40) 0) (k.clockTo s.tick (s.tick + n)).2 := by
  have hdefault : ∀ (prog : Bool) (m : Nat), Thread.passed prog m {} = {} := by intro prog m; cases prog <;> rfl
  have hthreads : (k.passed s n c).threads = if s.inSpan && bitAt (s.reg (pgCORE c) 0x40) 0 then
      Store.mapVals (fun _ x => if x.counts then { x with pcnt := satAt max32 (x.pcnt + (k.clockTo s.tick (s.tick + n)).2) } else x)
        k.threads else k.threads := by
    rw [← Core.clockTo_threads s.tick (s.tick + n) k]
    unfold Core.passed
    dsimp only
    split <;> rfl
  simp only [Core.thread, hthreads]
  split
  · next hp =>
    rw [Store.get_mapVals, hp]
    cases hx : Store.find k.threads t with
    | none => rw [Store.get_of_find_none _ hx, hdefault]; rfl
    | some x => rw [Store.get_of_find_some _ hx]; simp [Thread.passed]
  · next hp => simp [Thread.passed, hp]

/-- A thread's progress count apart, ticks leave it as it was. -/
theorem State.thread_elapse (n : Nat) (s : State) (c t : Nat) :
    ∃ p, (elapse n s).thread c t = { s.thread c t with pcnt := p } := by
  simp only [State.thread]
  rcases State.core_elapse n s c with h | h
  · exact ⟨_, by rw [h]⟩
  · rw [h, Core.thread_passed]
    unfold Thread.passed
    split
    · exact ⟨_, rfl⟩
    · exact ⟨_, rfl⟩

theorem State.core_elapse_passed {n : Nat} {s : State} {c : Nat} (hn : n ≠ 0) (hm : s.pwr.mainOk = true) (hc : s.core c ≠ {}) :
    (elapse n s).core c = (s.core c).passed s n c := by
  have h : ¬(n = 0 ∨ s.pwr.mainOk = false) := by simp [hn, hm]
  simp only [State.core, elapse_cores h, Store.get_mapVals]
  cases hk : Store.find s.cores c with
  | none => exact (hc (Store.get_of_find_none _ hk)).elim
  | some k => rw [Store.get_of_find_some _ hk]; rfl

/-- The progress counter of a thread that counts, on a core that runs user work, counts ticks (R134). -/
theorem State.pcnt_elapse {s : State} {c t : Nat} (hm : s.pwr.mainOk = true) (hs : s.inSpan = true)
    (he : bitAt (s.reg (pgCORE c) 0x40) 0 = true) (hk : (s.core c).clocked = true) (hx : (s.thread c t).counts = true) (n : Nat) :
    ((elapse n s).thread c t).pcnt = if n = 0 then (s.thread c t).pcnt else satAt max32 ((s.thread c t).pcnt + n) := by
  split
  · next hn => rw [elapse_still (.inl hn)]
  · next hn =>
    have hc : s.core c ≠ {} := fun h0 => by
      rw [State.thread, h0] at hx
      exact Bool.false_ne_true hx
    have hticks : ((s.core c).clockTo s.tick (s.tick + n)).2 = n := by
      simp [Core.clockTo, hk]
    have hthread : (elapse n s).thread c t = (s.thread c t).passed true n := by
      rw [State.thread, State.core_elapse_passed hn hm hc, Core.thread_passed, hticks, hs, he]
      rfl
    simp [hthread, Thread.passed, hx]

end Sys2Proof.Machine
end

section
/-! PROOFS. Watchdogs of threads, cores and the partition (R134, R464, R510): what an expiry reports, and which class of fault it is. -/

namespace Sys2Proof.Machine

open Sys2Proof

theorem untimed_of_ne {o : Nat} (h : o < 0x1000 ∧ 0x40 ≤ o ∧ o ∉ [0x50, 0x78, 0x80, 0x88, 0xB4]) (p : Nat) : Untimed p o := by
  simp only [List.mem_cons, List.not_mem_nil, or_false, not_or] at h
  constructor
  · constructor <;> intros <;> omega
  · omega
  · omega

/-! Faults raised (R34, R348, R510). -/

theorem State.raiseHw_raises {s : State} (h : s.sch.job = .running ∨ s.sch.job = .rewinding) :
    s.raiseHw.pie.raises = s.pie.raises ++ [{ tick := s.tick }] := by
  rcases h with h | h <;> simp [State.raiseHw, State.raiseWith, h]

theorem State.raiseHw_idle {s : State} (h1 : s.sch.job ≠ .running) (h2 : s.sch.job ≠ .rewinding) : s.raiseHw = s := by
  unfold State.raiseHw State.raiseWith
  split
  · next h => exact (h1 h).elim
  · next h => exact (h2 h).elim
  · rfl

theorem State.mem_holdStop (s : State) (n : Nat) : n ∈ (s.holdStop n).sch.stops := by
  unfold State.holdStop
  split
  · next h => simpa using h
  · simp

/-- A schedule fault holds the STOP word of the span that it counts against (R510). -/
theorem State.raiseSched_stops {s : State} (h : s.holdsStops = true) : s.faultSpan % 256 ∈ s.raiseSched.sch.stops := by
  simp only [State.raiseSched, h, if_true, State.raiseAlarm_keeps]
  exact s.mem_holdStop _

theorem State.raiseSched_idle {s : State} (h : s.holdsStops = false) : s.raiseSched = s := by
  simp [State.raiseSched, h]

/-- The span that a fault counts against is told from the schedule and the tick (R345). -/
theorem State.faultSpan_congr {s u : State} (hs : u.sch = s.sch) (ht : u.tick = s.tick) : u.faultSpan = s.faultSpan := by
  have hdepends : ∀ z : State, z.faultSpan = State.faultSpan { sch := z.sch, tick := z.tick } := fun _ => rfl
  rw [hdepends u, hdepends s, hs, ht]

theorem State.faultSpan_inSpan {s : State} (h : s.inSpan = true) : s.faultSpan = s.sch.seq := by
  simp only [State.inSpan, Bool.and_eq_true, beq_iff_eq] at h
  simp only [State.faultSpan, h.2]

theorem State.holdsStops_congr {s u : State} (hs : u.sch = s.sch) : u.holdsStops = s.holdsStops := by
  simp only [State.holdsStops, hs]

/-- A schedule fault of a core's unit in a span counts against that span (R137, R510). -/
theorem State.coreFault_sched_stops {s : State} (h : s.inSpan = true) (c unit cause thread ctx gen pc addr : Nat) :
    s.sch.seq % 256 ∈ (s.coreFault c .sched unit cause thread ctx gen pc addr).sch.stops := by
  have hsch : ∀ r, (s.pushRec c r).sch = s.sch := fun r => by simp
  have hspan : ∀ r, (s.pushRec c r).inSpan = true := fun r => by rw [State.inSpan, hsch]; exact h
  have hholds : ∀ r, (s.pushRec c r).holdsStops = true := fun r => by
    simp only [State.inSpan, Bool.and_eq_true] at h
    simp [State.holdsStops, h.1]
  have hstops := fun r => State.raiseSched_stops (hholds r)
  simp only [State.faultSpan_inSpan (hspan _), hsch] at hstops
  exact hstops _

/-! A thread's progress counter (R134). -/

/-- A thread whose progress counter reaches its window: it counts, and has not expired at the present tick with its window full. -/
def State.progressDue (s : State) (c t : Nat) : Prop :=
  s.inSpan = true ∧ bitAt (s.reg (pgCORE c) 0x40) 0 = true ∧ (s.core c).clocked = true ∧ (s.core c).inReset = false ∧
    (s.thread c t).counts = true ∧ (s.thread c t).pcnt ≤ (s.thread c t).pwin ∧ 0 < (s.thread c t).pwin ∧
    ¬((s.thread c t).pcnt = (s.thread c t).pwin ∧ (s.thread c t).expiredAt = some s.tick)

/-- The expiry marked in its thread, counted, and reported (R134, R140). -/
def State.expire (z : State) (c t : Nat) : State :=
  ((z.setThread c t { z.thread c t with expired := some z.sch.seq, expiredAt := some z.tick }).cnt (pgCORE c) 0x84 1).setInt (pgCORE c) 3

theorem State.progressDue_iff (s : State) (c t : Nat) : s.progressDue c t ↔
    (s.inSpan && bitAt (s.reg (pgCORE c) 0x40) 0 && (s.core c).clocked && !(s.core c).inReset && (s.thread c t).counts &&
      decide ((s.thread c t).pcnt ≤ (s.thread c t).pwin) && decide (0 < (s.thread c t).pwin) &&
      !((s.thread c t).pcnt == (s.thread c t).pwin && (s.thread c t).expiredAt == some s.tick)) = true := by
  simp only [State.progressDue, Bool.and_eq_true, Bool.not_eq_true', decide_eq_true_eq, Bool.and_eq_false_iff, beq_eq_false_iff_ne,
    not_and_or, and_assoc, ne_eq]

theorem exec_progressExpiry_idle {s : State} {c : Fin 256} {t : Fin 16} (h : ¬s.progressDue c t) :
    exec (.progressExpiry c t) s = .next s :=
  congrArg Host.Outcome.next (if_pos (by rw [Bool.not_eq_true', ← Bool.not_eq_true]; exact fun hb => h ((s.progressDue_iff c t).mpr hb)))

/-- An expiry is a hardware fault, unless the thread has expired in the span before: then it is a schedule fault (R134). -/
def State.expireFaults (z : State) (c t : Nat) : State :=
  let y := z.thread c t
  if y.expired = some z.sch.seq then ((z.expire c t).coreFault c .sched 0 9 t y.tag.1 y.tag.2 y.a.pc 0).setInt (pgCORE c) 4
  else (z.expire c t).coreFault c .hw 0 1 t y.tag.1 y.tag.2 y.a.pc 0

theorem exec_progressExpiry_due {s : State} {c : Fin 256} {t : Fin 16} (h : s.progressDue c t) : exec (.progressExpiry c t) s =
    .next ((elapse ((s.thread c t).pwin - (s.thread c t).pcnt) s).expireFaults c t) :=
  congrArg Host.Outcome.next (if_neg (by rw [Bool.not_eq_true', (s.progressDue_iff c t).mp h]; exact Bool.noConfusion))

theorem SameCores.coreFault_hw (s : State) (c unit cause thread ctx gen pc addr : Nat) :
    SameCores (s.coreFault c .hw unit cause thread ctx gen pc addr) s :=
  (SameCores.of_cores (State.raiseHw_keeps _).2.2.2.1).trans (SameCores.pushRec _ _ _)

section
variable (z : State) (c t : Nat)

theorem State.expire_thread : (z.expire c t).thread c t = { z.thread c t with expired := some z.sch.seq, expiredAt := some z.tick } :=
  ((SameCores.of_cores (by simp [State.expire])).thread c t).trans (State.thread_setThread_same z c t _)

/-- The expiry itself changes its thread, a counter and the interrupt. -/
theorem State.expire_keeps : (z.expire c t).tick = z.tick ∧ (z.expire c t).sch = z.sch ∧ (z.expire c t).pie = z.pie := by
  simp [State.expire]

theorem State.expire_count : (z.expire c t).reg (pgCORE c) 0x84 = satAt max32 (z.reg (pgCORE c) 0x84 + 1) := by
  have hquiet : Quiet (pgCORE c) 0x84 := (untimed_of_ne (by decide) _).toQuiet
  rw [State.expire, State.setInt_quiet _ _ _ hquiet, State.reg_cnt_same]
  rfl

/-- A fault that follows an expiry changes no thread and no counter of its core. -/
theorem State.expireFaults_thread : (z.expireFaults c t).thread c t = (z.expire c t).thread c t := by
  unfold State.expireFaults
  dsimp only
  split
  · exact (((SameCores.of_cores (State.setInt_keeps _ _ _).2.2.1).trans (SameCores.coreFault_sched _ _ _ _ _ _ _ _ _)).thread c t)
  · exact (SameCores.coreFault_hw _ _ _ _ _ _ _ _ _).thread c t

theorem State.expireFaults_count : (z.expireFaults c t).reg (pgCORE c) 0x84 = satAt max32 (z.reg (pgCORE c) 0x84 + 1) := by
  have hquiet : Quiet (pgCORE c) 0x84 := (untimed_of_ne (by decide) _).toQuiet
  rw [← State.expire_count]
  unfold State.expireFaults
  dsimp only
  split
  · rw [State.setInt_quiet _ _ _ hquiet]
    exact (State.raiseSched_quiet _ hquiet).trans (State.pushRec_quiet _ _ _ hquiet)
  · exact (State.reg_congr (State.raiseHw_keeps _).2.2.1 _ _).trans (State.pushRec_quiet _ _ _ hquiet)

theorem State.expireFaults_tick : (z.expireFaults c t).tick = z.tick := by
  unfold State.expireFaults
  dsimp only
  split <;> simp [State.expire]

variable {z c t} (hz : z.inSpan = true)
include hz

/-- A first expiry is raised as a hardware fault, and the schedule is as it was (R34, R134). -/
theorem State.expireFaults_first (he : (z.thread c t).expired ≠ some z.sch.seq) :
    (z.expireFaults c t).pie.raises = z.pie.raises ++ [{ tick := z.tick }] ∧ (z.expireFaults c t).sch = z.sch := by
  have hjob : z.sch.job = .running := by
    simp only [State.inSpan, Bool.and_eq_true, beq_iff_eq] at hz
    exact hz.1
  unfold State.expireFaults
  dsimp only
  rw [if_neg he]
  simp [State.coreFault, State.raiseClass, State.raiseHw_raises, hjob, State.expire_keeps]

/-- A second one is a schedule fault of the span (R134, R510). -/
theorem State.expireFaults_again (he : (z.thread c t).expired = some z.sch.seq) :
    z.sch.seq % 256 ∈ (z.expireFaults c t).sch.stops ∧ (z.expireFaults c t).pie.raises = z.pie.raises := by
  obtain ⟨-, hsch, hpie⟩ := z.expire_keeps c t
  have hspan : (z.expire c t).inSpan = true := by rw [State.inSpan, hsch]; exact hz
  unfold State.expireFaults
  dsimp only
  rw [if_pos he]
  refine ⟨?_, by simp [State.coreFault, State.raiseClass, hpie]⟩
  rw [(State.setInt_keeps _ _ _).2.2.2.2.1, ← hsch]
  exact State.coreFault_sched_stops hspan _ _ _ _ _ _ _ _

end

/-! A core's watchdog (R464). -/

/-- A core whose watchdog reaches its limit: it is enabled, and a thread of the core has waited on a keystone. -/
def State.watchdogDue (s : State) (c : Nat) : Prop :=
  fld (s.reg pgRST 0x44) 0 16 * 1000 ≠ 0 ∧ (∃ p ∈ (s.core c).threads, p.2.onKey = true) ∧ (s.core c).inReset = false ∧
    (s.core c).wd ≤ fld (s.reg pgRST 0x44) 0 16 * 1000

/-- The core's watchdog past its limit. -/
def State.watchdogOver (s : State) (c : Nat) : State :=
  let limit := fld (s.reg pgRST 0x44) 0 16 * 1000
  (elapse (limit - (s.core c).wd) s).modCore c (fun k => { k with wd := limit + 1 })

theorem exec_coreWatchdog_idle {s : State} {c : Fin 256} (h : ¬s.watchdogDue c) : exec (.coreWatchdog c) s = .next s := by
  refine congrArg Host.Outcome.next (if_pos ?_)
  by_contra hno
  simp only [not_or, Bool.not_eq_true', Bool.not_eq_false, List.any_eq_true, not_lt] at hno
  exact h ⟨hno.1, hno.2.1, Bool.not_eq_true _ ▸ hno.2.2.1, hno.2.2.2⟩

theorem exec_coreWatchdog_due {s : State} {c : Fin 256} (h : s.watchdogDue c) :
    exec (.coreWatchdog c) s = .next ((s.watchdogOver c).coreBarks c (c % 16 / 8 + 2 * (c / 128))) := by
  obtain ⟨hl, hk, hr, hw⟩ := h
  refine congrArg Host.Outcome.next (if_neg ?_)
  simp only [not_or, Bool.not_eq_true', Bool.not_eq_false, List.any_eq_true, not_lt]
  exact ⟨hl, hk, by simp [hr], hw⟩

/-- What a core watchdog reports before the fault that it raises: the span of its last expiry, a count, a record and an interrupt. -/
def State.barked (z : State) (c die : Nat) : State :=
  let again := Store.find z.rst.coreWdSpan c == some z.sch.seq
  ((({ z with rst := { z.rst with coreWdSpan := Store.insert z.rst.coreWdSpan c z.sch.seq } }).cnt pgRST 0x60 1).rstLog
    (if again then 3 else 1) (if again then 2 else 1) die c).setInt pgRST 3

section
variable (z : State) (c die : Nat)

theorem State.coreBarks_first (h : Store.find z.rst.coreWdSpan c ≠ some z.sch.seq) : z.coreBarks c die = (z.barked c die).raiseHw :=
  if_neg (by simpa using h)

theorem State.coreBarks_again (h : Store.find z.rst.coreWdSpan c = some z.sch.seq) : z.coreBarks c die = (z.barked c die).raiseSched :=
  if_pos (by simpa using h)

theorem Reported.barked :
    Reported { z with rst := { z.rst with coreWdSpan := Store.insert z.rst.coreWdSpan c z.sch.seq } } (z.barked c die) := by
  unfold State.barked
  exact ((Reported.cnt _ _ _ _).trans (Reported.rstLog _ _ _ _ _)).trans (Reported.setInt _ _ _)

theorem State.barked_count : (z.barked c die).reg pgRST 0x60 = satAt max32 (z.reg pgRST 0x60 + 1) := by
  have hquiet : Quiet pgRST 0x60 := (untimed_of_ne (by decide) _).toQuiet
  rw [State.barked, State.setInt_quiet _ _ _ hquiet]
  exact (State.logErr_quiet _ _ _ _ _ hquiet).trans (State.reg_cnt_same _ _ _ _)

/-- Either fault leaves what the watchdog has reported. -/
theorem State.coreBarks_leaves : (z.coreBarks c die).tick = z.tick ∧ (z.coreBarks c die).cores = z.cores ∧
    (z.coreBarks c die).rst = { z.rst with coreWdSpan := Store.insert z.rst.coreWdSpan c z.sch.seq } ∧
    (z.coreBarks c die).reg pgRST 0x60 = satAt max32 (z.reg pgRST 0x60 + 1) := by
  have hb := Reported.barked z c die
  have hquiet : Quiet pgRST 0x60 := (untimed_of_ne (by decide) _).toQuiet
  by_cases h : Store.find z.rst.coreWdSpan c = some z.sch.seq
  · rw [z.coreBarks_again c die h, State.raiseSched_quiet _ hquiet, z.barked_count c die]
    simp [hb.time, hb.cores, hb.power]
  · rw [z.coreBarks_first c die h, State.reg_congr (State.raiseHw_keeps _).2.2.1, z.barked_count c die]
    simp [hb.time, hb.cores, hb.power]

end

section
variable (s : State) (c : Nat)

theorem State.watchdogOver_keeps : (s.watchdogOver c).tick = (elapse (fld (s.reg pgRST 0x44) 0 16 * 1000 - (s.core c).wd) s).tick ∧
    (s.watchdogOver c).sch = s.sch ∧ (s.watchdogOver c).pie = s.pie := by
  simp [State.watchdogOver]

theorem State.watchdogOver_wd : ((s.watchdogOver c).core c).wd = fld (s.reg pgRST 0x44) 0 16 * 1000 + 1 := by
  simp [State.watchdogOver, State.modCore]

theorem State.watchdogOver_rst : ∃ wd, (s.watchdogOver c).rst = { s.rst with wdPart := wd } := elapse_rst _ s

theorem State.watchdogOver_reg {p o : Nat} (h : Untimed p o) : (s.watchdogOver c).reg p o = s.reg p o :=
  (State.reg_congr rfl p o).trans (elapse_reg h _ s)

end

/-! The partition's watchdog (R464). -/

/-- A partition whose watchdog reaches its limit: it is enabled, and no pier has sealed while the job runs or rewinds. -/
def State.partitionDue (s : State) : Prop :=
  fld (s.reg pgRST 0x44) 16 8 * 1000000 ≠ 0 ∧ (s.sch.job = .running ∨ s.sch.job = .rewinding) ∧
    s.rst.wdPart ≤ fld (s.reg pgRST 0x44) 16 8 * 1000000

/-- The partition's watchdog past its limit, with its count, its record and its interrupt. -/
def State.partitionBarked (s : State) (limit : Nat) : State :=
  let z := elapse (limit - s.rst.wdPart) s
  ((({ z with rst := { z.rst with wdPart := limit + 1 } }).cnt pgRST 0x60 1).rstLog 0 3 0 0).setInt pgRST 3

theorem exec_partitionWatchdog_idle {s : State} (h : ¬s.partitionDue) : exec .partitionWatchdog s = .next s := by
  refine congrArg Host.Outcome.next (if_pos ?_)
  by_contra hno
  simp only [not_or, Bool.not_eq_true', Bool.not_eq_false, Bool.or_eq_true, beq_iff_eq, not_lt] at hno
  exact h hno

theorem exec_partitionWatchdog_due {s : State} (h : s.partitionDue) : exec .partitionWatchdog s =
    .next (s.partitionBarked (fld (s.reg pgRST 0x44) 16 8 * 1000000)).raiseStop := by
  obtain ⟨hl, hj, hw⟩ := h
  refine congrArg Host.Outcome.next (if_neg ?_)
  simp only [not_or, Bool.not_eq_true', Bool.not_eq_false, Bool.or_eq_true, beq_iff_eq, not_lt]
  exact ⟨hl, hj, hw⟩

theorem Reported.partitionBarked (s : State) (limit : Nat) : Reported
    { elapse (limit - s.rst.wdPart) s with rst := { (elapse (limit - s.rst.wdPart) s).rst with wdPart := limit + 1 } }
    (s.partitionBarked limit) := by
  unfold State.partitionBarked
  exact ((Reported.cnt _ _ _ _).trans (Reported.rstLog _ _ _ _ _)).trans (Reported.setInt _ _ _)

theorem State.retireSwitch_contents (s : State) : s.retireSwitch.mem.dev = s.mem.dev ∧ s.retireSwitch.mem.cap = s.mem.cap := by
  unfold State.retireSwitch
  split <;> simp [State.descChanged_frame]

theorem State.retireQuiet_contents (s : State) : s.retireQuiet.mem.dev = s.mem.dev ∧ s.retireQuiet.mem.cap = s.mem.cap := by
  unfold State.retireQuiet
  (repeat' split) <;> simp [State.retireSwitch_contents]

/-- A change of the job state leaves the contents of the memories (R29). -/
theorem State.setJob_contents (s : State) (j : Job) : (s.setJob j).mem.dev = s.mem.dev ∧ (s.setJob j).mem.cap = s.mem.cap := by
  unfold State.setJob
  split
  · simp
  · dsimp only
    simp only [State.retireQuiet_contents]
    (repeat' split) <;> simp [State.refreshMask_frame, State.ctxRefuse, State.lostReturns]

/-- A STOP raised while a job runs or rewinds stops it at once (R29, R234). -/
theorem State.raiseStop_eq {s : State} (h : s.sch.job = .running ∨ s.sch.job = .rewinding) :
    s.raiseStop = (s.raiseAlarm (alarmWord 3 s.devId 0)).setJob .stopped := by
  have hbit : bitAt 0 8 = false := by decide
  rcases h with h | h <;> simp [State.raiseStop, State.takeStop, hbit, h]

end Sys2Proof.Machine
end

section
/-! PROOFS. The expiries of progress counters, core watchdogs and the partition watchdog (R134, R464, R510). -/

namespace Sys2Proof.Machine

open Sys2Proof

section
variable {s : State} {c t : Nat} (h : s.progressDue c t)
include h

/-- Until the expiry the thread's progress counter counts, and the ticks change nothing else of it. -/
theorem State.progressDue_reaches (hm : s.pwr.mainOk = true) (hw : (s.thread c t).pwin ≤ max32) :
    ((elapse ((s.thread c t).pwin - (s.thread c t).pcnt) s).thread c t).pcnt = (s.thread c t).pwin := by
  obtain ⟨hspan, hen, hclk, -, hcounts, hle, -, -⟩ := h
  rw [State.pcnt_elapse hm hspan hen hclk hcounts]
  unfold satAt
  (repeat' split) <;> omega

/-- An expiry as the thread, the counter and the fault show it (R134, R140). -/
theorem State.progressDue_reports :
    let u := (elapse ((s.thread c t).pwin - (s.thread c t).pcnt) s).expireFaults c t
    u.tick = (elapse ((s.thread c t).pwin - (s.thread c t).pcnt) s).tick ∧ (u.thread c t).expired = some s.sch.seq ∧
    (s.pwr.mainOk = true → (s.thread c t).pwin ≤ max32 → (u.thread c t).pcnt = (s.thread c t).pwin) ∧
    u.reg (pgCORE c) 0x84 = satAt max32 (s.reg (pgCORE c) 0x84 + 1) ∧
    ((s.thread c t).expired ≠ some s.sch.seq → u.pie.raises = s.pie.raises ++ [{ tick := u.tick }] ∧ u.sch = s.sch) ∧
    ((s.thread c t).expired = some s.sch.seq → s.sch.seq % 256 ∈ u.sch.stops ∧ u.pie.raises = s.pie.raises) := by
  have hspan : s.inSpan = true := h.1
  have hreach := State.progressDue_reaches h
  dsimp only
  generalize hn : (s.thread c t).pwin - (s.thread c t).pcnt = n at hreach ⊢
  obtain ⟨p, hp⟩ := State.thread_elapse n s c t
  have hsch : (elapse n s).sch = s.sch := by simp
  have hpie : (elapse n s).pie = s.pie := by simp
  have hin : (elapse n s).inSpan = true := by rw [State.inSpan, hsch]; exact hspan
  have hthread : ((elapse n s).expireFaults c t).thread c t =
      { (elapse n s).thread c t with expired := some s.sch.seq, expiredAt := some (elapse n s).tick } := by
    rw [State.expireFaults_thread, State.expire_thread, hsch]
  have hexp : ((elapse n s).thread c t).expired = (s.thread c t).expired := by rw [hp]
  refine ⟨State.expireFaults_tick _ _ _, by rw [hthread], fun hm hw => ?_, ?_, fun he => ?_, fun he => ?_⟩
  · rw [hthread]
    exact hreach hm hw
  · rw [State.expireFaults_count, elapse_reg (untimed_of_ne (by decide) _)]
  · rw [← hexp, ← hsch] at he
    rw [State.expireFaults_tick, ← hpie, ← hsch]
    exact State.expireFaults_first hin he
  · rw [← hexp, ← hsch] at he
    rw [← hpie, ← hsch]
    exact State.expireFaults_again hin he

end

/-! A core's watchdog. -/

section
variable (s : State) (c die : Nat)

/-- A core watchdog's expiry: the core, the counts, and the fault that it raises (R464). -/
theorem State.coreBarks_reports :
    let limit := fld (s.reg pgRST 0x44) 0 16 * 1000
    let z := elapse (limit - (s.core c).wd) s
    let u := (s.watchdogOver c).coreBarks c die
    u.tick = z.tick ∧ (u.core c).wd = limit + 1 ∧
    Store.find u.rst.coreWdSpan c = some s.sch.seq ∧ u.reg pgRST 0x60 = satAt max32 (s.reg pgRST 0x60 + 1) ∧
    (Store.find s.rst.coreWdSpan c ≠ some s.sch.seq → s.sch.job = .running ∨ s.sch.job = .rewinding →
      u.pie.raises = s.pie.raises ++ [{ tick := z.tick }]) ∧
    (Store.find s.rst.coreWdSpan c ≠ some s.sch.seq → u.sch = s.sch ∧
      (s.sch.job ≠ .running → s.sch.job ≠ .rewinding → u.pie = s.pie)) ∧
    (Store.find s.rst.coreWdSpan c = some s.sch.seq → u.pie = s.pie ∧
      (s.holdsStops = true → z.faultSpan % 256 ∈ u.sch.stops) ∧ (s.holdsStops = false → u.sch = s.sch)) := by
  dsimp only
  obtain ⟨htick, hsch, hpie⟩ := s.watchdogOver_keeps c
  obtain ⟨wd, hrst⟩ := s.watchdogOver_rst c
  obtain ⟨utick, ucores, urst, ucount⟩ := (s.watchdogOver c).coreBarks_leaves c die
  have hb := Reported.barked (s.watchdogOver c) c die
  have bsch : ((s.watchdogOver c).barked c die).sch = s.sch := hb.job.1.trans hsch
  have bpie : ((s.watchdogOver c).barked c die).pie = s.pie := hb.job.2.trans hpie
  have btick := hb.time.1.trans htick
  have hspan : Store.find (s.watchdogOver c).rst.coreWdSpan c = some (s.watchdogOver c).sch.seq ↔
      Store.find s.rst.coreWdSpan c = some s.sch.seq := by rw [hrst, hsch]
  refine ⟨utick.trans htick, ?_, ?_, ?_, fun he hj => ?_, fun he => ?_, fun he => ?_⟩
  · rw [State.core_congr ucores c, s.watchdogOver_wd c]
  · rw [urst, hsch]
    rw [Store.find_insert, if_pos rfl]
  · rw [ucount, s.watchdogOver_reg c (untimed_of_ne (by decide) _)]
  · rw [State.coreBarks_first _ c die (mt hspan.mp he), State.raiseHw_raises (by rw [bsch]; exact hj), bpie, btick]
  · rw [State.coreBarks_first _ c die (mt hspan.mp he)]
    exact ⟨by simp [bsch], fun h1 h2 => by rw [State.raiseHw_idle (by rw [bsch]; exact h1) (by rw [bsch]; exact h2), bpie]⟩
  · rw [State.coreBarks_again _ c die (hspan.mpr he)]
    refine ⟨by simp [bpie], fun hs => ?_, fun hs => ?_⟩
    · have hz : (elapse (fld (s.reg pgRST 0x44) 0 16 * 1000 - (s.core c).wd) s).faultSpan =
          ((s.watchdogOver c).barked c die).faultSpan :=
        State.faultSpan_congr (by rw [bsch]; simp) btick.symm
      rw [hz]
      exact State.raiseSched_stops ((State.holdsStops_congr bsch).trans hs)
    · rw [State.raiseSched_idle ((State.holdsStops_congr bsch).trans hs), bsch]

end

/-- The partition watchdog's expiry raises STOP (R464). -/
theorem State.partitionBarked_stops {s : State} (h : s.sch.job = .running ∨ s.sch.job = .rewinding) (limit : Nat) :
    let u := (s.partitionBarked limit).raiseStop
    u.sch.job = .stopped ∧ u.rst.wdPart = limit + 1 ∧ u.tick = (elapse (limit - s.rst.wdPart) s).tick ∧ u.mem.dev = s.mem.dev ∧
      u.mem.cap = s.mem.cap := by
  have hb := Reported.partitionBarked s limit
  have hsch : (s.partitionBarked limit).sch = s.sch := hb.job.1.trans (by simp)
  have hmem : (s.partitionBarked limit).mem = s.mem := hb.memory.trans (by simp)
  dsimp only
  rw [State.raiseStop_eq (by rw [hsch]; exact h)]
  refine ⟨by rw [State.setJob_sch], ?_, ?_, ?_, ?_⟩
  · simp [State.setJob_frame, hb.power]
  · simp [State.setJob_frame, hb.time]
  · simp [State.setJob_contents, hmem]
  · simp [State.setJob_contents, hmem]

end Sys2Proof.Machine
end

section
/-! PROOFS. What the flush of the Sump leaves (R292, R295), and with it what a warm reset keeps and clears (R460, R466). -/

namespace Sys2Proof.Machine

open Sys2Proof

/-- What stands while entries of the Sump close: the sequencer, the clock's alignment, grants and keystones, sealed records, mailboxes,
the resets' state but for the partition watchdog, and the self-test. -/
structure Stands (z u : State) : Prop where
  schedule : u.sch = z.sch
  time : u.frac = z.frac ∧ u.tck = z.tck
  contexts : u.ctx = z.ctx
  sealed : u.buddy.ownSealed = z.buddy.ownSealed ∧ u.buddy.buddySealed = z.buddy.buddySealed
  host : u.host.still = z.host.still
  resets : { u.rst with wdPart := 0 } = { z.rst with wdPart := 0 }
  test : u.trace.test = z.trace.test

theorem Stands.refl (z : State) : Stands z z := by constructor <;> simp

theorem Stands.trans {a b c : State} (h : Stands a b) (g : Stands b c) : Stands a c := by
  obtain ⟨hs, ht, hx, hb, hh, hf, he⟩ := h
  obtain ⟨gs, gt, gx, gb, gh, gf, ge⟩ := g
  constructor <;> simp [*]

theorem Stands.foldl {α : Type} {f : State → α → State} (h : ∀ a x, Stands a (f a x)) (l : List α) (s : State) :
    Stands s (l.foldl f s) := by
  induction l generalizing s with
  | nil => exact Stands.refl s
  | cons x l ih => exact (h s x).trans (ih _)

theorem Settles.stands {z u : State} (h : Settles z u) : Stands z u where
  schedule := h.job.1
  time := h.time.2
  contexts := h.contexts
  sealed := by simp [h.training]
  host := h.host
  resets := by rw [h.power.2]
  test := h.test

theorem Stands.setMem (s : State) (m : MemState) : Stands s { s with mem := m } := by constructor <;> simp

theorem Stands.setSlips (s : State) (l : Store Nat) : Stands s { s with slips := l } := by constructor <;> simp

theorem Stands.raiseHw (s : State) : Stands s s.raiseHw := by constructor <;> simp

theorem Stands.elapse (n : Nat) (s : State) : Stands s (elapse n s) := by
  have hacks : ∀ z : State, (z.ackStream n).buddy.ownSealed = z.buddy.ownSealed ∧
      (z.ackStream n).buddy.buddySealed = z.buddy.buddySealed := by
    intro z
    unfold State.ackStream
    dsimp only
    (repeat' split) <;> simp
  have hsealed : (Machine.elapse n s).buddy.ownSealed = s.buddy.ownSealed ∧
      (Machine.elapse n s).buddy.buddySealed = s.buddy.buddySealed := by
    unfold Machine.elapse
    dsimp only
    (repeat' split) <;> simp [hacks]
  obtain ⟨wd, hrst⟩ := elapse_rst n s
  constructor <;> simp [hsealed, hrst]

/-! A line read and merged (R286, R292). -/

/-- A mismatch, where one has shown itself, is recorded and raised. -/
theorem Stands.memCompare (s : State) (page cause : Nat) : Stands s (s.memCompare page cause) := by
  unfold State.memCompare
  split
  · exact Stands.refl s
  · next h =>
    rw [State.takeSlip_eq h]
    exact ((Stands.setSlips s _).trans (Reported.logErr _ _ _ _ _).stands).trans (Stands.raiseHw _)

theorem Stands.hbmLine (s : State) (line : Nat) : Stands s (s.hbmLine line).1 := by
  have hlane : ∀ (z : State) (found : Option (Store Nat)), Stands z (z.failingLane found).2 := by
    intro z found
    unfold State.failingLane
    split
    · exact Stands.refl z
    · constructor <;> simp [State.free]
  have hcompare := Stands.memCompare s (pgHBM (s.mem.hbmMap (line * 64)).1) 7
  unfold State.hbmLine
  dsimp only
  split
  · exact hcompare
  · split
    · exact hcompare
    · refine hcompare.trans ?_
      split
      · exact (Reported.cnt _ _ _ _).stands
      · exact (((Reported.cnt _ _ _ _).trans (Reported.logErr _ _ _ _ _)).trans (Reported.setInt _ _ _)).stands
    · exact (hcompare.trans (hlane _ _)).trans
        (((Reported.cnt _ _ _ _).trans (Reported.logErr _ _ _ _ _)).trans (Reported.setInt _ _ _)).stands

theorem Stands.settleLine (s : State) (line mask : Nat) : Stands s (s.settleLine line mask) := by
  unfold State.settleLine
  split
  · exact Stands.refl s
  · split
    · exact Stands.setMem s _
    · exact Stands.foldl (fun a _ => Stands.setMem a _) _ _

theorem Stands.waitGroups (s : State) (l : List (Nat × Nat)) : Stands s (s.waitGroups l) := by
  unfold State.waitGroups State.holdAccess
  split
  · split
    · exact (Stands.elapse _ _).trans (Reported.cnt _ _ _ _).stands
    · exact Stands.refl s
  · exact Stands.refl s

theorem Stands.rmwLine (s : State) (line mask : Nat) : Stands s (s.rmwLine line mask).1 := by
  have hread := (Stands.waitGroups s (s.mem.groups (line * 64) 64)).trans (Stands.hbmLine _ line)
  unfold State.rmwLine State.rmwNow
  dsimp only
  split
  · exact hread.trans (Stands.raiseHw _)
  · exact (hread.trans (Stands.settleLine _ _ _)).trans (Stands.setMem _ _)

/-! An entry closes (R292, R295). -/

theorem Stands.sumpCompare (s : State) : Stands s s.sumpCompare := by
  unfold State.sumpCompare
  split
  · exact Stands.refl s
  · next h =>
    rw [State.takeSlip_eq h]
    exact ((Stands.setSlips s _).trans ((Reported.logErr _ _ _ _ _).trans (Reported.setInt _ _ _)).stands).trans (Stands.raiseHw _)

theorem Stands.sumpCorrect (s : State) (e : SumpEntry) : Stands s (s.sumpCorrect e) := by
  unfold State.sumpCorrect
  dsimp only
  split
  · exact Stands.refl s
  · exact ((Reported.cnt _ _ _ _).trans (Reported.setInt _ _ _)).stands

theorem Stands.sumpDiscard (s : State) (e : SumpEntry) : Stands s (s.sumpDiscard e) := by
  have hside : ∀ (a : State) (i : Nat), Stands a (if slotMask e.mask i = 0 then a
      else match e.sides.getD i none with
      | some b => a.sidePoke false ((e.line * 64 - a.mem.userBytes) / 8 + i) b
      | none => { a with mem := { a.mem with devSide := Store.erase a.mem.devSide ((e.line * 64 - a.mem.userBytes) / 8 + i) } }) := by
    intro a i
    split
    · exact Stands.refl a
    · split <;> exact Stands.setMem a _
  unfold State.sumpDiscard
  dsimp only
  refine Stands.trans ?_ (Stands.foldl hside _ _)
  split
  · exact Stands.setMem s _
  · exact Stands.setMem s _

theorem Stands.sumpMerge (s : State) (e : SumpEntry) : Stands s (s.sumpMerge e) := by
  unfold State.sumpMerge
  dsimp only
  split
  · exact (Stands.rmwLine s _ _).trans (Stands.sumpDiscard _ e)
  · exact Stands.rmwLine s _ _

theorem Stands.cnt64 (s : State) (page o n : Nat) : Stands s (s.cnt64 page o n) :=
  ((Reported.setReg s _ _ _).trans (Reported.setReg _ _ _ _)).stands

theorem Stands.sumpCloseEntry (s : State) (e : SumpEntry) : Stands s (s.sumpCloseEntry e) := by
  have hcorrect := (Stands.sumpCompare s).trans (Stands.sumpCorrect _ e)
  unfold State.sumpCloseEntry
  dsimp only
  split
  · have hlog := ((Reported.logErr (s.sumpCompare.sumpCorrect e |>.sumpDiscard e) pgSMP (1 * 2 ^ 28 + 1 * 2 ^ 24 + e.stack * 2 ^ 21 +
      e.group * 2 ^ 18 + e.core) e.line (e.line / 2 ^ 32)).trans (Reported.setInt _ pgSMP 2)).stands
    exact ((hcorrect.trans (Stands.sumpDiscard _ e)).trans hlog).trans (Stands.raiseHw _)
  · refine hcorrect.trans ?_
    generalize s.sumpCompare.sumpCorrect e = z
    have hdrop := Stands.setMem z { z.mem with sump := z.mem.sump.filter (fun x => !(x.core == e.core && x.line == e.line)) }
    split
    · exact ((hdrop.trans (Stands.waitGroups _ _)).trans (Stands.setMem _ _)).trans (Stands.cnt64 _ _ _ _)
    · exact (hdrop.trans (Stands.sumpMerge _ e)).trans (Stands.cnt64 _ _ _ _)

theorem Stands.sumpFlush (s : State) : Stands s s.sumpFlush := Stands.foldl Stands.sumpCloseEntry _ s

/-- With no entry open there is nothing to flush. -/
theorem State.sumpFlush_empty {s : State} (h : s.mem.sump = []) : s.sumpFlush = s := by simp [State.sumpFlush, h]

end Sys2Proof.Machine
end

section
/-! PROOFS. The warm reset (R211, R386, R459, R460, R463, R466): what it clears and what it keeps. -/

namespace Sys2Proof.Machine

open Sys2Proof

/-! The withdrawal, the dump and the test cut off. -/

/-- An alarm word changes what the Viaduct remembers and sends, and the trace. -/
theorem Stands.raiseAlarm (s : State) (w : Nat) : Stands s (s.raiseAlarm w) := by
  have hflood : (s.floodAlarm w none).host.still = s.host.still ∧ (s.floodAlarm w none).trace.test = s.trace.test := by
    unfold State.floodAlarm
    dsimp only
    rw [foldl_keeps (·.host) (fun a q => a.sendAlarm q w) (fun _ _ => rfl),
      foldl_keeps (·.trace) (fun a q => a.sendAlarm q w) (fun _ _ => rfl), State.trc_still, State.trc_test]
    exact ⟨rfl, rfl⟩
  have hraise : (s.raiseAlarm w).host.still = s.host.still ∧ (s.raiseAlarm w).trace.test = s.trace.test := by
    unfold State.raiseAlarm
    split
    · exact ⟨rfl, rfl⟩
    · exact hflood
  constructor <;> simp [hraise]

/-- A withdrawal floods its word and wakes the host. -/
theorem State.warmWithdraw_leaves (s : State) : Stands s s.warmWithdraw ∧ s.warmWithdraw.tick = s.tick ∧
    s.warmWithdraw.cores = s.cores ∧ s.warmWithdraw.mem = s.mem := by
  have hflood : ∀ w, Stands s ((s.raiseAlarm w).wakeReason 6) := fun w =>
    (Stands.raiseAlarm s w).trans (Reported.wakeReason _ _).stands
  unfold State.warmWithdraw
  split
  · exact ⟨hflood _, by simp⟩
  · exact ⟨hflood _, by simp⟩
  · exact ⟨hflood _, by simp⟩
  · exact ⟨Stands.refl s, rfl, rfl, rfl⟩

/-- The dump apart, a dump changes registers. -/
theorem Reported.writeDump (s : State) (type : Nat) : Reported { s with rst := (s.writeDump type).rst } (s.writeDump type) :=
  ⟨by constructor <;> simp [State.writeDump], rfl⟩

/-- Of the resets' state a dump changes its own part. -/
theorem State.writeDump_rst (s : State) (type : Nat) : (s.writeDump type).rst.dump.isSome = true ∧ (s.writeDump type).rst.dumpType = type ∧
    (s.writeDump type).rst.fwExp = s.rst.fwExp ∧ (s.writeDump type).rst.runs = s.rst.runs ∧ (s.writeDump type).rst.phase = s.rst.phase :=
  ⟨rfl, rfl, rfl, rfl, rfl⟩

theorem Stands.setRst {z u : State} (h : Stands z u) (r : RstState) : Stands { z with rst := r } { u with rst := r } :=
  ⟨h.schedule, h.time, h.contexts, h.sealed, h.host, rfl, h.test⟩

theorem Stands.cutTest (s : State) : Stands s s.cutTest := by
  unfold State.cutTest State.zeroDie State.loseStack
  (repeat' split) <;> constructor <;> simp

theorem State.cutTest_tick (s : State) : s.cutTest.tick = s.tick ∧ s.cutTest.rst = s.rst := by
  unfold State.cutTest State.zeroDie State.loseStack
  (repeat' split) <;> simp

theorem State.cutTest_none {s : State} (h : s.trace.test = none) : s.cutTest = s := by simp [State.cutTest, h]

theorem Reported.reportCut (s : State) (test : Option (Nat × Nat)) : Reported s (s.reportCut test) := by
  unfold State.reportCut
  split
  · exact Reported.refl s
  · next op target =>
    have htrace : Reported s { s with trace := { s.trace with tstState := 5, tstRefuse := 0, tstOp := op } } :=
      ⟨by constructor <;> simp, rfl⟩
    exact htrace.trans (Reported.logErr _ _ _ _ _)

/-! The end of the clearing: patch, retirement and PORT_MASK. -/

theorem Settles.setInt_if (s : State) (p : Prop) [Decidable p] (page bit : Nat) : Settles s (if p then s.setInt page bit else s) := by
  split
  · exact (Reported.setInt s page bit).toSettles
  · exact Settles.refl s

theorem Settles.descChanged (s : State) : Settles s s.descChanged :=
  Settles.trans (by constructor <;> simp) (Reported.setInt _ _ _).toSettles

theorem Settles.warmRetire (s : State) : Settles s s.warmRetire := by
  unfold State.warmRetire State.retireSwitch
  split
  · exact Settles.refl s
  · split
    · split
      · exact Settles.refl s
      · exact Settles.trans (by constructor <;> simp) ((Settles.descChanged _).trans (Reported.setInt _ _ _).toSettles)
    · constructor <;> simp

theorem Settles.refreshMask (s : State) : Settles s s.refreshMask := by
  have hset : ∀ m, Settles s (s.setMask m) := fun m => by
    unfold State.setMask
    split
    · exact Settles.refl s
    · exact Settles.trans (by constructor <;> simp) (Settles.descChanged _)
  unfold State.refreshMask
  split
  · exact hset _
  · exact hset _
  · exact hset _
  · exact Settles.refl s

/-! The clearing (R460). -/

/-- A core as a warm reset leaves it: PIE_CUNDO stands at reset, and the core is out of reset (R367). -/
def State.coreWarm (s : State) (c : Nat) : Core :=
  { s.coreAfterReset c with undo := { (s.core c).undo with maxLines := 0, maxDev := 0 }, inReset := false }

/-- What the clearing makes of the state `w` in which no entry of the Sump is open and no test runs. -/
structure Cleared (w u : State) : Prop where
  schedule : u.sch = w.sch.warm
  time : u.tick = w.tick ∧ u.frac = w.frac ∧ u.tck = w.tck
  cores : ∀ c, u.core c = w.coreWarm c
  mesh : u.mesh = []
  grants : u.ctx.devPages = w.ctx.devPages ∧ u.ctx.capPages = w.ctx.capPages ∧ u.ctx.units = w.ctx.units
  memory : u.mem.dev = w.mem.dev ∧ u.mem.cap = w.mem.cap
  buddy : u.buddy.ownSealed = w.buddy.ownSealed ∧ u.buddy.buddySealed = w.buddy.buddySealed
  mailboxes : u.host.mbx0 = w.host.mbx0 ∧ u.host.mbx1 = w.host.mbx1 ∧ u.host.engineQ = w.host.engineQ
  point : u.pwr.point = 0
  resets : u.rst = { w.rst with wdPart := 0, coreWdSpan := [], refuse := 0 }

theorem Cleared.settles {w y u : State} (h : Cleared w y) (g : Settles y u) : Cleared w u := by
  obtain ⟨g0, g1, gq, -⟩ := HostState.still_fields g.host
  have hcore := State.core_congr g.cores.1
  exact {
    schedule := g.job.1.trans h.schedule
    time := by simp [g.time, h.time]
    cores := fun c => (hcore c).trans (h.cores c)
    mesh := g.cores.2.trans h.mesh
    grants := by rw [g.contexts]; exact h.grants
    memory := by rw [g.contents.1, g.contents.2]; exact h.memory
    buddy := by rw [g.training.2]; exact h.buddy
    mailboxes := by rw [g0, g1, gq]; exact h.mailboxes
    point := by rw [g.power.1]; exact h.point
    resets := g.power.2.trans h.resets }

theorem Store.find_mapVals {α : Type} (f : Nat → α → α) (m : Store α) (k : Nat) :
    Store.find (Store.mapVals f m) k = (Store.find m k).map (f k) := by
  induction m with
  | nil => rfl
  | cons p m ih =>
    simp only [Store.mapVals, Store.find, ih]
    split
    · next h => rw [h]; rfl
    · rfl

/-- Cores reset by a warm reset, one by one. -/
theorem State.core_warm {w u : State} (h : u.cores = Store.mapVals (fun _ k => { k with inReset := false })
    (Store.mapVals (fun c k => { w.coreAfterReset c with undo := { k.undo with maxLines := 0, maxDev := 0 } }) w.cores)) (c : Nat) :
    u.core c = w.coreWarm c := by
  rw [State.core, h, Store.get_mapVals, Store.find_mapVals]
  cases hk : Store.find w.cores c with
  | none =>
    have hdefault : w.core c = {} := Store.get_of_find_none _ hk
    simp [State.coreWarm, State.coreAfterReset, hdefault, Core.clearUnits, Store.mapVals]
  | some k =>
    have hcore : w.core c = k := Store.get_of_find_some _ hk
    simp [State.coreWarm, hcore]

/-- The clearing, of a state whose Sump is flushed and whose test is cut off. -/
theorem Cleared.warmClear (s : State) : Cleared s.sumpFlush.cutTest s.warmClear := by
  generalize hw : s.sumpFlush.cutTest = w
  unfold State.warmClear
  dsimp only
  rw [hw]
  refine Cleared.settles ?_ (((Settles.setInt_if _ _ _ _).trans (Settles.warmRetire _)).trans (Settles.refreshMask _))
  exact {
    schedule := rfl
    time := ⟨rfl, rfl, rfl⟩
    cores := State.core_warm rfl
    mesh := rfl
    grants := ⟨rfl, rfl, rfl⟩
    memory := ⟨rfl, rfl⟩
    buddy := ⟨rfl, rfl⟩
    mailboxes := ⟨rfl, rfl, rfl⟩
    point := rfl
    resets := rfl }

/-! The warm reset taken. -/

/-- The state in which a warm reset's clearing begins: the withdrawal is sent and the dump is written. -/
def State.warmDumped (s : State) : State := s.warmWithdraw.writeDump 3

/-- Cleared and dumped, a device begins its recovery. -/
def State.warmBegun (s : State) : State :=
  let z := s.warmDumped.warmClear
  { z with rst := { z.rst with runs := [⟨.warm, 0, z.tick⟩], last := 3, firstAnswer := false, allAnswer := false, coldAt := none } }

theorem State.warmDumped_leaves (s : State) : Stands { s with rst := s.warmDumped.rst } s.warmDumped ∧ s.warmDumped.tick = s.tick ∧
    s.warmDumped.cores = s.cores ∧ s.warmDumped.mem = s.mem := by
  obtain ⟨hs, ht, hc, hm⟩ := s.warmWithdraw_leaves
  exact ⟨(hs.setRst _).trans (Reported.writeDump _ 3).stands, ht, hc, hm⟩

/-- What a warm reset's cause reports of it comes after all the rest. -/
theorem Reported.warm (s : State) {say : State → State} (h : ∀ z, Reported z (say z)) : Reported s.warmBegun (s.warm say) :=
  (((Reported.cnt _ _ _ _).trans (Reported.dumpDone _)).trans (Reported.reportCut _ _)).trans (h _)

/-- The sequencer of a device that a warm reset has taken. -/
theorem SchState.warm_fields (x : SchState) : x.warm.job = (if x.image.isSome ∧ x.job ≠ .loading then .loaded else .idle) ∧
    x.warm.image = (if x.job = .loading then none else x.image) ∧ x.warm.phase = .recovery := by
  by_cases h : x.job = .loading <;> simp [SchState.warm, h]

/-- With no entry of the Sump open and no test to cut off, what the clearing finds is the state as it was. -/
theorem State.warmDumped_flushed {s : State} (hm : s.mem.sump = []) : s.warmDumped.sumpFlush = s.warmDumped :=
  State.sumpFlush_empty (by rw [s.warmDumped_leaves.2.2.2]; exact hm)

section
variable (s : State) {say : State → State} (h : ∀ z, Reported z (say z))
include h

theorem State.warm_core (c : Nat) : (s.warm say).core c = s.warmDumped.sumpFlush.cutTest.coreWarm c :=
  ((Reported.warm s h).core c).trans ((Cleared.warmClear s.warmDumped).cores c)

theorem State.warm_sch : (s.warm say).sch = s.sch.warm := by
  have hflush := ((s.warmDumped_leaves.1).trans (Stands.sumpFlush _)).trans (Stands.cutTest _)
  rw [(Reported.warm s h).job.1, ← hflush.schedule]
  exact (Cleared.warmClear s.warmDumped).schedule

theorem State.warm_rst : (s.warm say).rst = { s.warmDumped.rst with
    wdPart := 0, coreWdSpan := [], refuse := 0, runs := [⟨.warm, 0, (s.warm say).tick⟩], last := 3, firstAnswer := false
    allAnswer := false, coldAt := none } := by
  have hsay := Reported.warm s h
  have hflush := ((Stands.sumpFlush s.warmDumped).trans (Stands.cutTest _)).resets
  have hclear : s.warmBegun.rst = { s.warmDumped.sumpFlush.cutTest.rst with
      wdPart := 0, coreWdSpan := [], refuse := 0, runs := [⟨.warm, 0, s.warmBegun.tick⟩], last := 3, firstAnswer := false
      allAnswer := false, coldAt := none } := by
    rw [State.warmBegun, (Cleared.warmClear s.warmDumped).resets]
  rw [hsay.power.2, hsay.time.1, hclear]
  exact congrArg (fun r : RstState => { r with
    coreWdSpan := [], refuse := 0, runs := [⟨.warm, 0, s.warmBegun.tick⟩], last := 3, firstAnswer := false
    allAnswer := false, coldAt := none }) hflush

/-- What a warm reset leaves, whatever its cause reports of it. -/
theorem WarmFrom.warm : WarmFrom s (s.warm say) := by
  have hsay := Reported.warm s h
  obtain ⟨hstands, htick, hcores, hmem⟩ := s.warmDumped_leaves
  have hflush := (hstands.trans (Stands.sumpFlush _)).trans (Stands.cutTest _)
  have hclear := Cleared.warmClear s.warmDumped
  obtain ⟨hjob, himage, hphase⟩ := SchState.warm_fields s.sch
  have hsch := s.warm_sch h
  have hrst := s.warm_rst h
  have hcut : s.trace.test = none → s.mem.sump = [] → s.warmDumped.sumpFlush.cutTest = s.warmDumped := fun ht hm => by
    rw [State.warmDumped_flushed hm, State.cutTest_none (hstands.test.trans ht)]
  obtain ⟨m0, m1, mq, -⟩ := HostState.still_fields (hsay.host : _ = s.warmDumped.warmClear.host.still)
  obtain ⟨f0, f1, fq, -⟩ := HostState.still_fields hflush.host
  obtain ⟨c0, c1, cq⟩ := hclear.mailboxes
  obtain ⟨stick, sfrac, stck⟩ := hsay.time
  obtain ⟨ctick, cfrac, ctck⟩ := hclear.time
  exact {
    job := by rw [hsch]; exact hjob
    image := by rw [hsch]; exact himage
    phase := by rw [hsch]; exact hphase
    time := by
      refine ⟨(sfrac.trans cfrac).trans hflush.time.1, (stck.trans ctck).trans hflush.time.2, fun hm => ?_⟩
      refine (stick.trans ctick).trans ?_
      rw [(State.cutTest_tick _).1, State.warmDumped_flushed hm, htick]
    cores := fun ht hm c => by
      have hcore : s.warmDumped.core c = s.core c := State.core_congr hcores c
      rw [s.warm_core h c, hcut ht hm, ← hcore]
      exact ⟨rfl, rfl⟩
    units := fun c => by
      rw [s.warm_core h c]
      exact ⟨rfl, rfl, rfl, rfl⟩
    mesh := hsay.cores.2.trans hclear.mesh
    grants := by
      rw [hsay.contexts, ← show _ = s.ctx from hflush.contexts]
      exact hclear.grants
    memory := fun ht hm => by
      rw [hsay.contents.1, hsay.contents.2, ← hmem, ← hcut ht hm]
      exact hclear.memory
    buddy := by
      rw [hsay.training.2]
      exact ⟨hclear.buddy.1.trans hflush.sealed.1, hclear.buddy.2.trans hflush.sealed.2⟩
    mailboxes := ⟨(m0.trans c0).trans f0, (m1.trans c1).trans f1, (mq.trans cq).trans fq⟩
    point := by rw [hsay.power.1]; exact hclear.point
    dump := by rw [hrst]; exact ⟨rfl, rfl⟩
    recovery := by rw [hrst]; exact ⟨rfl, rfl, rfl, rfl, rfl⟩ }

/-- The firmware's expiries outlast a warm reset. -/
theorem State.warm_fwExp : (s.warm say).rst.fwExp = s.rst.fwExp := by
  rw [s.warm_rst h]
  have hwithdraw := congrArg RstState.fwExp s.warmWithdraw_leaves.1.resets
  exact hwithdraw

end

end Sys2Proof.Machine
end

section
/-! PROOFS. The firmware watchdog (R464): the command that the engine runs ends with STATUS 0xFF, the expiry is recorded, and the third
expiry within 10 s takes a warm reset. -/

namespace Sys2Proof.Machine

open Sys2Proof

/-! What the engine's completions leave (R431, R432). -/

/-- What stands when the engine's command completes: all but mailboxes, the engine's queue and the counters and interrupts of the host. -/
structure Completes (z u : State) : Prop where
  state : u.rst = z.rst ∧ u.sch = z.sch ∧ u.cores = z.cores ∧ u.mem = z.mem
  registers : ∀ {p o}, Quiet p o → p ≠ pgHIF → u.reg p o = z.reg p o

theorem Completes.refl (z : State) : Completes z z := ⟨⟨rfl, rfl, rfl, rfl⟩, fun _ _ => rfl⟩

theorem Completes.trans {a b c : State} (h : Completes a b) (g : Completes b c) : Completes a c :=
  ⟨by simp [g.state, h.state], fun hq hp => (g.registers hq hp).trans (h.registers hq hp)⟩

theorem Completes.setMbx (s : State) (n : Nat) (m : Mailbox) : Completes s (s.setMbx n m) := by
  unfold State.setMbx
  split
  · exact ⟨⟨rfl, rfl, rfl, rfl⟩, fun _ _ => rfl⟩
  · exact ⟨⟨rfl, rfl, rfl, rfl⟩, fun _ _ => rfl⟩

/-- A completion is counted and reported to the host. -/
theorem Completes.reports (s : State) (n : Nat) :
    Completes s (((if n = 0 then s.cnt pgHIF 0x70 1 else s).setInt (mbxPage n) 1).wakeReason 1) := by
  have hcount : Completes s (if n = 0 then s.cnt pgHIF 0x70 1 else s) := by
    split
    · exact ⟨by simp, fun hq hp => State.cnt_quiet _ _ _ _ _ _ hq.low (by decide) (.inl hp)⟩
    · exact Completes.refl s
  refine hcount.trans ⟨by simp, fun hq _ => ?_⟩
  rw [State.wakeReason_quiet _ _ hq, State.setInt_quiet _ _ _ hq]

theorem Completes.mbxDone (s : State) : Completes s s.mbxDone := by
  have hqueue : ∀ (z : State) (l : List Nat), Completes z { z with host := { z.host with engineQ := l } } := fun z l =>
    ⟨⟨rfl, rfl, rfl, rfl⟩, fun _ _ => rfl⟩
  unfold State.mbxDone
  split
  · exact Completes.refl s
  · split
    · exact Completes.refl s
    · dsimp only
      refine Completes.trans ?_ (Completes.reports _ _)
      split
      · exact (Completes.setMbx s _ _).trans (hqueue _ _)
      · exact ((Completes.setMbx s _ _).trans (hqueue _ _)).trans (Completes.setMbx _ _ _)

/-- Firmware that restarts ends the command that the engine runs, and a transfer of it (R464). -/
theorem Completes.mbxAbort (s : State) : Completes s s.mbxAbort := by
  have htransfer : Completes s { s with buddy := { s.buddy with tx := none, rxOn := false } } := ⟨⟨rfl, rfl, rfl, rfl⟩, fun _ _ => rfl⟩
  unfold State.mbxAbort
  split
  · exact Completes.refl s
  · exact (htransfer.trans (Completes.setMbx _ _ _)).trans (Completes.mbxDone _)

/-- The command that the engine runs completes with STATUS 0xFF, and the rest of the queue waits behind the next. -/
theorem State.mbxAbort_mail {s : State} {n : Nat} {rest : List Nat} (hq : s.host.engineQ = n :: rest) (hn : n < 2) :
    s.mbxAbort.host.engineQ = rest ∧
    ((∀ k ∈ rest, k < 2 ∧ k ≠ n) → (s.mbxAbort.mbx n).st = .done ∧ (s.mbxAbort.mbx n).status = 0xFF) := by
  generalize hz : State.mbxReply { s with buddy := { s.buddy with tx := none, rxOn := false } } n 0xFF [] = z
  have habort : s.mbxAbort = z.mbxDone := by simp only [State.mbxAbort, hq, hz]
  have hqueue : z.host.engineQ = n :: rest := by rw [← hz]; simp [State.mbxReply, hq]
  have hmbx := State.mbx_mbxReply { s with buddy := { s.buddy with tx := none, rxOn := false } } n 0xFF []
  have hrsp : (z.mbx n).rsp ≠ [] := by rw [← hz]; simp [State.mbxReply]
  rw [hz] at hmbx
  rw [habort]
  cases rest with
  | nil =>
    have hmail := State.mbxDone_last hqueue hrsp rfl
    refine ⟨hmail.queue, fun _ => ?_⟩
    rw [hmail.mbx, State.mbx_mbxFinish]
    exact ⟨rfl, hmbx.1⟩
  | cons k l =>
    have hmail := State.mbxDone_next hqueue hrsp rfl
    refine ⟨hmail.queue.trans (State.engineQ_setMbx _ _ _), fun hk => ?_⟩
    obtain ⟨hk2, hkn⟩ := hk k (List.mem_cons_self ..)
    rw [hmail.mbx, State.mbx_setMbx_other _ _ hk2 hn (Ne.symm hkn), State.mbx_mbxFinish]
    exact ⟨rfl, hmbx.1⟩

/-! The expiry (R464). -/

/-- The expiries of the firmware watchdog in the last 10 s. -/
def State.fwLate (s : State) : List Nat := s.rst.fwExp.filter (fun t => decide (s.aon ≤ t + 10000000000))

/-- The expiry with its count, its records and its interrupts, and the engine's command ended. -/
def State.fwExpires (s : State) : State :=
  ((({ s with rst := { s.rst with fwExp := (s.aon :: s.fwLate).take 3 } }.mbxAbort).cnt pgMD 0x54 1).cnt pgRST 0x60 1).fwBarks

theorem Reported.fwBarks (s : State) : Reported s s.fwBarks :=
  (((Reported.logErr _ _ _ _ _).trans (Reported.setInt _ _ _)).trans (Reported.rstLog _ _ _ _ _)).trans (Reported.setInt _ _ _)

theorem State.fwBarks_quiet (s : State) {p o : Nat} (h : Quiet p o) : s.fwBarks.reg p o = s.reg p o := by
  rw [State.fwBarks, State.setInt_quiet _ _ _ h, State.rstLog, State.logErr_quiet _ _ _ _ _ h, State.setInt_quiet _ _ _ h,
    State.logErr_quiet _ _ _ _ _ h]

section
variable (s : State)

theorem State.fwExpires_state : s.fwExpires.rst = { s.rst with fwExp := (s.aon :: s.fwLate).take 3 } ∧ s.fwExpires.sch = s.sch ∧
    s.fwExpires.cores = s.cores ∧ s.fwExpires.mem = s.mem := by
  have habort := (Completes.mbxAbort { s with rst := { s.rst with fwExp := (s.aon :: s.fwLate).take 3 } }).state
  have hbarks : Reported _ s.fwExpires := ((Reported.cnt _ _ _ _).trans (Reported.cnt _ _ _ _)).trans (Reported.fwBarks _)
  rw [hbarks.power.2, hbarks.job.1, hbarks.cores.1, hbarks.memory]
  exact habort

theorem State.fwExpires_count : s.fwExpires.reg pgMD 0x54 = satAt max32 (s.reg pgMD 0x54 + 1) := by
  have hquiet : Quiet pgMD 0x54 := (untimed_of_ne (by decide) _).toQuiet
  rw [State.fwExpires, State.fwBarks_quiet _ hquiet, State.cnt_quiet _ _ _ _ _ _ (by decide) (by decide) (by decide), State.reg_cnt_same,
    (Completes.mbxAbort _).registers hquiet (by decide)]
  rfl

theorem State.fwExpires_int : bitAt (s.fwExpires.reg pgRST 0x10) 4 = true := State.setInt_bit_rst _ (by decide)

theorem State.fwExpires_mail {n : Nat} {rest : List Nat} (hq : s.host.engineQ = n :: rest) (hn : n < 2) :
    s.fwExpires.host.engineQ = rest ∧
    ((∀ k ∈ rest, k < 2 ∧ k ≠ n) → (s.fwExpires.mbx n).st = .done ∧ (s.fwExpires.mbx n).status = 0xFF) := by
  have hbarks : Reported _ s.fwExpires := ((Reported.cnt _ _ _ _).trans (Reported.cnt _ _ _ _)).trans (Reported.fwBarks _)
  have hmail := SameMail.of_still hbarks.host
  rw [hmail.queue, hmail.mbx]
  exact State.mbxAbort_mail (s := { s with rst := { s.rst with fwExp := (s.aon :: s.fwLate).take 3 } }) hq hn

end

theorem State.requestWarm_absorbed {s : State} (h : s.rst.runs.any (fun r => r.dom == .warm) = true) (say : State → State) :
    s.requestWarm say = say (s.rstAbsorb 0x58) := if_pos h

theorem State.requestWarm_taken {s : State} (h : s.rst.runs.any (fun r => r.dom == .warm) = false) (say : State → State) :
    s.requestWarm say = s.warm say := if_neg (ne_true_of_eq_false h)

section
variable {s : State}

theorem exec_firmwareWatchdog_stopped (h : s.rst.fwRun = false) : exec .firmwareWatchdog s = .next s :=
  congrArg Host.Outcome.next (if_pos (by rw [h]; rfl))

section
variable (h : s.rst.fwRun = true)
include h

theorem exec_firmwareWatchdog_early (hl : s.fwLate.length < 2) : exec .firmwareWatchdog s = .next s.fwExpires := by
  refine congrArg Host.Outcome.next ((if_neg (by rw [h]; exact Bool.noConfusion)).trans ?_)
  exact if_neg (Nat.not_le.mpr hl)

theorem exec_firmwareWatchdog_third (hl : 2 ≤ s.fwLate.length) : exec .firmwareWatchdog s =
    .next (({ s.fwExpires with rst := { s.fwExpires.rst with fwExp := [] } }).requestWarm (fun z =>
      if !(s.fwExpires.rst.runs.any (fun r => r.dom == Dom.warm)) then (z.cnt pgMD 0x54 1).fwBarks else z)) := by
  refine congrArg Host.Outcome.next ((if_neg (by rw [h]; exact Bool.noConfusion)).trans ?_)
  exact if_pos hl

end

/-- Below three expiries no reset domain is touched. -/
theorem State.fwExpires_rst (hl : s.fwLate.length < 2) : s.fwExpires.rst = { s.rst with fwExp := s.aon :: s.fwLate } := by
  rw [s.fwExpires_state.1, List.take_of_length_le (by simp; omega)]

/-- The third expiry takes a warm reset, which begins with no expiry (R464). -/
theorem exec_firmwareWatchdog_warm (h : s.rst.fwRun = true) (hl : 2 ≤ s.fwLate.length)
    (hw : s.rst.runs.any (fun r => r.dom == .warm) = false) : ∃ u, exec .firmwareWatchdog s = .next u ∧
    u.rst.last = 3 ∧ u.rst.fwExp = [] ∧ u.sch.phase = .recovery ∧ u.rst.runs = [⟨.warm, 0, u.tick⟩] := by
  have hruns : s.fwExpires.rst.runs = s.rst.runs := by rw [s.fwExpires_state.1]
  generalize hz : ({ s.fwExpires with rst := { s.fwExpires.rst with fwExp := [] } } : State) = z
  have hzruns : z.rst.runs.any (fun r => r.dom == .warm) = false := by rw [← hz]; dsimp only; rw [hruns, hw]
  have hsay : ∀ y, Reported y (if !(s.fwExpires.rst.runs.any (fun r => r.dom == Dom.warm)) then (y.cnt pgMD 0x54 1).fwBarks else y) := by
    intro y
    split
    · exact (Reported.cnt _ _ _ _).trans (Reported.fwBarks _)
    · exact Reported.refl y
  have hfrom := WarmFrom.warm z hsay
  refine ⟨_, (exec_firmwareWatchdog_third h hl).trans (congrArg Host.Outcome.next ?_), hfrom.recovery.2.1, ?_, hfrom.phase, hfrom.recovery.1⟩
  · rw [hz, State.requestWarm_taken hzruns]
  · rw [State.warm_fwExp z hsay, ← hz]

/-- A recovery in progress contains it, and it is counted with no further effect (R461). -/
theorem exec_firmwareWatchdog_absorbed (h : s.rst.fwRun = true) (hl : 2 ≤ s.fwLate.length)
    (hw : s.rst.runs.any (fun r => r.dom == .warm) = true) : ∃ u, exec .firmwareWatchdog s = .next u ∧
    u.rst = { s.rst with fwExp := [], refuse := 4 } ∧ u.sch = s.sch ∧ u.reg pgMD 0x54 = satAt max32 (s.reg pgMD 0x54 + 1) ∧
    u.reg pgRST 0x58 = satAt max32 (s.reg pgRST 0x58 + 1) := by
  have hstate := s.fwExpires_state
  have hruns : s.fwExpires.rst.runs.any (fun r => r.dom == .warm) = true := by rw [hstate.1]; exact hw
  have hq58 : Quiet pgRST 0x58 := (untimed_of_ne (by decide) _).toQuiet
  have hcount : s.fwExpires.reg pgRST 0x58 = s.reg pgRST 0x58 := by
    rw [State.fwExpires, State.fwBarks_quiet _ hq58, State.cnt_quiet _ _ _ _ _ _ (by decide) (by decide) (by decide),
      State.cnt_quiet _ _ _ _ _ _ (by decide) (by decide) (by decide), (Completes.mbxAbort _).registers hq58 (by decide)]
    rfl
  refine ⟨State.rstAbsorb { s.fwExpires with rst := { s.fwExpires.rst with fwExp := [] } } 0x58,
    (exec_firmwareWatchdog_third h hl).trans (congrArg Host.Outcome.next ?_), ?_, ?_, ?_, ?_⟩
  · rw [State.requestWarm_absorbed (by exact hruns), hruns]
    rfl
  · simp [State.rstAbsorb, hstate.1]
  · simp [State.rstAbsorb, hstate.2.1]
  · rw [State.rstAbsorb, State.cnt_quiet _ _ _ _ _ _ (by decide) (by decide) (by decide)]
    exact s.fwExpires_count
  · rw [State.rstAbsorb, State.reg_cnt_same, ← hcount]
    rfl

end

end Sys2Proof.Machine
end

section
/-! PROOFS. A reset that escalates (R460, R463, R465), and the end of a recovery (R466). -/

namespace Sys2Proof.Machine

open Sys2Proof

/-! A core put into reset (R88, R113, R139, R155, R177, R460). -/

/-- A core that stands at reset, and in reset. -/
structure Core.Fresh (k : Core) : Prop where
  array : k.arr = {}
  flowstone : k.fls = {}
  dma : k.dma = {}
  faults : k.faultQ = [] ∧ k.dropped = 0
  threads : ∀ t, (k.thread t).a = {} ∧ (k.thread t).held = none ∧ (k.thread t).ctx = none
  reset : k.inReset = true

theorem Core.Fresh.coreAfterReset (s : State) (c : Nat) : Core.Fresh { s.coreAfterReset c with inReset := true } where
  array := rfl
  flowstone := rfl
  dma := rfl
  faults := ⟨rfl, rfl⟩
  threads t := by
    simp only [Core.thread, State.coreAfterReset, Store.get_mapVals]
    cases Store.find (List.filter (fun p => p.2.ended) (s.core c).threads) t with
    | none => exact ⟨rfl, rfl, rfl⟩
    | some x => exact ⟨rfl, rfl, rfl⟩
  reset := rfl

theorem State.core_resetCore (s : State) (c d : Nat) :
    (s.resetCore c).core d = if d = c then { s.coreAfterReset c with inReset := true } else s.core d := by
  have hcores : (s.resetCore c).cores = (s.setCore c { s.coreAfterReset c with inReset := true }).cores := by
    simp [State.resetCore, State.clearCorePages]
  rw [State.core_congr hcores]
  split
  · next h => rw [h, State.core_setCore_same]
  · next h => rw [State.core_setCore_other _ _ h]

theorem State.resetCore_memory (s : State) (c d : Nat) :
    ((s.resetCore c).core d).mem = (s.core d).mem ∧ ((s.resetCore c).core d).undo = (s.core d).undo := by
  rw [State.core_resetCore]
  split
  · next h => rw [h]; exact ⟨rfl, rfl⟩
  · exact ⟨rfl, rfl⟩

theorem State.resetCore_rst (s : State) (c : Nat) : (s.resetCore c).rst = s.rst := by
  simp [State.resetCore, State.clearCorePages, State.setCore]

end Sys2Proof.Machine

namespace Sys2Proof

open Machine

/-! What resets of cores and dies leave of the device (R460). -/

theorem DeviceKept.refl (s : State) : DeviceKept s s where
  schedule := ⟨s.sch.phase, rfl⟩
  time := ⟨rfl, rfl, rfl⟩
  fabric := ⟨rfl, rfl⟩
  memory := rfl
  contexts := rfl
  training := ⟨rfl, rfl⟩
  power := rfl

theorem DeviceKept.trans {a b c : State} (h : DeviceKept a b) (g : DeviceKept b c) : DeviceKept a c where
  schedule := by
    obtain ⟨p, hp⟩ := h.schedule
    obtain ⟨q, hq⟩ := g.schedule
    exact ⟨q, by rw [hq, hp]⟩
  time := by simp [g.time, h.time]
  fabric := by simp [g.fabric, h.fabric]
  memory := g.memory.trans h.memory
  contexts := g.contexts.trans h.contexts
  training := by simp [g.training, h.training]
  power := g.power.trans h.power

/-- Reports, and changes of the resets' own state, leave the device. -/
theorem DeviceKept.of_reported {z u : State} {r : RstState} (h : Reported { z with rst := r } u) : DeviceKept z u where
  schedule := ⟨z.sch.phase, h.job.1⟩
  time := h.time
  fabric := h.fabric
  memory := h.memory
  contexts := h.contexts
  training := h.training
  power := h.power.1

theorem DeviceKept.resetCore (s : State) (c : Nat) : DeviceKept s (s.resetCore c) := by
  have hsch : ∃ p, (s.resetCore c).sch = { s.sch with phase := p } :=
    ⟨if s.sch.phase == Phase.test then Phase.test else .startUp, by simp [State.resetCore, State.clearCorePages, State.setCore]⟩
  refine ⟨hsch, ?_, ?_, ?_, ?_, ?_, ?_⟩ <;> simp [State.resetCore, State.clearCorePages, State.setCore]

theorem DeviceKept.resetDie (s : State) (d : Nat) : DeviceKept s (s.resetDie d) :=
  List.foldlRecOn (motive := fun u => DeviceKept s u) _ _ (DeviceKept.refl s) (fun b hb c _ => hb.trans (DeviceKept.resetCore b c))

/-- Every core of a die put into reset stands at reset, its memory kept. -/
theorem CoreAnew.resetDie (s : State) {d c : Nat} (hc : c < 256) (hd : dieOf c = d) :
    CoreAnew s (s.resetDie d) c ∧ ((s.resetDie d).core c).inReset = true := by
  have hmem : c ∈ dieCores d := by simp [dieCores, upTo, hc, hd]
  have hfresh : Core.Fresh ((s.resetDie d).core c) := by
    refine foldl_of_mem (P := fun u : State => Core.Fresh (u.core c)) (fun a x h => ?_) hmem (fun a => ?_) s
    · rw [State.core_resetCore]
      split
      · exact Core.Fresh.coreAfterReset a x
      · exact h
    · rw [State.core_resetCore, if_pos rfl]
      exact Core.Fresh.coreAfterReset a c
  have hkept := foldl_keeps (fun u : State => ((u.core c).mem, (u.core c).undo)) (fun a x => a.resetCore x)
    (fun a x => Prod.ext (a.resetCore_memory x c).1 (a.resetCore_memory x c).2) (dieCores d) s
  exact ⟨{ memory := congrArg Prod.fst hkept, undo := congrArg Prod.snd hkept, array := hfresh.array, flowstone := hfresh.flowstone
           dma := hfresh.dma, faults := hfresh.faults, threads := hfresh.threads }, hfresh.reset⟩

/-- A reset of a die that takes effect is the last, and in progress (R461, R470). -/
theorem DeviceKept.takeDieReset (s : State) (d : Nat) : DeviceKept s (s.takeDieReset d) := by
  have hbegin : ∀ z : State, Reported { z with rst := (z.beginReset .die d 2 0x54).rst } (z.beginReset .die d 2 0x54) := fun z =>
    Reported.cnt { z with rst := (z.beginReset .die d 2 0x54).rst } _ _ _
  exact (DeviceKept.resetDie s d).trans (DeviceKept.of_reported (hbegin _))

theorem WarmFrom.of_reported {z y u : State} (h : Reported z y) (g : WarmFrom y u) : WarmFrom z u := by
  obtain ⟨h0, h1, hq, -⟩ := HostState.still_fields h.host
  obtain ⟨htick, hfrac, htck⟩ := h.time
  exact {
    job := by rw [← h.job.1]; exact g.job
    image := by rw [← h.job.1]; exact g.image
    phase := g.phase
    time := by rw [← htick, ← hfrac, ← htck, ← h.memory]; exact g.time
    cores := fun ht hm c => by
      rw [← h.core c]
      exact g.cores (h.test.trans ht) (by rw [h.memory]; exact hm) c
    units := g.units
    mesh := g.mesh
    grants := by rw [← h.contexts]; exact g.grants
    memory := fun ht hm => by
      rw [← h.memory]
      exact g.memory (h.test.trans ht) (by rw [h.memory]; exact hm)
    buddy := by rw [← h.training.2]; exact g.buddy
    mailboxes := by rw [← h0, ← h1, ← hq]; exact g.mailboxes
    point := g.point
    dump := g.dump
    recovery := g.recovery }

end Sys2Proof

namespace Sys2Proof.Machine

open Sys2Proof

section
variable (s : State) (d : Nat)

theorem State.takeDieReset_cores : (s.takeDieReset d).cores = (s.resetDie d).cores := by
  simp [State.takeDieReset, State.beginReset]

theorem State.takeDieReset_rst : (s.takeDieReset d).rst.last = 2 ∧ ⟨.die, d, s.tick⟩ ∈ (s.takeDieReset d).rst.runs ∧
    (s.takeDieReset d).rst.dump = s.rst.dump ∧ (s.takeDieReset d).rst.dumpType = s.rst.dumpType := by
  have hrst : (s.resetDie d).rst = s.rst := foldl_keeps (·.rst) (fun a c => a.resetCore c) (fun a c => a.resetCore_rst c) _ _
  have htick : (s.resetDie d).tick = s.tick := (DeviceKept.resetDie s d).time.1
  simp [State.takeDieReset, State.beginReset, hrst, htick]

/-! A dump and its report (R463, R467). -/

/-- A crash dump written and reported. -/
def State.dumped (type : Nat) : State := (s.writeDump type).dumpDone

theorem Reported.dumped (type : Nat) : Reported { s with rst := (s.dumped type).rst } (s.dumped type) := by
  have hdone := Reported.dumpDone (s.writeDump type)
  have hrst : (s.dumped type).rst = (s.writeDump type).rst := hdone.power.2
  rw [hrst]
  exact (Reported.writeDump s type).trans hdone

theorem State.dumped_rst (type : Nat) : (s.dumped type).rst.dump.isSome = true ∧ (s.dumped type).rst.dumpType = type ∧
    (s.dumped type).rst.runs = s.rst.runs ∧ (s.dumped type).rst.phase = s.rst.phase := by
  have hrst : (s.dumped type).rst = (s.writeDump type).rst := (Reported.dumpDone (s.writeDump type)).power.2
  rw [hrst]
  exact ⟨rfl, rfl, rfl, rfl⟩

end

theorem Reported.setRst {z u : State} (h : Reported z u) (r : RstState) : Reported { z with rst := r } { u with rst := r } :=
  ⟨⟨h.time, h.cores, h.job, h.fabric, h.contents, h.contexts, h.training, ⟨h.power.1, rfl⟩, h.host, h.test⟩, h.memory⟩

/-! Escalation (R465). -/

theorem State.elapseTo_runs (t : Nat) (s : State) : (elapseTo t s).rst.runs = s.rst.runs ∧ (elapseTo t s).rst.phase = s.rst.phase := by
  obtain ⟨wd, h⟩ := elapse_rst (t - s.tick) s
  rw [elapseTo, h]
  exact ⟨rfl, rfl⟩

theorem exec_resetEscalation_idle {s : State} (h : bitAt (s.reg pgRST 0x44) 31 = false ∨ s.rst.runs = []) :
    exec .resetEscalation s = .next s := by
  refine congrArg Host.Outcome.next ?_
  rcases h with h | h
  · rw [h]
  · rw [h]
    cases bitAt (s.reg pgRST 0x44) 31 <;> rfl

/-- The dump that precedes the escalation of a core reset. -/
def State.coreOverran (z : State) (r : ResetRun) : State := (z.escalates 4 (dieOf r.target) r.target).dumped 2

/-- Neither the ticks nor the record and the dump end a reset. -/
theorem State.coreOverran_die (s : State) (r : ResetRun) :
    (((elapseTo (r.limit + 1) s).escalates 4 (dieOf r.target) r.target).writeDump 2).dieInReset (dieOf r.target) =
      s.dieInReset (dieOf r.target) := by
  obtain ⟨-, -, -, hruns, -⟩ := ((elapseTo (r.limit + 1) s).escalates 4 (dieOf r.target) r.target).writeDump_rst 2
  rw [State.dieInReset, hruns, (Reported.escalates _ _ _ _).power.2, (State.elapseTo_runs _ s).1, State.dieInReset]

theorem State.coreOverran_leaves (z : State) (r : ResetRun) : Reported { z with rst := (z.coreOverran r).rst } (z.coreOverran r) :=
  ((Reported.escalates z _ _ _).setRst _).trans (Reported.dumped _ 2)

theorem State.coreOverran_rst (z : State) (r : ResetRun) : (z.coreOverran r).rst.dump.isSome = true ∧ (z.coreOverran r).rst.dumpType = 2 ∧
    (z.coreOverran r).rst.runs = z.rst.runs := by
  obtain ⟨hdump, htype, hruns, -⟩ := (z.escalates 4 (dieOf r.target) r.target).dumped_rst 2
  exact ⟨hdump, htype, hruns.trans (congrArg RstState.runs (Reported.escalates _ _ _ _).power.2)⟩

section
variable {s : State} {r : ResetRun} (h31 : bitAt (s.reg pgRST 0x44) 31 = true) (ho : overrun s.rst.runs = some r)
include h31 ho

theorem exec_resetEscalation_stays (h : r.dom = .warm ∧ s.rst.phase = 5 ∨ r.dom = .cold) : exec .resetEscalation s = .next s := by
  refine congrArg Host.Outcome.next ?_
  rw [h31, ho]
  rcases h with ⟨hd, hp⟩ | hd
  · simp only [hd, if_pos hp]
  · simp only [hd]

/-- A core reset in a die that is in reset ends with its dump. -/
theorem exec_resetEscalation_core_in (hd : r.dom = .core) (hdie : s.dieInReset (dieOf r.target) = true) :
    let y := (elapseTo (r.limit + 1) s).coreOverran r
    exec .resetEscalation s = .next { y with rst := { y.rst with runs := y.rst.runs.filter (fun x => x != r) } } := by
  refine congrArg Host.Outcome.next ?_
  rw [h31, ho]
  simp only [hd, State.coreOverran_die, hdie, if_true]
  rfl

theorem exec_resetEscalation_core_out (hd : r.dom = .core) (hdie : s.dieInReset (dieOf r.target) = false) :
    exec .resetEscalation s = .next (((elapseTo (r.limit + 1) s).coreOverran r).takeDieReset (dieOf r.target)) := by
  refine congrArg Host.Outcome.next ?_
  rw [h31, ho]
  simp only [hd, State.coreOverran_die, hdie, Bool.false_eq_true, if_false]
  rfl

theorem exec_resetEscalation_die (hd : r.dom = .die) : exec .resetEscalation s =
    .next (((elapseTo (r.limit + 1) s).rstLog 0 5 r.target 0).warm (fun z => z.escalates 5 r.target 0)) := by
  refine congrArg Host.Outcome.next ?_
  rw [h31, ho]
  simp only [hd]

theorem exec_resetEscalation_warm (hd : r.dom = .warm) (hp : s.rst.phase ≠ 5) :
    let z := elapseTo (r.limit + 1) s
    exec .resetEscalation s = .next ((({ z with rst := { z.rst with phase := 5 } } : State).escalates 6 0 0).dumped 3) := by
  refine congrArg Host.Outcome.next ?_
  rw [h31, ho]
  simp only [hd, if_neg hp]
  rfl

end

/-- An overrun core reset becomes one of its die (R465). -/
theorem State.coreOverran_takes {s : State} {r : ResetRun} {n : Nat} :
    let z := elapseTo n s
    let u := (z.coreOverran r).takeDieReset (dieOf r.target)
    (∀ c < 256, dieOf c = dieOf r.target → CoreAnew s u c ∧ (u.core c).inReset = true) ∧
      u.tick = z.tick ∧ DeviceKept z u ∧ u.rst.last = 2 ∧ ⟨.die, dieOf r.target, z.tick⟩ ∈ u.rst.runs ∧
      u.rst.dump.isSome = true ∧ u.rst.dumpType = 2 := by
  dsimp only
  generalize hz : elapseTo n s = z
  have hover := z.coreOverran_leaves r
  obtain ⟨hdump, htype, hruns⟩ := z.coreOverran_rst r
  have htick : (z.coreOverran r).tick = z.tick := hover.time.1
  obtain ⟨hlast, hin, hd, ht⟩ := (z.coreOverran r).takeDieReset_rst (dieOf r.target)
  have hkept : DeviceKept z ((z.coreOverran r).takeDieReset (dieOf r.target)) :=
    (DeviceKept.of_reported hover).trans (DeviceKept.takeDieReset _ _)
  refine ⟨fun c hc hdie => ?_, hkept.time.1, hkept, hlast, htick ▸ hin, by rw [hd]; exact hdump, ht.trans htype⟩
  have hcores := State.core_congr ((z.coreOverran r).takeDieReset_cores (dieOf r.target)) c
  have hmem : ((z.coreOverran r).core c).mem = (s.core c).mem ∧ ((z.coreOverran r).core c).undo = (s.core c).undo := by
    obtain ⟨hm, hu, -⟩ := State.core_elapse_keeps (n - s.tick) s c
    have hcore : (z.coreOverran r).core c = z.core c := hover.core c
    rw [hcore, ← hz]
    exact ⟨hm, hu⟩
  obtain ⟨hanew, hreset⟩ := CoreAnew.resetDie (z.coreOverran r) hc hdie
  rw [hcores]
  refine ⟨?_, hreset⟩
  exact {
    memory := by rw [hcores]; exact hanew.memory.trans hmem.1
    undo := by rw [hcores]; exact hanew.undo.trans hmem.2
    array := by rw [hcores]; exact hanew.array
    flowstone := by rw [hcores]; exact hanew.flowstone
    dma := by rw [hcores]; exact hanew.dma
    faults := by rw [hcores]; exact hanew.faults
    threads := fun t => by rw [State.thread, hcores]; exact hanew.threads t }

/-! The end of a recovery (R466). -/

/-- A recovery at its end: every page answers where main power is good. -/
def State.recovered (z : State) : State :=
  ({ z with rst := { z.rst with runs := [], firstAnswer := true, allAnswer := z.pwr.mainOk } } : State).setInt pgRST 0

theorem State.recovered_leaves (z : State) : z.recovered.rst.runs = [] ∧ z.recovered.rst.firstAnswer = true ∧
    z.recovered.rst.allAnswer = z.pwr.mainOk ∧ z.recovered.tick = z.tick ∧ z.recovered.sch = z.sch ∧ z.recovered.mem = z.mem ∧
    bitAt (z.recovered.reg pgRST 0x10) 0 = true := by
  refine ⟨?_, ?_, ?_, ?_, ?_, ?_, State.setInt_bit_rst _ (by decide)⟩ <;> simp [State.recovered]

theorem exec_warmRecoveryDone_none {s : State} (h : s.rst.runs.find? (fun r => r.dom == .warm) = none) :
    exec .warmRecoveryDone s = .next s := by
  refine congrArg Host.Outcome.next ?_
  rw [h]

section
variable {s : State} {r : ResetRun} (h : s.rst.runs.find? (fun r => r.dom == .warm) = some r)
include h

theorem exec_warmRecoveryDone_failed (hp : s.rst.phase = 5) : exec .warmRecoveryDone s = .next s := by
  refine congrArg Host.Outcome.next ?_
  rw [h]
  exact if_pos hp

theorem exec_warmRecoveryDone_ends (hp : s.rst.phase ≠ 5) :
    exec .warmRecoveryDone s = .next (elapseTo (r.since + 100000000) s).recovered := by
  refine congrArg Host.Outcome.next ?_
  rw [h]
  exact if_neg hp

end

end Sys2Proof.Machine
end

section
/-! PROOFS. Hang detection and recovery (R134, R464 to R466), one command at a time. -/

namespace Sys2Proof

open Machine

/-! The tick by which a reset must be complete (R465). -/

theorem ResetRun.limit_core {r : ResetRun} (h : r.dom = .core) : r.limit = r.since + 1000000 := by rw [ResetRun.limit, h]

theorem ResetRun.limit_die {r : ResetRun} (h : r.dom = .die) : r.limit = r.since + 10000000 := by rw [ResetRun.limit, h]

theorem ResetRun.limit_warm {r : ResetRun} (h : r.dom = .warm) : r.limit = r.since + 2000000000 := by rw [ResetRun.limit, h]

theorem firmwareWatchdog_cases (s : State) :
    (s.rst.fwRun = false → exec .firmwareWatchdog s = .next s) ∧
    (s.rst.fwRun = true → s.fwLate.length < 2 → ∃ u, exec .firmwareWatchdog s = .next u ∧
      u.rst = { s.rst with fwExp := s.aon :: s.fwLate } ∧ u.sch = s.sch ∧ u.reg pgMD 0x54 = satAt max32 (s.reg pgMD 0x54 + 1) ∧
      u.cores = s.cores ∧ u.mem = s.mem ∧ bitAt (u.reg pgRST 0x10) 4 = true ∧
      ∀ n rest, s.host.engineQ = n :: rest → n < 2 → u.host.engineQ = rest ∧ ((∀ k ∈ rest, k < 2 ∧ k ≠ n) → (u.mbx n).st = .done ∧
        (u.mbx n).status = 0xFF)) ∧
    (s.rst.fwRun = true → 2 ≤ s.fwLate.length → s.rst.runs.any (fun r => r.dom == .warm) = false → ∃ u,
      exec .firmwareWatchdog s = .next u ∧ u.rst.last = 3 ∧ u.rst.fwExp = [] ∧ u.sch.phase = .recovery ∧
      u.rst.runs = [⟨.warm, 0, u.tick⟩]) ∧
    (s.rst.fwRun = true → 2 ≤ s.fwLate.length → s.rst.runs.any (fun r => r.dom == .warm) = true → ∃ u,
      exec .firmwareWatchdog s = .next u ∧ u.rst = { s.rst with fwExp := [], refuse := 4 } ∧ u.sch = s.sch ∧
      u.reg pgMD 0x54 = satAt max32 (s.reg pgMD 0x54 + 1) ∧ u.reg pgRST 0x58 = satAt max32 (s.reg pgRST 0x58 + 1)) := by
  refine ⟨exec_firmwareWatchdog_stopped, fun h hl => ?_, exec_firmwareWatchdog_warm, exec_firmwareWatchdog_absorbed⟩
  obtain ⟨-, hsch, hcores, hmem⟩ := s.fwExpires_state
  exact ⟨_, exec_firmwareWatchdog_early h hl, State.fwExpires_rst hl, hsch, s.fwExpires_count, hcores, hmem, s.fwExpires_int,
    fun n rest hq hn => s.fwExpires_mail hq hn⟩

/-- The end of a recovery that has not failed (R466). -/
theorem warmRecoveryDone_ends {s : State} {r : ResetRun} (h : s.rst.runs.find? (fun r => r.dom == .warm) = some r) (hp : s.rst.phase ≠ 5) :
    ∃ u, exec .warmRecoveryDone s = .next u ∧ u.rst.runs = [] ∧ u.rst.firstAnswer = true ∧ u.rst.allAnswer = s.pwr.mainOk ∧
      u.tick = (elapseTo (r.since + 100000000) s).tick ∧ u.sch = s.sch ∧ u.mem = s.mem ∧ bitAt (u.reg pgRST 0x10) 0 = true := by
  obtain ⟨hruns, hfirst, hall, htick, hsch, hmem, hbit⟩ := (elapseTo (r.since + 100000000) s).recovered_leaves
  simp only [elapseTo_keeps] at hall hsch hmem
  exact ⟨_, exec_warmRecoveryDone_ends h hp, hruns, hfirst, hall, htick, hsch, hmem, hbit⟩

section
variable {s : State} {r : ResetRun} (h31 : bitAt (s.reg pgRST 0x44) 31 = true) (ho : overrun s.rst.runs = some r)
include h31 ho

theorem resetEscalation_core_out (hd : r.dom = .core) (hdie : s.dieInReset (dieOf r.target) = false) :
    let z := elapseTo (r.limit + 1) s
    ∃ u, exec .resetEscalation s = .next u ∧
      (∀ c < 256, dieOf c = dieOf r.target → CoreAnew s u c ∧ (u.core c).inReset = true) ∧
      u.tick = z.tick ∧ DeviceKept z u ∧ u.rst.last = 2 ∧ ⟨.die, dieOf r.target, z.tick⟩ ∈ u.rst.runs ∧
      u.rst.dump.isSome = true ∧ u.rst.dumpType = 2 :=
  ⟨_, exec_resetEscalation_core_out h31 ho hd hdie, State.coreOverran_takes⟩

theorem resetEscalation_core_in (hd : r.dom = .core) (hdie : s.dieInReset (dieOf r.target) = true) :
    ∃ u, exec .resetEscalation s = .next u ∧ u.tick = (elapseTo (r.limit + 1) s).tick ∧ u.sch = s.sch ∧
      u.rst.runs = s.rst.runs.filter (fun x => x != r) ∧ u.rst.dump.isSome = true ∧ u.rst.dumpType = 2 := by
  have hover := (elapseTo (r.limit + 1) s).coreOverran_leaves r
  obtain ⟨hdump, htype, hruns⟩ := (elapseTo (r.limit + 1) s).coreOverran_rst r
  refine ⟨_, exec_resetEscalation_core_in h31 ho hd hdie, hover.time.1, hover.job.1.trans (by simp), ?_, hdump, htype⟩
  dsimp only
  rw [hruns, (State.elapseTo_runs _ s).1]

theorem resetEscalation_die (hd : r.dom = .die) : ∃ u, exec .resetEscalation s = .next u ∧ WarmFrom (elapseTo (r.limit + 1) s) u ∧
    bitAt (u.reg pgRST 0x10) 2 = true := by
  refine ⟨_, exec_resetEscalation_die h31 ho hd, ?_, State.setInt_bit_rst _ (by decide)⟩
  exact WarmFrom.of_reported (Reported.rstLog _ _ _ _ _) (WarmFrom.warm _ (fun z => Reported.escalates z _ _ _))

theorem resetEscalation_warm (hd : r.dom = .warm) (hp : s.rst.phase ≠ 5) : ∃ u, exec .resetEscalation s = .next u ∧ u.rst.phase = 5 ∧
    u.rst.runs = s.rst.runs ∧ u.tick = (elapseTo (r.limit + 1) s).tick ∧ u.sch = s.sch ∧ bitAt (u.reg pgRST 0x10) 2 = true ∧
    u.rst.dump.isSome = true ∧ u.rst.dumpType = 3 := by
  have hruns := (State.elapseTo_runs (r.limit + 1) s).1
  have hsch : (elapseTo (r.limit + 1) s).sch = s.sch := by simp
  have hexec := exec_resetEscalation_warm h31 ho hd hp
  generalize elapseTo (r.limit + 1) s = z at hruns hsch hexec ⊢
  have hesc := Reported.escalates { z with rst := { z.rst with phase := 5 } } 6 0 0
  have hbit : bitAt ((State.escalates { z with rst := { z.rst with phase := 5 } } 6 0 0).reg pgRST 0x10) 2 = true :=
    State.setInt_bit_rst _ (by decide)
  dsimp only at hexec
  generalize State.escalates { z with rst := { z.rst with phase := 5 } } 6 0 0 = y at hesc hbit hexec
  have hdumped := Reported.dumped y 3
  obtain ⟨hdump, htype, hdruns, hphase⟩ := y.dumped_rst 3
  refine ⟨_, hexec, hphase.trans (by rw [hesc.power.2]), ?_, hdumped.time.1.trans hesc.time.1, ?_, ?_, hdump, htype⟩
  · rw [hdruns, hesc.power.2]
    exact hruns
  · exact (hdumped.job.1.trans hesc.job.1).trans hsch
  · rw [State.dumped, State.dumpDone_other _ (by decide) (by decide) (by decide)]
    exact hbit

end

/-- Settles O55: by the command that meets the expiry, whether it is due, and for the reset in progress by its domain. -/
theorem hangDetection : Obligations.HangDetection := by
  unfold Obligations.HangDetection
  intro s
  refine ⟨fun c t => ⟨exec_progressExpiry_idle, fun h => ?_⟩, fun c => ⟨exec_coreWatchdog_idle, fun h => ?_⟩,
    ⟨exec_partitionWatchdog_idle, fun h => ?_⟩, firmwareWatchdog_cases s,
    fun r h => ⟨exec_warmRecoveryDone_failed h, warmRecoveryDone_ends h⟩, exec_warmRecoveryDone_none, exec_resetEscalation_idle,
    fun r h31 ho => ⟨fun hd hdie => ?_, fun hd hdie => ?_, fun hd => ?_, fun hd hp => ?_, exec_resetEscalation_stays h31 ho⟩⟩
  · exact ⟨_, exec_progressExpiry_due h, State.progressDue_reports h⟩
  · exact ⟨_, exec_coreWatchdog_due h, State.coreBarks_reports s c _⟩
  · exact ⟨_, exec_partitionWatchdog_due h, State.partitionBarked_stops h.2.1 _⟩
  · simp only [hd]
    rw [← ResetRun.limit_core hd]
    exact resetEscalation_core_out h31 ho hd hdie
  · simp only [hd]
    rw [← ResetRun.limit_core hd]
    exact resetEscalation_core_in h31 ho hd hdie
  · simp only [hd]
    rw [← ResetRun.limit_die hd]
    exact resetEscalation_die h31 ho hd
  · simp only [hd]
    rw [← ResetRun.limit_warm hd]
    exact resetEscalation_warm h31 ho hd hp

end Sys2Proof
end

section
/-! PROOFS. A service of the DMA engine (R149, R165 to R179): the comparison of its duplicated address arithmetic, what one block of the
stream whose turn it is leaves, and which service each command makes. -/

namespace Sys2Proof.Machine

open Sys2Proof

/-! The comparison (R179 to R181). -/

theorem State.takeSlip_none {s : State} {page : Nat} (h : Store.find s.slips page = none) : s.takeSlip page = (none, s) := by
  simp only [State.takeSlip, h]

theorem State.takeSlip_some {s : State} {page p : Nat} (h : Store.find s.slips page = some p) :
    s.takeSlip page = (some p, { s with slips := Store.erase s.slips page }) := by
  simp only [State.takeSlip, h]

/-- An upset that has shown itself leaves the registers as they are. -/
theorem State.reg_withSlips (s : State) (l : Store Nat) (page o : Nat) : State.reg { s with slips := l } page o = s.reg page o := rfl

/-- No upset waits in the duplicated address arithmetic. -/
theorem State.dmaSlip_agrees {s : State} {c : Nat} (h : Store.find s.slips (pgDMA c) = none) : s.dmaSlip c = (false, s) := by
  simp only [State.dmaSlip, State.takeSlip_none h]

/-- An upset of the duplicated address arithmetic that the comparison has found: it has shown itself, and is counted. -/
def State.dmaSlipFound (s : State) (c : Nat) : State :=
  State.cnt { s with slips := Store.erase s.slips (pgDMA c) } (pgDMA c) 0x70 1

theorem State.dmaSlip_differs {s : State} {c m : Nat} (h : Store.find s.slips (pgDMA c) = some m)
    (hon : bitAt (s.reg (pgDMA c) 0x40) 0 = true) : s.dmaSlip c = (true, s.dmaSlipFound c) := by
  simp only [State.dmaSlip, State.takeSlip_some h, State.reg_withSlips, hon, if_true, State.dmaSlipFound]

@[simp] theorem State.modDma_slips (s : State) (c : Nat) (f : DmaState → DmaState) : (s.modDma c f).slips = s.slips := rfl

@[simp] theorem State.beginServe_slips (s : State) (c st : Nat) (d : Desc) : (s.beginServe c st d).1.slips = s.slips := by
  unfold State.beginServe
  by_cases h : d.started = true <;> simp [h]

/-! The stream whose turn it is (R165). -/

theorem State.served_eq_some_iff (s : State) (c st kind : Nat) (d : Desc) : s.served c st kind = some d ↔
    ((s.core c).dma.stream st).head? = some d ∧ s.arrRuns c = true ∧ dsKind d.word = kind ∧ (s.core c).dma.turn = some st := by
  simp only [State.served]
  cases ((s.core c).dma.stream st).head? with
  | none => simp
  | some q =>
    simp only [Option.ite_none_right_eq_some, Bool.and_eq_true, beq_iff_eq, Option.some.injEq, and_assoc]
    constructor
    · rintro ⟨hr, hk, ht, rfl⟩
      exact ⟨rfl, hr, hk, ht⟩
    · rintro ⟨rfl, hr, hk, ht⟩
      exact ⟨hr, hk, ht, rfl⟩

/-- The head of a stream is of one KIND. -/
theorem State.served_other {s : State} {c st kind : Nat} {d : Desc} (h : s.served c st kind = some d) {other : Nat}
    (hne : other ≠ kind) : s.served c st other = none := by
  obtain ⟨hhead, -, hkind, -⟩ := (s.served_eq_some_iff c st kind d).mp h
  refine Option.eq_none_iff_forall_ne_some.mpr fun q hq => ?_
  obtain ⟨hhead', -, hkind', -⟩ := (s.served_eq_some_iff c st other q).mp hq
  rw [hhead, Option.some.injEq] at hhead'
  subst hhead'
  exact hne (hkind'.symm.trans hkind)

/-! One block of a descriptor (R172). -/

/-- What a failure reports of a descriptor does not depend on its ordinal, nor on whether its service has begun. -/
theorem State.dmaStop_beginServe (y s : State) (c st : Nat) (d : Desc) (e : FClass × Nat × Nat) (n : Nat) :
    y.dmaStop c st (s.beginServe c st d).2 e n = y.dmaStop c st d e n := rfl

section
variable {s : State} {c st kind : Nat} {d : Desc} (hs : s.served c st kind = some d)
  {move : State → Desc → Nat → State × DmaRes Unit}
include hs

section
variable (hn : Store.find s.slips (pgDMA c) = none) {y : State}
include hn

/-- A block whose move succeeds counts as moved. -/
theorem State.serve_moved (hm : move (s.beginServe c st d).1 (s.beginServe c st d).2 d.done = (y, .ok ())) :
    s.serve c st kind move = y.moved c st 1 := by
  have agrees := State.dmaSlip_agrees (s := (s.beginServe c st d).1) (c := c) (by simpa using hn)
  simp only [State.serve, hs, agrees, hm]

/-- A block whose move fails stops its descriptor at that element. -/
theorem State.serve_failed {e : FClass × Nat × Nat}
    (hm : move (s.beginServe c st d).1 (s.beginServe c st d).2 d.done = (y, .error e)) :
    s.serve c st kind move = y.dmaStop c st d e d.done := by
  have agrees := State.dmaSlip_agrees (s := (s.beginServe c st d).1) (c := c) (by simpa using hn)
  simp only [State.serve, hs, agrees, hm, State.dmaStop_beginServe]

end

/-- A mismatch stops the descriptor at that element with cause 0x5. -/
theorem State.serve_differs {m : Nat} (hm : Store.find s.slips (pgDMA c) = some m)
    (hon : bitAt ((s.beginServe c st d).1.reg (pgDMA c) 0x40) 0 = true) :
    let y := (s.beginServe c st d).1.dmaSlipFound c
    s.serve c st kind move =
      y.dmaStop c st (s.beginServe c st d).2 (.hw, 5, y.elemAddr c (s.beginServe c st d).2 d.done) d.done := by
  have differs := State.dmaSlip_differs (s := (s.beginServe c st d).1) (by simpa using hm) hon
  simp only [State.serve, hs, differs]

end

/-! A row of a TRANSPOSE (R174). -/

section
variable {s : State} {c st : Nat} {d : Desc}

section
variable (hn : Store.find s.slips (pgDMA c) = none) {y : State}
include hn

/-- A row that has been read is counted and kept. -/
theorem State.serveRow_read {row : Moved}
    (hm : (s.beginServe c st d).1.transposeRow c (s.beginServe c st d).2 d.rows.length = (y, .ok row)) :
    s.serveRow c st d = (y.countRead c 1).modHead c st (fun q => { q with rows := q.rows ++ [row] }) := by
  have agrees := State.dmaSlip_agrees (s := (s.beginServe c st d).1) (c := c) (by simpa using hn)
  simp only [State.serveRow, agrees, hm]

/-- A row whose read fails stops the descriptor at that row. -/
theorem State.serveRow_failed {e : FClass × Nat × Nat}
    (hm : (s.beginServe c st d).1.transposeRow c (s.beginServe c st d).2 d.rows.length = (y, .error e)) :
    s.serveRow c st d = y.dmaStop c st (s.beginServe c st d).2 e d.rows.length := by
  have agrees := State.dmaSlip_agrees (s := (s.beginServe c st d).1) (c := c) (by simpa using hn)
  simp only [State.serveRow, agrees, hm]

end

/-- A mismatch stops the descriptor at that row with cause 0x5. -/
theorem State.serveRow_differs {m : Nat} (hm : Store.find s.slips (pgDMA c) = some m)
    (hon : bitAt ((s.beginServe c st d).1.reg (pgDMA c) 0x40) 0 = true) :
    let y := (s.beginServe c st d).1.dmaSlipFound c
    s.serveRow c st d = y.dmaStop c st (s.beginServe c st d).2
      (.hw, 5, y.elemAddr c (s.beginServe c st d).2 d.rows.length) d.rows.length := by
  have differs := State.dmaSlip_differs (s := (s.beginServe c st d).1) (by simpa using hm) hon
  simp only [State.serveRow, differs]

end

/-! A block of a walk's step (R149). -/

/-- A walk one block further; the last block of a step ends it. -/
def Walk.blockMoved (k : Walk) : Walk := { k with left := k.left - 1, step := if k.left = 1 then k.step + 1 else k.step }

section
variable {s : State} {c st : Nat} {d : Desc} {k : Walk} (hs : s.served c st 7 = some d)
  (hk : Store.find (s.core c).dma.walks st = some k) (hn : Store.find s.slips (pgDMA c) = none) {y : State}
include hs hk hn

/-- A block of a walk's step that moved takes the walk one block further. -/
theorem State.serveWalk_moved
    (hm : (s.modDma c (fun m => { m with lastServed := st })).walkBlock c d k (tbRun k.table - k.left) = (y, .ok ())) :
    s.serveWalk c st = (y.modDma c (fun m => { m with walks := Store.insert m.walks st k.blockMoved })).modHead c st
      (fun q => { q with done := q.done + 1 }) := by
  have agrees := State.dmaSlip_agrees (s := s.modDma c (fun m => { m with lastServed := st })) (c := c) hn
  simp only [State.serveWalk, hs, hk, agrees, hm, Walk.blockMoved]

/-- A block of a walk's step that fails stops the walk's descriptor at that block. -/
theorem State.serveWalk_failed {e : FClass × Nat × Nat}
    (hm : (s.modDma c (fun m => { m with lastServed := st })).walkBlock c d k (tbRun k.table - k.left) = (y, .error e)) :
    s.serveWalk c st = y.dmaStop c st d e (tbRun k.table - k.left) := by
  have agrees := State.dmaSlip_agrees (s := s.modDma c (fun m => { m with lastServed := st })) (c := c) hn
  simp only [State.serveWalk, hs, hk, agrees, hm]

end

/-! The service that each command makes. -/

section
variable {s : State} {c : Fin 256} {st : Fin 32} {d : Desc}

theorem exec_copy_serves (hs : s.served c st 1 = some d) :
    exec (.copy c st) s = .next (s.serve c st 1 (fun y d i => y.copyBlock c d i)) := by
  change execCopy c st s = _
  simp [execCopy, State.served_other hs (other := 7) (by decide)]

theorem exec_copy_serves_walk (hs : s.served c st 7 = some d) : exec (.copy c st) s = .next (s.serveWalk c st) := by
  change execCopy c st s = _
  simp [execCopy, hs]

theorem exec_gather_serves (c : Fin 256) (st : Fin 32) (s : State) :
    exec (.gather c st) s = .next (s.serve c st 2 (fun y d i => y.gatherBlock c d i)) := rfl

theorem exec_scatter_serves (c : Fin 256) (st : Fin 32) (s : State) :
    exec (.scatter c st) s = .next (s.serve c st 3 (fun y d i => y.scatterBlock c d i)) := rfl

theorem exec_ingest_serves (c : Fin 256) (st : Fin 32) (s : State) :
    exec (.ingest c st) s = .next (s.serve c st 4 (fun y d i => y.ingestBlock c d i)) := rfl

/-- A SEND that has started, or whose start checks pass, is served (R176). -/
theorem exec_send_serves (hs : s.served c st 5 = some d) (hstart : d.started = true ∨ s.sendStart c d = none) :
    exec (.send c st) s = .next (s.serve c st 5 (fun y d i => y.sendBlock c st d i)) := by
  have checked : (if d.started then none else s.sendStart c d) = none := by
    rcases hstart with h | h <;> simp [h]
  change execSend c st s = _
  simp only [execSend, hs, checked]

theorem exec_transpose_reads (hs : s.served c st 6 = some d) (hn : d.rows.length < 64) :
    exec (.transpose c st) s = .next (s.serveRow c st d) := by
  change execTranspose c st s = _
  simp only [execTranspose, hs, hn, if_true]

theorem exec_transpose_writes (hs : s.served c st 6 = some d) (hn : 64 ≤ d.rows.length) :
    exec (.transpose c st) s = .next (s.serve c st 6 (fun y d i => (y.transposeBlock c d i, .ok ()))) := by
  change execTranspose c st s = _
  simp only [execTranspose, hs, Nat.not_lt.mpr hn, if_false]

end

/-! The outcomes of a command that makes one service of a descriptor. -/

section
variable {s : State} {c st kind : Nat} {d : Desc} {i : Instr} {move : State → Desc → Nat → State × DmaRes Unit}
  (he : exec i s = .next (s.serve c st kind move)) (hs : s.served c st kind = some d)
include he hs

theorem exec_of_serve_agrees (hn : Store.find s.slips (pgDMA c) = none) :
    (∀ y, move (s.beginServe c st d).1 (s.beginServe c st d).2 d.done = (y, .ok ()) → exec i s = .next (y.moved c st 1)) ∧
    (∀ y e, move (s.beginServe c st d).1 (s.beginServe c st d).2 d.done = (y, .error e) →
      exec i s = .next (y.dmaStop c st d e d.done)) :=
  ⟨fun _ hm => by rw [he, State.serve_moved hs hn hm], fun _ _ hm => by rw [he, State.serve_failed hs hn hm]⟩

theorem exec_of_serve_differs {m : Nat} (hm : Store.find s.slips (pgDMA c) = some m)
    (hon : bitAt ((s.beginServe c st d).1.reg (pgDMA c) 0x40) 0 = true) :
    let y := (s.beginServe c st d).1.dmaSlipFound c
    exec i s = .next (y.dmaStop c st (s.beginServe c st d).2
      (.hw, 5, y.elemAddr c (s.beginServe c st d).2 d.done) d.done) := by
  dsimp only
  rw [he, State.serve_differs hs hm hon]

end

/-- TRANSPOSE with a mismatch stops at the row that it would read, or at the block that it would write (R174, R179). -/
theorem exec_transpose_differs {s : State} {c : Fin 256} {st : Fin 32} {d : Desc} (hs : s.served c st 6 = some d) {m : Nat}
    (hm : Store.find s.slips (pgDMA c) = some m) (hon : bitAt ((s.beginServe c st d).1.reg (pgDMA c) 0x40) 0 = true) :
    let y := (s.beginServe c st d).1.dmaSlipFound c
    let elem := if d.rows.length < 64 then d.rows.length else d.done
    exec (.transpose c st) s = .next (y.dmaStop c st (s.beginServe c st d).2
      (.hw, 5, y.elemAddr c (s.beginServe c st d).2 elem) elem) := by
  by_cases hn : d.rows.length < 64
  · simp only [hn, if_true]
    rw [exec_transpose_reads hs hn, State.serveRow_differs hm hon]
  · simp only [hn, if_false]
    exact exec_of_serve_differs (exec_transpose_writes hs (Nat.not_lt.mp hn)) hs hm hon

end Sys2Proof.Machine

namespace Sys2Proof

open Machine

/-- Settles O20: each command makes one service, and a service by whether the comparison agrees and whether the block moves. -/
theorem dmaBlocks : Obligations.DmaBlocks := by
  unfold Obligations.DmaBlocks
  intro s c st kind d hs
  refine ⟨fun hn => ⟨?copy, ?gather, ?scatter, ?ingest, ?send, ?row, ?block, ?walk⟩, fun m hm hon => ?differs⟩
  case copy =>
    rintro rfl
    exact exec_of_serve_agrees (exec_copy_serves hs) hs hn
  case gather =>
    rintro rfl
    exact exec_of_serve_agrees (exec_gather_serves c st s) hs hn
  case scatter =>
    rintro rfl
    exact exec_of_serve_agrees (exec_scatter_serves c st s) hs hn
  case ingest =>
    rintro rfl
    exact exec_of_serve_agrees (exec_ingest_serves c st s) hs hn
  case send =>
    rintro rfl hstart
    exact exec_of_serve_agrees (exec_send_serves hs hstart) hs hn
  case row =>
    rintro rfl hrows
    have reads := exec_transpose_reads hs hrows
    exact ⟨fun y row hm => reads.trans (congrArg _ (State.serveRow_read hn hm)),
      fun y e hm => reads.trans (congrArg _ (State.serveRow_failed hn hm))⟩
  case block =>
    rintro rfl hrows
    exact (exec_of_serve_agrees (exec_transpose_writes hs hrows) hs hn).1 _ rfl
  case walk =>
    rintro k rfl hk
    have serves := exec_copy_serves_walk hs
    exact ⟨fun y hm => serves.trans (congrArg _ (State.serveWalk_moved hs hk hn hm)),
      fun y e hm => serves.trans (congrArg _ (State.serveWalk_failed hs hk hn hm))⟩
  case differs =>
    refine ⟨?_, ?_, ?_, ?_, ?_, ?_⟩
    · rintro rfl
      exact exec_of_serve_differs (exec_copy_serves hs) hs hm hon
    · rintro rfl
      exact exec_of_serve_differs (exec_gather_serves c st s) hs hm hon
    · rintro rfl
      exact exec_of_serve_differs (exec_scatter_serves c st s) hs hm hon
    · rintro rfl
      exact exec_of_serve_differs (exec_ingest_serves c st s) hs hm hon
    · rintro rfl hstart
      exact exec_of_serve_differs (exec_send_serves hs hstart) hs hm hon
    · rintro rfl
      exact exec_transpose_differs hs hm hon

end Sys2Proof
end

section
/-! PROOFS. A tile walk (R147 to R156): its start, its steps, the commands that it emits, and its end. -/

namespace Sys2Proof.Machine

open Sys2Proof

/-! WALK (R147, R161). -/

/-- The walk of descriptor `d` as it starts, with its table `b` and its templates as they then stand (R147, R148). -/
def State.startedWalk (s : State) (c : Nat) (d : Desc) (b : List Byte) : Walk :=
  { table := b
    templates := if tbKind b = 1 then [] else
      s.cmBytes c (tbTemplate b) (tbTemplateBytes b (leNat (s.cmBytes c (tbTemplate b) 8)))
    idx := (upTo 5).map (fun i => walkIndex d.word (i + 1)), desc := d }

/-- A stream whose head has started as walk `k`. -/
def State.startWalk (s : State) (c st : Nat) (k : Walk) : State :=
  s.modDma c (fun m => { m.setStream st (modAt (fun q => { q with started := true }) (m.stream st) 0) with
    walks := Store.insert m.walks st k })

section
variable {s : State} {c : Fin 256} {st : Fin 32} {d : Desc} (hd : s.walkHead c st = some d) {b : List Byte}
  (hb : s.cmBytes c (fld d.word 64 23) walkBytes = b)
include hd hb

section
variable (hc : s.walkStartCheck c d b = none) {y : State}
include hc

theorem exec_walk_starts
    (hr : (s.trcCmd 1 c 4 st d.ctx d.gen d.addr false).walkReads c (fld d.word 64 23) b = (y, .ok ())) :
    exec (.walk c st) s = .next (y.startWalk c st (s.startedWalk c d b)) := by
  change execWalk c st s = _
  simp only [execWalk, hd, hb, hc, hr, State.startWalk, State.startedWalk]

/-- A table or a template that cannot be read is the DMA engine's failure of the descriptor (R161). -/
theorem exec_walk_unread {e : FClass × Nat × Nat}
    (hr : (s.trcCmd 1 c 4 st d.ctx d.gen d.addr false).walkReads c (fld d.word 64 23) b = (y, .error e)) :
    exec (.walk c st) s = .next (y.dmaStop c st d e 0) := by
  change execWalk c st s = _
  simp only [execWalk, hd, hb, hc, hr]

end

section
variable {cause o : Nat}

/-- A start check that fails with a schedule fault stalls the stream. -/
theorem exec_walk_stalls (hc : s.walkStartCheck c d b = some (.sched, cause, o)) : exec (.walk c st) s =
    .next ((s.modHead c st (fun q => { q with stalled := true })).tilFault c d .sched cause o 0) := by
  change execWalk c st s = _
  simp only [execWalk, hd, hb, hc]

/-- A start check that fails with a context fault removes the descriptor, and its context's later ones. -/
theorem exec_walk_discards (hc : s.walkStartCheck c d b = some (.ctx, cause, o)) : exec (.walk c st) s =
    .next (((s.tilFault c d .ctx cause o 0).modDma c (fun m => m.discard st .ctx d.ctx)).checkDescHead c st) := by
  change execWalk c st s = _
  simp only [execWalk, hd, hb, hc]

end
end

/-! WALK_STEP (R148 to R150, R153, R156). -/

/-- No upset waits in the duplicated address and patch arithmetic. -/
theorem State.tilSlip_agrees {s : State} {c : Nat} (h : Store.find s.slips (pgTIL c) = none) : s.tilSlip c = (none, s) := by
  simp only [State.tilSlip, State.takeSlip_none h]

/-- An upset of the duplicated address and patch arithmetic that the comparison has found: it has shown itself, and is counted. -/
def State.tilSlipFound (s : State) (c : Nat) : State :=
  State.cnt { s with slips := Store.erase s.slips (pgTIL c) } (pgTIL c) 0x5C 1

theorem State.tilSlip_differs {s : State} {c p : Nat} (h : Store.find s.slips (pgTIL c) = some p)
    (hon : bitAt (s.reg (pgTIL c) 0x40) 0 = true) : s.tilSlip c = (some (p % 3), s.tilSlipFound c) := by
  simp only [State.tilSlip, State.takeSlip_some h, State.reg_withSlips, hon, if_true, State.tilSlipFound]

/-- A walk stopped by a fault at its present step (R153). -/
def State.stopWalk (s : State) (c st : Nat) (k : Walk) (cls : FClass) (cause o : Nat) : State :=
  (s.setWalk c st { k with stopped := true }).tilFault c k.desc cls cause o k.step

/-- A MOVE step hands its transfer to the stream (R149). -/
theorem State.walkStep_move {k : Walk} (h : tbKind k.table = 1) (s : State) (c st : Nat) :
    s.walkStep c st k = ((s.trcStep c st k).cnt64 (pgTIL c) 0x48 1).setWalk c st { k with left := tbRun k.table } := by
  simp only [State.walkStep, h, if_true]

/-- An EMIT step forms its commands (R150). -/
theorem State.walkStep_emit {k : Walk} (h : tbKind k.table ≠ 1) (s : State) (c st : Nat) : s.walkStep c st k =
    ((s.trcStep c st k).cnt64 (pgTIL c) 0x48 1).setWalk c st { k with step := k.step + 1, pend := k.commands } := by
  simp only [State.walkStep, h, if_false]

section
variable {s : State} {c : Fin 256} {st : Fin 32} {k : Walk} (hr : s.arrRuns c = true)
  (hk : Store.find (s.core c).dma.walks st = some k) (hs : k.stopped = false)
include hr hk hs

section
variable (hp : k.pend = []) (hl : k.left = 0)
include hp hl

section
variable (hstep : k.step < tbBound k.table 0)
include hstep

/-- A mismatch stops the walk with cause 0x1. -/
theorem exec_walkStep_differs {p : Nat} (hm : Store.find s.slips (pgTIL c) = some p)
    (hon : bitAt (s.reg (pgTIL c) 0x40) 0 = true) :
    exec (.walkStep c st) s = .next ((s.tilSlipFound c).stopWalk c st k .hw 1 (p % 3)) := by
  change execWalkStep c st s = _
  simp [execWalkStep, State.stopWalk, hk, hr, hs, hp, hl, hstep, State.tilSlip_differs hm hon]

section
variable (hn : Store.find s.slips (pgTIL c) = none)
include hn

/-- A step that would leave a window, or the width of a field, stops the walk with cause 0x4. -/
theorem exec_walkStep_overflows {o : Nat} (ho : k.overflow = some o) :
    exec (.walkStep c st) s = .next (s.stopWalk c st k .sched 4 o) := by
  change execWalkStep c st s = _
  simp [execWalkStep, State.stopWalk, hk, hr, hs, hp, hl, hstep, State.tilSlip_agrees hn, ho]

theorem exec_walkStep_passes (ho : k.overflow = none) : exec (.walkStep c st) s = .next (s.walkStep c st k) := by
  change execWalkStep c st s = _
  simp [execWalkStep, hk, hr, hs, hp, hl, hstep, State.tilSlip_agrees hn, ho]

end
end

/-! WALK_DONE (R152, R168). -/

theorem exec_walkDone_ends (hstep : tbBound k.table 0 ≤ k.step) : exec (.walkDone c st) s =
    .next ((((s.modDma c (fun m => { m with walks := Store.erase m.walks st })).cnt (pgTIL c) 0x58 1).trcCmd 2 c 4 st
      k.desc.ctx k.desc.gen k.desc.addr false).endDesc c st k.desc) := by
  change execWalkDone c st s = _
  simp [execWalkDone, hk, hr, hs, hp, hl, hstep]

end

/-! EMIT_COMMAND (R151). -/

/-- The walk's next command taken out of it, and counted. -/
def State.takeCommand (s : State) (c st : Nat) (k : Walk) (rest : List (List Byte × Nat)) : State :=
  (s.setWalk c st { k with pend := rest }).cnt64 (pgTIL c) 0x50 1

/-- A walk's command issues as its descriptor did, its binding resolved. -/
def Walk.issue (k : Walk) (addr : Nat) : Issue :=
  ⟨addr, k.desc.thread, k.desc.pc, k.desc.ctx, k.desc.gen, .resolved true, true⟩

/-- A walk's chain command, from the command's bytes. -/
def Walk.chain (k : Walk) (bs : List Byte) (addr serial : Nat) : ChainCmd :=
  ⟨leNat (bs.take 32), (upTo ((bs.length - 32) / 8)).map (fun i => leNat ((bs.drop (32 + 8 * i)).take 8)), serial, k.issue addr⟩

section
variable {bs : List Byte} {addr : Nat} {rest : List (List Byte × Nat)} (hp : k.pend = (bs, addr) :: rest)
  (hb : (s.core c).emitsBefore k = false)
include hp hb

theorem exec_emitCommand_array (ht : tbKind k.table = 2) (hf : (s.core c).arr.full (leNat bs) = false) :
    exec (.emitCommand c st) s = .next (((s.takeCommand c st k rest).markEmitted c k.desc.thread
      (if arrOp (leNat bs) = 1 then 0 else 1)).pushArray c (leNat bs) (k.issue addr)) := by
  change execEmitCommand c st s = _
  simp [execEmitCommand, State.takeCommand, Walk.issue, hk, hr, hs, hp, hb, ht, hf]

theorem exec_emitCommand_chain (ht : tbKind k.table ≠ 2) (hf : (s.core c).fls.queue.length < 4) :
    let u := ((s.takeCommand c st k rest).markEmitted c k.desc.thread 2).modCore c
      (fun x => x.enqueueChain (k.chain bs addr (s.core c).chains))
    exec (.emitCommand c st) s = .next (if (s.core c).fls.queue = [] then u.checkChainHead c else u) := by
  have room : ¬chainDepth ≤ (s.core c).fls.queue.length := Nat.not_le.mpr hf
  change execEmitCommand c st s = _
  simp [execEmitCommand, State.takeCommand, Walk.chain, Walk.issue, hk, hr, hs, hp, hb, ht, room]

end
end

end Sys2Proof.Machine

namespace Sys2Proof

open Machine

/-- Settles O22: the outcomes of a walk's start, then of its next step, its end and its next command, each from the walk as it stands. -/
theorem tileWalk : Obligations.TileWalk := by
  unfold Obligations.TileWalk
  intro s c st hr
  refine ⟨fun d hd => ⟨fun hc => ⟨?starts, ?unread⟩, ?stalls, ?discards⟩,
    fun k hk hs => ⟨fun hp hl hstep => ⟨fun hn => ⟨?overflows, ?moves, ?emits⟩, ?differs⟩, ?ends,
      fun bs addr rest hp hb => ⟨?array, ?chain⟩⟩⟩
  case starts => exact fun y => exec_walk_starts hd rfl hc
  case unread => exact fun y e => exec_walk_unread hd rfl hc
  case stalls => exact fun cause o => exec_walk_stalls hd rfl
  case discards => exact fun cause o => exec_walk_discards hd rfl
  case overflows => exact fun o => exec_walkStep_overflows hr hk hs hp hl hstep hn
  case moves =>
    intro ho ht
    rw [exec_walkStep_passes hr hk hs hp hl hstep hn ho, State.walkStep_move ht]
  case emits =>
    intro ho ht
    rw [exec_walkStep_passes hr hk hs hp hl hstep hn ho, State.walkStep_emit ht]
  case differs => exact fun p => exec_walkStep_differs hr hk hs hp hl hstep
  case ends => exact exec_walkDone_ends hr hk hs
  case array => exact exec_emitCommand_array hr hk hs hp hb
  case chain => exact exec_emitCommand_chain hr hk hs hp hb

end Sys2Proof
end

section
/-! PROOFS. What completes in the DMA engine and on the mesh (R168, R175, R403): a descriptor that leaves its stream, and a block that lands. -/

namespace Sys2Proof.Machine

open Sys2Proof

/-! Descriptors (R168). -/

/-- A descriptor whose last block has moved completes, traced. -/
theorem exec_descriptorDone {s : State} {c : Fin 256} {st : Fin 32} {d : Desc} (hd : ((s.core c).dma.stream st).head? = some d)
    (hr : s.arrRuns c = true) (hm : d.moved = true) :
    exec (.descriptorDone c st) s = .next ((s.trcCmd 2 c 3 st d.ctx d.gen d.addr false).endDesc c st d) := by
  change execDescriptorDone c st s = _
  simp [execDescriptorDone, hd, hr, hm]

/-- It arrives where it has KEY_EN and is no SEND, on a keystone of its context. -/
theorem State.endDesc_arrives {s : State} {c st : Nat} {d : Desc} (he : dsKeyEn d.word = true) (hk : dsKind d.word ≠ 5)
    (hf : ((s.popDesc c st).key (dsKey d.word)).kind ≠ 0) (ho : ((s.popDesc c st).key (dsKey d.word)).owner = d.ctx) :
    s.endDesc c st d = (s.popDesc c st).keyArrive (dsKey d.word) none := by
  simp [State.endDesc, he, hk, hf, ho]

/-- Without KEY_EN, or as a SEND, it only leaves its stream: a SEND arrives where its last block is written. -/
theorem State.endDesc_leaves {s : State} {c st : Nat} {d : Desc} (h : dsKeyEn d.word = false ∨ dsKind d.word = 5) :
    s.endDesc c st d = s.popDesc c st := by
  rcases h with he | hk
  · simp [State.endDesc, he]
  · simp [State.endDesc, hk]

/-! Blocks on the mesh (R175). -/

/-- The state once the block at place `i` of the mesh has landed: written, unless its core is in reset. -/
def State.landBlock (s : State) (i : Nat) (m : MeshMsg) : State :=
  let z : State := { s with mesh := s.mesh.eraseIdx i }
  if (s.core m.dst).inReset then z else z.cmPut m.dst m.addr m.bytes

section
variable {s : State} {c : Fin 256} {st : Fin 32} {i : Nat} {m : MeshMsg}
  (hi : firstIdx (fun m => m.src == c.val && m.stream == st.val) s.mesh 0 = some i) (hm : s.mesh[i]? = some m)
include hi hm

/-- R403: a block whose context has ended is not written. -/
theorem exec_meshDelivery_straggler (ht : s.tagOpen (m.ctx + m.gen * 2 ^ 10) = false) : exec (.meshDelivery c st) s =
    .next (State.stragglerBlock { s with mesh := s.mesh.eraseIdx i } m.ctx) := by
  change execMeshDelivery c st s = _
  simp only [execMeshDelivery, hi, hm, ht]
  rfl

section
variable (ht : s.tagOpen (m.ctx + m.gen * 2 ^ 10) = true)
include ht

/-- A block that is not the last of its SEND, or whose SEND has no KEY_EN, is written and no more. -/
theorem exec_meshDelivery_lands (hk : m.key = none) : exec (.meshDelivery c st) s = .next (s.landBlock i m) := by
  change execMeshDelivery c st s = _
  simp only [execMeshDelivery, hi, hm, ht, hk]
  rfl

/-- The last block arrives on a keystone of its context. -/
theorem exec_meshDelivery_arrives {k : Nat} (hk : m.key = some k) (hf : ((s.landBlock i m).key k).kind ≠ 0)
    (ho : ((s.landBlock i m).key k).owner = m.ctx) :
    exec (.meshDelivery c st) s = .next ((s.landBlock i m).keyArrive k none) := by
  have arrives : (((s.landBlock i m).key k).kind != 0 && ((s.landBlock i m).key k).owner == m.ctx) = true := by simp [hf, ho]
  change execMeshDelivery c st s = _
  simp only [execMeshDelivery, hi, hm, ht, hk]
  exact if_pos arrives

end
end

end Sys2Proof.Machine

namespace Sys2Proof

open Machine

/-- Settles O21: a descriptor's completion by whether it arrives, and a block's landing by its context and its keystone. -/
theorem dmaCompletions : Obligations.DmaCompletions := by
  unfold Obligations.DmaCompletions
  intro s c st
  refine ⟨fun d hd hr hm => ⟨?arrives, ?leaves⟩, fun i m hi hm => ⟨?straggler, ?lands, ?last⟩⟩
  case arrives =>
    intro he hk hf ho
    rw [exec_descriptorDone hd hr hm, State.endDesc_arrives he hk hf ho]
  case leaves =>
    intro h
    rw [exec_descriptorDone hd hr hm, State.endDesc_leaves h]
  case straggler => exact exec_meshDelivery_straggler hi hm
  case lands => exact exec_meshDelivery_lands hi hm
  case last => exact fun k ht => exec_meshDelivery_arrives hi hm ht

end Sys2Proof
end

section
/-! PROOFS. The invariant of the memories and the tick (R160, R189, R285, R299): what it reads of a state, and the rules by which an
operation keeps it. -/

namespace Sys2Proof.Machine

open Sys2Proof

/-- The invariant of every step: each memory and the register file in canonical form, and the tick in its range. -/
structure Canon (s : State) : Prop where
  memories : MemoriesOk s
  tick : TickOk s

/-- Every core listed holds its memory in canonical form. -/
def CoresOk (l : Store Core) : Prop := ∀ p ∈ l, Memory.wf p.2.mem = true

theorem canon_iff {s : State} : Canon s ↔ (s.tick < 2 ^ 64 ∧ s.frac < 16) ∧ Store.rising none s.regs = true ∧ CoresOk s.cores ∧
    Memory.wf s.mem.dev = true ∧ Memory.wf s.mem.cap = true :=
  ⟨fun ⟨⟨dev, cap, cores, regs⟩, ⟨tick, frac⟩⟩ => ⟨⟨tick, frac⟩, regs, cores, dev, cap⟩,
    fun ⟨⟨tick, frac⟩, regs, cores, dev, cap⟩ => ⟨⟨dev, cap, cores, regs⟩, ⟨tick, frac⟩⟩⟩

/-! Sparse stores. -/

theorem Store.rising_set {α : Type} [DecidableEq α] (d : α) (m : Store α) (k : Nat) (v : α) (h : Store.rising none m = true) :
    Store.rising none (Store.set d m k v) = true := by
  unfold Store.set
  split
  · exact Store.rising_erase none m k h
  · exact Store.rising_insert none m k v h (fun l e => by cases e)

theorem Store.get_ok {α : Type} {P : α → Prop} {d : α} (hd : P d) {m : Store α} (h : ∀ p ∈ m, P p.2) (k : Nat) :
    P (Store.get d m k) := by
  induction m with
  | nil => exact hd
  | cons q m ih =>
    unfold Store.get
    split
    · exact h q (by simp)
    · exact ih (fun p hp => h p (by simp [hp]))

theorem Store.mapVals_ok {α : Type} {P Q : α → Prop} {f : Nat → α → α} (hf : ∀ k v, P v → Q (f k v)) {m : Store α}
    (h : ∀ p ∈ m, P p.2) : ∀ p ∈ Store.mapVals f m, Q p.2 := by
  induction m with
  | nil => intro p hp; cases hp
  | cons q m ih =>
    intro p hp
    rcases List.mem_cons.mp hp with rfl | hp
    · exact hf _ _ (h q (by simp))
    · exact ih (fun p hp => h p (by simp [hp])) p hp

theorem CoresOk.set {l : Store Core} (h : CoresOk l) {c : Nat} {k : Core} (hk : Memory.wf k.mem = true) :
    CoresOk (Store.set {} l c k) := by
  intro p hp
  rcases Store.mem_set _ _ _ _ _ hp with rfl | hp
  · exact hk
  · exact h p hp

theorem CoresOk.mapVals {l : Store Core} (h : CoresOk l) {f : Nat → Core → Core}
    (hf : ∀ c k, Memory.wf k.mem = true → Memory.wf (f c k).mem = true) : CoresOk (Store.mapVals f l) :=
  Store.mapVals_ok (P := fun (k : Core) => Memory.wf k.mem = true) (Q := fun (k : Core) => Memory.wf k.mem = true) hf h

/-! The rules of the invariant: a state that differs from a canonical one in nothing the invariant reads, and the writes of what it
reads. -/

section
variable {s : State} (h : Canon s)
include h

theorem Canon.cores : CoresOk s.cores := h.memories.cores

/-- Nothing that the invariant reads is changed; the rest of the memory's state may be another. -/
theorem Canon.frameMem
    {mesh sch tck ctx pie vdt colGroups colPend opt train host clk pwr rst buddy trace bin descGen portMask aon setNow slips pending out
    freeCtr} {mem : MemState} (hd : mem.dev = s.mem.dev) (hc : mem.cap = s.mem.cap) :
    Canon ⟨s.tick, s.frac, s.regs, s.cores, mesh, sch, tck, ctx, pie, vdt, colGroups, colPend, opt, mem, train, host, clk, pwr, rst, buddy,
      trace, bin, descGen, portMask, aon, setNow, slips, pending, out, freeCtr⟩ :=
  canon_iff.mpr (hd ▸ hc ▸ canon_iff.mp h)

/-- Nothing that the invariant reads is changed. -/
theorem Canon.frame
    {mesh sch tck ctx pie vdt colGroups colPend opt train host clk pwr rst buddy trace bin descGen portMask aon setNow slips pending out
    freeCtr devSide capSide devBad capBad capSideBad stack initDone granCfg gran initPlan refPtr sidecarGib stackMask sump recentTick
    recent loadTick loads relaxed sumpMax sumpOvf galUp galMask chans galCmd galXrefSpan retire retState retRefuse retChan retired} :
    Canon ⟨s.tick, s.frac, s.regs, s.cores, mesh, sch, tck, ctx, pie, vdt, colGroups, colPend, opt, ⟨s.mem.dev, s.mem.cap, devSide,
    capSide, devBad, capBad, capSideBad, stack, initDone, granCfg, gran, initPlan, refPtr, sidecarGib, stackMask, sump, recentTick,
    recent, loadTick, loads, relaxed, sumpMax, sumpOvf, galUp, galMask, chans, galCmd, galXrefSpan, retire, retState, retRefuse, retChan,
    retired⟩, train, host, clk, pwr, rst, buddy, trace, bin, descGen, portMask, aon, setNow, slips, pending, out, freeCtr⟩ :=
  h.frameMem rfl rfl

/-- The cores changed, their memories with them. -/
theorem Canon.mapCoresMem
    {mesh sch tck ctx pie vdt colGroups colPend opt train host clk pwr rst buddy trace bin descGen portMask aon setNow slips pending out
    freeCtr devSide capSide devBad capBad capSideBad stack initDone granCfg gran initPlan refPtr sidecarGib stackMask sump recentTick
    recent loadTick loads relaxed sumpMax sumpOvf galUp galMask chans galCmd galXrefSpan retire retState retRefuse retChan retired} {f :
    Nat → Core → Core} (hf : ∀ c k, Memory.wf k.mem = true → Memory.wf (f c k).mem = true) :
    Canon ⟨s.tick, s.frac, s.regs, Store.mapVals f s.cores, mesh, sch, tck, ctx, pie, vdt, colGroups, colPend, opt, ⟨s.mem.dev,
    s.mem.cap, devSide, capSide, devBad, capBad, capSideBad, stack, initDone, granCfg, gran, initPlan, refPtr, sidecarGib, stackMask,
    sump, recentTick, recent, loadTick, loads, relaxed, sumpMax, sumpOvf, galUp, galMask, chans, galCmd, galXrefSpan, retire, retState,
    retRefuse, retChan, retired⟩, train, host, clk, pwr, rst, buddy, trace, bin, descGen, portMask, aon, setNow, slips, pending, out,
    freeCtr⟩ := by
  obtain ⟨tick, regs, cores, dev, cap⟩ := canon_iff.mp h
  exact canon_iff.mpr ⟨tick, regs, cores.mapVals hf, dev, cap⟩

/-- The cores changed, but for their memories. -/
theorem Canon.mapCores
    {mesh sch tck ctx pie vdt colGroups colPend opt train host clk pwr rst buddy trace bin descGen portMask aon setNow slips pending out
    freeCtr devSide capSide devBad capBad capSideBad stack initDone granCfg gran initPlan refPtr sidecarGib stackMask sump recentTick
    recent loadTick loads relaxed sumpMax sumpOvf galUp galMask chans galCmd galXrefSpan retire retState retRefuse retChan retired} {f :
    Nat → Core → Core} (hf : ∀ c k, (f c k).mem = k.mem) :
    Canon ⟨s.tick, s.frac, s.regs, Store.mapVals f s.cores, mesh, sch, tck, ctx, pie, vdt, colGroups, colPend, opt, ⟨s.mem.dev,
    s.mem.cap, devSide, capSide, devBad, capBad, capSideBad, stack, initDone, granCfg, gran, initPlan, refPtr, sidecarGib, stackMask,
    sump, recentTick, recent, loadTick, loads, relaxed, sumpMax, sumpOvf, galUp, galMask, chans, galCmd, galXrefSpan, retire, retState,
    retRefuse, retChan, retired⟩, train, host, clk, pwr, rst, buddy, trace, bin, descGen, portMask, aon, setNow, slips, pending, out,
    freeCtr⟩ :=
  h.mapCoresMem (fun c k hk => (hf c k).symm ▸ hk)

theorem Canon.withRegs {m : Store Word} (hm : Store.rising none m = true) : Canon { s with regs := m } := by
  obtain ⟨tick, -, rest⟩ := canon_iff.mp h
  exact canon_iff.mpr ⟨tick, hm, rest⟩

theorem Canon.filterRegs {f : Nat × Word → Bool} : Canon { s with regs := s.regs.filter f } :=
  h.withRegs (Store.rising_filter none s.regs f h.memories.registers)

theorem Canon.withCores {l : Store Core} (hl : CoresOk l) : Canon { s with cores := l } := by
  obtain ⟨tick, regs, -, rest⟩ := canon_iff.mp h
  exact canon_iff.mpr ⟨tick, regs, hl, rest⟩

/-- Device and capacity memory changed, with what goes with them. -/
theorem Canon.withMem {m : MemState} (hd : Memory.wf m.dev = true) (hc : Memory.wf m.cap = true) : Canon { s with mem := m } := by
  obtain ⟨tick, regs, cores, -, -⟩ := canon_iff.mp h
  exact canon_iff.mpr ⟨tick, regs, cores, hd, hc⟩

theorem Canon.withTick {t f : Nat} (ht : t < 2 ^ 64) (hf : f < 16) : Canon { s with tick := t, frac := f } := by
  obtain ⟨-, rest⟩ := canon_iff.mp h
  exact canon_iff.mpr ⟨⟨ht, hf⟩, rest⟩

/-- A core's memory; one that is not listed is at reset. -/
theorem Canon.core (c : Nat) : Memory.wf (s.core c).mem = true :=
  Store.get_ok (P := fun (k : Core) => Memory.wf k.mem = true) rfl h.memories.cores c

theorem Canon.foldl {α : Type} {f : State → α → State} {l : List α} (hf : ∀ z, Canon z → ∀ x, Canon (f z x)) :
    Canon (l.foldl f s) := by
  induction l generalizing s with
  | nil => exact h
  | cons x l ih => exact ih (hf s h x)

end

theorem Canon.ite {p : Prop} [Decidable p] {a b : State} (ha : Canon a) (hb : Canon b) : Canon (if p then a else b) := by
  split
  · exact ha
  · exact hb

theorem Canon.foldl_fst {α β : Type} {f : State × β → α → State × β} {l : List α} {x : State × β} (h : Canon x.1)
    (hf : ∀ y, Canon y.1 → ∀ a, Canon (f y a).1) : Canon (l.foldl f x).1 := by
  induction l generalizing x with
  | nil => exact h
  | cons a l ih => exact ih (hf x h a)

/-- A state that an operation answers first, beside a result. -/
theorem Canon.of_fst {α : Type} {x : State × α} (h : Canon x.1) {s : State} {a : α} (e : x = (s, a)) : Canon s := by
  rw [e] at h; exact h

theorem Canon.of_snd {α : Type} {x : α × State} (h : Canon x.2) {s : State} {a : α} (e : x = (a, s)) : Canon s := by
  rw [e] at h; exact h

/-- The invariant of a command's outcome: the next state is canonical, if there is one. -/
def CanonNext (o : Host.Outcome State Fault Refusal) : Prop := ∀ t, o = .next t → Canon t

theorem CanonNext.next {t : State} (h : Canon t) : CanonNext (.next t) := fun u e => by cases e; exact h

theorem CanonNext.ite {p : Prop} [Decidable p] {a b : Host.Outcome State Fault Refusal} (ha : CanonNext a) (hb : CanonNext b) :
    CanonNext (if p then a else b) := by
  split
  · exact ha
  · exact hb

end Sys2Proof.Machine
end

section
/-! PROOFS. The operations that the units share keep the memories canonical and the tick in range: registers, reports, core memory,
keystones, ticks, and the writes of device and capacity memory. -/

namespace Sys2Proof.Machine

open Sys2Proof

section
variable {s : State} (h : Canon s)
include h

/-! Machine/Ops. -/

theorem Canon.wr {off v : Nat} : Canon (s.wr off v) := h.withRegs (Store.rising_set _ s.regs off _ h.memories.registers)

theorem Canon.setReg {page o v : Nat} : Canon (s.setReg page o v) := h.wr

theorem Canon.setReg64 {page o v : Nat} : Canon (s.setReg64 page o v) := h.setReg.setReg

theorem Canon.cnt {page o n : Nat} : Canon (s.cnt page o n) := h.setReg

theorem Canon.cnt64 {page o n : Nat} : Canon (s.cnt64 page o n) := h.setReg64

theorem Canon.emit {o : Out} : Canon (s.emit o) := h.frame

theorem Canon.free : Canon s.free.2 := h.frame

theorem Canon.sendVector {ty : Nat} : Canon (s.sendVector ty) := .ite h (.ite h.frame h.emit)

theorem Canon.refreshLine {ty : Nat} : Canon (s.refreshLine ty) := .ite h.frame.sendVector (.ite h.frame h)

theorem Canon.markSet {page o bit : Nat} : Canon (s.markSet page o bit) := h.frame

theorem Canon.raiseInt {page bit : Nat} : Canon (s.raiseInt page bit) := h.markSet.setReg.refreshLine

theorem Canon.wakeReason {r : Nat} : Canon (s.wakeReason r) :=
  .ite h (.ite h.markSet.setReg.raiseInt (.ite h.markSet.setReg.raiseInt.frame.cnt.emit h.markSet.setReg.raiseInt.frame.emit))

theorem Canon.setInt {page bit : Nat} : Canon (s.setInt page bit) :=
  .ite h.raiseInt.wakeReason (.ite h.raiseInt.wakeReason (.ite h.raiseInt.wakeReason h.raiseInt))

theorem Canon.wakeHw {l0 : Nat} : Canon (s.wakeHw l0) := .ite h.wakeReason h

theorem Canon.logRaw {page l0 l1 l2 : Nat} : Canon (s.logRaw page l0 l1 l2) :=
  .ite h.setInt h.setReg.setReg.setReg.setReg64.setReg64.wakeHw

theorem Canon.trcPut {ty src : Nat} {payload : List Byte} : Canon (s.trcPut ty src payload) := .ite h.frame h.frame.cnt.setInt.logRaw

theorem Canon.trc {ty src : Nat} {ctx : Option Nat} {payload : List Byte} : Canon (s.trc ty src ctx payload) := .ite h.trcPut h

theorem Canon.trcFault {src : Nat} {ctx : Option Nat} {l0 l1 : Nat} : Canon (s.trcFault src ctx l0 l1) := .ite h h.trc

theorem Canon.logErr {page l0 l1 l2 : Nat} : Canon (s.logErr page l0 l1 l2) := .ite h.logRaw h.logRaw.trcFault

theorem Canon.dmaLog {page l0 l1 elem addr : Nat} : Canon (s.dmaLog page l0 l1 elem addr) :=
  .ite h.setInt h.setReg.setReg.setReg.setReg64.setReg64.setReg.wakeHw.trcFault

theorem Canon.genLog {cause : Nat} {m : Master} {write : Bool} {off : Nat} : Canon (s.genLog cause m write off) := h.logErr.setInt

theorem Canon.lk {m : Master} {page o : Nat} {k : State → State} (hk : ∀ z, Canon z → Canon (k z)) : Canon (s.lk m page o k) :=
  .ite h (.ite (hk _ h) h.genLog)

theorem Canon.takeSlip {page : Nat} : Canon (s.takeSlip page).2 := by
  unfold State.takeSlip
  split
  · exact h
  · exact h.frame

theorem Canon.setCoreMem {c : Nat} {k : Core} (hk : Memory.wf k.mem = true) : Canon (s.setCore c k) := h.withCores (h.cores.set hk)

theorem Canon.setCore {c : Nat} {k : Core} (hk : k.mem = (s.core c).mem) : Canon (s.setCore c k) := h.setCoreMem (hk ▸ h.core c)

theorem Canon.modCore {c : Nat} {f : Core → Core} (hf : ∀ k, (f k).mem = k.mem) : Canon (s.modCore c f) := h.setCore (hf _)

theorem Canon.modCoreMem {c : Nat} {f : Core → Core} (hf : ∀ k, Memory.wf k.mem = true → Memory.wf (f k).mem = true) :
    Canon (s.modCore c f) :=
  h.setCoreMem (hf _ (h.core c))

theorem Canon.setThread {c t : Nat} {x : Thread} : Canon (s.setThread c t x) := h.modCore (fun _ => by rfl)

theorem Canon.pieErr {cls cause pos dev : Nat} : Canon (s.pieErr cls cause pos dev) := h.logErr

theorem Canon.setVport {p : Nat} {v : VPort} : Canon (s.setVport p v) := h.frame

theorem Canon.setOport {p : Nat} {o : OptPort} : Canon (s.setOport p o) := h.frame

theorem Canon.sendAlarm {p w : Nat} : Canon (s.sendAlarm p w) := h.frame

theorem Canon.floodAlarm {w : Nat} {skip : Option Nat} : Canon (s.floodAlarm w skip) := h.frame.trc.foldl (fun _ hz _ => hz.sendAlarm)

theorem Canon.raiseAlarm {w : Nat} : Canon (s.raiseAlarm w) := .ite h h.floodAlarm

theorem Canon.raiseWith {r : Raise} : Canon (s.raiseWith r) := by
  unfold State.raiseWith
  split
  · exact h.frame
  · exact h.frame
  · exact h

theorem Canon.raiseHw : Canon s.raiseHw := h.raiseWith

theorem Canon.holdStop {n : Nat} : Canon (s.holdStop n) := .ite h h.frame

theorem Canon.raiseSched : Canon s.raiseSched := .ite h.holdStop.raiseAlarm h

theorem Canon.raiseCtx {id : Nat} : Canon (s.raiseCtx id) := .ite (h.mapCores (fun _ _ => by rfl)) (h.mapCores (fun _ _ => by rfl)).frame

theorem Canon.raiseClass {cls : FClass} {ctx : Nat} : Canon (s.raiseClass cls ctx) := by
  unfold State.raiseClass
  split
  · exact h.raiseHw
  · exact h.raiseCtx
  · exact h.raiseSched

theorem Canon.pushRec {c : Nat} {r : FaultRec} : Canon (s.pushRec c r) :=
  .wakeHw (.setInt (.ite (h.setCore (by rfl)).trcFault (h.setCore (by rfl)).setInt))

theorem Canon.coreFault {c : Nat} {cls : FClass} {unit cause thread ctx gen pc addr : Nat} :
    Canon (s.coreFault c cls unit cause thread ctx gen pc addr) :=
  h.pushRec.raiseClass

theorem Canon.trcCmd {ty c unit thread ctx gen addr : Nat} {squashed : Bool} : Canon (s.trcCmd ty c unit thread ctx gen addr squashed) :=
  h.trc

theorem Canon.cmCorrect {c a n : Nat} : Canon (s.cmCorrect c a n).1 := .ite h h.cnt

theorem Canon.cmFault {c : Nat} {w : Reader} {b : Nat} : Canon (s.cmFault c w b) := h.dmaLog.setInt.coreFault

theorem Canon.cmFaults {c : Nat} {w : Reader} {bs : List Nat} : Canon (s.cmFaults c w bs) := h.foldl (fun _ hz _ => hz.cmFault)

theorem Canon.cmTouch {c a n : Nat} {w : Reader} : Canon (s.cmTouch c a n w) := h.cmCorrect.cmFaults

theorem Canon.cmRead {c a n : Nat} {w : Reader} {k : State → State} (hk : ∀ z, Canon z → Canon (k z)) : Canon (s.cmRead c a n w k) :=
  .cmFaults (hk _ h.cmCorrect)

omit h in
theorem Core.poke_wf {k : Core} (hk : Memory.wf k.mem = true) {a : Nat} {bs : List Byte} : Memory.wf (k.poke a bs).mem = true :=
  Store.wf_setRun _ _ _ _ hk

theorem Canon.cmPutLine {c a : Nat} {bs : List Byte} : Canon (s.cmPutLine c a bs) := by
  unfold State.cmPutLine
  extract_lets k line u
  have hk : Memory.wf (k.poke a bs).mem = true := Core.poke_wf (h.core c)
  split
  · exact h.setCoreMem hk
  · split
    · exact h
    · split
      · exact h.setCoreMem hk
      · exact .ite (h.setCoreMem hk) (h.setCore (by rfl)).pieErr.raiseSched

theorem Canon.cmPutLines {n c a : Nat} {bs : List Byte} : Canon (State.cmPutLines n s c a bs) := by
  induction n generalizing s a bs with
  | zero => exact h
  | succ n ih => exact .ite h.cmPutLine (ih h.cmPutLine)

theorem Canon.cmPut {c a : Nat} {bs : List Byte} : Canon (s.cmPut c a bs) := .ite h h.cmPutLines

theorem Canon.cmPutWord {c a v : Nat} : Canon (s.cmPutWord c a v) := h.cmPut

/-! Machine/Keys. -/

theorem Canon.setKey {k : Nat} {x : Keystone} : Canon (s.setKey k x) := h.frame

theorem Canon.keyWakeOne {key : Nat} {ct : Nat × Nat} : Canon (s.keyWakeOne key ct) := by
  unfold State.keyWakeOne
  dsimp only
  split
  · exact h
  · split
    · exact h
    · exact h.setKey.setThread

theorem Canon.keyWake {key : Nat} : Canon (s.keyWake key) :=
  .ite (h.foldl (fun _ hz _ => hz.keyWakeOne)) (.foldl (h.foldl (fun _ hz _ => hz.keyWakeOne)) (fun _ hz _ => hz.keyWakeOne))

theorem Canon.keyArrival {key : Nat} {src : Option Nat} : Canon (s.keyArrival key src) :=
  .ite (.ite h.setKey.cnt.setInt.cnt.logErr.frame h.setKey.cnt.setInt.cnt.logErr) h.setKey

theorem Canon.keySet {key v : Nat} : Canon (s.keySet key v) := h.setKey.keyWake

theorem Canon.keyCount : Canon s.keyCount := h.cnt64

theorem Canon.keyArrive {key : Nat} {src : Option Nat} : Canon (s.keyArrive key src) := h.keyCount.keyArrival.trc.keySet

theorem Canon.keyRemote {key ctx src : Nat} : Canon (s.keyRemote key ctx src) := .ite h.keyArrive h.cnt.setInt.setInt.logErr.raiseCtx

/-! Machine/Amax. -/

theorem Canon.setSkip {b : Nat} : Canon (s.setSkip b) := .ite h.pieErr.raiseSched h.frame

theorem Canon.amaxHand {t m : Nat} {e : Int} : Canon (s.amaxHand t m e) := by
  unfold State.amaxHand
  split
  · exact h.cnt
  · exact .ite h.frame h

theorem Canon.absurd {t ctx : Nat} : Canon (s.absurd t ctx) := by
  unfold State.absurd
  split
  · exact h.setSkip
  · exact .ite h.setSkip h.setSkip

theorem Canon.advanceAmax {v : Nat} : Canon (s.advanceAmax v) := h.frame

/-! Machine/ArrayOps. -/

theorem Canon.arrFault {c : Nat} {q : ArrCmd} {cls : FClass} {cause pos wcol : Nat} : Canon (s.arrFault c q cls cause pos wcol) :=
  h.logErr.setInt.coreFault

theorem Canon.trcArr {ty c : Nat} {q : ArrCmd} {squashed : Bool} : Canon (s.trcArr ty c q squashed) := h.trcCmd

theorem Canon.arrSched {c : Nat} {q : ArrCmd} {cause : Nat} : Canon (s.arrSched c q cause) := h.arrFault

theorem Canon.checkLoadHead {c : Nat} : Canon (s.checkLoadHead c) := by
  unfold State.checkLoadHead
  extract_lets
  split
  · exact h
  · split
    · exact h
    · split
      · exact h
      · exact (h.setCore (by rfl)).arrSched

theorem Canon.checkStreamHead {c : Nat} : Canon (s.checkStreamHead c) := by
  unfold State.checkStreamHead
  extract_lets
  split
  · exact h
  · split
    · exact h
    · split
      · exact h
      · exact (h.setCore (by rfl)).arrSched

theorem Canon.pushArray {c w : Nat} {iss : Issue} : Canon (s.pushArray c w iss) :=
  .ite (.ite (h.setCore (by rfl)).checkLoadHead (h.setCore (by rfl))) (.ite (h.setCore (by rfl)).checkStreamHead (h.setCore (by rfl)))

theorem Canon.applyWr {c : Nat} {w : Wr} : Canon (s.applyWr c w) := by
  unfold State.applyWr
  split
  · exact h.cmPut
  · exact .ite (h.setCore (by rfl)).cnt (h.setCore (by rfl))
  · exact h.modCore (fun _ => by rfl)
  · exact h.modCore (fun _ => by rfl)
  · exact h.modCore (fun _ => by rfl)
  · exact h.modCore (fun _ => by rfl)

theorem Canon.applyWrs {c : Nat} {ws : List Wr} : Canon (s.applyWrs c ws) := h.foldl (fun _ hz _ => hz.applyWr)

theorem Canon.raiseArrErrs {c : Nat} {q : ArrCmd} {es : List ArrErr} : Canon (s.raiseArrErrs c q es) := h.foldl (fun _ hz _ => by
    split
    · exact hz.cmFault
    · extract_lets a1
      have ha1 : Canon a1 := .ite hz.cnt (.ite hz.cnt hz)
      exact ha1.arrFault)

theorem Canon.accErrs {c : Nat} {q : ArrCmd} {per : Nat} {ws : List Wr} : Canon (s.accErrs c q per ws).1 := .foldl_fst h (fun _ hz _ => by
    split
    · split
      · split
        · exact hz
        · extract_lets
          split
          · exact hz.cnt
          · exact hz
      · exact hz
    · exact hz)

theorem Canon.accReads {c : Nat} {r : ArrRun} : Canon (s.accReads c r) := .ite h h.accErrs.raiseArrErrs

theorem Canon.flushLoads {c : Nat} : Canon (s.flushLoads c) := (h.setCore (by rfl)).applyWrs

theorem Canon.flushArr {n c : Nat} : Canon (State.flushArr n s c) := by
  induction n generalizing s with
  | zero => exact h
  | succ n ih =>
    unfold State.flushArr
    extract_lets k
    split
    · exact h.setCore (by rfl)
    · split
      · exact h
      · exact .ite (ih (h.setCore (by rfl)).accReads.applyWrs) h

theorem Canon.settleArr {c : Nat} : Canon (s.settleArr c) := h.flushLoads.flushArr.modCore (fun _ => by rfl)

/-! Machine/FlsCheck. -/

theorem Canon.flsFaultAt {c : Nat} {q : ChainCmd} {cls : FClass} {cause block pos : Nat} : Canon (s.flsFaultAt c q cls cause block pos) :=
  h.logErr.setInt.coreFault

theorem Canon.flsFault {c : Nat} {q : ChainCmd} {cls : FClass} {cause block : Nat} : Canon (s.flsFault c q cls cause block) := h.flsFaultAt

theorem Canon.flsStall {c : Nat} {q : ChainCmd} {cause : Nat} : Canon (s.flsStall c q cause) := (h.modCore (fun _ => by rfl)).flsFault

theorem Canon.checkChainHead {c : Nat} : Canon (s.checkChainHead c) := by
  unfold State.checkChainHead
  extract_lets
  split
  · exact h
  · split
    · exact h
    · split
      · exact h
      · exact h.flsStall

/-! Machine/Routing. -/

theorem Canon.setCtx {id : Nat} {x : Ctx} : Canon (s.setCtx id x) := h.frame

theorem Canon.spend {p vc cls : Nat} : Canon (s.spend p vc cls) := h.frame

theorem Canon.freeCredit {p vc cls : Nat} : Canon (s.freeCredit p vc cls) := h.setOport

/-! Machine/Time. -/

theorem Canon.ackStream {n : Nat} : Canon (s.ackStream n) := by
  unfold State.ackStream
  split
  · exact .ite h h.frame
  · exact h

omit h in
theorem Core.clockTo_mem (t0 t1 : Nat) (k : Core) : (k.clockTo t0 t1).1.mem = k.mem := by
  unfold Core.clockTo
  split
  · rfl
  · split <;> rfl
  · rfl

theorem Canon.elapse {n : Nat} : Canon (elapse n s) := by
  unfold Machine.elapse
  split
  · exact h
  · extract_lets on wd s0 s1
    have h0 : Canon s0 := .ite h h.cnt
    have h1 : Canon s1 := .ackStream (.ite h0 h0.cnt)
    have clocked : ∀ (c : Nat) (k : Core), Memory.wf k.mem = true → Memory.wf (Core.mem (
        let r := k.clockTo s.tick (s.tick + n)
        let k1 := r.1.elapse (on && bitAt (s.reg (pgCORE c) 0x40) 0) n r.2
        if on && !k.inReset then k1.meter r.2 else k1)) = true := by
      intro c k hk
      have hm := Core.clockTo_mem s.tick (s.tick + n) k
      dsimp only
      split
      · exact hm.symm ▸ hk
      · exact hm.symm ▸ hk
    exact canon_iff.mpr ⟨⟨Nat.mod_lt _ (by decide), h1.tick.fraction⟩, h1.memories.registers, h.cores.mapVals clocked,
      h1.memories.device, h1.memories.capacity⟩

theorem Canon.idle : Canon s.idle := .ite h.elapse h.frame

theorem Canon.elapseTo {t : Nat} : Canon (elapseTo t s) := h.elapse

theorem Canon.awake {c : Nat} : Canon (s.awake c) := by
  unfold State.awake
  split
  · exact h.elapseTo
  · exact h

/-! Machine/MemOps. -/

theorem Canon.memCompare {page cause : Nat} : Canon (s.memCompare page cause) := by
  unfold State.memCompare
  split
  · exact h
  · exact .raiseHw (.logErr (h.takeSlip.of_snd ‹_›))

theorem Canon.failingLane {found : Option (Store Nat)} : Canon (s.failingLane found).2 := by
  unfold State.failingLane
  split
  · exact h
  · exact h.free

theorem Canon.hbmLine {line : Nat} : Canon (s.hbmLine line).1 := by
  unfold State.hbmLine
  dsimp only
  split
  · exact h.memCompare
  · split
    · exact h.memCompare
    · exact .ite h.memCompare.cnt h.memCompare.cnt.logErr.setInt
    · exact h.memCompare.failingLane.cnt.logErr.setInt

theorem Canon.galChanLine {ch row : Nat} {e : Store Nat} : Canon (s.galChanLine ch row e).1 := by
  unfold State.galChanLine
  extract_lets z s1
  have hz : Canon z := h.memCompare
  have h1 : Canon s1 := hz.cnt
  split
  · exact hz.logErr
  · split
    · exact hz
    · exact .ite h1 h1.logErr.setInt
    · dsimp only
      exact hz.cnt.logErr.setInt

theorem Canon.galLine {line : Nat} : Canon (s.galLine line).1 := h.galChanLine

theorem Canon.sideLine {cap : Bool} {slot : Nat} : Canon (s.sideLine cap slot).1 := by
  unfold State.sideLine
  split
  · exact h
  · split
    · exact h.galChanLine
    · exact h.hbmLine

theorem Canon.readLines {cap : Bool} {a n : Nat} : Canon (s.readLines cap a n).1 := .foldl_fst h (fun _ hz _ => by
    split
    · exact hz.galLine
    · exact hz.hbmLine)

theorem Canon.memPoke {cap : Bool} {a : Nat} {bs : List Byte} : Canon (s.memPoke cap a bs) :=
  .ite (h.withMem h.memories.device (Store.wf_setRun _ _ _ _ h.memories.capacity))
    (h.withMem (Store.wf_setRun _ _ _ _ h.memories.device) h.memories.capacity)

theorem Canon.sidePoke {cap : Bool} {slot : Nat} {side : List Byte} : Canon (s.sidePoke cap slot side) := .ite h.frame h.frame

theorem Canon.rankedPoke {cap : Bool} {a : Nat} {data : List Byte} {rank : Nat} : Canon (s.rankedPoke cap a data rank) :=
  .ite h.memPoke h.memPoke

omit h in
theorem MemState.healLines_dev (m : MemState) (cap : Bool) (a n : Nat) : (m.healLines cap a n).dev = m.dev := by
  unfold MemState.healLines
  dsimp only
  split <;> rfl

omit h in
theorem MemState.healLines_cap (m : MemState) (cap : Bool) (a n : Nat) : (m.healLines cap a n).cap = m.cap := by
  unfold MemState.healLines
  dsimp only
  split <;> rfl

theorem Canon.noteStore {r : RecentStore} : Canon (s.noteStore r) :=
  h.frameMem (MemState.healLines_dev ..) (MemState.healLines_cap ..)

theorem Canon.commitBlock {cap : Bool} {a slot : Nat} {data side : List Byte} {rank : Nat} :
    Canon (s.commitBlock cap a slot data side rank) :=
  .noteStore (.ite h.rankedPoke h.rankedPoke.sidePoke)

theorem Canon.rawStore {a : Nat} {data : List Byte} {rank : Nat} : Canon (s.rawStore a data rank) := h.rankedPoke.noteStore

theorem Canon.holdAccess {page o : Nat} {busy : Nat → Bool} : Canon (s.holdAccess page o busy) := .ite h.elapseTo.cnt h

theorem Canon.waitGroups {l : List (Nat × Nat)} : Canon (s.waitGroups l) := .ite h.holdAccess h

theorem Canon.refWait {cap : Bool} {a n slot : Nat} : Canon (s.refWait cap a n slot) := .ite h.holdAccess h.waitGroups

theorem Canon.blockStore {cap : Bool} {a slot : Nat} {data side : List Byte} {rank : Nat} :
    Canon (s.blockStore cap a slot data side rank) := by
  unfold State.blockStore
  split
  · exact h.logErr.raiseHw
  · exact h.commitBlock

theorem Canon.stampLoad {cap : Bool} {a n slot : Nat} : Canon (s.stampLoad cap a n slot) := h.frame

theorem Canon.afterLoads {cap : Bool} {a n slot : Nat} : Canon (s.afterLoads cap a n slot) := .ite h.elapse h

theorem Canon.memRead {cap : Bool} {a n slot : Nat} : Canon (s.memRead cap a n slot).1 := h.refWait.stampLoad.readLines.sideLine

theorem Canon.rawLoad {a n : Nat} : Canon (s.rawLoad a n).1 := h.refWait.stampLoad.readLines

theorem Canon.undoRead {cap : Bool} {a n slot rank : Nat} : Canon (s.undoRead cap a n slot rank).1 := h.readLines.sideLine

theorem Canon.sumpHigh {c : Nat} : Canon (s.sumpHigh c) := .ite h.frame h

theorem Canon.settleLine {line mask : Nat} : Canon (s.settleLine line mask) :=
  .ite h (.ite h.memPoke (h.foldl (fun _ hz _ => hz.sidePoke)))

theorem Canon.rmwNow {line mask : Nat} : Canon (s.rmwNow line mask).1 := by
  unfold State.rmwNow
  dsimp only
  split
  · exact h.hbmLine.raiseHw
  · exact h.hbmLine.settleLine.frame

theorem Canon.rmwLine {line mask : Nat} : Canon (s.rmwLine line mask).1 := h.waitGroups.rmwNow

theorem Canon.galSettle {side : Bool} {line mask : Nat} : Canon (s.galSettle side line mask) :=
  .ite h (.ite (h.foldl (fun _ hz _ => hz.sidePoke)) h.memPoke)

theorem Canon.galRmw {side : Bool} {line mask : Nat} : Canon (s.galRmw side line mask).1 := by
  unfold State.galRmw
  dsimp only
  split
  · split
    · exact h.holdAccess.sideLine.raiseHw
    · exact h.holdAccess.sideLine.galSettle.frame
  · split
    · exact h.holdAccess.galLine.raiseHw
    · exact h.holdAccess.galLine.galSettle.frame

theorem Canon.mergeLines {rmw : State → Nat → Nat → State × Bool} {o n : Nat}
    (hrmw : ∀ z, Canon z → ∀ x y, Canon (rmw z x y).1) :
    Canon (s.mergeLines rmw o n).1 :=
  .foldl_fst h (fun _ hz _ => by
    dsimp only
    split
    · exact hz
    · exact hrmw _ hz _ _)

theorem Canon.mergeBlock {cap : Bool} {a n slot : Nat} : Canon (s.mergeBlock cap a n slot).1 := by
  unfold State.mergeBlock
  extract_lets d h'
  have hd : Canon d.1 := by
    unfold d
    exact h.mergeLines (fun _ hz _ _ => by
        split
        · exact hz.galRmw
        · exact hz.rmwLine)
  have hh' : Canon h'.1 := by
    unfold h'
    exact hd.mergeLines (fun _ hz _ _ => by
        split
        · exact hz.galRmw
        · exact hz.rmwLine)
  split
  · exact hd
  · exact hh'

theorem Canon.mergeStore {cap : Bool} {a slot : Nat} {data side : List Byte} {rank : Nat} :
    Canon (s.mergeStore cap a slot data side rank) :=
  h.mergeBlock.blockStore

theorem Canon.mergeRaw {a : Nat} {data : List Byte} {rank : Nat} : Canon (s.mergeRaw a data rank) := h.mergeBlock.rawStore

theorem Canon.sumpCompare : Canon s.sumpCompare := by
  unfold State.sumpCompare
  split
  · exact h
  · exact .raiseHw (.setInt (.logErr (h.takeSlip.of_snd ‹_›)))

theorem Canon.sumpDiscard {e : SumpEntry} : Canon (s.sumpDiscard e) := by
  unfold State.sumpDiscard
  extract_lets _ s1 _ s2
  have h1 : Canon s1 := h.frame
  have h2 : Canon s2 := .ite h1 h1.memPoke
  exact h2.foldl (fun _ hz _ => .ite hz (by
      split
      · exact hz.sidePoke
      · exact hz.frame))

theorem Canon.sumpDrop : Canon s.sumpDrop := h.foldl (fun _ hz _ => hz.sumpDiscard)

theorem Canon.sumpMerge {e : SumpEntry} : Canon (s.sumpMerge e) := .ite h.rmwLine.sumpDiscard h.rmwLine

theorem Canon.sumpOverflow {c stream : Nat} {e : SumpEntry} : Canon (s.sumpOverflow c stream e) :=
  .ite h.sumpMerge.cnt h.sumpMerge.cnt.frame.logErr.setInt.raiseSched

theorem Canon.sumpCorrect {e : SumpEntry} : Canon (s.sumpCorrect e) := .ite h h.cnt.setInt

theorem Canon.sumpLost {e : SumpEntry} : Canon (s.sumpLost e) := h.sumpDiscard.logErr.setInt.raiseHw

theorem Canon.sumpCloseEntry {e : SumpEntry} : Canon (s.sumpCloseEntry e) :=
  .ite h.sumpCompare.sumpCorrect.sumpLost (.ite h.sumpCompare.sumpCorrect.frame.waitGroups.frame.cnt64
      h.sumpCompare.sumpCorrect.frame.sumpMerge.cnt64)

theorem Canon.sumpDue : Canon s.sumpDue := h.foldl (fun _ hz _ => hz.sumpCloseEntry)

theorem Canon.sumpWrite {c stream line mask : Nat} {held : List Byte × List (Option (List Byte))} :
    Canon (s.sumpWrite c stream line mask held) := by
  unfold State.sumpWrite
  split
  · exact .ite h.frame.sumpCloseEntry h.frame
  · exact .ite (.ite h.frame.sumpHigh h.sumpOverflow) (.ite h.frame.sumpHigh (by
        split
        · exact h
        · exact h.cnt.setInt.elapseTo.sumpCloseEntry.frame.sumpHigh))

theorem Canon.sumpRun {before : State} {c stream o n : Nat} : Canon (s.sumpRun before c stream o n) :=
  h.sumpDue.sumpCompare.foldl (fun _ hz _ => .ite hz hz.sumpWrite)

theorem Canon.dmaStore {c stream : Nat} {cap : Bool} {a slot : Nat} {data side : List Byte} :
    Canon (s.dmaStore c stream cap a slot data side).1 := by
  unfold State.dmaStore
  extract_lets z _ _ o
  have hz : Canon z := h.refWait.afterLoads
  have ho : Canon o.1 := hz.undoRead
  split
  · exact .ite hz.mergeStore hz.blockStore.sumpRun.sumpRun
  · split
    · exact h
    · split
      · exact ho
      · split
        · exact .ite (ho.modCore (fun _ => by rfl)).mergeStore (ho.modCore (fun _ => by rfl)).blockStore.sumpRun.sumpRun
        · exact (h.modCore (fun _ => by rfl)).pieErr.raiseSched

/-! Machine/Shape. -/

theorem Canon.descChanged : Canon s.descChanged := h.frame.setInt

/-! Machine/Collective. -/

theorem Canon.setCol {g : Nat} {x : ColGroup} : Canon (s.setCol g x) := h.frame

theorem Canon.colMeasure {p : ColPend} {slack : Nat} : Canon (s.colMeasure p slack) :=
  .ite (.setInt (.ite h.setCol.logErr h.setCol.logErr.setReg64)) h.setCol

theorem Canon.colDelivery {p key core ctx n : Nat} : Canon (s.colDelivery p key core ctx n) := by
  unfold State.colDelivery
  dsimp only
  split
  · exact h
  · exact .ite h (.ite h.setCol.cnt (.ite h.setCol.colMeasure (.ite h.setCol.cnt h.setCol.frame)))

theorem Canon.colWaited {key fn : Nat} : Canon (s.colWaited key fn) := by
  unfold State.colWaited
  split
  · exact h
  · split
    · exact h
    · exact h.frame.colMeasure

theorem Canon.colSent {p n : Nat} : Canon (s.colSent p n) := by
  unfold State.colSent
  split
  · exact h
  · exact .ite h.setCol h

end

end Sys2Proof.Machine
end

section
/-! PROOFS. The engines of a core keep the memories canonical and the tick in range: the DMA engine, threads and their ends,
Flowstone, and the tile walker. -/

namespace Sys2Proof.Machine

open Sys2Proof

section
variable {s : State} (h : Canon s)
include h

/-! Machine/DmaOps. -/

theorem Canon.modDma {c : Nat} {f : DmaState → DmaState} : Canon (s.modDma c f) := h.modCore (fun _ => by rfl)

theorem Canon.modHead {c st : Nat} {f : Desc → Desc} : Canon (s.modHead c st f) := h.modDma

theorem Canon.dmaFault {c : Nat} {d : Desc} {cls : FClass} {cause elem addr : Nat} : Canon (s.dmaFault c d cls cause elem addr) :=
  h.dmaLog.setInt.coreFault

theorem Canon.checkDescs {n c st : Nat} : Canon (State.checkDescs n s c st) := by
  induction n generalizing s with
  | zero => exact h
  | succ n ih =>
    unfold State.checkDescs
    split
    · exact h
    · split
      · exact h
      · split
        · exact h
        · exact ih h.dmaFault.modDma
        · exact h.modHead.dmaFault

theorem Canon.checkDescHead {c st : Nat} : Canon (s.checkDescHead c st) := h.checkDescs

theorem Canon.dmaStop {c st : Nat} {d : Desc} {e : FClass × Nat × Nat} {elem : Nat} : Canon (s.dmaStop c st d e elem) :=
  h.dmaFault.modDma.checkDescHead

theorem Canon.devLoad {d : Desc} {cap : Bool} {a fmt : Nat} : Canon (s.devLoad d cap a fmt).1 := by
  unfold State.devLoad
  dsimp only
  split
  · exact h
  · split
    · exact h
    · split
      · exact h.memRead
      · split
        · exact h.memRead
        · split
          · exact h.memRead
          · exact h.memRead

theorem Canon.devStore {c : Nat} {d : Desc} {cap : Bool} {a : Nat} {b : Moved} {check : Bool} : Canon (s.devStore c d cap a b check).1 := by
  unfold State.devStore
  dsimp only
  split
  · exact h
  · split
    · exact h
    · split
      · exact h
      · split
        · exact h
        · exact h.dmaStore

theorem Canon.dmaTouch {c a n : Nat} : Canon (s.dmaTouch c a n).1 := by
  unfold State.dmaTouch
  dsimp only
  split
  · exact h.cmCorrect
  · exact h.cmCorrect

theorem Canon.coreLoad {c : Nat} {f : Fmt} {a : Nat} : Canon (s.coreLoad c f a).1 := h.dmaTouch

theorem Canon.indexEntry {c base i : Nat} : Canon (s.indexEntry c base i).1 := h.dmaTouch

theorem Canon.countRead {c n : Nat} : Canon (s.countRead c n) := h.cnt64

theorem Canon.countWrite {c n : Nat} : Canon (s.countWrite c n) := h.cnt64

theorem Canon.putBlock {c : Nat} {d : Desc} {space a : Nat} {b : Moved} {check : Bool} : Canon (s.putBlock c d space a b check).1 := by
  unfold State.putBlock
  split
  · exact h.cmPut.countWrite
  · dsimp only
    split
    · exact h.devStore.countWrite
    · exact h.devStore

theorem Canon.moveBlock {c : Nat} {d : Desc} {fmt ssp src dsp dst : Nat} : Canon (s.moveBlock c d fmt ssp src dsp dst).1 := by
  unfold State.moveBlock
  dsimp only
  split
  · split
    · exact h.coreLoad
    · exact h.coreLoad.countRead.putBlock
  · split
    · exact h.devLoad
    · exact h.devLoad.countRead.putBlock

theorem Canon.copyBlock {c : Nat} {d : Desc} {i : Nat} : Canon (s.copyBlock c d i).1 := by
  unfold State.copyBlock
  dsimp only
  split
  · split
    · exact h.coreLoad
    · split
      · exact h.coreLoad
      · exact h.coreLoad.countRead.putBlock
  · exact h.moveBlock

theorem Canon.gatherBlock {c : Nat} {d : Desc} {i : Nat} : Canon (s.gatherBlock c d i).1 := by
  unfold State.gatherBlock
  dsimp only
  split
  · exact h.indexEntry
  · exact h.indexEntry.moveBlock

theorem Canon.scatterBlock {c : Nat} {d : Desc} {i : Nat} : Canon (s.scatterBlock c d i).1 := by
  unfold State.scatterBlock
  dsimp only
  split
  · exact h.indexEntry
  · exact h.indexEntry.moveBlock

theorem Canon.rawGranules {n g hi : Nat} : Canon (State.rawGranules n s g hi).1 := by
  induction n generalizing s g with
  | zero => exact h
  | succ n ih =>
    unfold State.rawGranules
    split
    · exact h
    · extract_lets g'
      split
      · exact h
      · extract_lets r b
        have hr : Canon r.1 := h.memRead
        split
        · exact hr
        · split
          · exact hr
          · split
            · exact hr
            · exact ih hr

theorem Canon.ingestBlock {c : Nat} {d : Desc} {i : Nat} : Canon (s.ingestBlock c d i).1 := by
  unfold State.ingestBlock
  dsimp only
  split
  · exact h
  · split
    · exact h.rawGranules
    · exact h.rawGranules.countRead.putBlock

theorem Canon.transposeRow {c : Nat} {d : Desc} {r : Nat} : Canon (s.transposeRow c d r).1 := h.coreLoad

theorem Canon.transposeBlock {c : Nat} {d : Desc} {i : Nat} : Canon (s.transposeBlock c d i) := by
  unfold State.transposeBlock
  dsimp only
  split
  · exact h.cmPut.countWrite
  · exact h

theorem Canon.vdtFault {cls : FClass} {cause pos l1 l2 ctx : Nat} : Canon (s.vdtFault cls cause pos l1 l2 ctx) :=
  h.logErr.setInt.raiseClass

theorem Canon.sendStart {c : Nat} {d : Desc} {y : State} {e : Option (FClass × Nat × Nat)} (hy : s.sendStart c d = some (y, e)) :
    Canon y := by
  unfold State.sendStart at hy
  extract_lets at hy
  split at hy
  · cases hy; exact h
  · split at hy
    · cases hy; exact h.vdtFault
    · split at hy
      · cases hy; exact h.vdtFault
      · cases hy

theorem Canon.pushFlit {c : Nat} {d : Desc} {k : Nat} {body : List Byte} {last : Bool} : Canon (s.pushFlit c d k body last) := h.frame

theorem Canon.pushFlits {n c k : Nat} {d : Desc} {bs : List Byte} {l : Bool} : Canon (State.pushFlits n s c d k bs l).1 := by
  induction n generalizing s k bs with
  | zero => exact h
  | succ n ih =>
    unfold State.pushFlits
    split
    · exact h.pushFlit
    · split
      · exact h
      · exact ih h.pushFlit

theorem Canon.sendOut {c st : Nat} {d : Desc} {i : Nat} {bs : List Byte} : Canon (s.sendOut c st d i bs) :=
  .ite h.countRead.cnt.frame (.modHead (.pushFlits (.ite h.countRead.cnt.frame h.countRead.cnt)))

theorem Canon.sendBlock {c st : Nat} {d : Desc} {i : Nat} : Canon (s.sendBlock c st d i).1 := by
  unfold State.sendBlock
  dsimp only
  split
  · exact h.coreLoad
  · exact h.coreLoad.sendOut

theorem Canon.dmaSlip {c : Nat} : Canon (s.dmaSlip c).2 := by
  unfold State.dmaSlip
  split
  · exact h
  · split
    · exact .cnt (h.takeSlip.of_snd ‹_›)
    · exact h.takeSlip.of_snd ‹_›

/-! Machine/Control. -/

theorem Canon.finish {c t : Nat} {x : Thread} : Canon (s.finish c t x) := h.setThread.cnt64

theorem Canon.done {c t : Nat} {x : Thread} : Canon (s.done c t x) := h.finish

theorem Canon.wait {c t : Nat} {x : Thread} {y : Held} : Canon (s.wait c t x y) := h.setThread.cnt64

theorem Canon.insFault {c t : Nat} {cls : FClass} {cause addr : Nat} : Canon (s.insFault c t cls cause addr) := by
  unfold State.insFault
  extract_lets _ s1
  have h1 : Canon s1 := by
    unfold s1
    split
    · exact h.setThread
    · exact h
  exact h1.coreFault

theorem Canon.issueAgrees {c t : Nat} {k : State → State} (hk : ∀ z, Canon z → Canon (k z)) : Canon (s.issueAgrees c t k) := by
  unfold State.issueAgrees
  split
  · exact .insFault (h.takeSlip.of_snd ‹_›)
  · exact hk _ h

theorem Canon.instr {c t opc : Nat} {body : State → Thread → Nat → State} (hbody : ∀ z, Canon z → ∀ x y, Canon (body z x y)) :
    Canon (s.instr c t opc body) :=
  .ite h.awake (.ite h.awake.insFault (.ite (h.awake.issueAgrees (fun _ hz => hz.insFault)) (.ite h.awake (h.awake.cmRead (fun _ hz => .ite
      hz.insFault (hz.issueAgrees (fun _ hy => .ite hy.insFault (hbody _ hy _ _))))))))

theorem Canon.jump {c t target : Nat} {x : Thread} : Canon (s.jump c t target x) := .ite h.finish h.insFault

theorem Canon.scalarAccess {c t a : Nat} {write : Bool} {k : State → State} (hk : ∀ z, Canon z → Canon (k z)) :
    Canon (s.scalarAccess c t a write k) :=
  .ite h.insFault (.ite h.insFault (hk _ h))

theorem Canon.countBind {c : Nat} {b : Binding} : Canon (s.countBind c b) := .ite h.cnt h

theorem Canon.cmdAccess {c t a n : Nat} {k : State → State} (hk : ∀ z, Canon z → Canon (k z)) : Canon (s.cmdAccess c t a n k) :=
  .ite h.insFault (.ite h.insFault (hk _ h))

theorem Canon.issueArray {c t : Nat} {x : Thread} {w : Nat} : Canon (s.issueArray c t x w) := by
  unfold State.issueArray
  exact h.cmdAccess (fun _ hz => hz.cmRead (fun _ hy => .ite hy.wait hy.countBind.done.pushArray))

theorem Canon.issueChain {c t : Nat} {x : Thread} {w : Nat} : Canon (s.issueChain c t x w) := by
  unfold State.issueChain
  exact h.cmdAccess (fun _ hz => hz.cmdAccess (fun _ hy => hy.cmRead (fun _ hx => .ite hx.wait (.ite (hx.setCore
      (by rfl)).countBind.done.checkChainHead (hx.setCore (by rfl)).countBind.done))))

theorem Canon.issueDesc {c t : Nat} {x : Thread} {w : Nat} : Canon (s.issueDesc c t x w) := by
  unfold State.issueDesc
  exact h.cmdAccess (fun _ hz => hz.cmRead (fun _ hy => .ite hy.wait (.ite (hy.setCore (by rfl)).done.checkDescHead (hy.setCore
      (by rfl)).done)))

theorem Canon.waitTick {c t : Nat} {x : Thread} {w : Nat} : Canon (s.waitTick c t x w) := .ite h.done h.wait

theorem Canon.moveSum {c t : Nat} {x : Thread} {w : Nat} : Canon (s.moveSum c t x w) := .ite h.wait h.done

theorem Canon.branchSum {c t : Nat} {x : Thread} {w : Nat} : Canon (s.branchSum c t x w) := .ite h.wait (.ite h.jump h.done)

theorem Canon.keyDone {c : Nat} : Canon (s.keyDone c) := h.modCore (fun _ => by rfl)

theorem Canon.keyHold {c t : Nat} {x : Thread} {y : Held} : Canon (s.keyHold c t x y) := h.setThread

theorem Canon.keyFunction {c t : Nat} {x : Thread} {w : Nat} : Canon (s.keyFunction c t x w) := .ite h.insFault (by
    split
    · exact h.keyArrive.keyHold
    · dsimp only
      split
      · exact .ite h.keyCount.setKey.keyHold h.keyCount.setKey.keyHold.keyWake
      · exact h.keyCount.keyHold
    · dsimp only
      split
      · exact .ite h.keyArrive.setKey.keyHold h.keyArrive.setKey.keyHold.keyWake
      · exact h.keyArrive.keyHold
    · exact h.keyCount.keySet.keyHold
    · exact h.keyCount.keyHold
    · dsimp only
      split
      · exact .ite h.keyCount.setKey.keyHold h.keyCount.setKey.keyHold.keyWake
      · exact h.keyCount.keyHold
    · exact h.keyCount.keySet.keyHold)

theorem Canon.keyInstr {c t fn : Nat} : Canon (s.keyInstr c t fn) := .ite h.awake (h.instr (fun _ hz _ _ => hz.keyFunction))

theorem Canon.retest {c t : Nat} : Canon (s.retest c t) := by
  unfold State.retest
  extract_lets
  split
  · exact h
  · split
    · exact h
    · split
      · exact h.insFault
      · exact h.issueAgrees (fun _ hz => by
            split
            · exact hz.branchSum
            · exact hz.moveSum
            · split
              · split
                · exact hz.wait
                · exact hz.done.keyDone.colWaited
              · exact hz.wait
            · exact hz.waitTick
            · exact hz.issueArray
            · exact hz.issueChain
            · exact hz.issueDesc
            · exact hz)

/-! Machine/WalkOps. -/

theorem Canon.walkBlock {c : Nat} {d : Desc} {k : Walk} {i : Nat} : Canon (s.walkBlock c d k i).1 := h.moveBlock

/-! Machine/Dma. -/

theorem Canon.beginServe {c st : Nat} {d : Desc} : Canon (s.beginServe c st d).1 := by
  unfold State.beginServe
  dsimp only
  exact .modDma (.ite h h.trcCmd)

theorem Canon.moved {c st n : Nat} : Canon (s.moved c st n) := h.modHead

theorem Canon.serve {c st kind : Nat} {move : State → Desc → Nat → State × DmaRes Unit}
    (hmove : ∀ z, Canon z → ∀ x y, Canon (move z x y).1) :
    Canon (s.serve c st kind move) := by
  unfold State.serve
  split
  · exact h
  · dsimp only
    split
    · exact .dmaStop (h.beginServe.dmaSlip.of_snd ‹_›)
    · split
      · exact .moved (hmove _ (h.beginServe.dmaSlip.of_snd ‹_›) _ _)
      · exact .dmaStop (hmove _ (h.beginServe.dmaSlip.of_snd ‹_›) _ _)

theorem Canon.serveWalk {c st : Nat} : Canon (s.serveWalk c st) := by
  unfold State.serveWalk
  split
  · dsimp only
    split
    · exact .dmaStop (h.modDma.dmaSlip.of_snd ‹_›)
    · split
      · exact .dmaStop (.walkBlock (h.modDma.dmaSlip.of_snd ‹_›))
      · exact .modHead (.modDma (.walkBlock (h.modDma.dmaSlip.of_snd ‹_›)))
  · exact h

theorem Canon.execCopy {c : Fin 256} {st : Fin 32} : CanonNext (execCopy c st s) :=
  .next (.ite h.serveWalk (h.serve (fun _ hz _ _ => hz.copyBlock)))

theorem Canon.execGather {c : Fin 256} {st : Fin 32} : CanonNext (execGather c st s) :=
  .next (h.serve (fun _ hz _ _ => hz.gatherBlock))

theorem Canon.execScatter {c : Fin 256} {st : Fin 32} : CanonNext (execScatter c st s) :=
  .next (h.serve (fun _ hz _ _ => hz.scatterBlock))

theorem Canon.execIngest {c : Fin 256} {st : Fin 32} : CanonNext (execIngest c st s) :=
  .next (h.serve (fun _ hz _ _ => hz.ingestBlock))

theorem Canon.execSend {c : Fin 256} {st : Fin 32} : CanonNext (execSend c st s) := by
  unfold Machine.execSend
  split
  · exact .next h
  · next d _ =>
    have hstart : ∀ y e, (if d.started then none else s.sendStart c d) = some (y, e) → Canon y := by
      intro y e hy
      split at hy
      · cases hy
      · exact h.sendStart hy
    split
    · exact .next (hstart _ _ ‹_›).modDma.checkDescHead
    · exact .next (hstart _ _ ‹_›).dmaStop
    · exact .next (hstart _ _ ‹_›).modHead
    · exact .next (h.serve (fun _ hz _ _ => hz.sendBlock))

theorem Canon.serveRow {c st : Nat} {d : Desc} : Canon (s.serveRow c st d) := by
  unfold State.serveRow
  dsimp only
  split
  · exact .dmaStop (h.beginServe.dmaSlip.of_snd ‹_›)
  · split
    · exact .modHead (.countRead (.transposeRow (h.beginServe.dmaSlip.of_snd ‹_›)))
    · exact .dmaStop (.transposeRow (h.beginServe.dmaSlip.of_snd ‹_›))

theorem Canon.execTranspose {c : Fin 256} {st : Fin 32} : CanonNext (execTranspose c st s) := by
  unfold Machine.execTranspose
  split
  · exact .next h
  · exact .ite (.next h.serveRow) (.next (h.serve (fun _ hz _ _ => hz.transposeBlock)))

theorem Canon.popDesc {c st : Nat} : Canon (s.popDesc c st) := h.modDma.checkDescHead

theorem Canon.endDesc {c st : Nat} {d : Desc} : Canon (s.endDesc c st d) := .ite h.popDesc.keyArrive h.popDesc

theorem Canon.execDescriptorDone {c : Fin 256} {st : Fin 32} : CanonNext (execDescriptorDone c st s) := by
  unfold Machine.execDescriptorDone
  split
  · exact .next h
  · exact .ite (.next h) (.next h.trcCmd.endDesc)

theorem Canon.stragglerBlock {id : Nat} : Canon (s.stragglerBlock id) := .ite h.setCtx h

theorem Canon.execMeshDelivery {c : Fin 256} {st : Fin 32} : CanonNext (execMeshDelivery c st s) := by
  unfold Machine.execMeshDelivery
  split
  · exact .next h
  · split
    · exact .next h
    · extract_lets y x'
      have hy : Canon y := h.frame
      have hx' : Canon x' := .ite hy hy.cmPut
      split
      · exact .next hy.stragglerBlock
      · split
        · exact .next hx'
        · split
          · exact .next hx'.keyArrive
          · exact .next hx'

/-! Machine/FlsOps. -/

theorem Canon.missBinding {c : Nat} {b : Binding} : Canon (s.missBinding c b) := h.modCore (fun _ => by rfl)

theorem Canon.unresolved {c : Nat} {iss : Issue} : Canon (s.unresolved c iss) := h.setThread.coreFault

theorem Canon.raiseFlsErrs {c : Nat} {q : ChainCmd} {es : List FlsErr} : Canon (s.raiseFlsErrs c q es) := h.foldl (fun _ hz _ => by
    split
    · exact hz.cmFault
    · extract_lets a1
      have ha1 : Canon a1 := by
        unfold a1
        split
        · exact hz.cnt
        · exact hz.cnt
        · exact hz
      exact ha1.flsFaultAt)

theorem Canon.fileRead {c : Nat} {a : ChainAcc} {ecc : Store Nat} {keys : List Nat} {time block stage : Nat} :
    Canon (s.fileRead c a ecc keys time block stage).1 :=
  .ite h h.cnt

theorem Canon.stageReads {c : Nat} {a : ChainAcc} {time b k w : Nat} {x : Wide} : Canon (s.stageReads c a time b k w x).1 := by
  unfold State.stageReads
  dsimp only
  split
  · exact h.fileRead
  · exact h

theorem Canon.chainStages {c : Nat} {e : ChainEnv} {a : ChainAcc} {b : Nat} {second : Wide} {k time : Nat} {l : List Nat} {x : FBlk}
    {wbs : List (Nat × Wide)} : Canon (s.chainStages c e a b second k time l x wbs).1.1 := by
  induction l generalizing s a k time x wbs with
  | nil => exact h
  | cons w l ih => exact ih h.stageReads

theorem Canon.chainDue {c : Nat} {e : ChainEnv} {a : ChainAcc} {b : Nat} : Canon (s.chainDue c e a b).1 := h.applyWrs

theorem Canon.chainRead {c : Nat} {e : ChainEnv} {time b base : Nat} : Canon (s.chainRead c e time b base).1 := h.cmCorrect

theorem Canon.chainInput {c : Nat} {e : ChainEnv} {a : ChainAcc} {time b : Nat} : Canon (s.chainInput c e a time b).1.1 := by
  unfold State.chainInput
  extract_lets _ _ r
  have hr : Canon r.1 := h.chainRead
  split
  · exact hr
  · exact h.fileRead
  · extract_lets
    exact h.fileRead

theorem Canon.chainBlock {c : Nat} {e : ChainEnv} {a : ChainAcc} {b : Nat} : Canon (s.chainBlock c e a b).1 := by
  unfold State.chainBlock
  split
  · exact h
  · extract_lets time d i j errs acc r
    have hi : Canon i.1.1 := h.cnt64.chainDue.chainInput
    have hj : Canon j.1 := by
      unfold j
      split
      · exact hi.chainRead
      · exact hi
    split
    · exact hj
    · exact hj.chainStages

theorem Canon.stageErrs {c : Nat} {e : ChainEnv} : Canon (s.stageErrs c e).1 := by
  unfold State.stageErrs
  split
  · exact h.takeSlip.of_snd ‹_›
  · exact h.takeSlip.of_snd ‹_›

theorem Canon.chainBlocks {c : Nat} {e : ChainEnv} {a : ChainAcc} {n : Nat} : Canon (s.chainBlocks c e a n).1 :=
  .foldl_fst h (fun _ hz _ => hz.chainBlock)

theorem Canon.flushDue {c serial : Nat} : Canon (s.flushDue c serial) := by
  unfold State.flushDue
  exact h.applyWrs.modCore (fun _ => by rfl)

theorem Canon.flsCounts {c sats rngs : Nat} : Canon (s.flsCounts c sats rngs) := .ite (.ite h h.cnt) (.cnt (.ite h h.cnt))

theorem Canon.settleChain {c : Nat} {r : ChainRun} : Canon (s.settleChain c r).1 := by
  unfold State.settleChain
  split
  · exact h
  · split
    · exact h
    · split
      · dsimp only
        exact h.applyWrs.flsCounts.flsFaultAt
      · exact h.flsCounts
  · split
    · exact h.cnt
    · exact h

theorem Canon.settleFls {c : Nat} : Canon (s.settleFls c) := by
  unfold State.settleFls
  extract_lets _ r
  have hr : Canon r.1 := .foldl_fst h (fun _ hz _ => hz.settleChain)
  exact hr.modCore (fun _ => by rfl)

theorem Canon.settleArrFaults {c : Nat} : Canon (s.settleArrFaults c) := by
  unfold State.settleArrFaults
  extract_lets _ s1
  have h1 : Canon s1 := h.modCore (fun _ => by rfl)
  exact .foldl (h1.foldl (fun _ hz _ => .ite hz.accReads hz)) (fun _ hz _ => by
      split
      · exact hz.arrFault
      · split
        · exact hz.cnt
        · exact hz
      · exact hz)

theorem Canon.chainEnd {c ch : Nat} {v : Option Nat} : Canon (s.chainEnd c ch v) :=
  .settleFls (.settleArr (.settleArrFaults (.ite (h.setCore (by rfl)) (h.setCore (by rfl)).cnt)))

/-! Machine/Walker. -/

theorem Canon.tilFault {c : Nat} {d : Desc} {cls : FClass} {cause operand step : Nat} : Canon (s.tilFault c d cls cause operand step) :=
  h.logErr.setInt.coreFault

theorem Canon.walkReads {c a : Nat} {b : List Byte} : Canon (s.walkReads c a b).1 := by
  unfold State.walkReads
  dsimp only
  split
  · exact h.dmaTouch
  · split
    · exact h.dmaTouch
    · exact h.dmaTouch.dmaTouch

theorem Canon.execWalk {c : Fin 256} {st : Fin 32} : CanonNext (execWalk c st s) := by
  unfold Machine.execWalk
  split
  · exact .next h
  · dsimp only
    split
    · exact .next h.tilFault.modDma.checkDescHead
    · exact .next h.modHead.tilFault
    · split
      · exact .next h.trcCmd.walkReads.dmaStop
      · exact .next h.trcCmd.walkReads.modDma

theorem Canon.setWalk {c st : Nat} {k : Walk} : Canon (s.setWalk c st k) := h.modDma

theorem Canon.trcStep {c st : Nat} {k : Walk} : Canon (s.trcStep c st k) := h.trc

theorem Canon.tilSlip {c : Nat} : Canon (s.tilSlip c).2 := by
  unfold State.tilSlip
  split
  · exact h
  · split
    · exact .cnt (h.takeSlip.of_snd ‹_›)
    · exact h.takeSlip.of_snd ‹_›

theorem Canon.walkStep {c st : Nat} {k : Walk} : Canon (s.walkStep c st k) := .ite h.trcStep.cnt64.setWalk h.trcStep.cnt64.setWalk

theorem Canon.execWalkStep {c : Fin 256} {st : Fin 32} : CanonNext (execWalkStep c st s) := by
  unfold Machine.execWalkStep
  split
  · exact .next h
  · split
    · exact .next h
    · extract_lets
      split
      · exact .next (.tilFault (.setWalk (h.tilSlip.of_snd ‹_›)))
      · split
        · exact .next (.tilFault (.setWalk (h.tilSlip.of_snd ‹_›)))
        · exact .next (.walkStep (h.tilSlip.of_snd ‹_›))

theorem Canon.markEmitted {c t queue : Nat} : Canon (s.markEmitted c t queue) := h.modCore (fun _ => by rfl)

theorem Canon.execEmitCommand {c : Fin 256} {st : Fin 32} : CanonNext (execEmitCommand c st s) := by
  unfold Machine.execEmitCommand
  extract_lets
  split
  · exact .next h
  · split
    · exact .next h
    · extract_lets _ _ s1 _ _ s2
      have h1 : Canon s1 := h.setWalk.cnt64
      have h2 : Canon s2 := h1.markEmitted.modCore (fun _ => by rfl)
      split
      · exact .next h
      · split
        · split
          · exact .next h
          · exact .next h1.markEmitted.pushArray
        · split
          · exact .next h
          · split
            · exact .next h2.checkChainHead
            · exact .next h2

theorem Canon.execWalkDone {c : Fin 256} {st : Fin 32} : CanonNext (execWalkDone c st s) := by
  unfold Machine.execWalkDone
  split
  · exact .next h
  · exact .ite (.next h) (.next h.modDma.cnt.trcCmd.endDesc)

/-! Machine/LoadCheck11. -/

theorem Canon.placeImage {b : List Byte} : Canon (s.placeImage b) :=
  h.frame.foldl (fun _ hz _ => hz.modCoreMem (fun _ hk => Core.poke_wf hk))

end

end Sys2Proof.Machine
end

section
/-! PROOFS. Contexts, the seal unit, the Seep, the pier, rewinds and alarms keep the memories canonical and the tick in range. -/

namespace Sys2Proof.Machine

open Sys2Proof

section
variable {s : State} (h : Canon s)
include h

/-! Machine/FabricOps. -/

theorem Canon.setMask {m : Nat} : Canon (s.setMask m) := .ite h h.frame.descChanged

theorem Canon.refreshMask : Canon s.refreshMask := by
  unfold State.refreshMask
  split
  · exact h.setMask
  · exact h.setMask
  · exact h.setMask
  · exact h

theorem Canon.portsMoved {was : Nat} : Canon (s.portsMoved was) := .ite h h.setInt

theorem Canon.patchRecord {r : Nat} : Canon (s.patchRecord r) := by
  unfold State.patchRecord
  dsimp only
  split
  · exact h.frame
  · exact h.setVport
  · exact h.frame
  · exact .ite h.frame h.frame
  · exact h

theorem Canon.patchEffect {records : List Nat} : Canon (s.patchEffect records) := by
  unfold State.patchEffect
  extract_lets s1 _ s2 s3
  have h1 : Canon s1 := h.foldl (fun _ hz _ => hz.patchRecord)
  have h2 : Canon s2 := h1.frame
  have h3 : Canon s3 := by
    unfold s3
    split
    · exact h2.refreshMask
    · exact h2.refreshMask
    · exact h2.refreshMask
    · exact h2.setMask
  exact h3.portsMoved.setInt

theorem Canon.patchPending {seq : Nat} : Canon (s.patchPending seq) := by
  unfold State.patchPending
  split
  · exact h
  · exact .ite h.patchEffect h

/-! Machine/CtxOps. -/

theorem Canon.openCtx {r : CtxRec} : Canon (s.openCtx r) := h.setCtx

theorem Canon.ctxLog {cls cause id : Nat} : Canon (s.ctxLog cls cause id) := h.logErr

theorem Canon.checkHeads : Canon s.checkHeads := h.foldl (fun _ hz _ => hz.checkDescHead)

theorem Canon.teardown {id t : Nat} : Canon (s.teardown id t) := (h.setCtx.mapCores (fun _ _ => by rfl)).checkHeads

theorem Canon.parkCtx {id : Nat} : Canon (s.parkCtx id) := by
  unfold State.parkCtx
  exact (h.setCtx.mapCores (fun _ _ => by rfl)).setInt

theorem Canon.finishTeardown {id : Nat} : Canon (s.finishTeardown id) := .ite h.setCtx.cnt.setInt h

theorem Canon.applyClose {l : Store Nat} {t : Nat} : Canon (s.applyClose l t) :=
  h.foldl (fun _ hz _ => .ite (.ite hz.teardown.ctxLog hz) (.ite hz.parkCtx.ctxLog hz))

theorem Canon.quotaPier {id : Nat} : Canon (s.quotaPier id) := .ite h (.ite h.setCtx (.ite h.setCtx.frame h.setCtx))

theorem Canon.quotaCheck : Canon s.quotaCheck := h.foldl (fun _ hz _ => hz.quotaPier)

theorem Canon.ctxRefuse {code : Nat} : Canon (s.ctxRefuse code) := h.frame.setInt

theorem Canon.markOver {id : Nat} : Canon (s.markOver id) := .ite h.setCtx.setInt h

theorem Canon.putQuota {c : CtxCmd} : Canon (s.putQuota c) := h.setCtx.markOver

theorem Canon.grantPages {c : CtxCmd} : Canon (s.grantPages c) := .ite h.setCtx.frame h.setCtx.frame

theorem Canon.returnPages {c : CtxCmd} : Canon (s.returnPages c) := .ite h.setCtx.frame h.setCtx.frame

theorem Canon.grantKeystone {c : CtxCmd} : Canon (s.grantKeystone c) := h.setCtx.setKey

theorem Canon.returnKeystone {c : CtxCmd} : Canon (s.returnKeystone c) := h.setCtx.frame

theorem Canon.ctxEffect {c : CtxCmd} {t : Nat} : Canon (s.ctxEffect c t) :=
  .setInt (.ite h.teardown (.ite h.parkCtx (.ite h.setCtx (.ite h.putQuota (.ite h.grantPages (.ite h.returnPages (.ite h.grantKeystone
      (.ite h.returnKeystone h))))))))

theorem Canon.ctxRun {c : CtxCmd} {t : Nat} : Canon (s.ctxRun c t) := by
  unfold State.ctxRun
  split
  · exact h.ctxRefuse
  · exact h.ctxEffect

theorem Canon.ctxPending {seq t : Nat} : Canon (s.ctxPending seq t) := by
  unfold State.ctxPending
  split
  · exact h
  · exact .ite h.frame.ctxRun h

theorem Canon.loadGrant {g : GrantRec} {cores : List Nat} : Canon (s.loadGrant g cores) := by
  unfold State.loadGrant
  dsimp only
  split
  · exact h.frame
  · exact h.setCtx.frame
  · exact h.setCtx.frame

/-! Machine/Seep. -/

theorem Canon.seepLose : Canon s.seepLose := .ite h.cnt h.cnt.frame.logErr.setInt

theorem Canon.seepHigh {before : Nat} : Canon (s.seepHigh before) := .ite h.setInt h

theorem Canon.ringWrite {l : List (Nat × Nat)} {bs : List Byte} : Canon (s.ringWrite l bs) := by
  induction l generalizing s bs with
  | nil => exact h
  | cons r l ih => exact ih (h.mergeLines (fun _ hz _ _ => hz.rmwNow)).rawStore

theorem Canon.ringPut {pos : Nat} {bs : List Byte} : Canon (s.ringPut pos bs) := h.ringWrite

theorem Canon.ringGet {pos n : Nat} : Canon (s.ringGet pos n).1 := .foldl_fst h (fun _ hz _ => .ite hz.rawLoad.raiseHw hz.rawLoad)

theorem Canon.seepStow : Canon s.seepStow := .foldl_fst h (fun _ hz _ => hz.ringPut)

theorem Canon.seepHold {r : SeepRec} : Canon (s.seepHold r) := .ite h (.ite h.frame.ringPut.seepHigh h.seepLose.frame)

theorem Canon.seepRelease1 {r : SeepRec} : Canon (s.seepRelease1 r) := .ite h.frame h.frame.ringPut.cnt64

theorem Canon.seepSeal {step : Option (Nat × Nat)} : Canon (s.seepSeal step) := by
  unfold State.seepSeal
  split
  · exact h.frame
  · extract_lets _ _ s1
    have h1 : Canon s1 := h.frame.foldl (fun _ hz _ => hz.seepRelease1)
    split
    · exact h1
    · extract_lets
      split
      · exact h1.seepRelease1.seepHigh
      · exact h1.seepLose.seepRelease1

theorem Canon.seepGapEnd : Canon s.seepGapEnd := by
  unfold State.seepGapEnd
  extract_lets _ s1
  have h1 : Canon s1 := h.frame
  split
  · split
    · exact h1
    · exact h1.seepRelease1.seepStow
  · exact h

theorem Canon.seepLog {cause : Nat} : Canon (s.seepLog cause) := h.logErr

theorem Canon.seepAcked {n : Nat} : Canon (s.seepAcked n) := .ite h.seepLog (.ite h h.frame.seepGapEnd)

theorem Canon.takeSeepFlit {bytes : List Byte} : Canon (s.takeSeepFlit bytes) := .ite h.seepAcked h.seepLog

/-! Machine/PierRecord. -/

theorem Canon.sealStep : Canon s.sealStep := .ite h.advanceAmax.frame h

/-! Machine/Pier. -/

theorem Canon.lostReturns : Canon s.lostReturns := .ite h.frame h

theorem Canon.retireSwitch : Canon s.retireSwitch := by
  unfold State.retireSwitch
  split
  · exact h
  · exact h.frame.descChanged.setInt

theorem Canon.retireQuiet : Canon s.retireQuiet := by
  unfold State.retireQuiet
  split
  · exact .ite h.retireSwitch h
  · exact h

theorem Canon.setJob {j : Job} : Canon (s.setJob j) := by
  unfold State.setJob
  split
  · exact h
  · extract_lets _ _ _ _ s1 s2 _ _ s3 s4
    have h1 : Canon s1 := h.frame.setInt
    have h2 : Canon s2 := .ite h1.setInt h1
    have h3 : Canon s3 := .ite h2.frame.ctxRefuse h2
    have h4 : Canon s4 := .ite h3.lostReturns h3
    exact .retireQuiet (.ite h4.refreshMask h4)

theorem Canon.seqAgrees {p : Nat} : Canon (s.seqAgrees p) := by
  unfold State.seqAgrees
  split
  · exact h
  · exact .raiseHw (.logErr (h.takeSlip.of_snd ‹_›))

theorem Canon.pointTo {p why : Nat} : Canon (s.pointTo p why) := .ite h h.frame.trc.cnt.setInt

theorem Canon.setPoint {p : Nat} : Canon (s.setPoint p) := h.pointTo

theorem Canon.assignThreads {m : Store Nat} : Canon (s.assignThreads m) := h.foldl (fun _ hz _ => .ite hz.setThread hz)

theorem Canon.pierWaits {seq t : Nat} : Canon (s.pierWaits seq t) := by
  unfold State.pierWaits
  extract_lets s1 s2
  have h1 : Canon s1 := h.patchPending
  have h2 : Canon s2 := by
    unfold s2
    split
    · split
      · exact h1.retireSwitch
      · exact h1
    · exact h1
  exact h2.ctxPending

theorem Canon.startSpan {n t : Nat} : Canon (s.startSpan n t) := by
  unfold State.startSpan
  dsimp only
  split
  · exact h.pierWaits.mapCores (fun _ _ => by rfl)
  · exact (h.pierWaits.mapCores (fun _ _ => by rfl)).assignThreads

theorem Canon.endCore {c : Nat} : Canon (s.endCore c) := by
  unfold State.endCore
  extract_lets _ s1 _ _ s2 s3 _ s4
  have h1 : Canon s1 := h.foldl (fun _ hz _ => .ite (.coreFault (.ite hz.coreFault hz)) (.ite hz.coreFault hz))
  have h2 : Canon s2 := by
    unfold s2
    split
    · exact h1
    · exact h1.arrSched
  have h3 : Canon s3 := by
    unfold s3
    split
    · exact h2
    · exact h2.flsFault
  have h4 : Canon s4 := by
    unfold s4
    split
    · exact h3
    · exact h3.dmaFault
  split
  · exact h4
  · exact h4.tilFault

theorem Canon.slotError {cause pos l1 l2 : Nat} : Canon (s.slotError cause pos l1 l2) := .ite h (.ite h.frame.vdtFault h.frame.vdtFault)

theorem Canon.leftover : Canon s.leftover := by
  unfold State.leftover
  dsimp only
  split
  · exact h.slotError
  · split
    · exact h.slotError
    · exact h

theorem Canon.updFault {e : Nat} {cls : FClass} {cause slot group block pc bank ctx : Nat} :
    Canon (s.updFault e cls cause slot group block pc bank ctx) :=
  h.logErr.setInt.raiseClass

theorem Canon.endSweeps : Canon s.endSweeps := h.foldl (fun _ hz _ => hz.updFault)

theorem Canon.endGated : Canon s.endGated := by
  unfold State.endGated
  extract_lets n s1
  have h1 : Canon s1 := .ite h h.cnt
  exact h1.mapCores (fun _ _ => by (repeat' split) <;> rfl)

theorem Canon.endWork : Canon s.endWork := by
  unfold State.endWork
  extract_lets s1 s2 s3
  have h1 : Canon s1 := h.endGated.foldl (fun _ hz _ => hz.endCore)
  have h2 : Canon s2 := h1.leftover.endSweeps
  have h3 : Canon s3 := by
    unfold s3
    split
    · exact h2.logErr.raiseSched
    · exact h2
  exact h3.mapCores (fun _ _ => by rfl)

theorem Canon.suspect {bit : Nat} : Canon (s.suspect bit) := .ite h.markSet h.markSet.setReg.setInt

theorem Canon.checkWindow : Canon s.checkWindow :=
  .ite (.suspect (.ite (.suspect (.ite h.suspect h)) (.ite h.suspect h))) (.ite (.suspect (.ite h.suspect h)) (.ite h.suspect h))

theorem Canon.windowSeal : Canon s.windowSeal := h.frame.checkWindow.frame

theorem Canon.digestsRead : Canon s.digestsRead := h.foldl (fun _ hz _ => hz.foldl (fun _ hy _ => .ite hy.coreFault hy))

theorem Canon.stressFail : Canon s.stressFail := .frame (.ite h.pieErr h)

theorem Canon.stressPier : Canon s.stressPier :=
  .ite h (.ite (.ite h.digestsRead.rawLoad.raiseHw h.digestsRead.rawLoad) (.stressFail (.ite h.digestsRead.rawLoad.raiseHw
      h.digestsRead.rawLoad)))

theorem Canon.stressEnd : Canon s.stressEnd := .ite h (.ite h.free.frame.setInt.suspect h.free.frame.setInt)

theorem Canon.buddySeal : Canon s.buddySeal := h.frame

theorem Canon.closeSeal {t : Nat} : Canon (s.closeSeal t) := h.applyClose.frame

theorem Canon.takeCopies {replica : Bool} : Canon (s.takeCopies replica) := h.mapCores (fun _ _ => by rfl)

theorem Canon.seal : Canon s.seal :=
  .windowSeal (.cnt (.frame (.takeCopies (.foldl (.quotaCheck (.closeSeal (.seepGapEnd (.seepSeal (.ite
      (h.stressPier.buddySeal.sealStep.foldl (fun _ hz _ => hz.setInt)) h.stressPier.buddySeal.sealStep))))) (fun _ hz _ =>
      hz.sumpCloseEntry)))))

theorem Canon.trcPier {how : Nat} : Canon (s.trcPier how) := h.trc

theorem Canon.stopAtPier : Canon s.stopAtPier := h.frame.setJob

theorem Canon.park : Canon s.park := h.frame.stressEnd.setJob

/-! Machine/Rewind. -/

theorem Canon.agree : Canon s.agree := by
  unfold State.agree
  split
  · exact h
  · exact h.frame

theorem Canon.toPier : Canon s.toPier :=
  canon_iff.mpr ⟨⟨h.tick.count, h.tick.fraction⟩, h.memories.registers, h.cores.mapVals (fun _ _ hk => hk),
    h.sumpDrop.memories.device, h.sumpDrop.memories.capacity⟩

theorem Canon.enterRewind {target : Nat} {count : Bool} : Canon (s.enterRewind target count) :=
  .agree (.ite (.setPoint (.frame (.setJob (.toPier (.ite h.trcPier h))))) (.frame (.setJob (.toPier (.ite h.trcPier h)))))

theorem Canon.parkRestored : Canon s.parkRestored := .ite h.frame.park h

theorem Canon.takeWithdraw {arg : Nat} : Canon (s.takeWithdraw arg) := by
  unfold State.takeWithdraw
  dsimp only
  split
  · exact .ite h.wakeReason.frame.parkRestored (.ite h.wakeReason.frame h.wakeReason)
  · exact .ite h.wakeReason.frame.enterRewind (.ite (.ite h.wakeReason.frame.park h.wakeReason.frame) h.wakeReason)
  · exact h.wakeReason

theorem Canon.raiseWithdraw {reason subject : Nat} : Canon (s.raiseWithdraw reason subject) := .ite h h.floodAlarm.takeWithdraw

theorem Canon.replayLimit : Canon s.replayLimit := .ite h.pieErr.setInt.suspect.raiseWithdraw h

theorem Canon.takeRewind {origin arg : Nat} : Canon (s.takeRewind origin arg) := by
  unfold State.takeRewind
  extract_lets _ _ _ held ignored
  have hheld : Canon held := h.frame
  have hignored : Canon ignored := h.cnt
  split
  · split
    · exact hignored
    · split
      · exact h
      · exact hheld.agree.replayLimit
  · split
    · split
      · exact hheld.enterRewind.replayLimit
      · exact hignored
    · split
      · exact hheld.enterRewind.replayLimit
      · split
        · exact hheld
        · exact hignored
    · split
      · exact hheld
      · exact hignored
    · split
      · exact hheld.enterRewind.replayLimit
      · exact hignored
  · exact hignored

theorem Canon.takeStop {arg : Nat} : Canon (s.takeStop arg) := by
  unfold State.takeStop
  split
  · extract_lets
    split
    · exact h.setJob
    · split
      · exact h.holdStop
      · exact h
  · split
    · exact h.setJob
    · exact h.setJob
    · exact h.setJob
    · exact h

theorem Canon.takeAlarm {w : Nat} : Canon (s.takeAlarm w) := by
  unfold State.takeAlarm
  dsimp only
  split
  · exact h.takeRewind
  · exact h.takeWithdraw
  · exact h.takeStop
  · exact h

theorem Canon.raiseStop : Canon s.raiseStop := h.raiseAlarm.takeStop

theorem Canon.raiseRewind {n floor : Nat} : Canon (s.raiseRewind n floor) :=
  .ite (.setInt (.cnt (.checkWindow (.ite h.frame.stressFail h.frame)))) (.takeAlarm (.floodAlarm (.setInt (.cnt (.checkWindow (.ite
      h.frame.stressFail h.frame))))))

theorem Canon.sealCompare : Canon s.sealCompare := by
  unfold State.sealCompare
  split
  · exact h
  · exact .raiseHw (.pieErr (h.takeSlip.of_snd ‹_›))

theorem Canon.restoreRec {r : DevRec} : Canon (s.restoreRec r) := by
  unfold State.restoreRec
  dsimp only
  split
  · exact h.memPoke
  · exact h.memPoke.sidePoke
  · exact h.memPoke

theorem Canon.undoDone : Canon s.undoDone := h.mapCores (fun _ _ => by rfl)

omit h in
theorem Core.restoreLines_wf {k : Core} (hk : Memory.wf k.mem = true) : Memory.wf k.restoreLines.mem = true := by
  have pokes : ∀ (l : List (Nat × List Byte)) (x : Core), Memory.wf x.mem = true →
      Memory.wf (l.foldl (fun a r => a.poke (r.1 * 64) r.2) x).mem = true := by
    intro l
    induction l with
    | nil => exact fun _ hx => hx
    | cons r l ih => exact fun x hx => ih _ (Core.poke_wf hx)
  exact pokes _ k hk

theorem Canon.restoreLines : Canon { s with cores := Store.mapVals (fun _ k => k.restoreLines) s.cores } :=
  h.mapCoresMem (fun _ _ hk => Core.restoreLines_wf hk)

theorem Canon.restoreAll : Canon s.restoreAll := (h.restoreLines.foldl (fun _ hz _ => hz.restoreRec)).undoDone

theorem Canon.restoreSomePokes {l : List (Nat × Nat × List Byte)} : Canon (l.foldl (fun a x =>
    let f := a.free
    if f.1.toNat % 2 = 1 then f.2.modCore x.1 (fun k => k.poke (x.2.1 * 64) x.2.2) else f.2) s) :=
  h.foldl (fun _ hz _ => .ite (hz.free.modCoreMem (fun _ hk => Core.poke_wf hk)) hz.free)

theorem Canon.restoreSome : Canon s.restoreSome :=
  (h.restoreSomePokes.foldl (fun _ hz _ => .ite hz.free.restoreRec hz.free)).undoDone

theorem Canon.afterSeal : Canon s.afterSeal := .ite h.frame.park (.ite h.frame.enterRewind.replayLimit (.ite h.frame.park h.frame))

/-! Machine/SchedOps. -/

theorem Canon.schRefuse {code : Nat} : Canon (s.schRefuse code) := h.frame.setInt

theorem Canon.stressStart : Canon s.stressStart := .ite h.frame h

theorem Canon.enableChecks : Canon s.enableChecks := h.foldl (fun _ hz _ => hz.wr)

theorem Canon.loadThreads : Canon s.loadThreads := (h.mapCores (fun _ _ => by rfl)).foldl (fun _ hz _ => hz.setThread)

theorem Canon.loadKeys : Canon s.loadKeys := h.frame.foldl (fun _ hz _ => hz.setKey.setCtx)

theorem Canon.loadTrain : Canon s.loadTrain := h.frame

theorem Canon.install : Canon s.install :=
  .frame (.enableChecks (.loadTrain (.loadKeys (.foldl (h.loadThreads.foldl (fun _ hz _ => hz.openCtx)) (fun _ hz _ => hz.loadGrant)))))

theorem Canon.loadFail {e : LoadErr} : Canon (s.loadFail e) := by
  unfold State.loadFail
  exact h.frame.setJob.setInt

theorem Canon.loadEnd {addr len : Nat} : Canon (s.loadEnd addr len) := by
  unfold State.loadEnd
  dsimp only
  split
  · exact h.rawGranules.loadFail
  · exact h.rawGranules.placeImage.install.setJob

theorem Canon.sealStart : Canon s.sealStart := (h.mapCores (fun _ _ => by rfl)).quotaCheck.takeCopies.frame.cnt.windowSeal.afterSeal

theorem Canon.failStart {dev reason : Nat} : Canon (s.failStart dev reason) := h.frame.setJob.setInt

theorem Canon.vfFail {p : Nat} : Canon (s.vfFail p) := h.frame.logErr.setInt.raiseWith

theorem Canon.schAgrees {who idx : Nat} : Canon (s.schAgrees who idx) := .ite h.frame.logErr.raiseHw h

theorem Canon.gateAt {c idx : Nat} : Canon (s.gateAt c idx) := .ite (h.modCore (fun _ => by rfl)) h.logErr.raiseSched

theorem Canon.wakeFires {c w : Nat} : Canon (s.wakeFires c w) := by
  unfold State.wakeFires
  extract_lets s1 t
  have h1 : Canon s1 := h.elapseTo.cnt
  exact h1.modCore (fun _ => by (repeat' split) <;> rfl)

/-! Machine/Alarm. -/

theorem Canon.alarmArrives {p v : Nat} : Canon (s.alarmArrives p v) := .ite h h.cnt.setInt.floodAlarm.takeAlarm

theorem Canon.execAlarmReceive {p : Fin 20} {w : AlarmCopies} : CanonNext (execAlarmReceive p w s) := by
  unfold Machine.execAlarmReceive
  split
  · exact .next h.alarmArrives
  · exact .next h

theorem Canon.deferRaise {r : Raise} : Canon (s.deferRaise r) := h.frame.cnt

theorem Canon.raiseAgain {target : Nat} : Canon (s.raiseAgain target) := by
  unfold State.raiseAgain
  dsimp only
  split
  · exact .ite h.deferRaise h.frame.raiseRewind
  · split
    · exact h
    · exact h.deferRaise

theorem Canon.execRewindRaise : CanonNext (execRewindRaise s) := by
  unfold Machine.execRewindRaise
  split
  · extract_lets
    exact .next h.frame.raiseRewind
  · exact .next h.raiseAgain
  · exact .next h

theorem Canon.execRestoreDone {ok : Bool} : CanonNext (execRestoreDone ok s) :=
  .next (.ite h (.ite h.restoreAll.frame.parkRestored h.restoreSome.pieErr.frame.raiseWithdraw.parkRestored))

theorem Canon.dropAbandoned : Canon s.dropAbandoned := h.frame

theorem Canon.replayJob {r : Nat} : Canon (s.replayJob r) := h.trc.setPoint.setJob.cnt.setInt

theorem Canon.switchMissing {p r : Nat} : Canon (s.switchMissing p r) :=
  .enterRewind (.dropAbandoned (.cnt (.elapseTo (.ite h h.elapseTo.vfFail))))

theorem Canon.execRewindTick : CanonNext (execRewindTick s) := by
  unfold Machine.execRewindTick
  split
  · split
    · exact .next h
    · split
      · exact .next h.switchMissing
      · exact .next h.elapseTo.cnt.dropAbandoned.replayJob.startSpan
  · exact .next h

theorem Canon.execPatchApply {m : Master} : CanonNext (execPatchApply m s) := .next (h.lk (fun _ hz => .ite hz hz.frame))

theorem Canon.execPatchChecked : CanonNext (execPatchChecked s) := by
  unfold Machine.execPatchChecked
  split
  · exact .next h
  · extract_lets _ s1
    have h1 : Canon s1 := h.frame
    split
    · exact .next h1.frame.setInt
    · split
      · exact .next h1.patchEffect
      · exact .next h1.frame

theorem Canon.execPatchAbort {m : Master} : CanonNext (execPatchAbort m s) := .next (h.lk (fun _ hz => .ite hz.frame hz))

end

end Sys2Proof.Machine
end

section
/-! PROOFS. The array, the mailboxes, the rounds of the update unit and the buddy service keep the memories
canonical and the tick in range. -/

namespace Sys2Proof.Machine

open Sys2Proof

section
variable {s : State} (h : Canon s)
include h

/-! Machine/Array. -/

theorem Canon.touchBlocks {c : Nat} {f : Fmt} {rs : List (Nat × Nat)} : Canon (s.touchBlocks c f rs).1 :=
  .foldl_fst h (fun _ hz _ => hz.cmCorrect)

theorem Canon.bottomErrs {c n p : Nat} : Canon (s.bottomErrs c n p).1 := by
  unfold State.bottomErrs
  split
  · exact h
  · split
    · exact h.takeSlip.of_snd ‹_›
    · exact h.takeSlip.of_snd ‹_›

theorem Canon.addArrRun {c : Nat} {r : ArrRun} : Canon (s.addArrRun c r) := (h.modCore (fun _ => by rfl)).settleArr

theorem Canon.startLoad {c : Nat} {q : ArrCmd} : Canon (s.startLoad c q) := by
  unfold State.startLoad
  dsimp only
  split
  · exact h.trcArr.touchBlocks.raiseArrErrs.addArrRun
  · exact .ite h.trcArr.touchBlocks.applyWrs.raiseArrErrs h.trcArr.touchBlocks.raiseArrErrs.addArrRun

theorem Canon.startStream {c : Nat} {q : ArrCmd} {tile : Tile} : Canon (s.startStream c q tile) := by
  unfold State.startStream
  extract_lets _ _ _ _ _ _ touch bottom _ _ _ reads _ s1
  have htouch : Canon touch.1 := h.trcArr.touchBlocks
  have hbottom : Canon bottom.1 := htouch.bottomErrs
  have hreads : Canon reads.1 := by
    unfold reads
    split
    · exact hbottom.accErrs
    · exact hbottom
  have h1 : Canon s1 := hreads.cnt64
  split
  · exact h1.raiseArrErrs.addArrRun
  · split
    · exact h1.raiseArrErrs.addArrRun
    · exact h1.raiseArrErrs.addArrRun

theorem Canon.execLoad {c : Fin 256} : CanonNext (execLoad c s) := by
  unfold Machine.execLoad
  dsimp only
  split
  · exact .next h
  · exact .ite (.next h) (.next (h.modCore (fun _ => by rfl)).startLoad.checkLoadHead)

theorem Canon.execStream {c : Fin 256} : CanonNext (execStream c s) := by
  unfold Machine.execStream
  extract_lets
  split
  · exact .next h
  · extract_lets
    split
    · exact .next h
    · split
      · exact .next (h.modCore (fun _ => by rfl)).startStream.checkStreamHead
      · exact .next (h.modCore (fun _ => by rfl)).arrSched

theorem Canon.takeOwner {c : Nat} {q : ArrCmd} {rest : List ArrCmd} {up : Bool} : Canon (s.takeOwner c q rest up) := by
  unfold State.takeOwner
  extract_lets s1 s2
  have h1 : Canon s1 := h.modCore (fun _ => by rfl)
  have h2 : Canon s2 := by
    unfold s2
    split
    · exact h1.applyWr.settleArr
    · exact h1.cnt
    · exact h1.missBinding.unresolved.cnt
  exact h2.trcArr.trcArr.checkStreamHead

theorem Canon.execClaim {c : Fin 256} : CanonNext (execClaim c s) := by
  unfold Machine.execClaim
  dsimp only
  split
  · exact .next h
  · exact .ite (.next h) (.next h.takeOwner)

theorem Canon.execRelease {c : Fin 256} : CanonNext (execRelease c s) := by
  unfold Machine.execRelease
  dsimp only
  split
  · exact .next h
  · exact .ite (.next h) (.next h.takeOwner)

theorem Canon.arrWritePoint {c i : Nat} : Canon (s.arrWritePoint c i) := by
  unfold State.arrWritePoint
  split
  · exact h
  · split
    · exact (h.modCore (fun _ => by rfl)).settleArr
    · exact (h.accReads.modCore (fun _ => by rfl)).missBinding.unresolved.settleArr

theorem Canon.arrComplete {c i : Nat} : Canon (s.arrComplete c i) := by
  unfold State.arrComplete
  split
  · exact h
  · extract_lets s1 s2
    have h1 : Canon s1 := by
      unfold s1
      split
      · exact h.applyWr.modCore (fun _ => by rfl)
      · exact h
    have h2 : Canon s2 := h1.modCore (fun _ => by rfl)
    exact .settleArr (.trcArr (.ite h2.cnt h2))

theorem Canon.arrDone {c op : Nat} : Canon (s.arrDone c op) := by
  unfold State.arrDone
  split
  · exact h
  · split
    · exact h
    · extract_lets s1
      have h1 : Canon s1 := h.arrWritePoint
      split
      · split
        · exact h1.arrComplete
        · exact h1
      · exact h1

theorem Canon.execLoadDone {c : Fin 256} : CanonNext (execLoadDone c s) := .next h.arrDone

theorem Canon.execStreamDone {c : Fin 256} : CanonNext (execStreamDone c s) := .next h.arrDone

/-! Machine/Mailbox. -/

theorem Canon.setMbx {n : Nat} {m : Mailbox} : Canon (s.setMbx n m) := .ite h.frame h.frame

theorem Canon.mbxRefuse {n code pos who : Nat} : Canon (s.mbxRefuse n code pos who) := h.setMbx.logErr.setInt

theorem Canon.mbxRing {n seq : Nat} {req : List Nat} {kslot pos who : Nat} : Canon (s.mbxRing n seq req kslot pos who) := by
  unfold State.mbxRing
  dsimp only
  split
  · exact h.mbxRefuse
  · exact .frame (.ite h.setMbx.setMbx h.setMbx)

theorem Canon.mbxAck {n seq pos who : Nat} : Canon (s.mbxAck n seq pos who) := .ite h.setMbx h.mbxRefuse

theorem Canon.mbxReply {n status : Nat} {words : List Nat} : Canon (s.mbxReply n status words) := h.setMbx

theorem Canon.mbxDone : Canon s.mbxDone := by
  unfold State.mbxDone
  split
  · exact h
  · split
    · exact h
    · extract_lets _ s1 _ s2 s3 s4
      have h1 : Canon s1 := h.setMbx
      have h2 : Canon s2 := h1.frame
      have h3 : Canon s3 := by
        unfold s3
        split
        · exact h2
        · exact h2.setMbx
      have h4 : Canon s4 := .setInt (.ite h3.cnt h3)
      exact h4.wakeReason

/-! Machine/ReplayOps. -/

theorem Canon.sendFlit {p t pos : Nat} {f : Flit} : Canon (s.sendFlit p t pos f) := h.emit

theorem Canon.missing {p t : Nat} : Canon (s.missing p t) := h.elapseTo.pieErr.raiseHw

theorem Canon.voteCopy {b : VoteBlock} : Canon (s.voteCopy b).1 := by
  unfold State.voteCopy
  dsimp only
  split
  · exact h
  · exact .ite h.memRead.raiseHw h.memRead

theorem Canon.voteCopies {bs : List VoteBlock} : Canon (s.voteCopies bs).1 := .foldl_fst h (fun _ hz _ => hz.voteCopy)

theorem Canon.voteStore {b : VoteBlock} {data side : List Byte} : Canon (s.voteStore b data side) := by
  unfold State.voteStore
  dsimp only
  split
  · exact h
  · exact h.mergeStore.mapCores (fun _ _ => by rfl)

theorem Canon.putVote {v : Vote} : Canon (s.putVote v) := h.frame

theorem Canon.voteEnd {v : Vote} {fixed state : Nat} : Canon (s.voteEnd v fixed state) := h.frame.setInt

theorem Canon.replicaMismatch {l : List Nat} {peer : Nat} {isY : Bool} : Canon (s.replicaMismatch l peer isY) := by
  unfold State.replicaMismatch
  split
  · exact h
  · dsimp only
    split
    · exact h.cnt.setInt.pieErr.frame
    · exact h.cnt.setInt.pieErr.putVote

theorem Canon.takeSealFlit {p : Nat} {body : List Byte} : Canon (s.takeSealFlit p body) :=
  .ite h (.ite (.ite (.frame (.ite h.frame h)) (.ite (.replicaMismatch (.frame (.ite h.frame h))) (.ite h.frame h))) (.ite h.frame h))

theorem Canon.takeCloseFlit {p : Nat} {body : List Byte} : Canon (s.takeCloseFlit p body) := .ite h.frame h

/-! Machine/StateOps. -/

theorem Canon.tlItem {w i : Nat} : Canon (s.tlItem w i).1 := by
  unfold State.tlItem
  split
  · extract_lets _ r
    have hr : Canon r.1 := h.readLines
    split
    · split
      · exact h
      · exact h
    · split
      · exact h
      · exact hr
  · extract_lets
    split
    · exact h
    · extract_lets r
      have hr : Canon r.1 := h.memRead
      split
      · exact hr
      · split
        · exact hr
        · exact hr
  · split
    · exact h
    · exact h

theorem Canon.tlItems {n w i : Nat} : Canon (State.tlItems n s w i).1 := by
  induction n generalizing s i with
  | zero => exact h
  | succ n ih =>
    unfold State.tlItems
    extract_lets r
    have hr : Canon r.1 := h.tlItem
    split
    · exact hr
    · exact ih hr

theorem Canon.tlStream {l : List Nat} {k : Nat} : Canon (State.tlStream l s k).1 := by
  induction l generalizing s k with
  | nil => exact h
  | cons w l ih =>
    unfold State.tlStream
    extract_lets r
    have hr : Canon r.1 := h.tlItems
    split
    · exact hr
    · exact ih hr

theorem Canon.queueXfer {p : Nat} {f : Flit} : Canon (s.queueXfer p f) := h.setVport

theorem Canon.txFill {n : Nat} : Canon (State.txFill n s) := by
  induction n generalizing s with
  | zero => exact h
  | succ n ih =>
    unfold State.txFill
    split
    · exact h
    · exact .ite h (ih h.queueXfer.frame)

theorem Canon.txSend : Canon s.txSend := by
  unfold State.txSend
  split
  · exact h
  · exact h.txFill

theorem Canon.txEnd {status : Nat} {at_ : List Nat} : Canon (s.txEnd status at_) := by
  unfold State.txEnd
  split
  · exact h.frame
  · exact h.frame.mbxReply

theorem Canon.txSent : Canon s.txSent := by
  unfold State.txSent
  split
  · exact h.txEnd
  · exact h.txEnd

theorem Canon.txStopped {bytes : List Byte} : Canon (s.txStopped bytes) := .ite h.txSent h.txEnd

theorem Canon.txAcked {n : Nat} : Canon (s.txAcked n) := by
  unfold State.txAcked
  split
  · exact h
  · exact .ite h (.ite h.frame.txSent h.frame.txSend)

theorem Canon.rxNotice {status : Nat} {at_ : List Nat} : Canon (s.rxNotice status at_) := by
  unfold State.rxNotice
  split
  · exact h
  · exact h.queueXfer

theorem Canon.rxDone {status : Nat} {at_ : List Nat} : Canon (s.rxDone status at_) := by
  unfold State.rxDone
  dsimp only
  split
  · exact .frame (.ite h h.rxNotice)
  · exact .mbxReply (.frame (.ite h h.rxNotice))

theorem Canon.rxStore {w i : Nat} {b : List Byte} : Canon (s.rxStore w i b).1 := by
  unfold State.rxStore
  split
  · extract_lets a
    split
    · exact h.modCoreMem (fun _ hk => Core.poke_wf hk)
    · exact h
  · extract_lets
    split
    · exact h
    · split
      · exact h
      · exact h.commitBlock
  · exact h.frame

theorem Canon.rxDrain {n : Nat} : Canon (State.rxDrain n s) := by
  induction n generalizing s with
  | zero => exact h
  | succ n ih =>
    unfold State.rxDrain
    extract_lets b eat k r
    split
    · exact h
    · split
      · have hr : Canon r.1 := h.rxStore
        split
        · exact .ite h.rxDone h
        · split
          · exact hr.rxDone
          · exact ih hr.frame
      · split
        · exact .ite (ih h.frame) h.rxDone
        · split
          · exact .ite h.rxDone h.rxDone
          · exact .ite h.rxDone h

theorem Canon.takeStateFlit {p src offset : Nat} {last : Bool} {bytes : List Byte} : Canon (s.takeStateFlit p src offset last bytes) :=
  .ite (.ite h.txAcked (.ite h.txStopped h)) (.ite h (.ite h.frame.rxDrain h.frame.rxDrain.queueXfer))

theorem Canon.recCtx {b : List Byte} : Canon (s.recCtx b) := .ite h h.setCtx

theorem Canon.install_ {r : List Byte} {hist : Nat → List (Nat × Int)} {seq step skipk : Nat} :
    Canon (s.install_ r hist seq step skipk) := by
  unfold State.install_
  extract_lets _ s1 s2 s3
  have h1 : Canon s1 := h.foldl (fun _ hz _ => hz.setThread)
  have h2 : Canon s2 := h1.foldl (fun _ hz _ => .ite hz hz.setKey)
  have h3 : Canon s3 := h2.foldl (fun _ hz _ => hz.recCtx)
  exact h3.frameMem (by rfl) (by rfl)

theorem Canon.adoptEnd {n status : Nat} : Canon (s.adoptEnd n status) := h.frame.mbxReply

theorem Canon.adoptRec {n : Nat} {r : List Byte} {hist : Nat → List (Nat × Int)} {seqOver stepOver : Option Nat} {skipk : Nat} :
    Canon (s.adoptRec n r hist seqOver stepOver skipk) :=
  .ite h.adoptEnd (.ite h.adoptEnd h.install_.adoptEnd)

theorem Canon.carveRestore : Canon s.carveRestore := h.restoreLines.foldl (fun _ hz _ => hz.restoreRec)

theorem Canon.restoreSomeLines : Canon s.restoreSomeLines := h.restoreSomePokes

/-! Machine/UpdateOps. -/

theorem Canon.setEng {e : Nat} {x : UpdEngine} : Canon (s.setEng e x) := h.frame

theorem Canon.modEng {e : Nat} {f : UpdEngine → UpdEngine} : Canon (s.modEng e f) := h.setEng

theorem Canon.putVersion {e : Nat} {g : List Byte} {v i step : Nat} : Canon (s.putVersion e g v i step) :=
  .ite h.mergeBlock h.mergeBlock.memPoke.noteStore

theorem Canon.storeTurn {t : Bool × Nat × Nat × Nat} : Canon (s.storeTurn t) := h.refWait.afterLoads

theorem Canon.updLog {e : Nat} {r : DevRec} : Canon (s.updLog e r) := h.modEng

theorem Canon.updLineFault {e : Nat} {g : List Byte} {v i : Nat} : Canon (s.updLineFault e g v i) := h.updFault

theorem Canon.setVersion {e : Nat} {g : List Byte} {v i step : Nat} : Canon (s.setVersion e g v i step) :=
  .putVersion (.updLog (.ite h.undoRead.updLineFault h.undoRead))

theorem Canon.versionRead {e : Nat} {g : List Byte} {v i : Nat} : Canon (s.versionRead e g v i).1 := .ite h.rawLoad.updLineFault h.rawLoad

theorem Canon.updRead {e : Nat} {g : List Byte} {k v i step : Nat} : Canon (s.updRead e g k v i step).1 := by
  unfold State.updRead
  dsimp only
  split
  · exact h
  · split
    · exact h
    · split
      · exact h
      · exact h.memRead

theorem Canon.updReadAll {e : Nat} {g : List Byte} {v i step : Nat} : Canon (s.updReadAll e g v i step).1 :=
  .foldl_fst h (fun _ hz _ => hz.updRead)

theorem Canon.sweepEnd {e : Nat} : Canon (s.sweepEnd e) := .ite h.modEng.setInt h

theorem Canon.blockFault {e : Nat} {cls : FClass} {cause slot : Nat} : Canon (s.blockFault e cls cause slot) := by
  unfold State.blockFault
  split
  · exact h
  · exact h.updFault

theorem Canon.countWithheld {e bank n : Nat} : Canon (s.countWithheld e bank n) := .ite h h.cnt

theorem Canon.bankFault {e cause slot : Nat} : Canon (s.bankFault e cause slot) := by
  unfold State.bankFault
  split
  · exact h
  · exact h.blockFault.modEng.modEng.countWithheld.sweepEnd

theorem Canon.readFault {e bad slot : Nat} {k : State → State} (hk : ∀ z, Canon z → Canon (k z)) : Canon (s.readFault e bad slot k) :=
  .ite (hk _ h) (.ite (hk _ h.blockFault) h.bankFault)

theorem Canon.updCompare {e : Nat} : Canon (s.updCompare e) := by
  unfold State.updCompare
  split
  · exact h
  · exact .ite (.blockFault (h.takeSlip.of_snd ‹_›)) (.ite (.ite (.blockFault (.cnt (h.takeSlip.of_snd ‹_›))) (h.takeSlip.of_snd ‹_›))
      (.ite (.blockFault (.cnt (h.takeSlip.of_snd ‹_›))) (h.takeSlip.of_snd ‹_›)))

theorem Canon.updTurn {e : Nat} : Canon (s.updTurn e) := by
  unfold State.updTurn
  split
  · exact h
  · exact h.elapseTo.updCompare

theorem Canon.updConst {e bank k : Nat} : Canon (s.updConst e bank k).1 := by
  unfold State.updConst
  dsimp only
  split
  · exact .ite h.rawLoad.blockFault h.rawLoad
  · exact h

theorem Canon.updDo {e op : Nat} {f : State → UpdBlock → Nat → State} (hf : ∀ z, Canon z → ∀ x y, Canon (f z x y)) :
    Canon (s.updDo e op f) := by
  unfold State.updDo
  split
  · exact h
  · exact .ite h (hf _ h.updTurn _ _)

theorem Canon.updExec {e op : Nat} {f : UpdEngine → UpdBlock → Nat → Wide × List Bool} : Canon (s.updExec e op f) :=
  h.updDo (fun _ hz _ _ => hz.setEng)

theorem Canon.updCalc {e op : Nat} {f : Wide → Wide → UpdBlock → Nat → Wide} : Canon (s.updCalc e op f) := h.updExec

theorem Canon.updCalcK {e op : Nat} {f : Wide → Int × Int → Wide} : Canon (s.updCalcK e op f) :=
  h.updDo (fun _ hz _ _ => hz.updConst.setEng)

theorem Canon.freeLanes : Canon s.freeLanes.1 := .foldl_fst h (fun _ hz _ => hz.free.free)

theorem Canon.seepBlocks {e : Nat} {b : UpdBlock} : Canon (s.seepBlocks e b) := h.foldl (fun _ hz _ => .ite hz (.ite hz hz.seepHold))

theorem Canon.putJournal {e : Nat} {b : UpdBlock} : Canon (s.putJournal e b) :=
  .mergeRaw (.setEng (.ite (.updLog (.ite h.undoRead.updLineFault h.undoRead)) h))

theorem Canon.updStore {e : Nat} {cap : Bool} {a slot : Nat} {data side : List Byte} : Canon (s.updStore e cap a slot data side) :=
  h.mergeStore

theorem Canon.putOutput {e : Nat} {b : UpdBlock} {o : Nat × List Byte × List Byte} : Canon (s.putOutput e b o) := by
  unfold State.putOutput
  extract_lets
  split
  · exact h
  · extract_lets u old
    have hu : Canon u.1 := h.undoRead
    have hold : Canon old.1 := by
      unfold old
      split
      · exact h
      · exact .ite hu.updLineFault hu
    exact hold.setEng.updStore

theorem Canon.commitUpd {e : Nat} {b : UpdBlock} : Canon (s.commitUpd e b) :=
  .sweepEnd (.cnt64 (.modEng (.setVersion (.foldl (.putJournal (.seepBlocks (h.foldl (fun _ hz _ => hz.storeTurn)))) (fun _ hz _ =>
      hz.putOutput)))))

theorem Canon.replayOut {e : Nat} {g : List Byte} {v b step : Nat} {o : Nat × List Byte × List Byte} :
    Canon (State.replayOut e g v b step s o) := by
  unfold State.replayOut
  dsimp only
  split
  · exact h
  · exact h.storeTurn.updStore

theorem Canon.replayRecord {e i : Nat} : Canon (s.replayRecord e i) := by
  unfold State.replayRecord
  extract_lets l r p z g v b s1
  have hl : Canon l.1 := h.rawLoad
  have hz : Canon z := by
    unfold z
    split
    · exact hl.updLineFault
    · exact hl
  have h1 : Canon s1 := hz.foldl (fun _ hz _ => hz.replayOut)
  split
  · exact hz
  · exact h1.storeTurn.putVersion.cnt

theorem Canon.replayJournal {e : Nat} : Canon (s.replayJournal e) :=
  .ite (.modEng (h.foldl (fun _ hz _ => hz.replayRecord))) (.setInt (.modEng (h.foldl (fun _ hz _ => hz.replayRecord))))

/-! Machine/Buddy. -/

theorem Canon.sendLane {r : List Byte} {lane p : Nat} : Canon (s.sendLane r lane p) := h.foldl (fun _ hz _ => .ite hz.sendFlit hz)

theorem Canon.execBuddySend : CanonNext (execBuddySend s) :=
  .next (.ite h (.ite (.sendLane (.ite h.elapseTo.frame.sendLane h.elapseTo.frame)) (.ite h.elapseTo.frame.sendLane h.elapseTo.frame)))

theorem Canon.takeBuddyFlit {p offset : Nat} {bytes : List Byte} : Canon (s.takeBuddyFlit p offset bytes) := .ite h.frame h

theorem Canon.sendList {n : Nat} {es : List Nat} : Canon (s.sendList n es) := by
  unfold State.sendList
  exact h.tlStream.frame.txSend

theorem Canon.sendChecked {n : Nat} {list : Option (List Nat)} {portsOk : Bool} : Canon (s.sendChecked n list portsOk) := by
  unfold State.sendChecked
  split
  · exact h.frame.mbxReply
  · exact .ite h.sendList h.frame.mbxReply

theorem Canon.takeStateSend {n : Nat} : Canon (s.takeStateSend n) := .ite h (.ite h.frame.mbxReply h.sendChecked)

theorem Canon.execStateSend : CanonNext (execStateSend s) := by
  unfold Machine.execStateSend
  split
  · exact .next h
  · exact .next h.takeStateSend

theorem Canon.execStateRecv : CanonNext (execStateRecv s) := by
  unfold Machine.execStateRecv
  split
  · exact .next h
  · split
    · exact .next h
    · split
      · exact .next h.frame.mbxReply
      · exact .next h.frame

theorem Canon.execStateAck {n : Nat} : CanonNext (execStateAck n s) := .next h.txAcked

theorem Canon.execStateResend : CanonNext (execStateResend s) := by
  unfold Machine.execStateResend
  split
  · exact .next h
  · extract_lets s1
    have h1 : Canon s1 := h.elapseTo
    split
    · exact .next h1.txEnd
    · exact .next (h1.frameMem (by rfl) (by rfl)).txSend

theorem Canon.beforeAdopt : Canon s.beforeAdopt := h.foldl (fun _ hz _ => .ite hz.replayJournal hz)

theorem Canon.execAdopt : CanonNext (execAdopt s) := by
  unfold Machine.execAdopt
  split
  · exact .next h
  · extract_lets
    split
    · exact .next h.adoptEnd
    · split
      · split
        · exact .next h.adoptEnd
        · exact .next h.beforeAdopt.adoptRec
      · split
        · exact .next h.adoptEnd
        · exact .next h.beforeAdopt.adoptRec

theorem Canon.execSelfRestore {ok : Bool} : CanonNext (execSelfRestore ok s) := by
  unfold Machine.execSelfRestore
  split
  · exact .next h
  · split
    · exact .next h.adoptEnd
    · split
      · exact .next h.adoptEnd
      · split
        · exact .next h.carveRestore.beforeAdopt.adoptRec
        · exact .next h.restoreSomeLines.adoptEnd

theorem Canon.execProbation : CanonNext (execProbation s) := by
  unfold Machine.execProbation
  split
  · exact .next h
  · exact .next h.frame.mbxReply

theorem Canon.execStateStatus : CanonNext (execStateStatus s) := by
  unfold Machine.execStateStatus
  split
  · exact .next h
  · extract_lets
    exact .next h.mbxReply

theorem Canon.execNeighbourDark {nbr : Nat} : CanonNext (execNeighbourDark nbr s) := .next (.ite h h.frame.raiseWith)

theorem Canon.execNeighbourWithdraw {nbr : Nat} : CanonNext (execNeighbourWithdraw nbr s) := by
  unfold Machine.execNeighbourWithdraw
  split
  · exact .next h
  · extract_lets _ s1
    have h1 : Canon s1 := h.frame
    split
    · exact .next h1
    · exact .next h1.elapseTo.raiseWithdraw

end

end Sys2Proof.Machine
end

section
/-! PROOFS. The commands of memory, of contexts, of Flowstone and of the fabric tick keep the memories canonical and the tick in range. -/

namespace Sys2Proof.Machine

open Sys2Proof

section
variable {s : State} (h : Canon s)
include h

/-! Machine/Memory. -/

theorem Canon.setStk {n : Nat} {k : Stack} : Canon (s.setStk n k) := h.frame

theorem Canon.hbmRefuse {n cause : Nat} : Canon (s.hbmRefuse n cause) := h.logErr.setInt

theorem Canon.hbmStart {n op : Nat} : Canon (s.hbmStart n op) := h.setStk

theorem Canon.execHbmInit {m : Master} {n : Fin 8} : CanonNext (execHbmInit m n s) :=
  .next (h.lk (fun _ hz => .ite hz.hbmRefuse hz.hbmStart.frame))

theorem Canon.hbmRepair {n op : Nat} : Canon (s.hbmRepair n op) := .ite h.hbmRefuse (.ite h.hbmRefuse h.hbmStart)

theorem Canon.execHbmTrain {m : Master} {n : Fin 8} : CanonNext (execHbmTrain m n s) := .next (h.lk (fun _ hz => hz.hbmRepair))

theorem Canon.execHbmRowSoft {m : Master} {n : Fin 8} : CanonNext (execHbmRowSoft m n s) := .next (h.lk (fun _ hz => hz.hbmRepair))

theorem Canon.execHbmRowHard {m : Master} {n : Fin 8} : CanonNext (execHbmRowHard m n s) := .next (h.lk (fun _ hz => hz.hbmRepair))

theorem Canon.execHbmLane {m : Master} {n : Fin 8} : CanonNext (execHbmLane m n s) := .next (h.lk (fun _ hz => hz.hbmRepair))

theorem Canon.hbmInitEnd : Canon s.hbmInitEnd := by
  unfold State.hbmInitEnd
  split
  · exact h
  · extract_lets _ s0 changed s1 _ s2
    have h0 : Canon s0 := h.frame
    have h1 : Canon s1 := h0.foldl (fun _ hz _ => hz.setStk)
    have h2 : Canon s2 := h1.withMem rfl h1.memories.capacity
    exact .ite h0 (.ite h2.descChanged h2)

theorem Canon.repairLines {n op addr : Nat} : Canon (s.repairLines n op addr) := h.foldl (fun _ hz _ => hz.rmwLine)

theorem Canon.execHbmCmdDone {n : Fin 8} {ok : Bool} : CanonNext (execHbmCmdDone n ok s) := by
  unfold Machine.execHbmCmdDone
  extract_lets
  split
  · exact .next h
  · extract_lets s0 _ s1 _ s2
    have h0 : Canon s0 := .ite h.repairLines h
    have h1 : Canon s1 := h0.setStk
    have h2 : Canon s2 := by
      unfold s2
      split
      · exact h1.hbmInitEnd
      · exact .ite h1.setStk h1.setStk.logErr
      · exact h1.setStk.cnt
      · exact h1.setStk.cnt
      · exact .ite h1.setStk.cnt.setStk h1.setStk.cnt.setStk.logErr
    exact .next h2.setInt

theorem Canon.execHbmTrainingDone {good : Nat} : CanonNext (execHbmTrainingDone good s) := .next (h.foldl (fun _ hz _ => hz.setStk))

theorem Canon.execHbmHot {n : Fin 8} {temp : Nat} : CanonNext (execHbmHot n temp s) := .next (.ite h.setStk.setInt h.setStk)

theorem Canon.execRefreshOutsideWindows {gallery : Bool} {n : Fin 32} : CanonNext (execRefreshOutsideWindows gallery n s) :=
  .next (.ite (.ite h.cnt.frame.logErr.setInt h.cnt) (.ite h (.ite h (.ite h.cnt.free.free.setStk.logErr.setInt h.cnt))))

theorem Canon.execSumpClose {c : Fin 256} {line : Nat} : CanonNext (execSumpClose c line s) := by
  unfold Machine.execSumpClose
  split
  · exact .next h
  · exact .next h.elapseTo.sumpCloseEntry

theorem Canon.galRefuse {ch : Nat} : Canon (s.galRefuse ch) := h.logErr.setInt

theorem Canon.execGalInit {m : Master} : CanonNext (execGalInit m s) := .next (h.lk (fun _ hz => .ite hz.galRefuse hz.frame))

theorem Canon.execGalTrain {m : Master} : CanonNext (execGalTrain m s) := .next (h.lk (fun _ hz => .ite hz.galRefuse hz.frame))

theorem Canon.execGalCmdDone : CanonNext (execGalCmdDone s) := by
  unfold Machine.execGalCmdDone
  split
  · exact .next h
  · extract_lets _ s1 _ s3 s2
    have h1 : Canon s1 := h.frame
    have h3 : Canon s3 := h1.withMem h1.memories.device rfl
    have h2 : Canon s2 := .ite h1 (.ite h3 h3.descChanged)
    exact .next h2.setInt

theorem Canon.setChan {ch st : Nat} : Canon (s.setChan ch st) := h.frame

theorem Canon.execGalRetire {m : Master} : CanonNext (execGalRetire m s) := .next (h.lk (fun _ hz => by
    dsimp only
    split
    · exact .galRefuse (.ite hz.frame hz.frame)
    · exact hz.frame.setChan))

theorem Canon.execGalAbort {m : Master} : CanonNext (execGalAbort m s) := .next (h.lk (fun _ hz => by
    split
    · exact hz.galRefuse
    · extract_lets _ s1
      have h1 : Canon s1 := hz.frame
      exact .setInt (.ite h1.setChan h1)))

theorem Canon.execMigrationDone : CanonNext (execMigrationDone s) := by
  unfold Machine.execMigrationDone
  split
  · exact .next h
  · split
    · exact .next h
    · exact .next h.frame.retireQuiet

theorem Canon.measureChan {ch : Nat} : Canon (s.measureChan ch) := h.free.frame

theorem Canon.execGalRefresh {ch : Fin 32} : CanonNext (execGalRefresh ch s) := .next h.elapseTo.measureChan

theorem Canon.execChannelFailed {ch : Fin 32} : CanonNext (execChannelFailed ch s) := by
  unfold Machine.execChannelFailed
  extract_lets s1
  have h1 : Canon s1 := h.setChan.setInt
  split
  · exact .next h1.raiseWithdraw
  · exact .next h1.raiseWithdraw
  · exact .next h1.raiseWithdraw
  · exact .next h1.raiseWithdraw
  · exact .next h1

theorem Canon.b2Deny {cause off : Nat} : Canon (s.b2Deny cause off) := h.logErr.cnt.setInt

theorem Canon.rawSide {g0 : Nat} {data : List Byte} : Canon (s.rawSide g0 data).1 := h.free

theorem Canon.b2Lines {g0 g a n : Nat} : Canon (s.b2Lines g0 g a n).1 := .foldl_fst h (fun _ hz _ => by
    dsimp only
    split
    · exact hz
    · exact hz.rmwLine)

theorem Canon.b2Merge {f g0 a n : Nat} : Canon (State.b2Merge f s g0 a n).1 := by
  induction f generalizing s g0 with
  | zero => exact h
  | succ f ih =>
    unfold State.b2Merge
    split
    · exact h
    · extract_lets g
      split
      · exact h
      · exact ih (h.b2Lines.mergeLines (fun _ hz _ _ => hz.rmwLine))

theorem Canon.b2Granules {n g0 a : Nat} {data : List Byte} : Canon (State.b2Granules n s g0 a data) := by
  induction n generalizing s g0 with
  | zero => exact h
  | succ n ih =>
    unfold State.b2Granules
    split
    · exact h
    · extract_lets g
      split
      · exact h
      · exact ih h.afterLoads.rawSide.commitBlock

theorem Canon.b2Apply {a : Nat} {data : List Byte} : Canon (s.b2Apply a data) := .ite h (.ite h.b2Merge h.b2Merge.b2Granules)

theorem Canon.b2Fetch {a n : Nat} : Canon (s.b2Fetch a n) := h.stampLoad.readLines.emit

theorem Canon.b2Drain : Canon s.b2Drain := .foldl (h.frame.foldl (fun _ hz _ => hz.b2Apply)) (fun _ hz _ => hz.b2Fetch)

theorem Canon.b2Gather {a : Nat} {data : List Byte} : Canon (s.b2Gather a data) := .ite h.frame h

theorem Canon.execBar2Write {off : Nat} {data : List Byte} : CanonNext (execBar2Write off data s) := by
  unfold Machine.execBar2Write
  split
  · split
    · exact .next h.b2Deny
    · split
      · exact .next h.b2Gather
      · exact .next h.b2Drain.b2Apply
  · exact .next h

theorem Canon.b2Wait {a n : Nat} : Canon (s.b2Wait a n) := h.frame

theorem Canon.execBar2Read {off len : Nat} : CanonNext (execBar2Read off len s) := by
  unfold Machine.execBar2Read
  split
  · split
    · exact .next h.b2Deny.emit
    · split
      · exact .next h.b2Wait
      · exact .next h.b2Drain.b2Fetch
  · exact .next h

theorem Canon.execHostWriteDrain : CanonNext (execHostWriteDrain s) := .next (.ite h (.b2Drain (.ite h.elapseTo h)))

/-! Machine/Context. -/

theorem Canon.ctxGo {op : Nat} : Canon (s.ctxGo op) := by
  unfold State.ctxGo
  dsimp only
  split
  · exact h.ctxRefuse
  · exact .ite h.ctxRun h.frame

theorem Canon.execCtxClose {m : Master} : CanonNext (execCtxClose m s) := .next (h.lk (fun _ hz => hz.ctxGo))

theorem Canon.execCtxPark {m : Master} : CanonNext (execCtxPark m s) := .next (h.lk (fun _ hz => hz.ctxGo))

theorem Canon.execCtxUnpark {m : Master} : CanonNext (execCtxUnpark m s) := .next (h.lk (fun _ hz => hz.ctxGo))

theorem Canon.execCtxSetQuota {m : Master} : CanonNext (execCtxSetQuota m s) := .next (h.lk (fun _ hz => hz.ctxGo))

theorem Canon.execCtxGrant {m : Master} : CanonNext (execCtxGrant m s) := .next (h.lk (fun _ hz => hz.ctxGo))

theorem Canon.execCtxReturn {m : Master} : CanonNext (execCtxReturn m s) := .next (h.lk (fun _ hz => hz.ctxGo))

theorem Canon.execCtxGrantKey {m : Master} : CanonNext (execCtxGrantKey m s) := .next (h.lk (fun _ hz => hz.ctxGo))

theorem Canon.execCtxReturnKey {m : Master} : CanonNext (execCtxReturnKey m s) := .next (h.lk (fun _ hz => hz.ctxGo))

theorem Canon.zeroUndo {cap : Bool} {a n : Nat} : Canon (s.zeroUndo cap a n) := h.mapCores (fun _ _ => by rfl)

theorem Canon.zeroBytes {cap : Bool} {a n : Nat} : Canon (s.zeroBytes cap a n) := by
  unfold State.zeroBytes
  extract_lets z g m m1
  have hz : Canon z := h.zeroUndo
  have hdev : m1.dev = z.mem.dev := by
    unfold m1
    split
    · exact MemState.healLines_dev ..
    · split <;> exact MemState.healLines_dev ..
  have hcap : m1.cap = z.mem.cap := by
    unfold m1
    split
    · exact MemState.healLines_cap ..
    · split <;> exact MemState.healLines_cap ..
  have wfDev : Memory.wf m1.dev = true := hdev ▸ hz.memories.device
  have wfCap : Memory.wf m1.cap = true := hcap ▸ hz.memories.capacity
  refine hz.withMem ?_ ?_
  · split
    · exact wfDev
    · exact Store.wf_clearRange _ _ _ _ wfDev
  · split
    · exact Store.wf_clearRange _ _ _ _ wfCap
    · exact wfCap

theorem Canon.zeroEnd {cap : Bool} {p : Nat} : Canon (s.zeroEnd cap p) := h.frame.cnt.foldl (fun _ hz _ => hz.finishTeardown)

theorem Canon.zeroAt {cap : Bool} {cur : Option (Nat × Nat)} {n : Nat} : Canon (s.zeroAt cap cur n) := .ite h.frame h.frame

theorem Canon.zeroTurn {cap : Bool} {p done : Nat} : Canon (s.zeroTurn cap p done) := .ite h.zeroBytes.zeroAt h.zeroBytes.zeroAt.zeroEnd

theorem Canon.zeroSpace {cap : Bool} : Canon (s.zeroSpace cap) := by
  unfold State.zeroSpace
  split
  · exact h
  · exact .ite h h.zeroTurn

theorem Canon.zeroCompare : Canon s.zeroCompare := by
  unfold State.zeroCompare
  split
  · exact h
  · exact .raiseHw (.ctxLog (h.takeSlip.of_snd ‹_›))

theorem Canon.execZeroPage : CanonNext (execZeroPage s) := .next (.ite h h.zeroCompare.zeroSpace.zeroSpace)

theorem Canon.execQuarantineEnd {id : Fin 1024} : CanonNext (execQuarantineEnd id s) := .next (.ite h h.elapseTo.setCtx.finishTeardown)

/-! Machine/Flowstone. -/

theorem Canon.trcChain {ty c : Nat} {q : ChainCmd} {squashed : Bool} : Canon (s.trcChain ty c q squashed) := h.trcCmd

theorem Canon.popChain {c : Nat} : Canon (s.popChain c) := h.modCore (fun _ => by rfl)

theorem Canon.addChainRun {c : Nat} {r : ChainRun} : Canon (s.addChainRun c r) := (h.modCore (fun _ => by rfl)).settleFls

theorem Canon.setDue {c : Nat} {due : List DueWrite} {past : List (Nat × Nat × Wide)} : Canon (s.setDue c due past) :=
  h.modCore (fun _ => by rfl)

theorem Canon.startRun {c : Nat} {q : ChainCmd} : Canon (s.startRun c q) := by
  unfold State.startRun
  extract_lets _ _ _ _ _ s1 _ _ _ b r _ _ s2
  have h1 : Canon s1 := .ite h (h.setCore (by rfl))
  have hb : Canon b.1 := h1.stageErrs
  have hr : Canon r.1 := hb.chainBlocks
  have h2 : Canon s2 := hr.setDue
  split
  · exact h2.raiseFlsErrs.addChainRun
  · split
    · exact h2.flushDue.flsCounts.raiseFlsErrs.chainEnd
    · exact h2.raiseFlsErrs.addChainRun.chainEnd

theorem Canon.resumeRun {c i : Nat} : Canon (s.resumeRun c i) := by
  unfold State.resumeRun
  dsimp only
  split
  · exact h
  · split
    · exact h
    · split
      · exact h.chainBlocks.setDue.raiseFlsErrs.flsCounts.modCore (fun _ => by rfl)
      · exact (h.chainBlocks.setDue.modCore (fun _ => by rfl)).flushDue.flsCounts.raiseFlsErrs.chainEnd

theorem Canon.resumeFls {n c : Nat} : Canon (State.resumeFls n s c) := by
  induction n generalizing s with
  | zero => exact h
  | succ n ih =>
    unfold State.resumeFls
    split
    · exact h
    · exact ih h.resumeRun

theorem Canon.carryOn {c : Nat} : Canon (s.carryOn c) := h.resumeFls

theorem Canon.execRun {c : Fin 256} : CanonNext (execRun c s) := by
  unfold Machine.execRun
  dsimp only
  split
  · exact .next (.ite h.carryOn h)
  · exact .ite (.next (.checkChainHead (.startRun (.trcChain (.popChain (.ite h.carryOn h)))))) (.next (.flsStall (.ite h.carryOn h)))

theorem Canon.execLdtab {c : Fin 256} : CanonNext (execLdtab c s) := by
  unfold Machine.execLdtab
  split
  · exact .next h
  · exact .next (h.popChain.trcChain.cmRead (fun _ hz => hz.addChainRun.checkChainHead))

theorem Canon.flsWritePoint {c i : Nat} : Canon (s.flsWritePoint c i) := by
  unfold State.flsWritePoint
  split
  · exact h
  · dsimp only
    split
    · exact h.modCore (fun _ => by rfl)
    · exact (h.modCore (fun _ => by rfl)).missBinding.unresolved

theorem Canon.handSummary {c : Nat} {q : ChainCmd} {m : ChainSum} : Canon (s.handSummary c q m) := by
  unfold State.handSummary
  extract_lets _ _ s' s1 s2
  have h' : Canon s' := .ite h.coreFault h
  have h1 : Canon s1 := h'.setThread
  have h2 : Canon s2 := by
    unfold s2
    split
    · exact h1.amaxHand
    · exact h1
  split
  · exact h2.absurd
  · exact h2

theorem Canon.dropRun {c : Nat} : Canon (s.dropRun c) := h.modCore (fun _ => by rfl)

theorem Canon.execLdtabDone {c : Fin 256} : CanonNext (execLdtabDone c s) := by
  unfold Machine.execLdtabDone
  split
  · exact .next h
  · extract_lets s1
    have h1 : Canon s1 := .ite h.flsWritePoint h
    split
    · exact .next h
    · extract_lets _ s2 s3 s4
      have h2 : Canon s2 := h1.dropRun.trcChain
      have h3 : Canon s3 := .ite h2.cnt (h2.modCore (fun _ => by rfl))
      have h4 : Canon s4 := .ite h3.flsFault h3
      exact .next h4.chainEnd

theorem Canon.execChainDone {c : Fin 256} : CanonNext (execChainDone c s) := by
  unfold Machine.execChainDone
  split
  · exact .next h
  · split
    · exact .next h
    · extract_lets s1
      have h1 : Canon s1 := h.flsWritePoint.carryOn
      split
      · exact .next h1
      · extract_lets s2
        have h2 : Canon s2 := h1.flushDue.dropRun.trcChain
        split
        · exact .next h2.handSummary.chainEnd
        · exact .next h2.cnt.chainEnd

theorem Canon.execWritePoint {c : Fin 256} {u : CmdUnit} : CanonNext (execWritePoint c u s) := .ite (.next h) (by
    dsimp only
    split
    · exact .next (by
          split
          · exact h.arrWritePoint
          · exact h)
    · exact .next (by
          split
          · exact h.arrWritePoint
          · exact h)
    · split
      · exact .next h.flsWritePoint
      · exact .next h)

/-! Machine/Tick. -/

theorem Canon.tckLog {cause port : Nat} : Canon (s.tckLog cause port) := h.logErr

theorem Canon.stepTick {n : Int} : Canon (s.stepTick n) := by
  unfold State.stepTick
  extract_lets v w
  have hw : w < 2 ^ 68 := Nat.mod_lt _ (by decide)
  have moved : Canon { s with tick := w / 16, frac := w % 16 } := h.withTick (by omega) (Nat.mod_lt _ (by decide))
  exact moved.cnt.setInt

theorem Canon.slewTick {n : Int} : Canon (s.slewTick n) := .ite h h.frame

theorem Canon.tckFilter : Canon s.tckFilter := h.free.frame

theorem Canon.tckEnter {a : Align} : Canon (s.tckEnter a) := h.frame

theorem Canon.tckCorrect : Canon s.tckCorrect := .ite (.ite h h.frame.stepTick) h.slewTick

theorem Canon.tckAligned : Canon s.tckAligned := by
  unfold State.tckAligned
  exact h.free.frame.setInt

theorem Canon.tckJudge {a : Int} {port : Nat} : Canon (s.tckJudge a port) := by
  unfold State.tckJudge
  dsimp only
  split
  · exact .ite h.frame.tckEnter.tckLog h.frame
  · exact .ite h.frame.tckAligned h.frame
  · exact .ite h.frame.tckAligned h.frame
  · exact h.frame

theorem Canon.tckExchange {port t1 t2 t3 t4 : Nat} {retx : Bool} : Canon (s.tckExchange port t1 t2 t3 t4 retx) :=
  .ite (.ite h.cnt.tckLog h.cnt) h.frame.cnt.tckFilter.tckJudge.tckCorrect

theorem Canon.tckReparent {backup : Bool} : Canon (s.tckReparent backup) := h.frame.cnt.setInt

theorem Canon.takeExchange {p : Nat} {e : Exchange} : Canon (s.takeExchange p e).1 := by
  unfold State.takeExchange
  dsimp only
  split
  · exact .setOport (.ite h h.elapseTo)
  · exact h

theorem Canon.execTickExchange {t1 t2 t3 t4 : Nat} {retx : Bool} : CanonNext (execTickExchange t1 t2 t3 t4 retx s) := by
  unfold Machine.execTickExchange
  split
  · exact .next h
  · exact .next h
  · exact .next h
  · extract_lets r
    have hr : Canon r.1 := h.takeExchange
    exact .next (.tckExchange (.ite hr.tckEnter hr))

theorem Canon.execTickHoldover : CanonNext (execTickHoldover s) := by
  unfold Machine.execTickHoldover
  split
  · exact .next h
  · split
    · exact .next h
    · extract_lets s1 _ _ s2
      have h1 : Canon s1 := h.elapseTo
      have h2 : Canon s2 := h1.frame.tckLog.setInt
      split
      · exact .next h1.frame.tckLog
      · split
        · exact .next h2.tckReparent
        · exact .next h2

theorem Canon.execTickLost : CanonNext (execTickLost s) := by
  unfold Machine.execTickLost
  split
  · exact .next h
  · extract_lets s1 s2
    have h1 : Canon s1 := h.elapseTo.tckEnter
    have h2 : Canon s2 := h1.tckLog.setInt
    split
    · exact .next h2.raiseWithdraw
    · exact .next h2.raiseWithdraw
    · exact .next h2.raiseWithdraw
    · exact .next h2.raiseWithdraw
    · exact .next h2.lostReturns
    · exact .next h2.lostReturns
    · exact .next h2

theorem Canon.writeTckCfg {v : Nat} : Canon (s.writeTckCfg v) := by
  unfold State.writeTckCfg
  extract_lets _ _ _ s1 _ _ _ s2 s3
  have h1 : Canon s1 := h.setReg
  have h2 : Canon s2 := .ite h1.frame h1
  have h3 : Canon s3 := .ite h2.tckReparent h2
  split
  · exact h1.frame
  · split
    · exact h3
    · exact h3.frame
    · exact h3.tckEnter
    · split
      · exact h3.frame.setInt
      · exact h3
    · exact h3

theorem Canon.execTckReparent {m : Master} {v : Word} : CanonNext (execTckReparent m v s) := .next (h.lk (fun _ hz => hz.writeTckCfg))

end

end Sys2Proof.Machine
end

section
/-! PROOFS. The fabric, the links and the optical ports keep the memories canonical and the tick in range. -/

namespace Sys2Proof.Machine

open Sys2Proof

section
variable {s : State} (h : Canon s)
include h

/-! Machine/ViaductOps. -/

theorem Canon.occTouch {p : Nat} : Canon (s.occTouch p) := h.setVport

theorem Canon.bufferA {f : AFlit} : Canon (s.bufferA f) := h.occTouch.frame.occTouch

theorem Canon.unbufferA {f : AFlit} : Canon (s.unbufferA f) := h.occTouch.frame.freeCredit

theorem Canon.delivered {p x : Nat} {r : ColRun} : Canon (s.delivered p x r) := by
  unfold State.delivered
  extract_lets f
  have hf : Canon f.2 := by
    unfold f
    split
    · exact h
    · exact h.free
  exact hf.colDelivery.keyRemote

theorem Canon.dropCtx {x : Nat} : Canon (s.dropCtx x) := .ite h.cnt.setCtx h.cnt

theorem Canon.deliver {p : Nat} {f : Flit} : Canon (s.deliver p f) :=
  .ite h.dropCtx (.ite h.cnt (.ite h.vdtFault (.ite h.cnt64.cmPut.frame.delivered h.cnt64.cmPut.frame)))

theorem Canon.deliverA {n p : Nat} {f : Flit} : Canon (State.deliverA n s p f) := by
  induction n generalizing s p f with
  | zero => exact h.deliver
  | succ n ih =>
    unfold State.deliverA
    extract_lets key s1 next _ s2 due
    have h2 : Canon s2 := h.deliver.frame
    split
    · exact ih h2.frame
    · split
      · exact ih h2.unbufferA
      · exact h2

theorem Canon.gapCheck {key : Nat} {moved : Bool} : Canon (s.gapCheck key moved) := h.frame

theorem Canon.arriveA {p cls : Nat} {f : Flit} : Canon (s.arriveA p cls f) :=
  .ite h.freeCredit.cnt (.ite h.freeCredit.deliverA.gapCheck (.ite h.freeCredit.frame.gapCheck h.bufferA.gapCheck))

theorem Canon.sendHop {p t pos l cls : Nat} {sprayed : Bool} {f : Flit} : Canon (s.sendHop p t pos l cls sprayed f) :=
  .ite h.spend.sendFlit.frame h.spend.sendFlit

/-! Machine/Viaduct. -/

theorem Canon.engineTake {p : Nat} {f : Flit} : Canon (s.engineTake p f) := by
  unfold State.engineTake
  dsimp only
  split
  · exact h.takeCloseFlit
  · exact .ite h.takeSeepFlit h.cnt
  · exact h.takeBuddyFlit
  · exact h.takeStateFlit
  · exact h.takeSealFlit
  · exact h.cnt

theorem Canon.enqueueS {p came arr : Nat} {f : Flit} : Canon (s.enqueueS p came arr f) := .ite h.slotError h.setVport

theorem Canon.noBuffer {p cls x : Nat} : Canon (s.noBuffer p cls x) := .ite h.freeCredit h

theorem Canon.vdtCompare : Canon s.vdtCompare := by
  unfold State.vdtCompare
  split
  · exact h
  · exact .ite (.vdtFault (.cnt (h.takeSlip.of_snd ‹_›))) (h.takeSlip.of_snd ‹_›)

theorem Canon.takeFlit {p came arr x cls : Nat} {body : List Byte} : Canon (s.takeFlit p came arr x cls body) :=
  .ite h (.ite h.cnt (.ite h.cnt (.ite h.noBuffer.dropCtx (.ite (.ite h.noBuffer.engineTake (.ite h.arriveA h.deliver)) (.ite h.bufferA
      h.enqueueS)))))

theorem Canon.execFlitReceive {p : Fin 20} {head : FlitHead} {body : List Byte} : CanonNext (execFlitReceive p head body s) :=
  .next h.vdtCompare.takeFlit

theorem Canon.takeLocal {n p t key ctx idx j : Nat} : Canon (State.takeLocal n s p t key ctx idx j).s := by
  induction n generalizing s j with
  | zero => exact h
  | succ n ih =>
    unfold State.takeLocal
    extract_lets pos
    split
    · exact h.slotError
    · split
      · dsimp only
        exact h.vdtFault
      · split
        · exact h
        · exact ih h.frame.sendFlit.colSent

theorem Canon.takeThrough {n p t q ctx idx j : Nat} : Canon (State.takeThrough n s p t q ctx idx j).s := by
  induction n generalizing s j with
  | zero => exact h
  | succ n ih =>
    unfold State.takeThrough
    extract_lets v pos
    split
    · exact h.setVport.slotError
    · extract_lets
      split
      · exact h.setVport.slotError
      · split
        · dsimp only
          exact h.setVport.vdtFault
        · exact ih h.setVport.sendFlit.cnt64

theorem Canon.sendSpare {p t pos : Nat} {y : State} (hy : s.sendSpare p t pos = some y) : Canon y := by
  unfold State.sendSpare at hy
  extract_lets at hy
  split at hy
  · split at hy
    · cases hy; exact h.setVport.spend.sendFlit
    · cases hy
  · split at hy
    · split at hy
      · cases hy; exact h.unbufferA.sendHop.cnt64
      · cases hy
    · split at hy
      · cases hy; exact h.frame.sendHop.colSent
      · cases hy
    · cases hy

theorem Canon.spareFrom {p t : Nat} {l : List Nat} : Canon (s.spareFrom p t l) := by
  refine h.foldl (fun z hz pos => ?_)
  cases hy : z.sendSpare p t pos with
  | none => exact hz
  | some y => exact hz.sendSpare hy

theorem Canon.discardA : Canon s.discardA := h.foldl (fun _ hz _ => hz.unbufferA.cnt)

theorem Canon.discardLocal : Canon s.discardLocal := h.foldl (fun _ hz _ => hz.frame.cnt)

theorem Canon.slotEntryRun {p l t : Nat} : Canon (s.slotEntryRun p l t).s := by
  unfold State.slotEntryRun
  extract_lets
  split
  · exact h
  · split
    · split
      · exact h.setVport
      · exact h
    · split
      · exact h.takeThrough
      · exact h.takeLocal

theorem Canon.execReorderTimeout {src : Nat} {vc : Fin 8} : CanonNext (execReorderTimeout src vc s) := by
  unfold Machine.execReorderTimeout
  extract_lets
  split
  · exact .next h
  · extract_lets s1
    have h1 : Canon s1 := h.elapseTo
    exact .next h1.frame.vdtFault

/-! Machine/Link. -/

theorem Canon.creditContent {p t : Nat} {retx : Option Nat} : Canon (s.creditContent p t retx).2 := by
  unfold State.creditContent
  dsimp only
  split
  · exact h.setOport
  · exact h.setOport
  · exact h.setOport

theorem Canon.exchangeContent {p t : Nat} : Canon (s.exchangeContent p t).2 := by
  unfold State.exchangeContent
  dsimp only
  split
  · split
    · exact h.setOport
    · exact h.setOport
  · exact h.setOport

theorem Canon.controlContent {p t c : Nat} : Canon (s.controlContent p t c).2 := by
  unfold State.controlContent
  dsimp only
  split
  · exact h
  · exact h
  · exact h.exchangeContent
  · exact h
  · split
    · exact h
    · split
      · exact h
      · split
        · exact h
        · exact h

theorem Canon.framingContent {p t : Nat} {retx : Option Nat} : Canon (s.framingContent p t retx).2 := by
  unfold State.framingContent
  dsimp only
  split
  · exact h.controlContent
  · exact h.creditContent

theorem Canon.sendHalf {p t : Nat} {flits : List (Nat × Flit)} {retx : Option Nat} : Canon (s.sendHalf p t flits retx) :=
  .ite h.framingContent.emit.setOport h.framingContent.emit

theorem Canon.resent {p t seq : Nat} : Canon (s.resent p t seq) := h.setOport

theorem Canon.transmitHalf {p t : Nat} {again : List Nat} {i : Nat} : Canon (s.transmitHalf p t again i) := by
  unfold State.transmitHalf
  split
  · exact h.resent.sendHalf
  · exact h.sendHalf

theorem Canon.fillSlot {p l t : Nat} : Canon (s.fillSlot p l t).1 := h.discardA.discardLocal.slotEntryRun.spareFrom

theorem Canon.transmitSlot {p t : Nat} : Canon (s.transmitSlot p t) := by
  unfold State.transmitSlot
  extract_lets r
  have hr : Canon r.1 := by
    unfold r
    split
    · split
      · exact h.fillSlot
      · exact h
    · exact h
  exact hr.transmitHalf.transmitHalf

theorem Canon.execSlotTransmit {p : Fin 20} : CanonNext (execSlotTransmit p s) :=
  .next (.ite h h.elapseTo.setVport.vdtCompare.transmitSlot)

/-! Machine/TrestleOps. -/

theorem Canon.trsLog {p cls cause line hseq : Nat} : Canon (s.trsLog p cls cause line hseq) := h.logErr

theorem Canon.partCheck {p : Nat} {was : Bool} : Canon (s.partCheck p was) := .refreshMask (.ite h h.setInt)

theorem Canon.setPort {p : Nat} {st : PortSt} : Canon (s.setPort p st) :=
  .ite h (.partCheck (.ite (.setInt (.frame (.ite h.setOport.setInt h.setOport))) (.ite (.setInt (.trsLog (.ite h.setOport.setInt
      h.setOport))) (.ite h.setOport.setInt h.setOport))))

theorem Canon.restartPort {p : Nat} : Canon (s.restartPort p) := h.setPort.setOport

theorem Canon.measureLines {p : Nat} : Canon (s.measureLines p) := h.frame.setOport

theorem Canon.reweigh {p : Nat} : Canon (s.reweigh p) := .ite h (.ite h.setOport (.ite h.setOport h))

theorem Canon.creditWord {p w : Nat} : Canon (s.creditWord p w) := .ite (.setOport (.ite h h.setOport.frame)) (.ite h h.setOport.frame)

theorem Canon.identify {p : Nat} : Canon (s.identify p) := .ite h (.partCheck (.ite h.setVport.setPort h.setVport))

theorem Canon.identWords {p f w0 w1 : Nat} : Canon (s.identWords p f w0 w1) := h.setOport.identify

theorem Canon.controlWord {p c w f at_ : Nat} : Canon (s.controlWord p c w f at_) := by
  unfold State.controlWord
  dsimp only
  split
  · exact h.setOport
  · split
    · exact h.setOport
    · exact h.setOport.identWords
  · exact h.setOport
  · split
    · exact h.setOport
    · exact h.setOport
  · exact .ite (.ite h.setOport.reweigh h.setOport) h.setOport

theorem Canon.badWord {p x at_ : Nat} : Canon (s.badWord p x at_) := h.setOport

theorem Canon.framingWord {p x w f at_ : Nat} : Canon (s.framingWord p x w f at_) := .ite h.badWord (.ite h.controlWord h.creditWord)

theorem Canon.cmbLog {cls cause k engines : Nat} : Canon (s.cmbLog cls cause k engines) := h.logErr

theorem Canon.measureComb {k : Nat} : Canon (s.measureComb k) := h.free.frame

theorem Canon.feedPort {loss : Bool} {p : Nat} : Canon (s.feedPort loss p) := .ite h h.setPort.setOport

theorem Canon.darkPort {p : Nat} : Canon (s.darkPort p) := .ite h h.setPort.setOport.emit

theorem Canon.setMode {m : Nat} : Canon (s.setMode m) := .ite h h.frame.setInt

theorem Canon.endFailover {f : Failover} : Canon (s.endFailover f) := h.frame.setMode

theorem Canon.moveFeeds {es : List Nat} {f : Failover} : Canon (s.moveFeeds es f) := h.frame.foldl (fun _ hz _ => hz.feedPort)

theorem Canon.darkEngines {es : List Nat} : Canon (s.darkEngines es) :=
  .ite (.setMode (h.frame.foldl (fun _ hz _ => hz.darkPort))) (h.frame.foldl (fun _ hz _ => hz.darkPort))

theorem Canon.noComb {k engines : Nat} : Canon (s.noComb k engines) := h.frame.darkEngines.cmbLog

/-! Machine/Trestle. -/

theorem Canon.trsFault {p cause hseq : Nat} : Canon (s.trsFault p cause hseq) := h.trsLog.setInt.raiseHw

theorem Canon.halfFailed {p seq cause : Nat} : Canon (s.halfFailed p seq cause) :=
  .ite (.ite h.setOport.trsFault h.setOport) (.ite h.trsFault h)

theorem Canon.halfFlitsTaken {p : Nat} {x : HalfSlot} {flits : List Flit} {back : Nat} : Canon (s.halfFlitsTaken p x flits back) :=
  h.foldl (fun _ hz _ => hz.takeFlit)

theorem Canon.execHalfSlotReceive {p : Fin 20} {x : HalfSlot} : CanonNext (execHalfSlotReceive p x s) := by
  unfold Machine.execHalfSlotReceive
  extract_lets _ _ _ _ _ _ s0 _ _ _ _ s1 _ _ slip s2 _ s3
  have h0 : Canon s0 := h.setOport
  have h1 : Canon s1 := .ite h0.setOport h0
  have hslip : Canon slip.2 := h1.takeSlip
  have h2 : Canon s2 := hslip.framingWord
  have h3 : Canon s3 := .ite h2.setOport h2
  split
  · exact .next h
  · split
    · exact .next h2
    · split
      · exact .next h2.halfFailed
      · exact .next h3.vdtCompare.halfFlitsTaken

theorem Canon.execHalfSlotRetransmit {p : Fin 20} : CanonNext (execHalfSlotRetransmit p s) := by
  unfold Machine.execHalfSlotRetransmit
  extract_lets
  split
  · exact .next h
  · split
    · exact .next h
    · extract_lets
      exact .next h.setOport

theorem Canon.execPortLeaveOff {p : Fin 20} : CanonNext (execPortLeaveOff p s) := .next (.ite h.restartPort h)

theorem Canon.bankLocked {p : Nat} {rx : Bool} : Canon (s.bankLocked p rx) := by
  unfold State.bankLocked
  extract_lets _ _ s0 s1 _ s2
  have h0 : Canon s0 := h.setOport
  have h1 : Canon s1 := .ite h0.measureLines h0
  have h2 : Canon s2 := .ite h1 h1.emit
  split
  · exact h2.setPort
  · split
    · exact h2.setPort
    · exact h2

theorem Canon.execRingsLocked {p : Fin 20} {rx found : Bool} : CanonNext (execRingsLocked p rx found s) :=
  .next (.ite h (.ite h.bankLocked h.setOport.setPort))

theorem Canon.execLightFromPeer {p : Fin 20} : CanonNext (execLightFromPeer p s) := .next (.ite h.setOport.setPort h.setOport)

theorem Canon.execHalfSlotAlignment {p : Fin 20} : CanonNext (execHalfSlotAlignment p s) := .next (.ite h.setOport h)

theorem Canon.execTrainDone {p : Fin 20} : CanonNext (execTrainDone p s) := by
  unfold Machine.execTrainDone
  extract_lets
  split
  · exact .next h.elapseTo.reweigh.setPort
  · exact .next h

theorem Canon.failLate {p : Nat} : Canon (s.failLate p) := .ite h h.elapseTo.setPort

theorem Canon.failLost {p t : Nat} : Canon (s.failLost p t) := h.elapseTo.setOport.setPort.cmbLog

theorem Canon.execPortFailTimeout {p : Fin 20} : CanonNext (execPortFailTimeout p s) := by
  unfold Machine.execPortFailTimeout
  extract_lets _ s1
  have h1 : Canon s1 := h.elapseTo
  split
  · exact .next h.failLost
  · exact .next h.failLate
  · exact .next h.failLate
  · exact .next h.failLate
  · exact .next h.failLate
  · exact .next h1.setOport.setPort
  · exact .next h

theorem Canon.execRingLoopUpdate {p : Fin 20} {rx : Bool} {u : List Int} : CanonNext (execRingLoopUpdate p rx u s) :=
  .next (.ite h (.ite h.setOport.measureLines h.setOport))

theorem Canon.execRingLockLost {p : Fin 20} {rx : Bool} {ring : Fin 32} : CanonNext (execRingLockLost p rx ring s) :=
  .next (.ite h (.ite h.setOport.trsLog.setPort h.setOport.trsLog))

theorem Canon.execTrsRelock {m : Master} {e : Fin 4} : CanonNext (execTrsRelock m e s) := .next (h.lk (fun _ hz => by
    split
    · exact hz
    · split
      · exact hz
      · exact hz.restartPort))

theorem Canon.execTrsCal {m : Master} {e : Fin 4} : CanonNext (execTrsCal m e s) := .next (h.lk (fun _ hz => by
    split
    · exact hz
    · split
      · exact hz.trsLog
      · split
        · exact hz
        · exact hz.setPort))

theorem Canon.execCalDone {p : Fin 20} {ktx krx : List Int} : CanonNext (execCalDone p ktx krx s) :=
  .next (.ite h h.setOport.restartPort.setInt)

theorem Canon.execMatrixParity {p : Fin 20} {rx inK : Bool} : CanonNext (execMatrixParity p rx inK s) :=
  .next (.ite (.setOport (.ite h.trsLog.setInt h.trsLog.setInt.setPort)) h.trsLog.setInt.setOport)

theorem Canon.execMatrixRecomputed {p : Fin 20} {rx : Bool} : CanonNext (execMatrixRecomputed p rx s) := .next (.ite h.setOport h)

theorem Canon.changeReady : Canon s.changeReady := by
  unfold State.changeReady
  split
  · exact .ite h.frame.endFailover (.ite h.frame.moveFeeds h)
  · exact h

theorem Canon.execCombLocked {k : Fin 2} : CanonNext (execCombLocked k s) := .next (.ite h h.frame.measureComb.changeReady)

theorem Canon.failoverTo {other : Nat} {es : List Nat} : Canon (s.failoverTo other es) := h.moveFeeds

theorem Canon.execCombLoss {k : Fin 2} {failed : Bool} : CanonNext (execCombLoss k failed s) :=
  .next (.ite (.ite h.frame.measureComb h) (.ite h.frame.measureComb.cnt.setInt.cmbLog.noComb.raiseHw (.ite
      h.frame.measureComb.cnt.setInt.cmbLog.failoverTo.raiseWith h.frame.measureComb.cnt.setInt.cmbLog.darkEngines.raiseHw)))

theorem Canon.feedSettled {p : Nat} : Canon (s.feedSettled p) := by
  unfold State.feedSettled
  dsimp only
  split
  · exact h
  · exact .ite h.setOport (.ite h.setOport.setPort h.setOport.setPort)

theorem Canon.execFailoverDone : CanonNext (execFailoverDone s) := by
  unfold Machine.execFailoverDone
  split
  · exact .next h
  · extract_lets s1 s2 s3
    have h1 : Canon s1 := h.elapseTo
    have h2 : Canon s2 := .endFailover (h1.foldl (fun _ hz _ => hz.feedSettled))
    have h3 : Canon s3 := h2.measureComb.measureComb
    exact .next (.changeReady (.ite h3.cnt.setInt h3))

theorem Canon.execFailoverTimeout : CanonNext (execFailoverTimeout s) := by
  unfold Machine.execFailoverTimeout
  extract_lets s1
  have h1 : Canon s1 := h.foldl (fun _ hz _ => hz.failLost)
  split
  · split
    · exact .next h1.elapseTo.endFailover.changeReady
    · exact .next h1
  · exact .next h1

theorem Canon.warmComb {feeds k : Nat} : Canon (s.warmComb feeds k) := .ite h.frame h

theorem Canon.cmbChange {mode : Nat} : Canon (s.cmbChange mode) := .ite h.cmbLog h.frame.warmComb.warmComb.changeReady

theorem Canon.execCmbPaired {m : Master} : CanonNext (execCmbPaired m s) := .next (h.lk (fun _ hz => hz.cmbChange))

theorem Canon.execCmbSingleK0 {m : Master} : CanonNext (execCmbSingleK0 m s) := .next (h.lk (fun _ hz => hz.cmbChange))

theorem Canon.execCmbSingleK1 {m : Master} : CanonNext (execCmbSingleK1 m s) := .next (h.lk (fun _ hz => hz.cmbChange))

end

end Sys2Proof.Machine
end

section
/-! PROOFS. The update unit, the host interface, power, the Seep's commands and page locks keep the memories canonical
and the tick in range. -/

namespace Sys2Proof.Machine

open Sys2Proof

section
variable {s : State} (h : Canon s)
include h

/-! Machine/Update. -/

theorem Canon.execSweepStart {g : Fin 1024} : CanonNext (execSweepStart g s) :=
  .next (.ite h (h.foldl (fun _ hz _ => hz.modEng.sweepEnd)))

theorem Canon.withholdBlock {e v i : Nat} {skip : Bool} : Canon (s.withholdBlock e v i skip) :=
  .sweepEnd (.countWithheld (.ite h.setVersion h))

theorem Canon.execBlockStart {e : Fin 8} : CanonNext (execBlockStart e s) := .next (.ite h (by
    split
    · exact h.sweepEnd
    · exact h
    · exact .ite h.updFault (.ite h.elapseTo.modEng.withholdBlock (.ite h.elapseTo.modEng.versionRead.withholdBlock
        h.elapseTo.modEng.versionRead.updReadAll.modEng))))

theorem Canon.lateOperand {e k : Nat} : Canon (s.lateOperand e k) := .ite h.blockFault h.free.elapse.modEng

theorem Canon.execUpdLd {e : Fin 8} {late : Bool} : CanonNext (execUpdLd e late s) :=
  .next (h.updDo (fun _ hz _ _ => .readFault (.ite hz.lateOperand hz) (fun _ hy => hy.setEng)))

theorem Canon.execUpdSt {e : Fin 8} : CanonNext (execUpdSt e s) := .next (h.updDo (fun _ hz _ _ => .ite hz.bankFault hz.setEng))

theorem Canon.execUpdAdd {e : Fin 8} : CanonNext (execUpdAdd e s) := .next h.updCalc

theorem Canon.execUpdSub {e : Fin 8} : CanonNext (execUpdSub e s) := .next h.updCalc

theorem Canon.execUpdMul {e : Fin 8} : CanonNext (execUpdMul e s) := .next h.updCalc

theorem Canon.execUpdMulk {e : Fin 8} : CanonNext (execUpdMulk e s) := .next h.updCalcK

theorem Canon.execUpdAddk {e : Fin 8} : CanonNext (execUpdAddk e s) := .next h.updCalcK

theorem Canon.execUpdShr {e : Fin 8} : CanonNext (execUpdShr e s) := .next h.updCalc

theorem Canon.execUpdShl {e : Fin 8} : CanonNext (execUpdShl e s) := .next h.updCalc

theorem Canon.execUpdMin {e : Fin 8} : CanonNext (execUpdMin e s) := .next h.updCalc

theorem Canon.execUpdMax {e : Fin 8} : CanonNext (execUpdMax e s) := .next h.updCalc

theorem Canon.execUpdAbs {e : Fin 8} : CanonNext (execUpdAbs e s) := .next h.updCalc

theorem Canon.execUpdNeg {e : Fin 8} : CanonNext (execUpdNeg e s) := .next h.updCalc

theorem Canon.execUpdCmpgt {e : Fin 8} : CanonNext (execUpdCmpgt e s) := .next h.updExec

theorem Canon.execUpdSel {e : Fin 8} : CanonNext (execUpdSel e s) := .next h.updExec

theorem Canon.execUpdLut {e : Fin 8} : CanonNext (execUpdLut e s) := .next h.updCalc

theorem Canon.execUpdClip {e : Fin 8} : CanonNext (execUpdClip e s) :=
  .next (h.updDo (fun _ hz _ _ => .ite hz.updConst.setEng hz.updConst.freeLanes.setEng))

theorem Canon.execUpdEnd {e : Fin 8} : CanonNext (execUpdEnd e s) := .next (h.updDo (fun _ hz _ _ => by
    dsimp only
    split
    · exact hz.readFault (fun _ hy => hy.modEng)
    · exact hz.modEng))

theorem Canon.withheldTail {e : Nat} {b : UpdBlock} : Canon (s.withheldTail e b) := h.modEng.countWithheld.sweepEnd

theorem Canon.execBlockCommit {e : Fin 8} : CanonNext (execBlockCommit e s) := by
  unfold Machine.execBlockCommit
  split
  · extract_lets s1
    have h1 : Canon s1 := h.elapseTo
    split
    · exact .next h1.commitUpd
    · exact .next h1.withheldTail
  · exact .next h

theorem Canon.execJournalReplay {e : Fin 8} : CanonNext (execJournalReplay e s) := .next (.ite h.replayJournal h)

theorem Canon.seepFlit {cfg p : Nat} {body : List Byte} : Canon (s.seepFlit cfg p body) := h.frame.queueXfer

theorem Canon.execSeepSend : CanonNext (execSeepSend s) := .next (.ite h (.ite h.seepLog h.ringGet.seepFlit))

theorem Canon.execSeepAck {n : Nat} : CanonNext (execSeepAck n s) := .next h.seepAcked

theorem Canon.execSeepResend : CanonNext (execSeepResend s) := .next (.ite h h.elapseTo.frame.cnt.seepLog.setInt)

theorem Canon.execSeepGap : CanonNext (execSeepGap s) := .next h.seepGapEnd

/-! Machine/Host. -/

theorem Canon.execHifMbxDb {m : Master} {seq : BitVec 16} : CanonNext (execHifMbxDb m seq s) := .next (.ite h.mbxRing h)

theorem Canon.execHifMbxAck {m : Master} {seq : BitVec 16} : CanonNext (execHifMbxAck m seq s) := .next (.ite h.mbxAck h)

theorem Canon.execMbxDone : CanonNext (execMbxDone s) := .next h.mbxDone

theorem Canon.execShape : CanonNext (execShape s) := by
  unfold Machine.execShape
  split
  · exact .next h
  · exact .next h.mbxReply

theorem Canon.execEcho : CanonNext (execEcho s) := by
  unfold Machine.execEcho
  split
  · exact .next h
  · exact .next h.mbxReply

theorem Canon.setSlot {k : Nat} {x : KeySlot} : Canon (s.setSlot k x) := h.frame

theorem Canon.execKeyRotate : CanonNext (execKeyRotate s) := by
  unfold Machine.execKeyRotate
  split
  · exact .next h
  · extract_lets
    split
    · exact .next h.logErr.mbxReply
    · exact .next h.setSlot.setInt.mbxReply

theorem Canon.mgtLog {cause : Nat} {f : Frame} : Canon (s.mgtLog cause f) := h.logErr

theorem Canon.reserve {resv n : Nat} : Canon (reserve s resv n).2 := by
  unfold Machine.reserve
  split
  · exact h
  · exact h.free

theorem Canon.collide : Canon s.collide.1 := by
  unfold State.collide
  split
  · exact h
  · exact h.free.cnt

theorem Canon.sendFrame {k mac : Nat} {body : List Byte} : Canon (s.sendFrame k mac body) := by
  unfold State.sendFrame
  dsimp only
  split
  · exact h.reserve.logErr
  · exact .ite h.reserve.setSlot.collide.emit h.reserve.setSlot.collide

theorem Canon.answerFrame {f : Frame} {run : State → Frame → Reply} (hrun : ∀ z, Canon z → ∀ x, Canon (run z x).1) :
    Canon (s.answerFrame f run) :=
  .ite h.cnt.sendFrame (.sendFrame (.setSlot (hrun _ h _)))

theorem Canon.acceptFrame {f : Frame} {serve : State → State} (hserve : ∀ z, Canon z → Canon (serve z)) :
    Canon (s.acceptFrame f serve) := by
  unfold State.acceptFrame
  extract_lets _ _ _ r
  have hr : Canon r.2 := h.reserve
  split
  · exact h.cnt.mgtLog.setInt
  · split
    · exact hr.mgtLog
    · exact hserve _ hr.setSlot.cnt

theorem Canon.takeFrame {f : Frame} {serve : State → State} (hserve : ∀ z, Canon z → Canon (serve z)) : Canon (s.takeFrame f serve) :=
  .ite h (.ite h.cnt (.ite h (.ite h.cnt.mgtLog.setInt (h.acceptFrame (fun _ hz => hserve _ hz)))))

theorem Canon.malformed {f : Frame} : Canon (s.malformed f).1 := h.mgtLog

theorem Canon.runMbx {f : Frame} : Canon (runMbx s f).1 := by
  unfold Machine.runMbx
  dsimp only
  split
  · exact h.malformed
  · split
    · exact h.mbxRing
    · exact h.mbxRing

theorem Canon.runMbxAck {f : Frame} : Canon (runMbxAck s f).1 := by
  unfold Machine.runMbxAck
  dsimp only
  split
  · exact h.mbxAck
  · exact h.mbxAck

theorem Canon.runMbxPoll {_f : Frame} : Canon (runMbxPoll s _f).1 := h

theorem Canon.execMbx {f : Frame} : CanonNext (execMbx f s) :=
  .next (.ite (h.takeFrame (fun _ hz => hz.answerFrame (fun _ hy _ => hy.runMbx))) h)

theorem Canon.execMbxAck {f : Frame} : CanonNext (execMbxAck f s) :=
  .next (.ite (h.takeFrame (fun _ hz => hz.answerFrame (fun _ hy _ => hy.runMbxAck))) h)

theorem Canon.execMbxPoll {f : Frame} : CanonNext (execMbxPoll f s) :=
  .next (.ite (h.takeFrame (fun _ hz => hz.answerFrame (fun _ hy _ => hy.runMbxPoll))) h)

theorem Canon.execForeignFrame {f : Frame} : CanonNext (execForeignFrame f s) := .next (.ite (h.takeFrame (fun _ hz => hz.mgtLog)) h)

theorem Canon.execNotify {b : Fin 32} : CanonNext (execNotify b s) := by
  unfold Machine.execNotify
  extract_lets _ s1 _ s2
  have h1 : Canon s1 := by
    unfold s1
    split
    · exact h
    · exact h.elapseTo
  have h2 : Canon s2 := h1.frame
  split
  · exact .next h
  · exact .next h2.cnt.sendFrame

theorem Canon.plcaStart : Canon s.plcaStart := h.free.frame

theorem Canon.execMgtLinkChange {up : Bool} : CanonNext (execMgtLinkChange up s) := .next (.ite h h.frame.plcaStart.setInt)

/-! Machine/Power. -/

theorem Canon.clkLog {cls cause die : Nat} : Canon (s.clkLog cls cause die) := h.logErr

theorem Canon.selectRef : Canon s.selectRef := .ite h (.ite h.frame.clkLog h.frame.cnt.clkLog.setInt)

theorem Canon.qualify {was now : Bool} {cause : Nat} : Canon (s.qualify was now cause) := .ite h.setInt (.ite h.clkLog.setInt h)

theorem Canon.measure : Canon s.measure := .ite h (h.free.free.frame.foldl (fun _ hz _ => hz.free.frame))

theorem Canon.execQualWindow {refx xrc refrc : Nat} : CanonNext (execQualWindow refx xrc refrc s) :=
  .next (.measure (.ite h.frame.cnt.qualify.qualify.qualify.selectRef h.frame.cnt.qualify.qualify.qualify.selectRef.frame))

theorem Canon.execPllUnlock {pll : Fin 9} : CanonNext (execPllUnlock pll s) :=
  .next (.ite h.frame.cnt.clkLog.setInt.raiseHw h.frame.cnt.clkLog.setInt)

theorem Canon.pwrLog {cause rail : Nat} : Canon (s.pwrLog cause rail) := h.logErr

theorem Canon.execPowerAlert {watts tmax : Nat} : CanonNext (execPowerAlert watts tmax s) :=
  .next (.ite h h.frame.cnt.pwrLog.setInt.emit)

theorem Canon.execAlertEnd : CanonNext (execAlertEnd s) := .next (.ite h (.ite h.frame h.frame.emit))

theorem Canon.govern {p gap : Nat} : Canon (s.govern p gap) := by
  unfold State.govern
  exact h.elapseTo.elapseTo.seqAgrees.frame.pointTo.cnt.setInt

theorem Canon.execGovernorStep : CanonNext (execGovernorStep s) := .next (.ite h (.ite (.ite h h.govern) (.ite h.govern h)))

theorem Canon.rstLog {cls cause die core : Nat} : Canon (s.rstLog cls cause die core) := h.logErr

theorem Canon.execProgressExpiry {c : Fin 256} {t : Fin 16} : CanonNext (execProgressExpiry c t s) :=
  .next (.ite h (.ite h.elapse.setThread.cnt.setInt.coreFault.setInt h.elapse.setThread.cnt.setInt.coreFault))

theorem Canon.coreBarks {c die : Nat} : Canon (s.coreBarks c die) :=
  .ite h.frame.cnt.rstLog.setInt.raiseSched h.frame.cnt.rstLog.setInt.raiseHw

theorem Canon.execCoreWatchdog {c : Fin 256} : CanonNext (execCoreWatchdog c s) :=
  .next (.ite h (h.elapse.modCore (fun _ => by rfl)).coreBarks)

theorem Canon.execPartitionWatchdog : CanonNext (execPartitionWatchdog s) :=
  .next (.ite h (h.elapse.frameMem (by rfl) (by rfl)).cnt.rstLog.setInt.raiseStop)

/-! Machine/Counters. -/

theorem Canon.drawCycles {n : Nat} : Canon (s.drawCycles n).1 := by
  unfold State.drawCycles
  split
  · exact h
  · exact h.free

theorem Canon.meterPage {page : Nat} : Canon (s.meterPage page) := by
  unfold State.meterPage
  dsimp only
  split
  · exact (h.drawCycles.drawCycles.modCore (fun _ => by rfl)).cnt64.cnt64
  · exact (h.drawCycles.modCore (fun _ => by rfl)).cnt64
  · exact (h.drawCycles.modCore (fun _ => by rfl)).cnt
  · exact h

theorem Canon.regDraw {page o : Nat} : Canon (s.regDraw page o).1 := h.meterPage

theorem Canon.counterDraw {page : Nat} {c : Nat × Bool} : Canon (s.counterDraw page c).1 := by
  unfold State.counterDraw
  extract_lets lo hi
  have hlo : Canon lo.1 := h.regDraw
  have hhi : Canon hi.1 := hlo.regDraw
  split
  · exact hhi
  · exact hlo

theorem Canon.clearKept {page : Nat} : Canon (s.clearKept page) := by
  unfold State.clearKept
  split
  · exact h.modCore (fun _ => by rfl)
  · exact h.modCore (fun _ => by rfl)
  · exact h.modCore (fun _ => by rfl)
  · exact h.modCore (fun _ => by rfl)
  · exact h.frame
  · exact h.frame
  · exact h.frame
  · exact h.frame
  · exact h.mapCores (fun _ _ => by rfl)
  · exact h.frame
  · exact h.frame
  · exact h

theorem Canon.clearCounters {page : Nat} : Canon (s.clearCounters page) :=
  .clearKept (.frame (h.foldl (fun _ hz _ => .ite hz.setReg64 hz.setReg)))

theorem Canon.releaseLog {page : Nat} : Canon (s.releaseLog page) := .ite (h.modCore (fun _ => by rfl)) (h.foldl (fun _ hz _ => hz.setReg))

/-! Machine/Replay. -/

theorem Canon.execSkipRound {rx : List (Nat × Nat)} : CanonNext (execSkipRound rx s) := by
  unfold Machine.execSkipRound
  split
  · exact .next h
  · extract_lets _ s1 _ s2 _ _ _ _ s3
    have h1 : Canon s1 := h.elapseTo.sealCompare
    have h2 : Canon s2 := h1.foldl (fun _ hz _ => hz.sendFlit)
    have h3 : Canon s3 := h2.frame
    split
    · exact .next h3
    · split
      · exact .next h3
      · exact .next h3.frame.missing

theorem Canon.execCloseRound {rx : List (Nat × List Nat)} : CanonNext (execCloseRound rx s) := by
  unfold Machine.execCloseRound
  split
  · exact .next h
  · extract_lets _ s0 _ s1 _ s2 _ _ _ _ s3
    have h0 : Canon s0 := h.elapseTo.sealCompare
    have h1 : Canon s1 := by
      unfold s1
      split
      · exact h0.frame
      · exact h0
    have h2 : Canon s2 := h1.foldl (fun _ hz _ => hz.sendFlit)
    have h3 : Canon s3 := h2.frame
    split
    · exact .next h3
    · split
      · exact .next h3
      · exact .next h3.frame.missing

theorem Canon.execReplicaDigestSend {peer : Option (List Nat)} : CanonNext (execReplicaDigestSend peer s) := by
  unfold Machine.execReplicaDigestSend
  split
  · exact .next h
  · extract_lets _ s1 s2 _ s3
    have h1 : Canon s1 := h.elapseTo.sealCompare
    have h2 : Canon s2 := h1.foldl (fun _ hz _ => hz.sendFlit)
    have h3 : Canon s3 := h2.frame
    split
    · exact .next h3.cnt
    · split
      · exact .next h3.cnt
      · exact .next h3.replicaMismatch

theorem Canon.execVoteWindows {peer : List (Nat × Nat × Nat)} : CanonNext (execVoteWindows peer s) := by
  unfold Machine.execVoteWindows
  split
  · exact .next h
  · extract_lets _ _ _ s1
    have h1 : Canon s1 := h.foldl (fun _ hz _ => hz.emit)
    exact .next h1.putVote

theorem Canon.execVoteBlocks {peer : List VoteItem} : CanonNext (execVoteBlocks peer s) := by
  unfold Machine.execVoteBlocks
  split
  · exact .next h
  · extract_lets own _ _ _ s1
    have hown : Canon own.1 := h.voteCopies
    have h1 : Canon s1 := hown.emit
    exact .next h1.putVote

theorem Canon.voteSend {v : Vote} {l : List (VoteItem × (List Byte × List Byte) × Nat)} : Canon (s.voteSend v l) :=
  h.foldl (fun _ hz _ => .ite hz.emit hz)

theorem Canon.execVoteWrite {copies : List VoteItem} : CanonNext (execVoteWrite copies s) := by
  unfold Machine.execVoteWrite
  split
  · exact .next h
  · split
    · exact .next h
    · extract_lets own _ z _ _ _ _ s1 s2
      have hown : Canon own.1 := h.voteCopies
      have hz : Canon z := hown.voteSend
      have h1 : Canon s1 := hz.foldl (fun _ hy _ => hy.voteStore)
      have h2 : Canon s2 := .ite h1 h1.cnt.suspect
      split
      · exact .next hz.voteEnd.setInt.pieErr.suspect.raiseStop
      · split
        · exact .next hz.putVote
        · split
          · exact .next h2.voteEnd
          · exact .next h2.voteEnd

theorem Canon.execPieStressGo {m : Master} : CanonNext (execPieStressGo m s) := .next (h.lk (fun _ hz => .ite hz.frame hz.frame))

/-! Machine/Sem. -/

theorem Canon.setOwner {key m : Nat} : Canon (s.setOwner key m) := h.frame

theorem Canon.grantLock {m : Master} {key : Nat} : Canon (s.grantLock m key) := h.setOwner.frame

theorem Canon.claim {m : Master} {key : Nat} : Canon (s.claim m key) := .ite h.grantLock (.ite h.setInt h)

theorem Canon.unclaim {m : Master} {key : Nat} : Canon (s.unclaim m key) := .ite h.setOwner h

theorem Canon.writeLock {m : Master} {key v : Nat} : Canon (s.writeLock m key v) := by
  unfold State.writeLock
  split
  · exact h.claim
  · exact h.unclaim
  · exact h

theorem Canon.releaseAll {code : Nat} : Canon (s.releaseAll code) := h.frame

theorem Canon.semLog {cause code : Nat} {page : Option Nat} : Canon (s.semLog cause code page) := h.logErr

theorem Canon.pcieUnlock : Canon s.pcieUnlock := h.releaseAll.semLog

theorem Canon.bulkStat {m : Master} {result holder page : Nat} : Canon (s.bulkStat m result holder page) := by
  unfold State.bulkStat
  exact .setInt (.ite h.setReg h.setReg.logErr)

theorem Canon.genBulk {m : Master} {v : Nat} : Canon (s.genBulk m v) := by
  unfold State.genBulk
  split
  · exact h.bulkStat
  · extract_lets
    split
    · exact .bulkStat (h.foldl (fun _ hz _ => hz.unclaim))
    · split
      · exact .bulkStat (.ite h.setInt h)
      · exact .bulkStat (h.foldl (fun _ hz _ => hz.claim))

theorem Canon.lockOp {m : Master} {a : LockOp} : Canon (s.lockOp m a) := by
  unfold State.lockOp
  split
  · exact h.writeLock
  · exact h.genBulk

theorem Canon.beforePcie {c : LockCycle} : Canon (s.beforePcie c) :=
  .foldl (.setReg (.frame (h.releaseAll.foldl (fun _ hz _ => hz.setOwner)))) (fun _ hz _ => hz.setReg)

theorem Canon.lockTurn {m : Master} {op : LockOp} : Canon (s.lockTurn m op) := by
  unfold State.lockTurn
  extract_lets _ s1 _ s1' _ s2
  have h1 : Canon s1 := h.lockOp
  have h1' : Canon s1' := h.beforePcie.lockOp
  have h2 : Canon s2 := h1'.foldl (fun _ hz _ => hz.lockOp)
  split
  · exact h.lockOp
  · split
    · exact h1.frame
    · split
      · exact h.lockOp
      · exact h2.frame

theorem Canon.lockWrite {m : Master} {key v : Nat} : Canon (s.lockWrite m key v) :=
  .ite h (.ite (.ite h.lockTurn h) (.ite h.genLog (.ite h h.lockTurn)))

theorem Canon.execLockClaim {m : Master} {page : Nat} : CanonNext (execLockClaim m page s) := .next h.lockWrite

theorem Canon.execLockRelease {m : Master} {page : Nat} : CanonNext (execLockRelease m page s) := .next h.lockWrite

theorem Canon.execGenBulkClaim {m : Master} {v : Word} : CanonNext (execGenBulkClaim m v s) := .next (.ite h.lockTurn h)

theorem Canon.execGenBulkRelease {m : Master} {v : Word} : CanonNext (execGenBulkRelease m v s) := .next (.ite h.lockTurn h)

theorem Canon.beat {m : Master} : Canon (s.beat m) := by
  unfold State.beat
  split
  · exact h.frame
  · exact h.frame

theorem Canon.execSemHb {m : Master} : CanonNext (execSemHb m s) := .next (.ite h.beat h)

theorem Canon.force {v : Nat} : Canon (s.force v) :=
  .ite h (.ite h.releaseAll.semLog.setInt (.setInt (.semLog (.ite h.frame.setOwner h.frame))))

theorem Canon.execSemForce {m : Master} {v : Word} : CanonNext (execSemForce m v s) := .next (.ite h.force h)

theorem Canon.execLeaseExpiry {m : Master} : CanonNext (execLeaseExpiry m s) := .next (.ite h h.elapseTo.releaseAll.semLog.setInt.beat)

end

end Sys2Proof.Machine
end

section
/-! PROOFS. Resets, the schedule, trace and self-test keep the memories canonical and the tick in range. -/

namespace Sys2Proof.Machine

open Sys2Proof

section
variable {s : State} (h : Canon s)
include h

/-! Machine/ResetOps. -/

theorem Canon.writeDump {type : Nat} : Canon (s.writeDump type) := h.markSet.frame

theorem Canon.dumpDone : Canon s.dumpDone := by
  unfold State.dumpDone
  exact .setInt (.ite h h.logErr)

theorem Canon.clearCorePages {c : Nat} : Canon (s.clearCorePages c) := h.filterRegs

theorem Canon.resetCore {c : Nat} : Canon (s.resetCore c) :=
  (h.setCore (by rfl)).frame.clearCorePages.refreshLine.refreshLine.refreshLine.refreshLine.refreshLine

theorem Canon.resetDie {d : Nat} : Canon (s.resetDie d) := h.foldl (fun _ hz _ => hz.resetCore)

theorem Canon.zeroDie {d : Nat} : Canon (s.zeroDie d) := h.mapCoresMem (fun _ _ hk => by
  split
  · rfl
  · exact hk)

theorem Canon.loseStack {n : Nat} : Canon (s.loseStack n) :=
  h.withMem (Store.wf_filter _ _ _ h.memories.device) h.memories.capacity

theorem Canon.cutTest : Canon s.cutTest := by
  unfold State.cutTest
  split
  · exact h
  · exact .ite h.zeroDie (.ite h.loseStack h)

theorem Canon.reportCut {test : Option (Nat × Nat)} : Canon (s.reportCut test) := by
  unfold State.reportCut
  split
  · exact h
  · exact h.frame.logErr

theorem Canon.keepRegs {f : Nat → Nat → Bool} : Canon (s.keepRegs f) := h.filterRegs.frame

theorem Canon.warmTrain : Canon s.warmTrain := h.loadTrain.frame

theorem Canon.warmRetire : Canon s.warmRetire := by
  unfold State.warmRetire
  split
  · exact h
  · exact .ite h.retireSwitch h.frame

theorem Canon.warmWithdraw : Canon s.warmWithdraw := by
  unfold State.warmWithdraw
  split
  · exact h.raiseAlarm.wakeReason
  · exact h.raiseAlarm.wakeReason
  · exact h.raiseAlarm.wakeReason
  · exact h

theorem Canon.sumpFlush : Canon s.sumpFlush := h.foldl (fun _ hz _ => hz.sumpCloseEntry)

theorem Canon.warmClear : Canon s.warmClear := by
  unfold State.warmClear
  extract_lets s0 loading s1 s2 _ _ _ _ _ _ _ _ _ s3 s4
  have h0 : Canon s0 := h.sumpFlush.cutTest.keepRegs
  have h1 : Canon s1 := h0.mapCoresMem (fun c _ _ => h0.core c)
  have h2 : Canon s2 := h1.warmTrain
  have h3 : Canon s3 := h2.mapCores (fun _ _ => by rfl)
  have h4 : Canon s4 := .ite h3.setInt h3
  exact h4.warmRetire.refreshMask

theorem Canon.warm {say : State → State} (hsay : ∀ z, Canon z → Canon (say z)) : Canon (s.warm say) :=
  hsay _ h.warmWithdraw.writeDump.warmClear.frame.cnt.dumpDone.reportCut

omit h in
theorem canon_reset : Canon {} := canon_iff.mpr ⟨by decide, rfl, (fun _ hp => nomatch hp), rfl, rfl⟩

omit h in
theorem Canon.bare : Canon s.bare := canon_reset.frame

theorem Canon.binLimit : Canon s.binLimit := .ite h.setReg h

theorem Canon.coldClear : Canon s.coldClear := by
  have regs : Canon { State.reset with regs := s.regs.filter (fun p => coldKeeps (p.1 / 0x1000) (p.1 % 0x1000)) } :=
    canon_reset.withRegs (Store.rising_filter none s.regs _ h.memories.registers)
  exact .binLimit regs.frame

theorem Canon.cold {last : Nat} : Canon (s.cold last) := h.coldClear.frame.cnt.reportCut

theorem Canon.coldDump {last : Nat} : Canon (s.coldDump last) := .ite h.writeDump.cold.dumpDone h.writeDump.cold

theorem Canon.mainCut : Canon s.mainCut := by
  have regs : Canon { State.reset with regs := s.regs.filter (fun p => alwaysOn (p.1 / 0x1000)) } :=
    canon_reset.withRegs (Store.rising_filter none s.regs _ h.memories.registers)
  exact (regs.withTick h.tick.count h.tick.fraction).frame

/-! Machine/Reset. -/

theorem Canon.rstRefuse {code die core : Nat} : Canon (s.rstRefuse code die core) := h.frame.rstLog.setInt

theorem Canon.rstAbsorb {counter : Nat} : Canon (s.rstAbsorb counter) := h.frame.cnt

theorem Canon.beginReset {dom : Dom} {target last counter : Nat} : Canon (s.beginReset dom target last counter) := h.frame.cnt

theorem Canon.takeCoreReset {c : Nat} : Canon (s.takeCoreReset c) := h.resetCore.beginReset

theorem Canon.takeDieReset {d : Nat} : Canon (s.takeDieReset d) := h.resetDie.beginReset

theorem Canon.requestWarm {say : State → State} (hsay : ∀ z, Canon z → Canon (say z)) : Canon (s.requestWarm say) :=
  .ite (hsay _ h.rstAbsorb) (h.warm (fun _ hz => hsay _ hz))

theorem Canon.afterDump : Canon s.afterDump := by
  unfold State.afterDump
  split
  · exact h
  · exact h.elapseTo

theorem Canon.execRstCore {m : Master} : CanonNext (execRstCore m s) :=
  .next (h.lk (fun _ hz => .ite hz.rstRefuse (.ite hz.rstRefuse (.ite hz.rstAbsorb hz.takeCoreReset))))

theorem Canon.execRstDie {m : Master} : CanonNext (execRstDie m s) :=
  .next (h.lk (fun _ hz => .ite hz.rstRefuse (.ite hz.rstRefuse (.ite hz.rstAbsorb hz.takeDieReset))))

theorem Canon.execRstWarm {m : Master} : CanonNext (execRstWarm m s) :=
  .next (h.lk (fun _ hz => hz.requestWarm (fun _ hy => hy)))

theorem Canon.execRstCold {m : Master} : CanonNext (execRstCold m s) := .next (h.lk (fun _ hz => hz.afterDump.coldDump.setInt))

theorem Canon.execRstSpare {m : Master} : CanonNext (execRstSpare m s) := by
  refine .next (h.lk (fun z hz => ?_))
  extract_lets c d used back _ s1 s1' s2
  have h1 : Canon s1' := Canon.modCoreMem (s := s1) hz.frame (fun _ _ => rfl)
  have h2 : Canon s2 := .ite h1.rstAbsorb h1.takeCoreReset
  exact .ite hz.rstRefuse (.ite hz.rstRefuse (.ite h2.descChanged h2))

theorem Canon.execResetDone {die : Bool} {target : Nat} : CanonNext (execResetDone die target s) :=
  .next (.ite h (.setInt (h.mapCores (fun _ _ => by (repeat' split) <;> rfl))))

theorem Canon.execWarmRecoveryDone : CanonNext (execWarmRecoveryDone s) := by
  unfold Machine.execWarmRecoveryDone
  split
  · exact .next h
  · split
    · exact .next h
    · extract_lets s1
      have h1 : Canon s1 := h.elapseTo
      exact .next (h1.frameMem (by rfl) (by rfl)).setInt

theorem Canon.escalates {cause die core : Nat} : Canon (s.escalates cause die core) := h.rstLog.setInt

theorem Canon.execResetEscalation : CanonNext (execResetEscalation s) := by
  unfold Machine.execResetEscalation
  split
  · extract_lets s1 _ s2 base
    have h1 : Canon s1 := h.elapseTo
    have h2 : Canon s2 := h1.escalates.writeDump
    have hbase : Canon base := h2.dumpDone
    split
    · split
      · exact .next hbase.frame
      · exact .next h2.dumpDone.takeDieReset
    · exact .next (h1.rstLog.warm (fun _ hz => hz.escalates))
    · split
      · exact .next h
      · exact .next h1.frame.escalates.writeDump.dumpDone
    · exact .next h
  · exact .next h

theorem Canon.mbxAbort : Canon s.mbxAbort := by
  unfold State.mbxAbort
  split
  · exact h
  · exact h.frame.mbxReply.mbxDone

theorem Canon.fwBarks : Canon s.fwBarks := h.logErr.setInt.rstLog.setInt

theorem Canon.execFirmwareWatchdog : CanonNext (execFirmwareWatchdog s) :=
  .next (.ite h (.ite (h.frame.mbxAbort.cnt.cnt.fwBarks.frame.requestWarm (fun _ hz => .ite hz.cnt.fwBarks hz))
      h.frame.mbxAbort.cnt.cnt.fwBarks))

theorem Canon.trainPcie : Canon s.trainPcie := h.free.frame

theorem Canon.pcieReset {rtype : Nat} : Canon (State.pcieReset rtype s) := by
  unfold State.pcieReset
  exact h.trainPcie.frame.pcieUnlock.cnt.logErr.setInt

theorem Canon.execConventionalReset : CanonNext (execConventionalReset s) := .next (.ite h (h.requestWarm (fun _ hz => hz.pcieReset)))

theorem Canon.execHotReset : CanonNext (execHotReset s) := .next (.ite h (h.requestWarm (fun _ hz => hz.pcieReset)))

theorem Canon.execFunctionLevelReset : CanonNext (execFunctionLevelReset s) :=
  .next (.ite h (h.requestWarm (fun _ hz => hz.pcieReset)))

theorem Canon.execMrst : CanonNext (execMrst s) := .next (.ite h h.afterDump.coldDump.frame)

theorem Canon.execMrstRelease : CanonNext (execMrstRelease s) := .next (.ite h h.frame.setInt)

theorem Canon.execAuxPowerUp : CanonNext (execAuxPowerUp s) := .next (.ite h (.ite h.free.frame.logErr h.free.frame))

theorem Canon.execAuxPowerLoss : CanonNext (execAuxPowerLoss s) := .next (.ite h (.frame .bare))

theorem Canon.execMainPowerUp : CanonNext (execMainPowerUp s) :=
  .next (.ite h (.setInt (.setInt (.ite h.frame.cold.trainPcie.frame.emit h.frame.cold.trainPcie.frame))))

theorem Canon.execMainPowerLoss : CanonNext (execMainPowerLoss s) := .next (.ite h (.frame (.mainCut (.ite h.emit h))))

theorem Canon.tripNow : Canon s.tripNow := by
  unfold State.tripNow
  extract_lets s1 s2
  have h1 : Canon s1 := .ite h h.emit
  have h2 : Canon s2 := h1.writeDump.mainCut.dumpDone
  exact h2.frame

theorem Canon.execTrip {watts tmax : Nat} : CanonNext (execTrip watts tmax s) := .next (.ite h h.frame.pwrLog.tripNow)

theorem Canon.execRailFault {r : Fin 9} {mv : Nat} : CanonNext (execRailFault r mv s) := .next (.ite h h.logErr.tripNow)

theorem Canon.execD3hotEntry : CanonNext (execD3hotEntry s) := .next (.ite h.frame h)

theorem Canon.sendPending : Canon s.sendPending := h.foldl (fun _ hz _ => .ite hz hz.frame.emit)

theorem Canon.execD0Resume : CanonNext (execD0Resume s) :=
  .next (.ite h (.ite h.frame.trainPcie.sendPending.emit h.frame.trainPcie.sendPending))

theorem Canon.execPmeRepeat : CanonNext (execPmeRepeat s) := .next (.ite h.cnt.emit h)

/-! Machine/Schedule. -/

theorem Canon.unload : Canon s.unload := .setJob (.frame (h.foldl (fun _ hz _ => hz.teardown)))

theorem Canon.lateFlits : Canon s.lateFlits := by
  unfold State.lateFlits
  dsimp only
  split
  · exact h
  · exact h.vdtFault

theorem Canon.execSchLoad {m : Master} : CanonNext (execSchLoad m s) :=
  .next (h.lk (fun _ hz => .ite hz.schRefuse (.ite hz.schRefuse hz.frame.setJob)))

theorem Canon.execImageLoadDone : CanonNext (execImageLoadDone s) := by
  unfold Machine.execImageLoadDone
  split
  · exact .next h.loadEnd
  · exact .next h

theorem Canon.execSchArm {m : Master} : CanonNext (execSchArm m s) := .next (h.lk (fun _ hz => .ite hz.schRefuse (by
    split
    · exact hz.schRefuse
    · exact hz.frame.stressStart.setJob)))

theorem Canon.execSchDisarm {m : Master} : CanonNext (execSchDisarm m s) :=
  .next (h.lk (fun _ hz => .ite hz.frame.setJob hz.schRefuse))

theorem Canon.execSchUnload {m : Master} : CanonNext (execSchUnload m s) := .next (h.lk (fun _ hz => by
    split
    · exact hz.unload
    · exact hz.unload
    · exact hz.raiseStop
    · exact hz.raiseStop
    · exact hz.schRefuse))

theorem Canon.execSchPark {m : Master} : CanonNext (execSchPark m s) := .next (h.lk (fun _ hz => .ite hz.frame hz.schRefuse))

theorem Canon.execSchResume {m : Master} : CanonNext (execSchResume m s) := .next (h.lk (fun _ hz => .ite hz.schRefuse (by
    split
    · exact hz.schRefuse
    · exact hz.frame.setJob)))

theorem Canon.execSchStop {m : Master} : CanonNext (execSchStop m s) := .next (h.lk (fun _ hz => by
    split
    · exact hz.raiseStop
    · exact hz.raiseStop
    · exact hz.raiseStop
    · exact hz.schRefuse))

theorem Canon.execStartTick : CanonNext (execStartTick s) := .next (.ite h h.elapseTo.frame.setPoint.setJob)

theorem Canon.execPier0Seal {reports : List PierReport} : CanonNext (execPier0Seal reports s) := by
  unfold Machine.execPier0Seal
  split
  · exact .next h
  · extract_lets s1
    have h1 : Canon s1 := h.elapseTo
    split
    · exact .next h1.failStart
    · exact .next h1.sealStart

theorem Canon.execSpanStart : CanonNext (execSpanStart s) := .next (.ite h h.elapseTo.startSpan.schAgrees)

theorem Canon.execSpanEnd : CanonNext (execSpanEnd s) := .next (.ite h h.elapseTo.schAgrees.endWork)

theorem Canon.execPierSeal : CanonNext (execPierSeal s) :=
  .next (.ite h (.ite h.elapseTo.sealCompare.trcPier.stopAtPier h.elapseTo.sealCompare.lateFlits.trcPier.seal.afterSeal))

theorem Canon.execGate {c : Fin 256} : CanonNext (execGate c s) := by
  unfold Machine.execGate
  extract_lets
  split
  · split
    · exact .next h
    · extract_lets s1 _ s2
      have h1 : Canon s1 := h.elapseTo.schAgrees
      have h2 : Canon s2 := h1.frame
      split
      · split
        · exact .next h2
        · exact .next h2.gateAt
      · exact .next h2.gateAt
  · exact .next h

theorem Canon.execWake {c : Fin 256} : CanonNext (execWake c s) := by
  unfold Machine.execWake
  extract_lets
  split
  · split
    · exact .next h.wakeFires.schAgrees.frame
    · split
      · split
        · exact .next h.wakeFires.schAgrees.frame
        · exact .next h
      · exact .next h
  · exact .next h

theorem Canon.refreshBanks {n g len : Nat} : Canon (s.refreshBanks n g len) := h.frame

theorem Canon.execRefreshWindow {n g : Fin 8} : CanonNext (execRefreshWindow n g s) := .next (.ite h (by
    dsimp only
    split
    · exact h
    · exact h.refreshBanks.elapseTo))

theorem Canon.execVfChange {inBand : Bool} : CanonNext (execVfChange inBand s) := by
  unfold Machine.execVfChange
  split
  · split
    · exact .next h
    · split
      · exact .next h
      · split
        · extract_lets s1
          have h1 : Canon s1 := h.elapseTo.seqAgrees
          split
          · exact .next h1.frame.setPoint
          · exact .next h1.vfFail
        · extract_lets s1
          have h1 : Canon s1 := h.elapseTo.seqAgrees
          exact .next h1.frame.setPoint
  · split
    · exact .next h
    · extract_lets s1
      have h1 : Canon s1 := h.elapseTo.seqAgrees
      split
      · exact .next h
      · split
        · exact .next h1.frame.setPoint
        · exact .next h1.vfFail
  · exact .next h

/-! Machine/TraceTest. -/

theorem Canon.ringFull : Canon s.ringFull := .ite h h.frame.logErr.setInt

theorem Canon.drainSome {n : Nat} : Canon (State.drainSome n s) := by
  induction n generalizing s with
  | zero => exact h
  | succ n ih =>
    unfold State.drainSome
    split
    · exact h
    · exact .ite h.ringFull (ih h.b2Apply.frame.cnt64)

theorem Canon.lostRecord : Canon s.lostRecord := .ite h h.frame.trcPut

theorem Canon.execTraceDrain : CanonNext (execTraceDrain s) := .next (.ite h h.drainSome.lostRecord)

theorem Canon.execTrcSnap {m : Master} : CanonNext (execTrcSnap m s) := .next (h.lk (fun _ hz => hz.frame))

theorem Canon.snapPage {page : Nat} : Canon (s.snapPage page) := h.foldl (fun _ hz _ => hz.counterDraw.trcPut)

theorem Canon.snapshot : Canon s.snapshot := by
  unfold State.snapshot
  exact .setInt (.ite (h.frame.foldl (fun _ hz _ => hz.snapPage)) h.frame)

theorem Canon.execSnapshotLatch : CanonNext (execSnapshotLatch s) := by
  unfold Machine.execSnapshotLatch
  split
  · exact .next h
  · split
    · split
      · exact .next h.elapseTo.snapshot
      · exact .next h
    · exact .next h
    · exact .next h.snapshot

theorem Canon.tstRefused {op target code : Nat} : Canon (s.tstRefused op target code) := h.frame.logErr.setInt

theorem Canon.tstStart {op target size : Nat} : Canon (s.tstStart op target size) :=
  .ite h.tstRefused (.ite h.tstRefused (.ite h.tstRefused h.frame))

theorem Canon.tstPhase {op : Nat} {p : Phase} : Canon (s.tstPhase op p) := h.frame

theorem Canon.execEnterTest {m : Master} : CanonNext (execEnterTest m s) := .next (h.lk (fun _ hz => .ite hz.tstPhase hz.tstRefused))

theorem Canon.execLeaveTest {m : Master} : CanonNext (execLeaveTest m s) := .next (h.lk (fun _ hz => .ite hz.tstPhase hz.tstRefused))

theorem Canon.execLbist {m : Master} : CanonNext (execLbist m s) := .next (h.lk (fun _ hz => hz.tstStart))

theorem Canon.execMbistDie {m : Master} : CanonNext (execMbistDie m s) := .next (h.lk (fun _ hz => hz.tstStart))

theorem Canon.execMbistDevice {m : Master} : CanonNext (execMbistDevice m s) := .next (h.lk (fun _ hz => hz.tstStart))

theorem Canon.execHbmTest {m : Master} : CanonNext (execHbmTest m s) := .next (h.lk (fun _ hz => hz.tstStart))

theorem Canon.dieAfterTest {d : Nat} : Canon (s.dieAfterTest d) := h.resetDie.zeroDie.mapCores (fun _ _ => by split <;> rfl)

theorem Canon.devAfterTest : Canon s.devAfterTest := h.sumpFlush.frame

theorem Canon.afterTest {op target fails : Nat} : Canon (s.afterTest op target fails) :=
  .ite h.dieAfterTest.frame (.ite h.devAfterTest h.loseStack)

theorem Canon.logFailed {op target : Nat} : Canon (s.logFailed op target) := .ite h.free.free.free.logErr.logErr h.logErr

theorem Canon.execTestDone {fails : Nat} : CanonNext (execTestDone fails s) := by
  unfold Machine.execTestDone
  split
  · exact .next h
  · extract_lets s1 _ s2 s3
    have h1 : Canon s1 := h.afterTest
    have h2 : Canon s2 := h1.frame
    have h3 : Canon s3 := h2.cnt.setInt
    split
    · exact .next h3
    · exact .next h3.cnt.logFailed.setInt

theorem Canon.tapSelect {n : Nat} : Canon (s.tapSelect n) := .frame (.ite h.cold h)

theorem Canon.tapDrive {n : Nat} : Canon (s.tapDrive n) := .ite h.tapSelect.frame h.tapSelect

theorem Canon.execBypass : CanonNext (execBypass s) := .next h.tapSelect

theorem Canon.execIdcode : CanonNext (execIdcode s) := .next h.tapSelect.emit

theorem Canon.execSamplePreload {pins drv : Nat} : CanonNext (execSamplePreload pins drv s) := .next h.tapSelect.emit.frame

theorem Canon.execExtest : CanonNext (execExtest s) := .next h.tapDrive

theorem Canon.execExtestPulse : CanonNext (execExtestPulse s) := .next h.tapDrive

theorem Canon.execExtestTrain : CanonNext (execExtestTrain s) := .next h.tapDrive

theorem Canon.execTestLogicReset : CanonNext (execTestLogicReset s) := .next h.tapSelect

end

end Sys2Proof.Machine
end

section
/-! PROOFS. The register window and the instructions of threads keep the memories canonical and the tick in range. -/

namespace Sys2Proof.Machine

open Sys2Proof

section
variable {s : State} (h : Canon s)
include h

/-! Machine/RegIO. -/

theorem Canon.after {o : Host.Outcome State Fault Refusal} (ho : CanonNext o) : Canon (s.after o) := by
  unfold State.after
  split
  · exact ho _ rfl
  · exact h

theorem Canon.readNowLo {m : Master} : Canon (s.readNowLo m).1 := h.frame

theorem Canon.readNowHi {m : Master} : Canon (s.readNowHi m).1 := by
  unfold State.readNowHi
  split
  · exact h.frame
  · exact h

theorem Canon.read32 {m : Master} {page o : Nat} : Canon (s.read32 m page o).1 := by
  unfold State.read32
  split
  · exact h.readNowLo
  · split
    · exact h.readNowHi
    · exact h.regDraw

theorem Canon.read64 {page o : Nat} : Canon (s.read64 page o).1 := by
  unfold State.read64
  extract_lets lo hi
  have hlo : Canon lo.1 := h.regDraw
  have hhi : Canon hi.1 := hlo.regDraw
  exact hhi

theorem Canon.badAccess {off : Nat} : Canon (s.badAccess off) := h.logErr

theorem Canon.readReg {m : Master} {off len : Nat} : Canon (s.readReg m off len).1 := by
  unfold State.readReg
  split
  · exact h.badAccess
  · split
    · exact h.genLog
    · split
      · exact h
      · split
        · exact h.read32
        · exact h.read64

theorem Canon.storeRw {page o v : Nat} : Canon (s.storeRw page o v) := h.setReg

theorem Canon.writePlain {m : Master} {page o v : Nat} : Canon (s.writePlain m page o v) := .ite h (h.lk (fun _ hz => hz.storeRw))

theorem Canon.writeGated {m : Master} {page o v gate : Nat} : Canon (s.writeGated m page o v gate) := h.lk (fun _ hz => hz.storeRw)

theorem Canon.writeCmd {m : Master} {page o v : Nat} {go : State → State} (hgo : ∀ z, Canon z → Canon (go z)) :
    Canon (s.writeCmd m page o v go) :=
  h.lk (fun _ hz => .ite (hgo _ hz.storeRw) hz.storeRw)

theorem Canon.writeCtl {m : Master} {page v : Nat} : Canon (s.writeCtl m page v) :=
  h.lk (fun _ hz => .ite (.clearCounters (.ite hz.releaseLog hz)) (.ite hz.releaseLog hz))

theorem Canon.writeW1c {page o v : Nat} : Canon (s.writeW1c page o v) := h.setReg

theorem Canon.writeIntStat {page v : Nat} : Canon (s.writeIntStat page v) := h.writeW1c.refreshLine

theorem Canon.writeIntEn {m : Master} {page v : Nat} : Canon (s.writeIntEn m page v) := h.lk (fun _ hz => hz.storeRw.refreshLine)

theorem Canon.writeIntSet {m : Master} {page v : Nat} : Canon (s.writeIntSet m page v) :=
  h.lk (fun _ hz => hz.foldl (fun _ hy _ => hy.setInt))

theorem Canon.goSch {m : Master} {op : Nat} : Canon (s.goSch m op) := by
  unfold State.goSch
  split
  · exact h
  · exact h.after h.execSchLoad
  · exact h.after h.execSchArm
  · exact h.after h.execSchDisarm
  · exact h.after h.execSchUnload
  · exact h.after h.execSchPark
  · exact h.after h.execSchResume
  · exact h.after h.execSchStop
  · exact h.schRefuse

theorem Canon.goCtx {m : Master} {op : Nat} : Canon (s.goCtx m op) := by
  unfold State.goCtx
  split
  · exact h.ctxGo
  · exact h.after h.execCtxClose
  · exact h.after h.execCtxPark
  · exact h.after h.execCtxUnpark
  · exact h.after h.execCtxSetQuota
  · exact h.after h.execCtxGrant
  · exact h.after h.execCtxReturn
  · exact h.after h.execCtxGrantKey
  · exact h.after h.execCtxReturnKey
  · exact h.ctxGo

theorem Canon.goHbm {m : Master} {n op : Nat} : Canon (s.goHbm m n op) := by
  unfold State.goHbm
  dsimp only
  split
  · exact h.after h.execHbmInit
  · exact h.after h.execHbmTrain
  · exact h.after h.execHbmRowSoft
  · exact h.after h.execHbmRowHard
  · exact h.after h.execHbmLane
  · exact h

theorem Canon.goGal {m : Master} {op : Nat} : Canon (s.goGal m op) := by
  unfold State.goGal
  split
  · exact h.after h.execGalInit
  · exact h.after h.execGalRetire
  · exact h.after h.execGalAbort
  · exact h.after h.execGalTrain
  · exact h

theorem Canon.goCmb {m : Master} {op : Nat} : Canon (s.goCmb m op) := by
  unfold State.goCmb
  split
  · exact h.after h.execCmbPaired
  · exact h.after h.execCmbSingleK0
  · exact h.after h.execCmbSingleK1
  · exact h

theorem Canon.goPatch {m : Master} {op : Nat} : Canon (s.goPatch m op) := by
  unfold State.goPatch
  split
  · exact h.after h.execPatchApply
  · exact h.after h.execPatchAbort
  · exact h

theorem Canon.goRst {m : Master} {op : Nat} : Canon (s.goRst m op) := by
  unfold State.goRst
  split
  · exact h
  · exact h.after h.execRstCore
  · exact h.after h.execRstDie
  · exact h.after h.execRstWarm
  · exact h.after h.execRstCold
  · exact h.after h.execRstSpare
  · exact h.rstRefuse

theorem Canon.goTst {m : Master} {op target : Nat} : Canon (s.goTst m op target) := by
  unfold State.goTst
  split
  · exact h
  · exact h.after h.execEnterTest
  · exact h.after h.execLeaveTest
  · exact h.after h.execLbist
  · exact h.after h.execMbistDie
  · exact h.after h.execMbistDevice
  · exact h.after h.execHbmTest
  · exact h.tstRefused

theorem Canon.writeMd {m : Master} {o v : Nat} : Canon (s.writeMd m o v) := .ite (.ite h.frame h) h.writePlain

theorem Canon.writeClk {m : Master} {o v : Nat} : Canon (s.writeClk m o v) :=
  .ite (h.lk (fun _ hz => hz.storeRw.selectRef)) (.ite (h.lk (fun _ hz => hz.storeRw.emit)) h.writePlain)

theorem Canon.writeMgt {m : Master} {o v : Nat} : Canon (s.writeMgt m o v) :=
  .ite (h.lk (fun _ hz => .ite hz.storeRw hz.storeRw.plcaStart)) h.writePlain

theorem Canon.writeMsix {i w v : Nat} : Canon (s.writeMsix i w v) := .ite h.frame.frame.emit h.frame

theorem Canon.writeHif {m : Master} {o v : Nat} : Canon (s.writeHif m o v) := by
  unfold State.writeHif
  split
  · split
    · exact h.setReg
    · exact h
  · split
    · exact h.writeMsix
    · split
      · exact h.lk (fun _ hz => hz.frame)
      · split
        · exact h.setReg
        · exact h
      · exact h.after h.execHifMbxDb
      · exact h.after h.execHifMbxAck
      · exact h.writePlain

theorem Canon.writeSem {m : Master} {o v : Nat} : Canon (s.writeSem m o v) := by
  unfold State.writeSem
  split
  · exact h.lockTurn
  · split
    · split
      · exact h
      · extract_lets _ _ s0 s1 s2
        have h0 : Canon s0 := .ite h.frame h
        have h1 : Canon s1 := h0.setReg
        have h2 : Canon s2 := .ite h1 h1.beat
        split
        · exact h2
        · exact h2.beat
    · exact h.beat
    · exact h.force
    · exact h

theorem Canon.writeVdt {m : Master} {o v : Nat} : Canon (s.writeVdt m o v) := by
  unfold State.writeVdt
  extract_lets
  split
  · exact h.writeGated
  · exact h.lk (fun _ hz => .ite hz.storeRw.portsMoved.refreshMask hz)
  · exact h.lk (fun _ hz => .ite hz.storeRw.portsMoved.refreshMask hz)
  · exact h.lk (fun _ hz => .ite hz.storeRw.portsMoved.refreshMask hz)
  · exact h.writeCmd (fun _ hz => hz.goPatch)
  · exact h.lk (fun _ hz => .ite (.refreshMask (.portsMoved (.ite hz hz.frame))) hz)
  · exact h.lk (fun _ hz => .ite (.refreshMask (.portsMoved (.ite hz hz.setVport))) hz)
  · exact h.writePlain

theorem Canon.writePcfg {p v : Nat} : Canon (s.writePcfg p v) := .ite h.setOport.darkPort h.setOport

theorem Canon.writeTrs {m : Master} {e o v : Nat} : Canon (s.writeTrs m e o v) := by
  unfold State.writeTrs
  extract_lets
  split
  · exact h.lk (fun _ hz => by
        split
        · exact hz
        · extract_lets z1 z2
          have hz1 : Canon z1 := hz.writePcfg
          have hz2 : Canon z2 := .ite (hz1.after hz1.execTrsCal) hz1
          split
          · exact hz2.after hz2.execTrsRelock
          · exact hz2)
  · exact h.lk (fun _ hz => by
        dsimp only
        split
        · exact hz
        · split
          · exact hz
          · exact hz.setOport)
  · exact h.writePlain

theorem Canon.writeHbm {m : Master} {n o v : Nat} : Canon (s.writeHbm m n o v) := by
  unfold State.writeHbm
  dsimp only
  split
  · exact .ite h.writePlain h
  · exact .ite h.writePlain h
  · exact .ite (h.lk (fun _ hz => .ite hz hz.frame)) h
  · exact h.writeCmd (fun _ hz => hz.goHbm)
  · exact h.writePlain

theorem Canon.writeUpd {m : Master} {e o v : Nat} : Canon (s.writeUpd m e o v) := by
  unfold State.writeUpd
  split
  · exact h.writeGated
  · exact .ite h.writePlain h
  · exact h.writePlain

theorem Canon.writePie {m : Master} {o v : Nat} : Canon (s.writePie m o v) := by
  unfold State.writePie
  split
  · exact h.writeW1c
  · exact h.lk (fun _ hz => .ite (.after (.ite hz.storeRw hz) (.execPieStressGo (.ite hz.storeRw hz))) (.ite hz.storeRw hz))
  · exact h.writePlain

theorem Canon.seepEnable : Canon s.seepEnable := .ite h.frame (.ite h.frame h.frame.setReg.logErr)

theorem Canon.writeSeep {m : Master} {o v : Nat} : Canon (s.writeSeep m o v) :=
  .ite (h.lk (fun _ hz => .ite hz.storeRw.seepEnable hz)) h.writePlain

theorem Canon.writeTrc {m : Master} {o v : Nat} : Canon (s.writeTrc m o v) :=
  .ite (h.lk (fun _ hz => .ite hz (.ite hz.storeRw.setReg.logErr hz.storeRw)))
    (.ite (.ite (h.after h.execTrcSnap) (h.lk (fun _ hz => hz))) h.writePlain)

theorem Canon.writeDevice {m : Master} {page o v : Nat} : Canon (s.writeDevice m page o v) := by
  unfold State.writeDevice
  split
  · split
    · exact h.lockTurn
    · exact h
  · exact h.writeMd
  · exact h.writeClk
  · split
    · exact h.writeCmd (fun _ hz => hz.goRst)
    · exact h.writePlain
  · exact h.writeHif
  · exact h.writeMgt
  · split
    · exact h.writeCmd (fun _ hz => hz.goSch)
    · exact h.writePlain
  · split
    · exact h.after h.execTckReparent
    · exact h.writePlain
  · exact h.writeVdt
  · exact h.writeTrs
  · split
    · exact h.writeCmd (fun _ hz => hz.goCmb)
    · exact h.writePlain
  · exact h.writeHbm
  · split
    · exact h.writeCmd (fun _ hz => hz.goGal)
    · exact h.writePlain
  · exact h.writeUpd
  · exact h.writePie
  · split
    · exact h.writeCmd (fun _ hz => hz.goCtx)
    · exact h.writePlain
  · exact h.writeSeep
  · exact h.writeSem
  · exact h.writeTrc
  · split
    · exact h.writeCmd (fun _ hz => hz.goTst)
    · exact h.writePlain
  · exact h.writePlain

theorem Canon.writeCorePage {m : Master} {page o v : Nat} : Canon (s.writeCorePage m page o v) := .ite h.writeGated h.writePlain

theorem Canon.write32 {m : Master} {page o v : Nat} : Canon (s.write32 m page o v) := by
  unfold State.write32
  split
  · exact h.writeCtl
  · exact h.writeIntStat
  · exact h.writeIntEn
  · exact h.writeIntSet
  · exact h.lockTurn
  · exact .ite h.writeDevice h.writeCorePage

theorem Canon.writeReg {m : Master} {off len v : Nat} : Canon (s.writeReg m off len v) :=
  .ite h.badAccess (.ite h.genLog (.ite h (.ite h.write32 h.write32.write32)))

theorem Canon.execRegisterRead {m : Master} {off len : Nat} : CanonNext (execRegisterRead m off len s) := .next (.ite h h.readReg.emit)

theorem Canon.execRegisterWrite {m : Master} {off len v : Nat} : CanonNext (execRegisterWrite m off len v s) := .next (.ite h.writeReg h)

theorem Canon.execCntClr {m : Master} {page : Nat} : CanonNext (execCntClr m page s) := .next (.ite h.writeReg h)

theorem Canon.execLogRel {m : Master} {page : Nat} : CanonNext (execLogRel m page s) := .next (.ite h.writeReg h)

theorem Canon.execCoreLogRel {m : Master} {c : Fin 256} : CanonNext (execCoreLogRel m c s) := .next (.ite h.writeReg h)

theorem Canon.execIntSet {m : Master} {page : Nat} {v : Word} : CanonNext (execIntSet m page v s) := .next (.ite h.writeReg h)

theorem Canon.runReads {n a : Nat} : Canon (runReads n a s).1 := by
  induction n generalizing s a with
  | zero => exact h
  | succ n ih => exact ih h.readReg

theorem Canon.runMgtRead {f : Frame} : Canon (runMgtRead s f).1 := by
  unfold Machine.runMgtRead
  split
  · exact h.malformed
  · exact h.runReads

theorem Canon.runMgtWrite {f : Frame} : Canon (runMgtWrite s f).1 := by
  unfold Machine.runMgtWrite
  split
  · exact h.malformed
  · exact h.foldl (fun _ hz _ => hz.writeReg)

theorem Canon.execMgtRead {f : Frame} : CanonNext (execMgtRead f s) :=
  .next (.ite (h.takeFrame (fun _ hz => hz.answerFrame (fun _ hy _ => hy.runMgtRead))) h)

theorem Canon.execMgtWrite {f : Frame} : CanonNext (execMgtWrite f s) :=
  .next (.ite (h.takeFrame (fun _ hz => hz.answerFrame (fun _ hy _ => hy.runMgtWrite))) h)

/-! Machine/Threads. -/

theorem Canon.execAlu {c : Fin 256} {t : Fin 16} : CanonNext (execAlu c t s) := .next (h.instr (fun _ hz _ _ => by
    split
    · exact hz.done
    · exact hz.done
    · exact hz.insFault))

theorem Canon.execAlui {c : Fin 256} {t : Fin 16} : CanonNext (execAlui c t s) := .next (h.instr (fun _ hz _ _ => by
    split
    · exact hz.done
    · exact hz.done
    · exact hz.insFault))

theorem Canon.execLui {c : Fin 256} {t : Fin 16} : CanonNext (execLui c t s) := .next (h.instr (fun _ hz _ _ => hz.done))

theorem Canon.execLdw {c : Fin 256} {t : Fin 16} : CanonNext (execLdw c t s) :=
  .next (h.instr (fun _ hz _ _ => hz.scalarAccess (fun _ hy => hy.cmTouch.done)))

theorem Canon.execStw {c : Fin 256} {t : Fin 16} : CanonNext (execStw c t s) :=
  .next (h.instr (fun _ hz _ _ => hz.scalarAccess (fun _ hy => hy.cmPutWord.done)))

theorem Canon.execBr {c : Fin 256} {t : Fin 16} : CanonNext (execBr c t s) := .next (h.instr (fun _ hz _ _ => .ite hz.jump hz.done))

theorem Canon.execBsum {c : Fin 256} {t : Fin 16} : CanonNext (execBsum c t s) := .next (h.instr (fun _ hz _ _ => hz.branchSum))

theorem Canon.execJal {c : Fin 256} {t : Fin 16} : CanonNext (execJal c t s) := .next (h.instr (fun _ hz _ _ => hz.jump))

theorem Canon.execJalr {c : Fin 256} {t : Fin 16} : CanonNext (execJalr c t s) := .next (h.instr (fun _ hz _ _ => hz.jump))

theorem Canon.execMfs {c : Fin 256} {t : Fin 16} : CanonNext (execMfs c t s) := .next (h.instr (fun _ hz _ _ => hz.moveSum))

theorem Canon.execMfsys {c : Fin 256} {t : Fin 16} : CanonNext (execMfsys c t s) := .next (h.instr (fun _ hz _ _ => hz.done))

theorem Canon.execGset {c : Fin 256} {t : Fin 16} : CanonNext (execGset c t s) := .next (h.instr (fun _ hz _ _ => hz.done))

theorem Canon.execGbind {c : Fin 256} {t : Fin 16} : CanonNext (execGbind c t s) := .next (h.instr (fun _ hz _ _ => by
    split
    · exact hz.insFault
    · extract_lets
      exact hz.done))

theorem Canon.execKeyArrive {c : Fin 256} {t : Fin 16} : CanonNext (execKeyArrive c t s) := .next h.keyInstr

theorem Canon.execKeyWait {c : Fin 256} {t : Fin 16} : CanonNext (execKeyWait c t s) := .next h.keyInstr

theorem Canon.execKeyArriveWait {c : Fin 256} {t : Fin 16} : CanonNext (execKeyArriveWait c t s) := .next h.keyInstr

theorem Canon.execKeyAdd {c : Fin 256} {t : Fin 16} : CanonNext (execKeyAdd c t s) := .next h.keyInstr

theorem Canon.execKeyRead {c : Fin 256} {t : Fin 16} : CanonNext (execKeyRead c t s) := .next h.keyInstr

theorem Canon.execKeyAcquire {c : Fin 256} {t : Fin 16} : CanonNext (execKeyAcquire c t s) := .next h.keyInstr

theorem Canon.execKeyRelease {c : Fin 256} {t : Fin 16} : CanonNext (execKeyRelease c t s) := .next h.keyInstr

theorem Canon.execWaitt {c : Fin 256} {t : Fin 16} : CanonNext (execWaitt c t s) := .next (h.instr (fun _ hz _ _ => hz.waitTick))

theorem Canon.execImx {c : Fin 256} {t : Fin 16} : CanonNext (execImx c t s) := .next (h.instr (fun _ hz _ _ => hz.issueArray))

theorem Canon.execIfs {c : Fin 256} {t : Fin 16} : CanonNext (execIfs c t s) := .next (h.instr (fun _ hz _ _ => hz.issueChain))

theorem Canon.execIdma {c : Fin 256} {t : Fin 16} : CanonNext (execIdma c t s) := .next (h.instr (fun _ hz _ _ => hz.issueDesc))

theorem Canon.execEnds {c : Fin 256} {t : Fin 16} : CanonNext (execEnds c t s) := .next (h.instr (fun _ hz _ _ => hz.finish))

theorem Canon.execNop {c : Fin 256} {t : Fin 16} : CanonNext (execNop c t s) := .next (h.instr (fun _ hz _ _ => hz.done))

theorem Canon.execWaitRetest {c : Fin 256} {t : Fin 16} : CanonNext (execWaitRetest c t s) := .next h.awake.retest

end

end Sys2Proof.Machine
end

section
/-! PROOFS. Every step keeps the memories canonical and the tick in range (R160, R189, R285, R299). -/

namespace Sys2Proof.Machine

open Sys2Proof

/-- Every command keeps the invariant: the rule of each. -/
theorem Canon.exec {s : State} (h : Canon s) : ∀ i : Instr, CanonNext (Machine.exec i s)
  | .alu .. => h.execAlu
  | .alui .. => h.execAlui
  | .lui .. => h.execLui
  | .ldw .. => h.execLdw
  | .stw .. => h.execStw
  | .br .. => h.execBr
  | .bsum .. => h.execBsum
  | .jal .. => h.execJal
  | .jalr .. => h.execJalr
  | .mfs .. => h.execMfs
  | .mfsys .. => h.execMfsys
  | .gset .. => h.execGset
  | .gbind .. => h.execGbind
  | .keyArrive .. => h.execKeyArrive
  | .keyWait .. => h.execKeyWait
  | .keyArriveWait .. => h.execKeyArriveWait
  | .keyAdd .. => h.execKeyAdd
  | .keyRead .. => h.execKeyRead
  | .keyAcquire .. => h.execKeyAcquire
  | .keyRelease .. => h.execKeyRelease
  | .waitt .. => h.execWaitt
  | .imx .. => h.execImx
  | .ifs .. => h.execIfs
  | .idma .. => h.execIdma
  | .ends .. => h.execEnds
  | .nop .. => h.execNop
  | .waitRetest .. => h.execWaitRetest
  | .load .. => h.execLoad
  | .stream .. => h.execStream
  | .claim .. => h.execClaim
  | .release .. => h.execRelease
  | .loadDone .. => h.execLoadDone
  | .streamDone .. => h.execStreamDone
  | .writePoint .. => h.execWritePoint
  | .run .. => h.execRun
  | .ldtab .. => h.execLdtab
  | .ldtabDone .. => h.execLdtabDone
  | .chainDone .. => h.execChainDone
  | .copy .. => h.execCopy
  | .gather .. => h.execGather
  | .scatter .. => h.execScatter
  | .ingest .. => h.execIngest
  | .send .. => h.execSend
  | .transpose .. => h.execTranspose
  | .walk .. => h.execWalk
  | .descriptorDone .. => h.execDescriptorDone
  | .meshDelivery .. => h.execMeshDelivery
  | .walkStep .. => h.execWalkStep
  | .emitCommand .. => h.execEmitCommand
  | .walkDone .. => h.execWalkDone
  | .schLoad .. => h.execSchLoad
  | .imageLoadDone => h.execImageLoadDone
  | .schArm .. => h.execSchArm
  | .schDisarm .. => h.execSchDisarm
  | .schUnload .. => h.execSchUnload
  | .schPark .. => h.execSchPark
  | .schResume .. => h.execSchResume
  | .schStop .. => h.execSchStop
  | .startTick => h.execStartTick
  | .pier0Seal .. => h.execPier0Seal
  | .spanStart => h.execSpanStart
  | .spanEnd => h.execSpanEnd
  | .pierSeal => h.execPierSeal
  | .gate .. => h.execGate
  | .wake .. => h.execWake
  | .refreshWindow .. => h.execRefreshWindow
  | .vfChange .. => h.execVfChange
  | .tickExchange .. => h.execTickExchange
  | .tickHoldover => h.execTickHoldover
  | .tickLost => h.execTickLost
  | .tckReparent .. => h.execTckReparent
  | .flitReceive .. => h.execFlitReceive
  | .slotTransmit .. => h.execSlotTransmit
  | .reorderTimeout .. => h.execReorderTimeout
  | .alarmReceive .. => h.execAlarmReceive
  | .rewindRaise => h.execRewindRaise
  | .restoreDone .. => h.execRestoreDone
  | .rewindTick => h.execRewindTick
  | .patchApply .. => h.execPatchApply
  | .patchChecked => h.execPatchChecked
  | .patchAbort .. => h.execPatchAbort
  | .halfSlotReceive .. => h.execHalfSlotReceive
  | .halfSlotRetransmit .. => h.execHalfSlotRetransmit
  | .portLeaveOff .. => h.execPortLeaveOff
  | .ringsLocked .. => h.execRingsLocked
  | .trainDone .. => h.execTrainDone
  | .portFailTimeout .. => h.execPortFailTimeout
  | .ringLoopUpdate .. => h.execRingLoopUpdate
  | .ringLockLost .. => h.execRingLockLost
  | .trsRelock .. => h.execTrsRelock
  | .trsCal .. => h.execTrsCal
  | .calDone .. => h.execCalDone
  | .matrixParity .. => h.execMatrixParity
  | .matrixRecomputed .. => h.execMatrixRecomputed
  | .combLocked .. => h.execCombLocked
  | .combLoss .. => h.execCombLoss
  | .failoverDone => h.execFailoverDone
  | .failoverTimeout => h.execFailoverTimeout
  | .cmbPaired .. => h.execCmbPaired
  | .cmbSingleK0 .. => h.execCmbSingleK0
  | .cmbSingleK1 .. => h.execCmbSingleK1
  | .hbmInit .. => h.execHbmInit
  | .hbmTrain .. => h.execHbmTrain
  | .hbmRowSoft .. => h.execHbmRowSoft
  | .hbmRowHard .. => h.execHbmRowHard
  | .hbmLane .. => h.execHbmLane
  | .hbmCmdDone .. => h.execHbmCmdDone
  | .sumpClose .. => h.execSumpClose
  | .galInit .. => h.execGalInit
  | .galRetire .. => h.execGalRetire
  | .galAbort .. => h.execGalAbort
  | .galTrain .. => h.execGalTrain
  | .migrationDone => h.execMigrationDone
  | .galRefresh .. => h.execGalRefresh
  | .channelFailed .. => h.execChannelFailed
  | .bar2Write .. => h.execBar2Write
  | .bar2Read .. => h.execBar2Read
  | .hostWriteDrain => h.execHostWriteDrain
  | .registerWrite .. => h.execRegisterWrite
  | .sweepStart .. => h.execSweepStart
  | .blockStart .. => h.execBlockStart
  | .updLd .. => h.execUpdLd
  | .updSt .. => h.execUpdSt
  | .updAdd .. => h.execUpdAdd
  | .updSub .. => h.execUpdSub
  | .updMul .. => h.execUpdMul
  | .updMulk .. => h.execUpdMulk
  | .updAddk .. => h.execUpdAddk
  | .updShr .. => h.execUpdShr
  | .updShl .. => h.execUpdShl
  | .updMin .. => h.execUpdMin
  | .updMax .. => h.execUpdMax
  | .updAbs .. => h.execUpdAbs
  | .updNeg .. => h.execUpdNeg
  | .updCmpgt .. => h.execUpdCmpgt
  | .updSel .. => h.execUpdSel
  | .updLut .. => h.execUpdLut
  | .updClip .. => h.execUpdClip
  | .updEnd .. => h.execUpdEnd
  | .blockCommit .. => h.execBlockCommit
  | .journalReplay .. => h.execJournalReplay
  | .seepSend => h.execSeepSend
  | .seepAck .. => h.execSeepAck
  | .seepResend => h.execSeepResend
  | .seepGap => h.execSeepGap
  | .skipRound .. => h.execSkipRound
  | .closeRound .. => h.execCloseRound
  | .replicaDigestSend .. => h.execReplicaDigestSend
  | .voteWindows .. => h.execVoteWindows
  | .voteBlocks .. => h.execVoteBlocks
  | .voteWrite .. => h.execVoteWrite
  | .pieStressGo .. => h.execPieStressGo
  | .buddySend => h.execBuddySend
  | .stateSend => h.execStateSend
  | .stateRecv => h.execStateRecv
  | .stateAck .. => h.execStateAck
  | .stateResend => h.execStateResend
  | .adopt => h.execAdopt
  | .selfRestore .. => h.execSelfRestore
  | .probation => h.execProbation
  | .stateStatus => h.execStateStatus
  | .neighbourDark .. => h.execNeighbourDark
  | .neighbourWithdraw .. => h.execNeighbourWithdraw
  | .ctxClose .. => h.execCtxClose
  | .ctxPark .. => h.execCtxPark
  | .ctxUnpark .. => h.execCtxUnpark
  | .ctxSetQuota .. => h.execCtxSetQuota
  | .ctxGrant .. => h.execCtxGrant
  | .ctxReturn .. => h.execCtxReturn
  | .ctxGrantKey .. => h.execCtxGrantKey
  | .ctxReturnKey .. => h.execCtxReturnKey
  | .zeroPage => h.execZeroPage
  | .quarantineEnd .. => h.execQuarantineEnd
  | .hifMbxDb .. => h.execHifMbxDb
  | .hifMbxAck .. => h.execHifMbxAck
  | .mbxDone => h.execMbxDone
  | .shape => h.execShape
  | .echo => h.execEcho
  | .keyRotate => h.execKeyRotate
  | .mgtRead .. => h.execMgtRead
  | .mgtWrite .. => h.execMgtWrite
  | .mbx .. => h.execMbx
  | .mbxAck .. => h.execMbxAck
  | .mbxPoll .. => h.execMbxPoll
  | .notify .. => h.execNotify
  | .lockClaim .. => h.execLockClaim
  | .lockRelease .. => h.execLockRelease
  | .genBulkClaim .. => h.execGenBulkClaim
  | .genBulkRelease .. => h.execGenBulkRelease
  | .semHb .. => h.execSemHb
  | .semForce .. => h.execSemForce
  | .leaseExpiry .. => h.execLeaseExpiry
  | .d3hotEntry => h.execD3hotEntry
  | .d0Resume => h.execD0Resume
  | .pmeRepeat => h.execPmeRepeat
  | .conventionalReset => h.execConventionalReset
  | .hotReset => h.execHotReset
  | .functionLevelReset => h.execFunctionLevelReset
  | .mrst => h.execMrst
  | .auxPowerUp => h.execAuxPowerUp
  | .auxPowerLoss => h.execAuxPowerLoss
  | .mainPowerUp => h.execMainPowerUp
  | .mainPowerLoss => h.execMainPowerLoss
  | .rstCore .. => h.execRstCore
  | .rstDie .. => h.execRstDie
  | .rstWarm .. => h.execRstWarm
  | .rstCold .. => h.execRstCold
  | .rstSpare .. => h.execRstSpare
  | .warmRecoveryDone => h.execWarmRecoveryDone
  | .resetEscalation => h.execResetEscalation
  | .progressExpiry .. => h.execProgressExpiry
  | .coreWatchdog .. => h.execCoreWatchdog
  | .partitionWatchdog => h.execPartitionWatchdog
  | .firmwareWatchdog => h.execFirmwareWatchdog
  | .qualWindow .. => h.execQualWindow
  | .pllUnlock .. => h.execPllUnlock
  | .powerAlert .. => h.execPowerAlert
  | .governorStep => h.execGovernorStep
  | .trip .. => h.execTrip
  | .railFault .. => h.execRailFault
  | .traceDrain => h.execTraceDrain
  | .trcSnap .. => h.execTrcSnap
  | .snapshotLatch => h.execSnapshotLatch
  | .enterTest .. => h.execEnterTest
  | .leaveTest .. => h.execLeaveTest
  | .lbist .. => h.execLbist
  | .mbistDie .. => h.execMbistDie
  | .mbistDevice .. => h.execMbistDevice
  | .hbmTest .. => h.execHbmTest
  | .testDone .. => h.execTestDone
  | .bypass => h.execBypass
  | .idcode => h.execIdcode
  | .samplePreload .. => h.execSamplePreload
  | .extest => h.execExtest
  | .extestPulse => h.execExtestPulse
  | .extestTrain => h.execExtestTrain
  | .testLogicReset => h.execTestLogicReset
  | .cntClr .. => h.execCntClr
  | .logRel .. => h.execLogRel
  | .coreLogRel .. => h.execCoreLogRel
  | .intSet .. => h.execIntSet
  | .registerRead .. => h.execRegisterRead
  | .lightFromPeer .. => h.execLightFromPeer
  | .halfSlotAlignment .. => h.execHalfSlotAlignment
  | .hbmHot .. => h.execHbmHot
  | .refreshOutsideWindows .. => h.execRefreshOutsideWindows
  | .galCmdDone => h.execGalCmdDone
  | .hbmTrainingDone .. => h.execHbmTrainingDone
  | .resetDone .. => h.execResetDone
  | .mrstRelease => h.execMrstRelease
  | .alertEnd => h.execAlertEnd
  | .mgtLinkChange .. => h.execMgtLinkChange
  | .foreignFrame .. => h.execForeignFrame

/-- Every step keeps it: a command runs on the state with the rest of the queue, and with none waiting a tick passes. -/
theorem Canon.step {s : State} (h : Canon s) : CanonNext (Machine.step s) := by
  unfold Machine.step
  split
  · exact h.frame.exec _
  · exact .next h.idle

end Sys2Proof.Machine

namespace Sys2Proof

open Machine

/-- Settles O59, by the invariant `Canon` of `step`. -/
theorem stepKeepsMemoriesAndTick : Obligations.StepKeepsMemoriesAndTick := by
  unfold Obligations.StepKeepsMemoriesAndTick
  intro s t memories tick hs
  have h : Canon t := Canon.step ⟨memories, tick⟩ t hs
  exact ⟨h.memories, h.tick⟩

end Sys2Proof
end

section
/-! PROOFS. The warm reset by command, PCIe resets, the cold reset and the module reset input (R425, R459 to R463, R500): what each
adds to the warm reset, and what the cold reset leaves. What a reset reports of itself comes after its clearing (log 54). -/

namespace Sys2Proof.Machine

open Sys2Proof

/-! What has been sent stays sent. -/

section
variable (s : State)

theorem State.sendVector_sent (ty : Nat) : s.out <+: (s.sendVector ty).out := by
  unfold State.sendVector
  dsimp only
  (repeat' split)
  · exact List.prefix_rfl
  · exact List.prefix_rfl
  · exact List.prefix_append _ _

theorem State.refreshLine_sent (ty : Nat) : s.out <+: (s.refreshLine ty).out := by
  have hsend : ∀ h : HostState, s.out <+: (State.sendVector { s with host := h } ty).out := fun h =>
    State.sendVector_sent { s with host := h } ty
  unfold State.refreshLine
  dsimp only
  (repeat' split)
  · exact hsend _
  · exact hsend _
  · exact List.prefix_rfl
  · exact List.prefix_rfl

theorem State.raiseInt_sent (page bit : Nat) : s.out <+: (s.raiseInt page bit).out :=
  State.refreshLine_sent ((s.markSet page 0x10 bit).setReg page 0x10 (setBit (s.reg page 0x10) bit)) _

theorem State.wakeReason_sent (r : Nat) : s.out <+: (s.wakeReason r).out := by
  unfold State.wakeReason
  dsimp only
  split
  · exact List.prefix_rfl
  · have hset : ∀ v, s.out <+: (((s.markSet pgHIF 0x50 31).setReg pgHIF 0x50 v).raiseInt pgHIF 0).out := fun v =>
      State.raiseInt_sent ((s.markSet pgHIF 0x50 31).setReg pgHIF 0x50 v) pgHIF 0
    generalize hq : (((s.markSet pgHIF 0x50 31).setReg pgHIF 0x50 _).raiseInt pgHIF 0) = q
    have hraise : s.out <+: q.out := hq ▸ hset _
    (repeat' split)
    · exact hraise
    · exact hraise.trans (List.prefix_append _ _)
    · exact hraise.trans (List.prefix_append _ _)

theorem State.setInt_sent (page bit : Nat) : s.out <+: (s.setInt page bit).out := by
  have hraise := s.raiseInt_sent page bit
  unfold State.setInt
  dsimp only
  (repeat' split)
  · exact hraise.trans (State.wakeReason_sent _ _)
  · exact hraise.trans (State.wakeReason_sent _ _)
  · exact hraise.trans (State.wakeReason_sent _ _)
  · exact hraise

theorem State.logRaw_sent (page l0 l1 l2 : Nat) : s.out <+: (s.logRaw page l0 l1 l2).out := by
  have hwake : ∀ z : State, z.out = s.out → s.out <+: (z.wakeHw l0).out := fun z hz => by
    unfold State.wakeHw
    rw [← hz]
    split
    · exact z.wakeReason_sent 3
    · exact List.prefix_rfl
  unfold State.logRaw
  split
  · exact s.setInt_sent _ _
  · exact hwake _ (by simp)

theorem State.trcPut_sent (ty src : Nat) (b : List Byte) : s.out <+: (s.trcPut ty src b).out := by
  unfold State.trcPut
  dsimp only
  split
  · exact List.prefix_rfl
  · have hdrop : ∀ t : TraceState, s.out <+: (((State.cnt { s with trace := t } pgTRC 0x80 1)).setInt pgTRC 0).out := fun t =>
      State.setInt_sent (State.cnt { s with trace := t } pgTRC 0x80 1) pgTRC 0
    exact (hdrop _).trans (State.logRaw_sent _ _ _ _ _)

theorem State.trc_sent (ty src : Nat) (c : Option Nat) (b : List Byte) : s.out <+: (s.trc ty src c b).out := by
  unfold State.trc
  split
  · exact s.trcPut_sent ty src b
  · exact List.prefix_rfl

theorem State.logErr_sent (page l0 l1 l2 : Nat) : s.out <+: (s.logErr page l0 l1 l2).out := by
  have hraw := s.logRaw_sent page l0 l1 l2
  unfold State.logErr State.trcFault
  dsimp only
  (repeat' split)
  · exact hraw
  · exact hraw
  · exact hraw.trans (State.trc_sent _ _ _ _ _)

end

/-- What stands through interrupts and records: the fuse, every register but those of interrupts and records, and what has been sent. -/
structure Announced (z u : State) : Prop extends Reported z u where
  registers : ∀ {p o}, Quiet p o → u.reg p o = z.reg p o
  part : u.bin = z.bin
  sent : z.out <+: u.out

theorem Announced.refl (z : State) : Announced z z := ⟨Reported.refl z, fun _ => rfl, rfl, List.prefix_rfl⟩

theorem Announced.trans {a b c : State} (h : Announced a b) (g : Announced b c) : Announced a c :=
  ⟨h.toReported.trans g.toReported, fun hq => (g.registers hq).trans (h.registers hq), g.part.trans h.part, h.sent.trans g.sent⟩

theorem Announced.setInt (s : State) (page bit : Nat) : Announced s (s.setInt page bit) :=
  ⟨Reported.setInt s page bit, fun h => s.setInt_quiet page bit h, by simp, s.setInt_sent page bit⟩

theorem Announced.logErr (s : State) (page l0 l1 l2 : Nat) : Announced s (s.logErr page l0 l1 l2) :=
  ⟨Reported.logErr s page l0 l1 l2, fun h => s.logErr_quiet page l0 l1 l2 h, by simp, s.logErr_sent page l0 l1 l2⟩

theorem Announced.dumpDone (s : State) : Announced s s.dumpDone := by
  unfold State.dumpDone
  dsimp only
  refine Announced.trans ?_ (Announced.setInt _ _ _)
  split
  · exact Announced.refl s
  · exact Announced.logErr s _ _ _ _

theorem Announced.reportCut (s : State) (test : Option (Nat × Nat)) : Announced s (s.reportCut test) := by
  have hrep := Reported.reportCut s test
  unfold State.reportCut at hrep ⊢
  split at hrep
  · exact Announced.refl s
  · next op target =>
    have hlog := Announced.logErr { s with trace := { s.trace with tstState := 5, tstRefuse := 0, tstOp := op } } pgTST (3 * 2 ^ 24)
      (op + target * 2 ^ 8) 0
    exact ⟨hrep, fun h => hlog.registers h, hlog.part, hlog.sent⟩

/-! PCIe resets (R425, R442). -/

/-- The host's part that a PCIe reset writes: the link is trained, the configuration space is reset, and PCIe's locks are free. -/
def State.pcieFreed (s : State) : State :=
  ({ s.trainPcie with host := { s.trainPcie.host with d3hot := false, l1 := false, msix := [], pba := 0 } } : State).releaseAll 1

/-- All else that a PCIe reset does is its report. -/
theorem Reported.pcieReset (k : Nat) (s : State) : Reported s.pcieFreed (s.pcieReset k) :=
  (((Reported.logErr s.pcieFreed pgSEM (3 * 2 ^ 24 + 1 * 2 ^ 16 + 2 ^ 14) 0 0).trans (Reported.cnt _ pgHIF 0x7C 1)).trans
    (Reported.logErr _ pgHIF (5 * 2 ^ 24 + k * 2 ^ 16) 0 0)).trans (Reported.setInt _ pgHIF 4)

theorem State.pcieReset_quiet (k : Nat) (s : State) {p o : Nat} (h : Quiet p o) (hp : p ≠ pgHIF) :
    (s.pcieReset k).reg p o = s.reg p o := by
  unfold State.pcieReset State.pcieUnlock State.semLog
  rw [State.setInt_quiet _ _ _ h, State.logErr_quiet _ _ _ _ _ h, State.cnt_quiet _ _ _ _ _ _ h.low (by decide) (.inl hp),
    State.logErr_quiet _ _ _ _ _ h]
  rfl

/-- What a warm reset leaves stands through a report. -/
theorem WarmFrom.reported {s z u : State} (h : WarmFrom s z) (g : Reported z u) : WarmFrom s u := by
  obtain ⟨g0, g1, gq, -⟩ := HostState.still_fields g.host
  obtain ⟨gtick, gfrac, gtck⟩ := g.time
  have hcore := g.core
  exact {
    job := by rw [g.job.1]; exact h.job
    image := by rw [g.job.1]; exact h.image
    phase := by rw [g.job.1]; exact h.phase
    time := by rw [gfrac, gtck, gtick]; exact h.time
    cores := fun ht hm c => by rw [hcore c]; exact h.cores ht hm c
    units := fun c => by rw [hcore c]; exact h.units c
    mesh := g.cores.2.trans h.mesh
    grants := by rw [g.contexts]; exact h.grants
    memory := by rw [g.memory]; exact h.memory
    buddy := by rw [g.training.2]; exact h.buddy
    mailboxes := by rw [g0, g1, gq]; exact h.mailboxes
    point := by rw [g.power.1]; exact h.point
    dump := by rw [g.power.2]; exact h.dump
    recovery := by rw [g.power.2, gtick]; exact h.recovery }

/-- Nor does the host's part of a PCIe reset touch it. -/
theorem WarmFrom.pcieFreed {s z : State} (h : WarmFrom s z) : WarmFrom s z.pcieFreed := by
  obtain ⟨hjob, himage, hphase, htime, hcores, hunits, hmesh, hgrants, hmemory, hbuddy, hmail, hpoint, hdump, hrecovery⟩ := h
  exact ⟨hjob, himage, hphase, htime, hcores, hunits, hmesh, hgrants, hmemory, hbuddy, hmail, hpoint, hdump, hrecovery⟩

/-- The report of a PCIe reset comes after the clearing (log 54). -/
theorem WarmFrom.pcieReset (k : Nat) (s : State) : WarmFrom s (s.warm (State.pcieReset k)) :=
  WarmFrom.reported (WarmFrom.pcieFreed (WarmFrom.warm s (say := id) Reported.refl)) (Reported.pcieReset k _)

/-- After a PCIe reset the MSI-X table is at reset, the function is in D0, and PCIe holds no page. -/
theorem State.pcieReset_host (k : Nat) {s : State} (hok : OwnersOk s) :
    (s.pcieReset k).host.msix = [] ∧ (s.pcieReset k).host.d3hot = false ∧
    ∀ p, (s.pcieReset k).owner p = if s.owner p = 1 then 0 else s.owner p := by
  have hstill := (Reported.pcieReset k s).host
  obtain ⟨-, -, -, -, -, hlocks, -, -, -, hd3, -⟩ := HostState.still_fields hstill
  refine ⟨congrArg HostState.msix hstill, hd3, fun p => ?_⟩
  rw [State.owner_congr hlocks]
  exact State.owner_releaseAll (s := { s.trainPcie with host := { s.trainPcie.host with d3hot := false, l1 := false, msix := [], pba := 0 } })
    hok 1 p

/-! A request that a recovery contains (R461). -/

/-- What a request leaves that a reset in progress contains. -/
structure Absorbed (s u : State) : Prop where
  resets : u.rst = { s.rst with refuse := 4 }
  schedule : u.sch = s.sch
  cores : u.cores = s.cores
  memory : u.mem = s.mem
  count : u.reg pgRST 0x58 = satAt max32 (s.reg pgRST 0x58 + 1)

theorem Absorbed.rstAbsorb (s : State) : Absorbed s (s.rstAbsorb 0x58) := by
  have hreg : (s.rstAbsorb 0x58).reg pgRST 0x58 = satAt max32 (s.reg pgRST 0x58 + 1) :=
    State.reg_cnt_same ({ s with rst := { s.rst with refuse := 4 } }) pgRST 0x58 1
  exact ⟨by simp [State.rstAbsorb], by simp [State.rstAbsorb], by simp [State.rstAbsorb], by simp [State.rstAbsorb], hreg⟩

theorem Absorbed.pcieReset (k : Nat) {s z : State} (h : Absorbed s z) : Absorbed s (z.pcieReset k) := by
  have hrep := Reported.pcieReset k z
  exact {
    resets := hrep.power.2.trans h.resets
    schedule := hrep.job.1.trans h.schedule
    cores := hrep.cores.1.trans h.cores
    memory := hrep.memory.trans h.memory
    count := (z.pcieReset_quiet k (untimed_of_ne (by decide) _).toQuiet (by decide)).trans h.count }

theorem exec_rstWarm_eq {s : State} {m : Master} (h : Commands s m pgRST) : exec (.rstWarm m) s = .next (s.requestWarm id) :=
  congrArg Host.Outcome.next (h.lk 0x40 _)

/-- The three PCIe resets differ in the RTYPE that they record. -/
theorem exec_pcieReset {i : Instr} (h : i = .conventionalReset ∨ i = .hotReset ∨ i = .functionLevelReset) (s : State) :
    ∃ k, exec i s = .next (if !s.pwr.mainOk || s.rst.mrstLow then s else s.requestWarm (State.pcieReset k)) := by
  rcases h with rfl | rfl | rfl
  exacts [⟨0, rfl⟩, ⟨1, rfl⟩, ⟨2, rfl⟩]

/-- A request with a PCIe reset's report, taken or absorbed, is that reset of a state with the owners of before. -/
theorem State.requestWarm_pcie (k : Nat) {s : State} (hok : OwnersOk s) :
    ∃ z, OwnersOk z ∧ (∀ p, z.owner p = s.owner p) ∧ s.requestWarm (State.pcieReset k) = z.pcieReset k := by
  unfold State.requestWarm
  split
  · have hlocks : (s.rstAbsorb 0x58).host.locks = s.host.locks := by simp [State.rstAbsorb]
    exact ⟨_, hok.congr hlocks, State.owner_congr hlocks, rfl⟩
  · obtain ⟨z, hz, he⟩ := State.warm_locks s (State.pcieReset k)
    exact ⟨z, hok.congr hz, State.owner_congr hz, he⟩

/-! Cold resets (R459, R460). -/

/-- What a cold reset reads of the state: the same in both. -/
structure ColdAlike (s z : State) : Prop where
  host : z.host = s.host
  repairs : z.mem.stack = s.mem.stack
  spares : z.rst.coreMap = s.rst.coreMap ∧ z.rst.spares = s.rst.spares ∧ z.rst.absent = s.rst.absent
  part : z.bin = s.bin ∧ z.rst.fw = s.rst.fw
  config : z.reg pgMD 0x40 = s.reg pgMD 0x40 ∧ z.reg pgRST 0x44 = s.reg pgRST 0x44
  count : z.reg pgRST 0x5C = s.reg pgRST 0x5C

theorem ColdAlike.elapse (n : Nat) (s : State) : ColdAlike s (elapse n s) := by
  obtain ⟨wd, hrst⟩ := elapse_rst n s
  have hreg : ∀ {o : Nat} (_ : o < 0x1000 ∧ 0x40 ≤ o ∧ o ∉ [0x50, 0x78, 0x80, 0x88, 0xB4]) (p : Nat),
      (Machine.elapse n s).reg p o = s.reg p o := fun h p => elapse_reg (untimed_of_ne h p) n s
  exact ⟨by simp, by simp, by simp [hrst], by simp [hrst], ⟨hreg (by decide) _, hreg (by decide) _⟩, hreg (by decide) _⟩

/-- A dump writes its own part of the resets' state, and notes the bit that it sets. -/
theorem ColdAlike.writeDump (s : State) (type : Nat) : ColdAlike s (s.writeDump type) :=
  ⟨rfl, rfl, ⟨rfl, rfl, rfl⟩, ⟨rfl, rfl⟩, ⟨rfl, rfl⟩, rfl⟩

theorem ColdFrom.alike {s z u : State} {last : Nat} (h : ColdFrom z u last) (g : ColdAlike s z) : ColdFrom s u last := by
  obtain ⟨hhost, hstack, ⟨hmap, hspares, habsent⟩, ⟨hbin, hfw⟩, ⟨hmd, hrst⟩, hcount⟩ := g
  have hslot : ∀ k, z.slot k = s.slot k := fun k => by rw [State.slot, State.slot, hhost]
  have hstk : ∀ n, z.stk n = s.stk n := fun n => by rw [State.stk, State.stk, hstack]
  exact { h with
    keys := fun k => by rw [← hslot]; exact h.keys k
    repairs := fun n => by rw [← hstk]; exact h.repairs n
    spares := by rw [← hmap, ← hspares, ← habsent]; exact h.spares
    config := by rw [← hmd, ← hrst]; exact h.config
    part := by rw [← hbin, ← hfw, ← hhost]; exact h.part
    count := by rw [← hcount]; exact h.count }

/-- Interrupts and records after the clearing leave what a cold reset left. -/
theorem ColdFrom.announced {s z u : State} {last : Nat} (h : ColdFrom s z last) (g : Announced z u) : ColdFrom s u last := by
  obtain ⟨g0, g1, gq, gslots, -, glocks, -⟩ := HostState.still_fields g.host
  obtain ⟨gtick, gfrac, gtck⟩ := g.time
  have hquiet : ∀ {o : Nat}, o < 0x1000 ∧ 0x40 ≤ o ∧ o ∉ [0x50, 0x78, 0x80, 0x88, 0xB4] → ∀ p, u.reg p o = z.reg p o :=
    fun ho p => g.registers (untimed_of_ne ho p).toQuiet
  exact {
    schedule := g.job.1.trans h.schedule
    time := by rw [gtick, gfrac, gtck]; exact h.time
    cores := by rw [g.cores.1, g.cores.2]; exact h.cores
    fabric := by rw [g.fabric.1, g.fabric.2]; exact h.fabric
    contexts := g.contexts.trans h.contexts
    training := by rw [g.training.1, g.training.2]; exact h.training
    memory := by rw [g.memory]; exact h.memory
    mailboxes := by rw [g0, g1, gq, glocks]; exact h.mailboxes
    keys := fun k => by rw [State.slot, gslots]; exact h.keys k
    repairs := fun n => by rw [State.stk, g.memory]; exact h.repairs n
    spares := by rw [g.power.2]; exact h.spares
    config := by rw [hquiet (by decide), hquiet (by decide)]; exact h.config
    part := by
      have hstill {α : Type} (f : HostState → α) : f u.host.still = f z.host.still := congrArg f g.host
      have hserial : u.host.serial = z.host.serial := hstill HostState.serial
      have hnode : u.host.nodeId = z.host.nodeId := hstill HostState.nodeId
      rw [g.part, g.power.2, hserial, hnode]
      exact h.part
    point := by rw [g.power.1]; exact h.point
    runs := by rw [g.power.2]; exact h.runs
    count := by rw [hquiet (by decide)]; exact h.count }

/-- A store with some keys' entries taken out. -/
theorem Store.find_filter {α : Type} (f : Nat → Bool) (m : Store α) (k : Nat) :
    Store.find (m.filter (fun p => f p.1)) k = if f k then Store.find m k else none := by
  induction m with
  | nil => simp
  | cons p m ih =>
    by_cases hp : f p.1 = true
    · by_cases hk : p.1 = k
      · simp [Store.find, hp, ← hk]
      · simp [Store.find, hp, hk, ih]
    · rw [List.filter_cons_of_neg (by simpa using hp), ih]
      by_cases hk : p.1 = k
      · simp [← hk, hp]
      · simp [Store.find, hk]

/-- The limit of the bin is a register's reset value. -/
@[simp] theorem State.binLimit_frame (s : State) : s.binLimit.tick = s.tick ∧ s.binLimit.frac = s.frac ∧ s.binLimit.tck = s.tck ∧
    s.binLimit.cores = s.cores ∧ s.binLimit.mesh = s.mesh ∧ s.binLimit.sch = s.sch ∧ s.binLimit.vdt = s.vdt ∧ s.binLimit.opt = s.opt ∧
    s.binLimit.ctx = s.ctx ∧ s.binLimit.train = s.train ∧ s.binLimit.buddy = s.buddy ∧ s.binLimit.mem = s.mem ∧ s.binLimit.host = s.host ∧
    s.binLimit.pwr = s.pwr ∧ s.binLimit.rst = s.rst ∧ s.binLimit.bin = s.bin := by
  unfold State.binLimit
  split <;> simp

/-- The registers that a cold reset keeps (R460, R470). -/
theorem State.coldClear_reg (s : State) {p o : Nat} (ho : o < 0x1000) (hp : p ≠ pgPWR) (hk : coldKeeps p o = true) :
    s.coldClear.reg p o = s.reg p o := by
  have hlimit : ∀ z : State, z.binLimit.reg p o = z.reg p o := fun z => by
    unfold State.binLimit
    split
    · exact State.setReg_quiet _ _ _ _ _ _ ho (by decide) (.inl hp)
    · rfl
  have hpage : regAt p o / 0x1000 = p ∧ regAt p o % 0x1000 = o := by unfold regAt; omega
  have hfind := Store.find_filter (fun k => coldKeeps (k / 0x1000) (k % 0x1000)) s.regs (regAt p o)
  rw [hpage.1, hpage.2, if_pos hk] at hfind
  unfold State.coldClear
  dsimp only
  rw [hlimit]
  simp only [State.reg, State.rd, hfind]

/-- A self-test that a reset cuts off leaves the stacks' permanent repairs. -/
theorem State.cutTest_stk (s : State) (n : Nat) : (s.cutTest.stk n).hard = (s.stk n).hard ∧ (s.cutTest.stk n).lanes = (s.stk n).lanes := by
  have hlost : ∀ t, ((s.loseStack t).stk n).hard = (s.stk n).hard ∧ ((s.loseStack t).stk n).lanes = (s.stk n).lanes := fun t => by
    by_cases h : n = t <;> simp [State.loseStack, State.stk, Store.get_set, h]
  unfold State.cutTest
  split
  · exact ⟨rfl, rfl⟩
  · split
    · exact ⟨rfl, rfl⟩
    · split
      · exact hlost _
      · exact ⟨rfl, rfl⟩

theorem State.cutTest_part (s : State) : s.cutTest.host = s.host ∧ s.cutTest.bin = s.bin ∧ s.cutTest.rst = s.rst := by
  unfold State.cutTest State.zeroDie State.loseStack
  (repeat' split) <;> exact ⟨rfl, rfl, rfl⟩

/-- Key slots after the clearing: both floors start at their reservations (R437). -/
theorem State.coldClear_slot (s : State) (k : Nat) : s.coldClear.slot k = (s.slot k).cold := by
  have hslots : s.coldClear.host.slots = Store.mapVals (fun _ x => x.cold) s.host.slots := by
    simp [State.coldClear, State.bare, s.cutTest_part.1]
  rw [State.slot, hslots, Store.get_mapVals]
  cases hk : Store.find s.host.slots k with
  | none => simp [State.slot, Store.get_of_find_none _ hk, KeySlot.cold]
  | some x => simp [State.slot, Store.get_of_find_some _ hk]

/-- Stacks after the clearing: their permanent repairs stay (R298). -/
theorem State.coldClear_stk (s : State) (n : Nat) : s.coldClear.stk n = (s.cutTest.stk n).cold := by
  have hstacks : s.coldClear.mem.stack = Store.mapVals (fun _ x => x.cold) s.cutTest.mem.stack := by
    simp [State.coldClear, State.bare]
  rw [State.stk, hstacks, Store.get_mapVals]
  cases hn : Store.find s.cutTest.mem.stack n with
  | none => simp [State.stk, Store.get_of_find_none _ hn, Stack.cold]
  | some x => simp [State.stk, Store.get_of_find_some _ hn]

/-- The resets' state after the clearing. -/
theorem State.coldClear_rst (s : State) : s.coldClear.rst = {
    coreMap := s.rst.coreMap, spares := s.rst.spares, absent := s.rst.absent, fw := s.rst.fw, last := s.rst.last, fwRun := s.rst.fwRun
    mrstLow := s.rst.mrstLow, firstAnswer := false, allAnswer := false, coldAt := if s.rst.mrstLow then none else some s.aon
    dump := if bitAt (s.reg pgMD 0x40) 0 then s.rst.dump else none, dumpType := s.rst.dumpType, dumpRecs := s.rst.dumpRecs } := by
  simp [State.coldClear, State.bare, s.cutTest_part.2.2]

/-- What the clearing puts at reset. -/
theorem State.coldClear_anew (s : State) : s.coldClear.sch = {} ∧ s.coldClear.tick = 0 ∧ s.coldClear.frac = 0 ∧ s.coldClear.tck = {} ∧
    s.coldClear.cores = [] ∧ s.coldClear.mesh = [] ∧ s.coldClear.vdt = {} ∧ s.coldClear.opt = {} ∧ s.coldClear.ctx = {} ∧
    s.coldClear.train = {} ∧ s.coldClear.buddy = {} ∧ s.coldClear.mem.dev = [] ∧ s.coldClear.mem.cap = [] ∧
    s.coldClear.mem.initDone = false ∧ s.coldClear.host.mbx0 = {} ∧ s.coldClear.host.mbx1 = {} ∧ s.coldClear.host.engineQ = [] ∧
    s.coldClear.host.locks = [] ∧ s.coldClear.pwr.point = 0 := by
  simp [State.coldClear, State.bare]

/-- What the clearing leaves of the part. -/
theorem State.coldClear_part (s : State) : s.coldClear.bin = s.bin ∧ s.coldClear.host.serial = s.host.serial ∧
    s.coldClear.host.nodeId = s.host.nodeId := by
  simp [State.coldClear, State.bare, s.cutTest_part]

/-- The clearing, with the count of the reset and LAST. -/
theorem ColdFrom.cleared (s : State) (last : Nat) :
    ColdFrom s (State.cnt { s.coldClear with rst := { s.coldClear.rst with last := last } } pgRST 0x5C 1) last := by
  generalize hz : ({ s.coldClear with rst := { s.coldClear.rst with last := last } } : State) = z
  have hcount := Reported.cnt z pgRST 0x5C 1
  have hanew := s.coldClear_anew
  have hrst : z.rst = { s.coldClear.rst with last := last } := by rw [← hz]
  have hreg : ∀ {p o : Nat}, o < 0x1000 → p ≠ pgPWR → coldKeeps p o = true → z.reg p o = s.reg p o := fun ho hp hk => by
    rw [← hz]
    exact s.coldClear_reg ho hp hk
  have hconfig : ∀ {p o : Nat}, p = pgMD ∧ o = 0x40 ∨ p = pgRST ∧ o = 0x44 → (z.cnt pgRST 0x5C 1).reg p o = s.reg p o := by
    rintro p o (⟨rfl, rfl⟩ | ⟨rfl, rfl⟩)
    · rw [State.cnt_quiet _ _ _ _ _ _ (by decide) (by decide) (by decide), hreg (by decide) (by decide) (by decide)]
    · rw [State.cnt_quiet _ _ _ _ _ _ (by decide) (by decide) (by decide), hreg (by decide) (by decide) (by decide)]
  exact {
    schedule := by simp [← hz, hanew]
    time := by simp [← hz, hanew]
    cores := by simp [← hz, hanew]
    fabric := by simp [← hz, hanew]
    contexts := by simp [← hz, hanew]
    training := by simp [← hz, hanew]
    memory := by simp [← hz, hanew]
    mailboxes := by simp [← hz, hanew]
    keys := fun k => by
      have hslot : (z.cnt pgRST 0x5C 1).slot k = (s.slot k).cold := by
        rw [← s.coldClear_slot k, State.slot, show (z.cnt pgRST 0x5C 1).host = z.host by simp, ← hz]
        rfl
      simp [hslot, KeySlot.cold]
    repairs := fun n => by
      have hstk : (z.cnt pgRST 0x5C 1).stk n = (s.cutTest.stk n).cold := by
        rw [← s.coldClear_stk n, State.stk, hcount.memory, ← hz]
        rfl
      rw [hstk]
      exact s.cutTest_stk n
    spares := by simp [hrst, s.coldClear_rst]
    config := ⟨hconfig (.inl ⟨rfl, rfl⟩), hconfig (.inr ⟨rfl, rfl⟩)⟩
    part := by simp [← hz, s.coldClear_rst, s.coldClear_part]
    point := by simp [← hz, hanew]
    runs := by simp [hrst, s.coldClear_rst]
    count := by rw [State.reg_cnt_same, hreg (by decide) (by decide) (by decide)] }

theorem ColdFrom.cold (s : State) (last : Nat) : ColdFrom s (s.cold last) last :=
  ColdFrom.announced (ColdFrom.cleared s last) (Announced.reportCut _ s.trace.test)

theorem State.cold_rst (s : State) (last : Nat) : (s.cold last).rst = { s.coldClear.rst with last := last } := by
  have hcut := Announced.reportCut (State.cnt { s.coldClear with rst := { s.coldClear.rst with last := last } } pgRST 0x5C 1) s.trace.test
  exact hcut.power.2.trans (by simp)

theorem ColdFrom.coldDump (s : State) (last : Nat) : ColdFrom s (s.coldDump last) last := by
  have hcold := ColdFrom.alike (ColdFrom.cold (s.writeDump last) last) (ColdAlike.writeDump s last)
  unfold State.coldDump
  dsimp only
  split
  · exact ColdFrom.announced hcold (Announced.dumpDone _)
  · exact hcold

/-- What a cold reset with its dump leaves of the resets' state: the dump stays with Z12_RETAIN alone, and no page answers (R463, R467). -/
structure ColdDumped (s u : State) : Prop where
  dump : u.rst.dump.isSome = bitAt (s.reg pgMD 0x40) 0
  silent : u.rst.firstAnswer = false ∧ u.rst.allAnswer = false
  starts : u.rst.coldAt.isSome = !s.rst.mrstLow

theorem ColdDumped.coldDump (s : State) (last : Nat) : ColdDumped s (s.coldDump last) := by
  have hrst : (s.coldDump last).rst = { (s.writeDump last).coldClear.rst with last := last } := by
    unfold State.coldDump
    dsimp only
    split
    · rw [(Reported.dumpDone _).power.2, State.cold_rst]
    · rw [State.cold_rst]
  have hdump : (s.writeDump last).rst.dump.isSome = true ∧ (s.writeDump last).reg pgMD 0x40 = s.reg pgMD 0x40 ∧
      (s.writeDump last).rst.mrstLow = s.rst.mrstLow := ⟨rfl, rfl, rfl⟩
  obtain ⟨hsome, hkeep, hlow⟩ := hdump
  rw [State.coldClear_rst, hkeep, hlow] at hrst
  constructor
  · cases hb : bitAt (s.reg pgMD 0x40) 0 <;> simp [hrst, hb, hsome]
  · simp [hrst]
  · cases hm : s.rst.mrstLow <;> simp [hrst, hm]

/-- A dump in the writing is waited for, and nothing else happens meanwhile (R461). -/
theorem State.afterDump_eq (s : State) : ∃ n, s.afterDump = elapse n s := by
  unfold State.afterDump
  split
  · exact ⟨0, (elapse_still (.inl rfl)).symm⟩
  · exact ⟨_, rfl⟩

/-- The cold reset that a command or the module reset input takes, once a dump in the writing is written. -/
theorem ColdFrom.afterDump (s : State) (last : Nat) :
    ColdFrom s (s.afterDump.coldDump last) last ∧ ColdDumped s (s.afterDump.coldDump last) := by
  obtain ⟨n, hn⟩ := s.afterDump_eq
  obtain ⟨wd, hrst⟩ := elapse_rst n s
  have halike := ColdAlike.elapse n s
  obtain ⟨hdump, hsilent, hstarts⟩ := ColdDumped.coldDump (elapse n s) last
  rw [halike.config.1] at hdump
  rw [hrst] at hstarts
  rw [hn]
  exact ⟨ColdFrom.alike (ColdFrom.coldDump _ last) halike, hdump, hsilent, hstarts⟩

/-- RST_COLD sets its bit of INT_STAT when the reset is complete. -/
theorem exec_rstCold_leaves {s : State} {m : Master} (h : Commands s m pgRST) : ∃ u, exec (.rstCold m) s = .next u ∧
    ColdFrom s u 4 ∧ ColdDumped s u ∧ bitAt (u.reg pgRST 0x10) 0 = true := by
  obtain ⟨hcold, hdump, hsilent, hstarts⟩ := ColdFrom.afterDump s 4
  have hint := Announced.setInt (s.afterDump.coldDump 4) pgRST 0
  rw [← hint.power.2] at hdump hsilent hstarts
  exact ⟨_, congrArg Host.Outcome.next (h.lk 0x40 _), ColdFrom.announced hcold hint, ⟨hdump, hsilent, hstarts⟩,
    State.setInt_bit_rst _ (by decide)⟩

/-- MRST# low holds the device in reset, with the pages silent (R500). -/
def State.heldLow (s : State) : State := { s with rst := { s.rst with mrstLow := true, coldAt := none } }

theorem ColdFrom.heldLow {s z : State} {last : Nat} (h : ColdFrom s z last) : ColdFrom s z.heldLow last := by
  obtain ⟨hsch, htime, hcores, hfabric, hctx, htrain, hmem, hmail, hkeys, hrepairs, hspares, hconfig, hpart, hpoint, hruns, hcount⟩ := h
  exact ⟨hsch, htime, hcores, hfabric, hctx, htrain, hmem, hmail, hkeys, hrepairs, hspares, hconfig, hpart, hpoint, hruns, hcount⟩

theorem exec_mrst_held {s : State} (h : s.pwr.auxOk = false ∨ s.rst.mrstLow = true) : exec .mrst s = .next s :=
  congrArg Host.Outcome.next (if_pos (by rcases h with h | h <;> simp [h]))

theorem exec_mrst_taken {s : State} (ha : s.pwr.auxOk = true) (hm : s.rst.mrstLow = false) :
    exec .mrst s = .next (s.afterDump.coldDump 5).heldLow :=
  congrArg Host.Outcome.next (if_neg (by simp [ha, hm]))

/-! The withdrawal that a warm reset floods (R386). -/

/-- An alarm word joins what its port has to send, and takes nothing from it. -/
theorem mem_alarmInto (l : List Out) (p t w : Nat) {o : Out} (h : o ∈ l ∨ o = .alarm p t w (crc8 (leBytes 8 w))) :
    o ∈ alarmInto l p t w := by
  unfold alarmInto
  dsimp only
  split
  · next i _ =>
    rw [List.mem_append, List.mem_cons]
    rcases h with h | h
    · rw [← List.take_append_drop i l, List.mem_append] at h
      exact h.imp id .inr
    · exact .inr (.inl h)
  · simpa using h

/-- A word flooded on some ports goes out on each of them. -/
theorem mem_sendAlarms (w : Nat) (l : List Nat) (s : State) {o : Out}
    (h : o ∈ s.out ∨ ∃ p ∈ l, o = .alarm p s.tick w (crc8 (leBytes 8 w))) : o ∈ (l.foldl (fun a p => a.sendAlarm p w) s).out := by
  induction l generalizing s with
  | nil => simpa using h
  | cons q l ih =>
    refine ih (s.sendAlarm q w) ?_
    rcases h with h | ⟨p, hp, rfl⟩
    · exact .inl (mem_alarmInto _ _ _ _ (.inl h))
    · rcases List.mem_cons.mp hp with rfl | hp
      · exact .inl (mem_alarmInto _ _ _ _ (.inr rfl))
      · exact .inr ⟨p, hp, rfl⟩

/-- An alarm word not yet known goes out on every port in partition (R235). -/
theorem State.raiseAlarm_sends {s : State} {w p : Nat} (hnew : s.knowsAlarm w = false) (hp : p < 20) (hin : s.inPart p = true) :
    .alarm p s.tick w (crc8 (leBytes 8 w)) ∈ (s.raiseAlarm w).out := by
  have hport : p ∈ (upTo 20).filter (fun p => s.inPart p && none != some p) := by simp [hp, hin, upTo]
  unfold State.raiseAlarm State.floodAlarm
  rw [if_neg (by simp [hnew])]
  dsimp only
  exact mem_sendAlarms w _ _ (.inr ⟨p, hport, by simp⟩)

theorem State.descChanged_sent (s : State) : s.out <+: s.descChanged.out :=
  State.setInt_sent { s with descGen := (s.descGen + 1) % 2 ^ 32 } pgGEN 0

theorem State.refreshMask_sent (s : State) : s.out <+: s.refreshMask.out := by
  have hset : ∀ m, s.out <+: (s.setMask m).out := fun m => by
    unfold State.setMask
    split
    · exact List.prefix_rfl
    · exact State.descChanged_sent { s with portMask := m }
  unfold State.refreshMask
  split
  · exact hset _
  · exact hset _
  · exact hset _
  · exact List.prefix_rfl

theorem State.retireSwitch_sent (s : State) : s.out <+: s.retireSwitch.out := by
  have hswitch : ∀ m : MemState, s.out <+: ((State.descChanged { s with mem := m }).setInt pgGAL 5).out := fun m =>
    (State.descChanged_sent { s with mem := m }).trans (State.setInt_sent _ _ _)
  unfold State.retireSwitch
  split
  · exact List.prefix_rfl
  · exact hswitch _

theorem State.warmRetire_sent (s : State) : s.out <+: s.warmRetire.out := by
  unfold State.warmRetire
  split
  · exact List.prefix_rfl
  · split
    · exact s.retireSwitch_sent
    · exact List.prefix_rfl

theorem State.cutTest_out (s : State) : s.cutTest.out = s.out := by
  unfold State.cutTest State.zeroDie State.loseStack
  (repeat' split) <;> rfl

theorem State.setInt_if_sent (s : State) (p : Prop) [Decidable p] (page bit : Nat) :
    s.out <+: (if p then s.setInt page bit else s).out := by
  split
  · exact s.setInt_sent page bit
  · exact List.prefix_rfl

theorem State.warmClear_sent {w : State} (h : w.mem.sump = []) : w.out <+: w.warmClear.out := by
  have hcut : w.sumpFlush.cutTest.out = w.out := by rw [State.sumpFlush_empty h, State.cutTest_out]
  generalize hz : w.sumpFlush.cutTest = z at hcut
  unfold State.warmClear
  dsimp only
  rw [hz]
  refine List.IsPrefix.trans ?_ (((State.setInt_if_sent _ _ _ _).trans (State.warmRetire_sent _)).trans (State.refreshMask_sent _))
  exact (hcut ▸ List.prefix_rfl : w.out <+: z.out)

/-- All that was sent before the clearing of a warm reset stays sent. -/
theorem State.warm_sent {s : State} (h : s.mem.sump = []) : s.warmWithdraw.out <+: (s.warm id).out := by
  have hclear : s.warmWithdraw.out <+: s.warmDumped.warmClear.out :=
    State.warmClear_sent (w := s.warmDumped) (by rw [s.warmDumped_leaves.2.2.2]; exact h)
  have hcount : s.warmDumped.warmClear.out = (s.warmBegun.cnt pgRST 0x58 1).out := by simp [State.warmBegun]
  exact (hcount ▸ hclear).trans ((Announced.dumpDone _).trans (Announced.reportCut _ _)).sent

/-- The withdrawal of a job that runs, rewinds or is parked is in what the device has sent when the reset's cause reports. -/
theorem State.warm_withdraws {s : State} (hj : s.sch.job = .running ∨ s.sch.job = .rewinding ∨ s.sch.job = .parked) (hm : s.mem.sump = [])
    {w : Nat} (hw : w = alarmWord 2 s.devId (4 + s.eventSpan % 256 * 2 ^ 8 + s.devId * 2 ^ 16)) (hnew : s.knowsAlarm w = false)
    {p : Nat} (hp : p < 20) (hin : s.inPart p = true) : .alarm p s.tick w (crc8 (leBytes 8 w)) ∈ (s.warm id).out := by
  have hflood : s.warmWithdraw = (s.raiseAlarm w).wakeReason 6 := by
    rw [hw]
    unfold State.warmWithdraw
    rcases hj with h | h | h <;> rw [h]
  have hsent := State.raiseAlarm_sends hnew hp hin
  exact (State.warm_sent hm).subset (hflood ▸ (State.wakeReason_sent _ 6).subset hsent)

end Sys2Proof.Machine

namespace Sys2Proof

open Machine

/-- Settles O52: each clause is what its reset leaves, taken or absorbed. -/
theorem warmAndColdResets : Obligations.WarmAndColdResets := by
  unfold Obligations.WarmAndColdResets
  intro s warm busy absorbed pcie
  have hfree : ¬busy → s.rst.runs.any (fun r => r.dom == .warm) = false := fun h => eq_false_of_ne_true h
  have hon : s.pwr.mainOk = true → s.rst.mrstLow = false → ¬(!s.pwr.mainOk || s.rst.mrstLow) = true := fun ha hl => by simp [ha, hl]
  have habsorbed : ∀ {i u}, exec i s = .next u → Absorbed s u → absorbed i := fun hi h =>
    ⟨_, hi, h.resets, h.schedule, h.cores, h.memory, h.count⟩
  refine ⟨fun m hm => ⟨fun h => ?_, fun h => ?_, fun h u hu => ?_, ?_⟩, fun i hi => ?_, exec_mrst_held, fun ha hl => ?_, fun h => ?_,
    fun h => ?_, fun hj hs => ?_⟩
  · exact ⟨_, (exec_rstWarm_eq hm).trans (congrArg _ (State.requestWarm_taken (hfree h) _)), WarmFrom.warm s Reported.refl⟩
  · exact habsorbed ((exec_rstWarm_eq hm).trans (congrArg _ (State.requestWarm_absorbed h _))) (Absorbed.rstAbsorb s)
  · rw [exec_rstWarm_eq hm, State.requestWarm_taken (hfree h)] at hu
    obtain ⟨z, hz, he⟩ := State.warm_locks s id
    cases hu
    rw [he]
    exact hz
  · obtain ⟨u, hu, hcold, ⟨hdump, ⟨hfirst, hall⟩, hstarts⟩, hint⟩ := exec_rstCold_leaves hm
    exact ⟨u, hu, hcold, hdump, hint, hfirst, hall, hstarts⟩
  · obtain ⟨k, hk⟩ := exec_pcieReset hi s
    refine ⟨fun h => ?_, fun ha hl h => ?_, fun ha hl h => ?_, fun hok ha hl u hu => ?_⟩
    · exact hk.trans (congrArg _ (if_pos (by rcases h with h | h <;> simp [h])))
    · rw [if_neg (hon ha hl), State.requestWarm_taken (hfree h)] at hk
      exact ⟨_, hk, WarmFrom.pcieReset k s⟩
    · rw [if_neg (hon ha hl), State.requestWarm_absorbed h] at hk
      exact habsorbed hk (Absorbed.pcieReset k (Absorbed.rstAbsorb s))
    · obtain ⟨z, hz, howner, he⟩ := State.requestWarm_pcie k hok
      rw [if_neg (hon ha hl), he, hu] at hk
      cases hk
      obtain ⟨hmsix, hd3, howners⟩ := State.pcieReset_host k hz
      exact ⟨hmsix, hd3, fun p => by rw [howners, howner]⟩
  · obtain ⟨hcold, hdump, ⟨hfirst, hall⟩, -⟩ := ColdFrom.afterDump s 5
    exact ⟨_, exec_mrst_taken ha hl, ColdFrom.heldLow hcold, hdump, rfl, hfirst, hall, rfl⟩
  · exact congrArg Host.Outcome.next (if_pos (by simp [h]))
  · exact congrArg Host.Outcome.next (if_neg (by simp [h]))
  · intro w hw say p hp hin
    exact ⟨s.warm id, rfl, State.warm_withdraws hj hs rfl hw hp hin⟩

end Sys2Proof
end

section
/-! PROOFS. Wake entries (R202, R203): what the comparator of a core and its GATE do, in the order of the core's list. -/

namespace Sys2Proof.Machine

open Sys2Proof

/-- A comparison of the sequencer, or of a comparator, changes no core and nothing of the schedule. -/
theorem State.schAgrees_frame (s : State) (who idx : Nat) : (s.schAgrees who idx).cores = s.cores ∧ (s.schAgrees who idx).sch = s.sch := by
  unfold State.schAgrees
  split
  · simp
  · exact ⟨rfl, rfl⟩

/-- A core's list moves on to its entry `n`. -/
def State.wakeNext (s : State) (c n : Nat) : State := { s with sch := { s.sch with wakeIdx := Store.set 0 s.sch.wakeIdx c n } }

/-- The comparator of core `c` fires for the entry `e`, and the list moves on to its entry `n`. -/
def State.wakeActs (s : State) (c : Nat) (e : Nat × Nat) (n : Nat) : State := ((s.wakeFires c e.2).schAgrees (c + 1) e.1).wakeNext c n

/-- A core for which the comparator fires is clocked, or its clocks run from the first tick of the entry's slot (R202). -/
theorem State.wakeFires_core (s : State) (c w : Nat) :
    ((s.wakeFires c w).core c).clocked = true ∨ ((s.wakeFires c w).core c).wakeAt = some (s.gateTick w) := by
  unfold State.wakeFires State.modCore
  dsimp only
  rw [State.core_setCore_same]
  split
  · next h => exact .inl h
  · split
    · exact .inl rfl
    · exact .inr rfl

theorem State.wakeActs_leaves (s : State) (c : Nat) (e : Nat × Nat) (n : Nat) : Store.get 0 (s.wakeActs c e n).sch.wakeIdx c = n ∧
    (((s.wakeActs c e n).core c).clocked = true ∨ ((s.wakeActs c e n).core c).wakeAt = some (s.gateTick e.2)) := by
  have hcore : (s.wakeActs c e n).core c = (s.wakeFires c e.2).core c := State.core_congr (State.schAgrees_frame _ _ _).1 c
  rw [hcore]
  exact ⟨Store.get_set_same .., s.wakeFires_core c e.2⟩

/-- The state in which a GATE at `e` acts: its slot has come, and the list has moved on. -/
def State.gateTurn (s : State) (c : Nat) (e : Nat × Nat) (n : Nat) : State :=
  ((elapseTo (s.gateTick e.2) s).schAgrees (c + 1) e.1).wakeNext c n

section
variable {s : State} {c : Fin 256} {g : Nat × Nat} {rest : List (Nat × Nat)} (hf : s.inFrames = true)
  (hd : (s.wakeOf c).drop (Store.get 0 s.sch.wakeIdx c) = g :: rest)
include hf hd

theorem exec_wake_first (hw : weWake g.2 = true) :
    exec (.wake c) s = .next (s.wakeActs c g (Store.get 0 s.sch.wakeIdx c + 1)) := by
  show execWake c s = _
  unfold execWake
  dsimp only
  rw [hf, hd]
  simp only [hw, if_true]
  rfl

/-- A WAKE that fires at or before the GATE in front of it takes both entries. -/
theorem exec_wake_cancels {w : Nat × Nat} {l : List (Nat × Nat)} (hg : weWake g.2 = false) (hr : rest = w :: l)
    (ht : s.wakeTick w.2 ≤ s.gateTick g.2) : exec (.wake c) s = .next (s.wakeActs c w (Store.get 0 s.sch.wakeIdx c + 2)) := by
  show execWake c s = _
  unfold execWake
  dsimp only
  rw [hf, hd, hr]
  simp only [hg, if_pos ht]
  rfl

/-- With a GATE in front that no WAKE cancels, the comparator does not fire. -/
theorem exec_wake_waits (hg : weWake g.2 = false) (ht : ∀ w l, rest = w :: l → s.gateTick g.2 < s.wakeTick w.2) :
    exec (.wake c) s = .next s := by
  show execWake c s = _
  unfold execWake
  dsimp only
  rw [hf, hd]
  cases rest with
  | nil => simp only [hg]; rfl
  | cons w l => simp only [hg, if_neg (Nat.not_le.mpr (ht w l rfl))]; rfl

theorem exec_gate_acts (hg : weWake g.2 = false) (ht : ∀ w l, rest = w :: l → s.gateTick g.2 < s.wakeTick w.2) :
    exec (.gate c) s = .next ((s.gateTurn c g (Store.get 0 s.sch.wakeIdx c + 1)).gateAt c g.1) := by
  show execGate c s = _
  unfold execGate
  dsimp only
  rw [hf, hd]
  cases rest with
  | nil => simp only [hg]; rfl
  | cons w l => simp only [hg, if_neg (Nat.not_le.mpr (ht w l rfl))]; rfl

end

/-- A GATE stops the clocks of an idle core (R203). -/
theorem State.gateAt_idle {y : State} {c : Nat} (idx : Nat) (h : (y.core c).gateOk = true) :
    ((y.gateAt c idx).core c).clocked = false ∧ ((y.gateAt c idx).core c).wakeAt = if y.inSpan then none else some y.pierFirst := by
  simp [State.gateAt, h, State.modCore]

end Sys2Proof.Machine

namespace Sys2Proof

open Machine

/-- Settles O25: by the entry at the head of the core's list, and the one behind it. -/
theorem wakeEntries : Obligations.WakeEntries := by
  unfold Obligations.WakeEntries
  intro s c g rest hf hd i fires
  refine ⟨fun hw => ?_, fun hg => ⟨fun w l hr ht => ?_, fun ht => ?_⟩⟩
  · exact ⟨_, exec_wake_first hf hd hw, s.wakeActs_leaves c g _⟩
  · exact ⟨_, exec_wake_cancels hf hd hg hr ht, s.wakeActs_leaves c w _⟩
  · intro z y
    have hgate : exec (.gate c) s = .next (y.gateAt c g.1) := exec_gate_acts hf hd hg ht
    refine ⟨exec_wake_waits hf hd hg ht, fun h => ⟨_, hgate, State.gateAt_idle g.1 h⟩, fun h => hgate.trans (congrArg _ (if_neg ?_))⟩
    simp [h]

end Sys2Proof
end

section
/-! PROOFS. Refresh windows and V/F changes (R199, R204, R296, R455, R456): when each falls, and what it changes. That a window's
refreshes change no value is log 34. -/

namespace Sys2Proof.Machine

open Sys2Proof

/-! Refresh windows. -/

/-- The next tick at which a window of a frame opens. -/
def State.windowTick (s : State) (w : Nat) : Nat :=
  let base := s.tick / 2048 * 2048
  if s.tick ≤ base + fld w 16 11 then base + fld w 16 11 else base + 2048 + fld w 16 11

/-- The one window of the span's set that names the group opens at its tick, with the bank pointer moved on (R296). -/
theorem exec_refreshWindow_single {s : State} {n g : Fin 8} {w : Nat} (hc : s.compiled = true)
    (hw : s.refreshSet.filter (fun w => fld w 0 3 == n.val && bitAt (fld w 8 8) g) = [w]) :
    exec (.refreshWindow n g) s = .next (elapseTo (s.windowTick w) (s.refreshBanks n g (fld w 27 12))) := by
  show execRefreshWindow n g s = _
  unfold execRefreshWindow
  dsimp only
  rw [hw, hc]
  rfl

/-! V/F changes. -/

/-- The present point changed: of the power state, the point alone. -/
theorem State.setPoint_frame (s : State) (p : Nat) : (s.setPoint p).tick = s.tick ∧ (s.setPoint p).pwr = { s.pwr with point := p } := by
  unfold State.setPoint State.pointTo
  split
  · next h => exact ⟨rfl, by rw [← h]⟩
  · simp

/-- A change of the point in a pier frame: the span's point is due no more, and becomes the present one (R204). -/
def State.vfTakes (s : State) (p : Nat) : State := ({ s with pwr := { s.pwr with due := some p } } : State).setPoint p

/-- A point that a rewind switches again: its failure is made good, and the job's images are at the point (R456). -/
def State.vfRepeats (s : State) (p : Nat) : State :=
  ({ s with pwr := { s.pwr with failed := none, imagePoint := p } } : State).setPoint p

theorem State.vfTakes_leaves (s : State) (p : Nat) :
    (s.vfTakes p).pwr.point = p ∧ (s.vfTakes p).pwr.due = some p ∧ (s.vfTakes p).tick = s.tick := by
  simp [State.vfTakes, State.setPoint_frame]

theorem State.vfRepeats_leaves (s : State) (p : Nat) :
    (s.vfRepeats p).pwr.point = p ∧ (s.vfRepeats p).pwr.failed = none ∧ (s.vfRepeats p).tick = s.tick := by
  simp [State.vfRepeats, State.setPoint_frame]

section
variable {s : State} {d : SpanDesc} (hj : s.sch.job = .running) (hp : s.sch.place = .pier) (hf : s.pwr.failed = none)
  (hdue : s.pwr.due = none) (hd : s.curDesc = some d) (hk : d.vfKeep = false)
include hj hp hf hdue hd hk

theorem exec_vfChange_raise (h : s.pwr.point < d.vfNext) (b : Bool) : exec (.vfChange b) s =
    .next (if b then ((elapseTo (s.pierFirst + 1024) s).seqAgrees d.vfNext).vfTakes d.vfNext
      else ((elapseTo (s.pierFirst + 1024) s).seqAgrees d.vfNext).vfFail d.vfNext) := by
  show execVfChange b s = _
  simp only [execVfChange, hj, hp, hf, hd, hk, hdue, Option.isSome_none, Bool.or_self, if_pos h, Bool.false_eq_true, if_false,
    State.vfTakes]

theorem exec_vfChange_lower (h : d.vfNext ≤ s.pwr.point) (b : Bool) : exec (.vfChange b) s =
    .next (((elapseTo (s.pierFirst + 64) s).seqAgrees d.vfNext).vfTakes d.vfNext) := by
  show execVfChange b s = _
  simp only [execVfChange, hj, hp, hf, hd, hk, hdue, Option.isSome_none, Bool.or_self, if_neg (Nat.not_lt.mpr h), Bool.false_eq_true,
    if_false, State.vfTakes]

end

/-- In the rewind that follows a failed raise, and that no further raise names, the raise is made again (R456). -/
theorem exec_vfChange_repeat {s : State} {p r : Nat} (hj : s.sch.job = .rewinding) (hf : s.pwr.failed = some p)
    (ha : s.pie.agreed = some r) (hn : ∀ x ∈ s.pie.raises ++ s.pie.deferred, x.next = false) (b : Bool) : exec (.vfChange b) s =
    .next (if b then ((elapseTo (r - 1024) s).seqAgrees p).vfRepeats p else ((elapseTo (r - 1024) s).seqAgrees p).vfFail p) := by
  have hany : (s.pie.raises ++ s.pie.deferred).any (·.next) = false := List.any_eq_false.mpr fun x hx => by simp [hn x hx]
  show execVfChange b s = _
  simp only [execVfChange, hj, hf, ha, hany, Bool.false_eq_true, if_false, State.vfRepeats]

end Sys2Proof.Machine

namespace Sys2Proof

open Machine

/-- Settles O26: a window that opens, then a change of the point in its pier frame, by its direction, and in a rewind. -/
theorem refreshAndPoint : Obligations.RefreshAndPoint := by
  unfold Obligations.RefreshAndPoint
  intro s
  refine ⟨fun n g w hc hw => exec_refreshWindow_single hc hw, fun d hj hp hf hdue hd hk => ⟨fun h => ?_, fun h => ?_, fun b h => ?_⟩,
    fun p r hj hf ha hn => ⟨?_, ?_⟩⟩
  · exact ⟨_, exec_vfChange_raise hj hp hf hdue hd hk h true, State.vfTakes_leaves _ _⟩
  · exact exec_vfChange_raise hj hp hf hdue hd hk h false
  · exact ⟨_, exec_vfChange_lower hj hp hf hdue hd hk h b, State.vfTakes_leaves _ _⟩
  · exact ⟨_, exec_vfChange_repeat hj hf ha hn true, State.vfRepeats_leaves _ _⟩
  · exact exec_vfChange_repeat hj hf ha hn false

end Sys2Proof
end

section
/-! PROOFS. Exchanges over the parent link (R189, R193 to R195, R267): where an exchange comes from, when it is discarded, and what a kept
one makes of the alignment's state, the count and the rate. The filter's arithmetic is log 35. -/

namespace Sys2Proof.Machine

open Sys2Proof

/-! Where an exchange comes from (R267). -/

/-- An exchange that is taken from a port leaves the clock's alignment, the fraction and the job as they were. -/
theorem State.takeExchange_frame (s : State) (p : Nat) (e : Exchange) :
    (s.takeExchange p e).1.tck = s.tck ∧ (s.takeExchange p e).1.frac = s.frac ∧ (s.takeExchange p e).1.sch = s.sch := by
  unfold State.takeExchange
  dsimp only
  (repeat' split) <;> simp

/-- The asymmetry registers are none that time writes. -/
theorem untimed_tckAsym {p : Nat} (h : p < 16) : Untimed pgTCK (0x80 + 4 * p) := by
  refine ⟨⟨by omega, by omega, .inr (by omega), fun e => ?_, fun e => ?_⟩, fun e => ?_, fun e => ?_⟩ <;> exact absurd e (by decide)

theorem State.takeExchange_asym (s : State) {p : Nat} (h : p < 16) (e : Exchange) :
    (s.takeExchange p e).1.tckAsym p = s.tckAsym p := by
  have hreg : (s.takeExchange p e).1.reg pgTCK (0x80 + 4 * p) = s.reg pgTCK (0x80 + 4 * p) := by
    unfold State.takeExchange
    dsimp only
    split
    · split
      · exact State.reg_congr (by simp) _ _
      · next x _ _ => exact (State.reg_congr (t := elapseTo x.over s) (by simp) _ _).trans (elapse_reg (untimed_tckAsym h) _ s)
    · rfl
  rw [State.tckAsym, hreg, State.tckAsym]

theorem State.tckPort_lt {s : State} {p : Nat} (h : s.tckPort = some p) : p < 16 := by
  unfold State.tckPort at h
  dsimp only at h
  generalize (if s.tck.usingBackup then _ else _) = q at h
  split at h
  · next hlt => cases h; exact hlt
  · cases h

/-! An exchange of no effect, and one taken. -/

theorem exec_tickExchange_none {s : State} {t1 t2 t3 t4 : Nat} {retx : Bool}
    (h : s.tckPort = none ∨ s.tck.state = .root ∨ s.tck.state = .lost) : exec (.tickExchange t1 t2 t3 t4 retx) s = .next s := by
  show execTickExchange t1 t2 t3 t4 retx s = _
  unfold execTickExchange
  rcases h with h | h | h
  · rw [h]
  · rw [h]; cases s.tckPort <;> rfl
  · rw [h]; cases s.tckPort <;> rfl

/-- The exchange that the device takes, in a state that is not FREE. -/
theorem exec_tickExchange_takes {s : State} {t1 t2 t3 t4 p : Nat} {retx : Bool} (hp : s.tckPort = some p)
    (hs : s.tck.state = .acquiring ∨ s.tck.state = .aligned ∨ s.tck.state = .holdover) :
    let r := s.takeExchange p ⟨t1, t2, t3, t4, retx⟩
    exec (.tickExchange t1 t2 t3 t4 retx) s = .next (r.1.tckExchange p r.2.t1 r.2.t2 r.2.t3 r.2.t4 r.2.bad) := by
  show execTickExchange t1 t2 t3 t4 retx s = _
  unfold execTickExchange
  rcases hs with h | h | h
  · rw [h, hp]; rfl
  · rw [h, hp]; rfl
  · rw [h, hp]; rfl

/-- The first exchange of a FREE device takes it to ACQUIRING (R194). -/
theorem exec_tickExchange_free {s : State} {t1 t2 t3 t4 p : Nat} {retx : Bool} (hp : s.tckPort = some p) (hs : s.tck.state = .free) :
    let r := s.takeExchange p ⟨t1, t2, t3, t4, retx⟩
    exec (.tickExchange t1 t2 t3 t4 retx) s = .next ((r.1.tckEnter .acquiring).tckExchange p r.2.t1 r.2.t2 r.2.t3 r.2.t4 r.2.bad) := by
  show execTickExchange t1 t2 t3 t4 retx s = _
  unfold execTickExchange
  rw [hs, hp]
  rfl

/-! A kept exchange (R194, R195). -/

/-- What the filter and the judgement of an exchange leave: the count with its fraction, the job, the tick of the last kept exchange, and
the slews. -/
structure Filters (z u : State) : Prop where
  time : u.tick = z.tick ∧ u.frac = z.frac
  job : u.sch = z.sch
  kept : u.tck.lastKept = z.tck.lastKept
  slews : u.tck.slewed = z.tck.slewed ∧ u.tck.slewFrame = z.tck.slewFrame

theorem Filters.trans {a b c : State} (h : Filters a b) (g : Filters b c) : Filters a c :=
  ⟨⟨g.time.1.trans h.time.1, g.time.2.trans h.time.2⟩, g.job.trans h.job, g.kept.trans h.kept, g.slews.1.trans h.slews.1,
    g.slews.2.trans h.slews.2⟩

theorem Filters.of_reported {z u : State} (h : Reported z u) : Filters z u := by
  obtain ⟨htick, hfrac, htck⟩ := h.time
  exact ⟨⟨htick, hfrac⟩, h.job.1, by rw [htck], by rw [htck], by rw [htck]⟩

theorem Filters.tckFilter (s : State) : Filters s s.tckFilter := ⟨⟨rfl, rfl⟩, rfl, rfl, rfl, rfl⟩

theorem Filters.tckAligned (s : State) : Filters s s.tckAligned ∧ s.tckAligned.tck.state = .aligned := by
  have hfree : Filters s { s.free.2 with tck := { s.free.2.tck with
      state := .aligned, depth := if s.free.1.toNat % 129 = 0 then 0xFF else s.free.1.toNat % 129 } } := ⟨⟨rfl, rfl⟩, rfl, rfl, rfl, rfl⟩
  have hint := Reported.setInt { s.free.2 with tck := { s.free.2.tck with
      state := .aligned, depth := if s.free.1.toNat % 129 = 0 then 0xFF else s.free.1.toNat % 129 } } pgTCK 1
  exact ⟨hfree.trans (Filters.of_reported hint), congrArg TckState.state hint.time.2.2⟩

/-- The offsets in a row of at most a quarter of a tick, after one of offset `a` (R194). -/
def TckState.run (k : TckState) (a : Int) : Nat := if a.natAbs ≤ 4 then satAt 0xFFFF (k.good + 1) else 0

/-- Sixteen such offsets in a row: this one, and fifteen before it. -/
theorem TckState.run_full (k : TckState) (a : Int) : 16 ≤ k.run a ↔ a.natAbs ≤ 4 ∧ 15 ≤ k.good := by
  unfold TckState.run satAt
  (repeat' split) <;> omega

/-- The state with the run of small offsets brought up to date. -/
def State.tckCounts (s : State) (a : Int) : State := { s with tck := { s.tck with good := s.tck.run a } }

theorem Filters.tckCounts (s : State) (a : Int) : Filters s (s.tckCounts a) := ⟨⟨rfl, rfl⟩, rfl, rfl, rfl, rfl⟩

/-- An ALIGNED device whose offset is above 1 tick falls back to ACQUIRING (R194). -/
theorem State.tckJudge_aligned {s : State} (a : Int) (port : Nat) (hs : s.tck.state = .aligned) :
    Filters s (s.tckJudge a port) ∧ (s.tckJudge a port).tck.state = if 16 < a.natAbs then .acquiring else .aligned := by
  have hjudge : s.tckJudge a port =
      if 16 < a.natAbs then ((s.tckCounts a).tckEnter .acquiring).tckLog 3 port else s.tckCounts a := by
    simp only [State.tckJudge, State.tckCounts, TckState.run, hs]
  have henter : Filters (s.tckCounts a) ((s.tckCounts a).tckEnter .acquiring) := ⟨⟨rfl, rfl⟩, rfl, rfl, rfl, rfl⟩
  rw [hjudge]
  split
  · have hlog := Reported.logErr ((s.tckCounts a).tckEnter .acquiring) pgTCK
      (3 * 2 ^ 24 + port % 32 * 2 ^ 16 + ((s.tckCounts a).tckEnter .acquiring).tck.state.code) 0 0
    exact ⟨((Filters.tckCounts s a).trans henter).trans (Filters.of_reported hlog), congrArg TckState.state hlog.time.2.2⟩
  · exact ⟨Filters.tckCounts s a, hs⟩

/-- An ACQUIRING or HOLDOVER device is ALIGNED by its sixteenth small offset in a row (R194, R197). -/
theorem State.tckJudge_waiting {s : State} (a : Int) (port : Nat) (hs : s.tck.state = .acquiring ∨ s.tck.state = .holdover) :
    Filters s (s.tckJudge a port) ∧ (s.tckJudge a port).tck.state = if 16 ≤ s.tck.run a then .aligned else s.tck.state := by
  have hjudge : s.tckJudge a port = if 16 ≤ s.tck.run a then (s.tckCounts a).tckAligned else s.tckCounts a := by
    rcases hs with h | h
    · simp only [State.tckJudge, State.tckCounts, TckState.run, h]
    · simp only [State.tckJudge, State.tckCounts, TckState.run, h]
  rw [hjudge]
  split
  · obtain ⟨hfilters, hstate⟩ := Filters.tckAligned (s.tckCounts a)
    exact ⟨(Filters.tckCounts s a).trans hfilters, hstate⟩
  · exact ⟨Filters.tckCounts s a, rfl⟩

/-- A step moves the count, and changes nothing of the alignment. -/
theorem State.stepTick_tck (s : State) (n : Int) : (s.stepTick n).tck = s.tck := by simp [State.stepTick]

/-- A slew moves the time scale by one unit, once in a frame, and leaves the count (R195). -/
theorem State.slewTick_leaves (s : State) (n : Int) : (s.slewTick n).tck.state = s.tck.state ∧
    (s.slewTick n).tck.lastKept = s.tck.lastKept ∧ (s.slewTick n).tick = s.tick ∧ (s.slewTick n).frac = s.frac ∧
    ((s.slewTick n).tck.slewed - s.tck.slewed).natAbs ≤ 1 ∧
    (s.tck.slewFrame = some (s.tick / 2048) → (s.slewTick n).tck.slewed = s.tck.slewed) := by
  unfold State.slewTick
  split
  · simp
  · next h =>
    refine ⟨rfl, rfl, rfl, rfl, ?_, fun e => (h (.inr e)).elim⟩
    show (s.tck.slewed + (if 0 < n then 1 else -1) - s.tck.slewed).natAbs ≤ 1
    split <;> omega

/-- The correction leaves the state and the last kept exchange; where no step is allowed it is a slew. -/
theorem State.tckCorrect_leaves (s : State) : s.tckCorrect.tck.state = s.tck.state ∧ s.tckCorrect.tck.lastKept = s.tck.lastKept ∧
    (s.mayStep = false → s.tckCorrect = s.slewTick (-s.tck.meanA)) := by
  unfold State.tckCorrect
  dsimp only
  split
  · next h =>
    have hno : ∀ {q : Prop}, s.mayStep = false → q := fun hm => (Bool.noConfusion (h.2.symm.trans hm))
    split
    · exact ⟨rfl, rfl, hno⟩
    · rw [State.stepTick_tck]
      exact ⟨rfl, rfl, hno⟩
  · obtain ⟨hstate, hkept, -⟩ := s.slewTick_leaves (-s.tck.meanA)
    exact ⟨hstate, hkept, fun _ => rfl⟩

/-- The offset and the delay of an exchange that port `p` has brought, in 1/16 tick (R193). -/
def State.offsetOf (s : State) (p : Nat) (x : Exchange) : Int := (((x.t4 : Int) - x.t3) - ((x.t2 : Int) - x.t1)) / 2 + s.tckAsym p
def Exchange.delay (x : Exchange) : Int := (((x.t2 : Int) - x.t1) + ((x.t4 : Int) - x.t3)) / 2

/-- The state once a kept exchange is counted and filtered. -/
def State.tckKeeps (s : State) (p : Nat) (x : Exchange) : State :=
  (({ s with tck := { s.tck with hist := ((s.offsetOf p x, x.delay) :: s.tck.hist).take 16, lastKept := s.tick } } : State).cnt pgTCK 0x64
    1).tckFilter

theorem State.tckKeeps_leaves (s : State) (p : Nat) (x : Exchange) :
    Filters { s with tck := { s.tck with lastKept := s.tick } } (s.tckKeeps p x) ∧ (s.tckKeeps p x).tck.state = s.tck.state ∧
    (s.tckKeeps p x).tck.good = s.tck.good := by
  generalize hz : ({ s with tck := { s.tck with hist := ((s.offsetOf p x, x.delay) :: s.tck.hist).take 16, lastKept := s.tick } } : State) = z
  have hcount := Reported.cnt z pgTCK 0x64 1
  have hset : Filters { s with tck := { s.tck with lastKept := s.tick } } z := by rw [← hz]; exact ⟨⟨rfl, rfl⟩, rfl, rfl, rfl, rfl⟩
  have hkeeps : s.tckKeeps p x = (z.cnt pgTCK 0x64 1).tckFilter := by rw [← hz]; rfl
  have htck : (z.cnt pgTCK 0x64 1).tck = z.tck := hcount.time.2.2
  have hfilter : ∀ y : State, y.tckFilter.tck.state = y.tck.state ∧ y.tckFilter.tck.good = y.tck.good := fun _ => ⟨rfl, rfl⟩
  rw [hkeeps, (hfilter _).1, (hfilter _).2, htck]
  exact ⟨(hset.trans (Filters.of_reported hcount)).trans (Filters.tckFilter _), by rw [← hz], by rw [← hz]⟩

section
variable {s : State} {p : Nat} {x : Exchange}

theorem State.tckExchange_discarded (h : s.tck.discards x.t1 x.t4 x.delay x.bad = true) : s.tckExchange p x.t1 x.t2 x.t3 x.t4 x.bad =
    if x.t1 + 4 * 2048 * 16 < x.t4 then (s.cnt pgTCK 0x68 1).tckLog 2 p else s.cnt pgTCK 0x68 1 := if_pos h

theorem State.tckExchange_kept (h : s.tck.discards x.t1 x.t4 x.delay x.bad = false) : s.tckExchange p x.t1 x.t2 x.t3 x.t4 x.bad =
    ((s.tckKeeps p x).tckJudge (s.offsetOf p x) p).tckCorrect := if_neg (ne_true_of_eq_false h)

end

/-- What a kept exchange leaves, the state apart: the tick of the last kept exchange, and where no step is allowed the count, and at most
one slew in a frame (R195). -/
structure Kept (s u : State) : Prop where
  last : u.tck.lastKept = s.tick
  slews : s.mayStep = false → u.tick = s.tick ∧ u.frac = s.frac ∧ (u.tck.slewed - s.tck.slewed).natAbs ≤ 1 ∧
    (s.tck.slewFrame = some (s.tick / 2048) → u.tck.slewed = s.tck.slewed)

/-- The correction of a state that the filter and the judgement have left. -/
theorem Kept.tckCorrect {s z : State} (h : Filters { s with tck := { s.tck with lastKept := s.tick } } z) : Kept s z.tckCorrect := by
  obtain ⟨⟨htick, hfrac⟩, hjob, hkept, hslewed, hframe⟩ := h
  obtain ⟨-, hlast, hcorrect⟩ := z.tckCorrect_leaves
  refine ⟨hlast.trans hkept, fun hm => ?_⟩
  have hz : z.mayStep = false := by rw [State.mayStep, hjob]; exact hm
  obtain ⟨-, -, gtick, gfrac, gslewed, gsame⟩ := z.slewTick_leaves (-z.tck.meanA)
  rw [hcorrect hz]
  rw [htick, hframe] at gsame
  rw [hslewed] at gslewed gsame
  exact ⟨gtick.trans htick, gfrac.trans hfrac, gslewed, gsame⟩

section
variable {s : State} {p : Nat} {x : Exchange} (h : s.tck.discards x.t1 x.t4 x.delay x.bad = false)
include h

theorem State.tckExchange_aligned (hs : s.tck.state = .aligned) : Kept s (s.tckExchange p x.t1 x.t2 x.t3 x.t4 x.bad) ∧
    (s.tckExchange p x.t1 x.t2 x.t3 x.t4 x.bad).tck.state = if 16 < (s.offsetOf p x).natAbs then .acquiring else .aligned := by
  obtain ⟨hfilters, hstate, -⟩ := s.tckKeeps_leaves p x
  obtain ⟨hjudge, hnext⟩ := State.tckJudge_aligned (s.offsetOf p x) p (hstate.trans hs)
  rw [State.tckExchange_kept h, (State.tckCorrect_leaves _).1]
  exact ⟨Kept.tckCorrect (hfilters.trans hjudge), hnext⟩

theorem State.tckExchange_waiting (hs : s.tck.state = .acquiring ∨ s.tck.state = .holdover) :
    Kept s (s.tckExchange p x.t1 x.t2 x.t3 x.t4 x.bad) ∧ (s.tckExchange p x.t1 x.t2 x.t3 x.t4 x.bad).tck.state =
      if (s.offsetOf p x).natAbs ≤ 4 ∧ 15 ≤ s.tck.good then .aligned else s.tck.state := by
  obtain ⟨hfilters, hstate, hgood⟩ := s.tckKeeps_leaves p x
  obtain ⟨hjudge, hnext⟩ := State.tckJudge_waiting (s.offsetOf p x) p (by rw [hstate]; exact hs)
  simp only [TckState.run_full, hgood, hstate] at hnext
  rw [State.tckExchange_kept h, (State.tckCorrect_leaves _).1]
  exact ⟨Kept.tckCorrect (hfilters.trans hjudge), hnext⟩

end

end Sys2Proof.Machine

namespace Sys2Proof

open Machine

/-- Settles O27: by where the exchange comes from, then by whether it is kept and the alignment's state. -/
theorem tickExchanges : Obligations.TickExchanges := by
  unfold Obligations.TickExchanges
  intro s t1 t2 t3 t4 retx i st
  refine ⟨exec_tickExchange_none, fun p hp hs => exec_tickExchange_free hp hs, fun p x hx => ?_, fun p hx => ?_, fun p hp hs => ?_⟩
  · simp only [State.takeExchange, hx]
  · simp only [State.takeExchange, hx]
  · intro r x a d z
    obtain ⟨htck, hfrac, hsch⟩ := s.takeExchange_frame p ⟨t1, t2, t3, t4, retx⟩
    have htakes : exec i s = .next (r.1.tckExchange p x.t1 x.t2 x.t3 x.t4 x.bad) := exec_tickExchange_takes hp hs
    have hoffset : r.1.offsetOf p x = a := by rw [State.offsetOf, s.takeExchange_asym (State.tckPort_lt hp)]
    have hdiscards : ∀ {b}, s.tck.discards x.t1 x.t4 d x.bad = b → r.1.tck.discards x.t1 x.t4 x.delay x.bad = b := fun h => by
      rw [htck]; exact h
    have hslews : ∀ {u}, Kept r.1 u → s.mayStep = false → u.tick = r.1.tick ∧ u.frac = s.frac ∧
        (u.tck.slewed - s.tck.slewed).natAbs ≤ 1 ∧ (s.tck.slewFrame = some (r.1.tick / 2048) → u.tck.slewed = s.tck.slewed) := fun hu hm => by
      have hleaves := hu.slews (by rw [State.mayStep, hsch]; exact hm)
      rw [htck, hfrac] at hleaves
      exact hleaves
    refine ⟨fun h => htakes.trans (congrArg _ (State.tckExchange_discarded (hdiscards h))), fun h => ⟨_, htakes, ?_⟩⟩
    by_cases ha : st = .aligned
    · obtain ⟨hkept, hstate⟩ := State.tckExchange_aligned (p := p) (hdiscards h) (by rw [htck]; exact ha)
      rw [hoffset] at hstate
      exact ⟨hkept.last, fun _ hbig => hstate.trans (if_pos hbig), fun _ hsmall => hstate.trans (if_neg (Nat.not_lt.mpr hsmall)),
        fun hn => (hn ha).elim, fun hn => (hn ha).elim, hslews hkept⟩
    · obtain ⟨hkept, hstate⟩ := State.tckExchange_waiting (p := p) (hdiscards h) (by rw [htck]; exact hs.imp id (Or.resolve_left · ha))
      rw [hoffset, htck] at hstate
      exact ⟨hkept.last, fun hn => (ha hn).elim, fun hn => (ha hn).elim, fun _ hsmall hrun => hstate.trans (if_pos ⟨hsmall, hrun⟩),
        fun _ hno => hstate.trans (if_neg (by omega)), hslews hkept⟩

end Sys2Proof
end

section
/-! PROOFS. HOLDOVER, LOST and a change of parent (R192, R194, R197, R215): what each makes of the alignment's state. -/

namespace Sys2Proof.Machine

open Sys2Proof

/-- TCK_CFG is no register that time writes. -/
theorem elapseTo_tckCfg (t : Nat) (s : State) : (elapseTo t s).reg pgTCK 0x48 = s.reg pgTCK 0x48 :=
  elapse_reg (untimed_of_ne (by decide) _) _ s

theorem State.tckPort_congr {s z : State} (hb : z.tck.usingBackup = s.tck.usingBackup) (hr : z.reg pgTCK 0x48 = s.reg pgTCK 0x48) :
    z.tckPort = s.tckPort := by
  rw [State.tckPort, State.tckPort, hb, hr]

/-- Exchanges that begin anew: with which parent, nothing kept, and the depth unknown (R197). -/
theorem State.tckReparent_leaves (s : State) (backup : Bool) : (s.tckReparent backup).tick = s.tick ∧ (s.tckReparent backup).tck =
    { s.tck with usingBackup := backup, hist := [], good := 0, depth := 0xFF, lastKept := s.tick } := by
  unfold State.tckReparent
  simp

/-! HOLDOVER. -/

/-- The device at the time at which 2 frames have passed without a kept exchange. -/
def State.tckStale (s : State) : State := elapseTo (s.tck.lastKept + 4096) s

/-- HOLDOVER entered, on the parent of before. -/
def State.tckHolds (s : State) (p : Nat) : State :=
  (({ s with tck := { s.tck with state := .holdover, holdSince := s.tick, good := 0 } } : State).tckLog 1 p).setInt pgTCK 2

theorem State.tckHolds_leaves (s : State) (p : Nat) : (s.tckHolds p).tick = s.tick ∧
    (s.tckHolds p).tck = { s.tck with state := .holdover, holdSince := s.tick, good := 0 } := by
  simp [State.tckHolds, State.tckLog]

section
variable {s : State} {p : Nat} (hp : s.tckPort = some p) (hs : s.tck.state = .aligned ∨ s.tck.state = .acquiring)
include hp hs

/-- On a device with ROOT_BACKUP the loss of the parent link is the root's loss (R197). -/
theorem exec_tickHoldover_root (hr : bitAt (s.reg pgTCK 0x48) 11 = true) : exec .tickHoldover s =
    .next (State.tckLog { s.tckStale with tck := { s.tckStale.tck with state := .root, depth := 0 } } 5 p) := by
  have hnot : ¬(s.tck.state ≠ .aligned ∧ s.tck.state ≠ .acquiring) := by rintro ⟨ha, hq⟩; exact hs.elim ha hq
  have hcfg : bitAt ((elapseTo (s.tck.lastKept + 4096) s).reg pgTCK 0x48) 11 = true := by rw [elapseTo_tckCfg]; exact hr
  show execTickHoldover s = _
  simp only [execTickHoldover, hp, if_neg hnot, if_pos hcfg, State.tckStale]

/-- HOLDOVER turns to the backup port, where one is configured and not yet in use (R197). -/
theorem exec_tickHoldover_holds (hr : bitAt (s.reg pgTCK 0x48) 11 = false) : exec .tickHoldover s =
    .next (if !s.tck.usingBackup && decide (tckBackup (s.reg pgTCK 0x48) < 16) then (s.tckStale.tckHolds p).tckReparent true
      else s.tckStale.tckHolds p) := by
  have hnot : ¬(s.tck.state ≠ .aligned ∧ s.tck.state ≠ .acquiring) := by rintro ⟨ha, hq⟩; exact hs.elim ha hq
  have hcfg : ¬bitAt ((elapseTo (s.tck.lastKept + 4096) s).reg pgTCK 0x48) 11 = true := by rw [elapseTo_tckCfg, hr]; decide
  have hbackup : (s.tckStale.tckHolds p).tck.usingBackup = s.tck.usingBackup := by
    rw [(State.tckHolds_leaves _ _).2]; simp [State.tckStale]
  rw [← hbackup]
  show execTickHoldover s = _
  simp only [execTickHoldover, hp, if_neg hnot, if_neg hcfg]
  rw [elapseTo_tckCfg]
  rfl

end

/-! LOST. -/

/-- LOST entered, 5 ms after HOLDOVER (R197). -/
def State.tckLoses (s : State) : State :=
  (((elapseTo (s.tck.holdSince + 5000000) s).tckEnter .lost).tckLog 4 (s.tckPort.getD 31)).setInt pgTCK 4

theorem State.tckLoses_leaves (s : State) : s.tckLoses.sch = s.sch ∧ s.tckLoses.tck.state = .lost := by
  simp [State.tckLoses, State.tckLog, State.tckEnter]

/-- Time leaves the port that exchanges run on. -/
theorem State.tckLoses_eq (s : State) : ((((elapseTo (s.tck.holdSince + 5000000) s).tckEnter .lost).tckLog 4
    (((elapseTo (s.tck.holdSince + 5000000) s).tckEnter .lost).tckPort.getD 31)).setInt pgTCK 4) = s.tckLoses := by
  have hport : ∀ z : State, z.tck = s.tck → z.reg pgTCK 0x48 = s.reg pgTCK 0x48 → (z.tckEnter .lost).tckPort = s.tckPort :=
    fun z hz hr => State.tckPort_congr (by rw [← hz]; rfl) hr
  rw [hport _ (by simp) (elapseTo_tckCfg _ s), State.tckLoses]

section
variable {s : State} (hs : s.tck.state = .holdover)
include hs

/-- A device with a job under way withdraws (R197). -/
theorem exec_tickLost_withdraws (hj : s.sch.job = .armed ∨ s.sch.job = .running ∨ s.sch.job = .rewinding ∨ s.sch.job = .parked) :
    exec .tickLost s = .next (s.tckLoses.raiseWithdraw 1 s.tckLoses.devId) := by
  rw [← s.tckLoses_leaves.1] at hj
  show execTickLost s = _
  simp only [execTickLost, if_neg (not_not.mpr hs), State.tckLoses_eq]
  rcases hj with h | h | h | h <;> simp only [h]

/-- A device in IDLE or LOADED begins to acquire anew (R194). -/
theorem exec_tickLost_returns (hj : s.sch.job = .idle ∨ s.sch.job = .loaded) : exec .tickLost s = .next s.tckLoses.lostReturns := by
  rw [← s.tckLoses_leaves.1] at hj
  show execTickLost s = _
  simp only [execTickLost, if_neg (not_not.mpr hs), State.tckLoses_eq]
  rcases hj with h | h <;> simp only [h]

theorem exec_tickLost_stays (hj : s.sch.job = .loading ∨ s.sch.job = .stopped) : exec .tickLost s = .next s.tckLoses := by
  rw [← s.tckLoses_leaves.1] at hj
  show execTickLost s = _
  simp only [execTickLost, if_neg (not_not.mpr hs), State.tckLoses_eq]
  rcases hj with h | h <;> simp only [h]

end

/-- A LOST device that may acquire again begins with nothing kept. -/
theorem State.lostReturns_leaves {s : State} (h : s.tck.state = .lost) : s.lostReturns.tck.state = .acquiring ∧
    s.lostReturns.tck.good = 0 ∧ s.lostReturns.tck.hist = [] := by
  simp [State.lostReturns, h]

/-! A change of parent (R192, R215). -/

/-- TCK_CFG after a write of `v`: ROOT and ROOT_BACKUP change only where a step is allowed. -/
def State.tckCfg (s : State) (v : Nat) : Nat :=
  v % 2 ^ 10 + (if s.mayStep then fld v 10 2 else fld (s.reg pgTCK 0x48) 10 2) * 2 ^ 10

theorem State.tckCfg_lt (s : State) (v : Nat) : s.tckCfg v < 2 ^ 32 := by
  unfold State.tckCfg fld
  split <;> omega

theorem State.tckCfg_ports (s : State) (v : Nat) : tckParent (s.tckCfg v) = tckParent v ∧ tckBackup (s.tckCfg v) = tckBackup v := by
  unfold State.tckCfg tckParent tckBackup fld
  constructor <;> split <;> omega

theorem State.tckCfg_root (s : State) (v : Nat) :
    bitAt (s.tckCfg v) 10 = if s.mayStep then bitAt v 10 else bitAt (s.reg pgTCK 0x48) 10 := by
  have hbit : ∀ a : Nat, bitAt (v % 2 ^ 10 + fld a 10 2 * 2 ^ 10) 10 = bitAt a 10 := fun a => by
    unfold bitAt fld
    congr 1
    omega
  unfold State.tckCfg
  split
  · exact hbit v
  · exact hbit _

/-- TCK_CFG written with ROOT: the device is ROOT at depth 0 (R192). -/
theorem State.writeTckCfg_root {s : State} {v : Nat} (h : bitAt (s.tckCfg v) 10 = true) : s.writeTckCfg v =
    { s.setReg pgTCK 0x48 (s.tckCfg v) with tck := { s.tck with
      state := .root, depth := 0, usingBackup := false, hist := [], good := 0 } } := by
  have htck : (s.setReg pgTCK 0x48 (s.tckCfg v)).tck = s.tck := by simp
  rw [← htck]
  exact if_pos h

/-- A device whose parent is another one now: exchanges begin anew with the parent, or with the backup. -/
def State.tckTurns (s : State) (v : Nat) (backup : Bool) : State := (s.setReg pgTCK 0x48 (s.tckCfg v)).tckReparent backup

theorem State.tckTurns_leaves (s : State) (v : Nat) (backup : Bool) : (s.tckTurns v backup).tick = s.tick ∧ (s.tckTurns v backup).tck =
    { s.tck with usingBackup := backup, hist := [], good := 0, depth := 0xFF, lastKept := s.tick } := by
  simp [State.tckTurns, State.tckReparent_leaves]

theorem State.tckTurns_port (s : State) (v : Nat) (backup : Bool) : (s.tckTurns v backup).tckPort =
    if (if backup then tckBackup v else tckParent v) < 16 then some (if backup then tckBackup v else tckParent v) else none := by
  have hreg : (s.tckTurns v backup).reg pgTCK 0x48 = s.tckCfg v := by
    unfold State.tckTurns State.tckReparent
    rw [State.setInt_quiet _ _ _ (untimed_of_ne (by decide) _).toQuiet, State.cnt_quiet _ _ _ _ _ _ (by decide) (by decide) (by decide)]
    exact (State.reg_setReg_same ..).trans (Nat.mod_eq_of_lt (s.tckCfg_lt v))
  rw [State.tckPort, hreg, (s.tckTurns_leaves v backup).2, (s.tckCfg_ports v).1, (s.tckCfg_ports v).2]

/-- The state of a device whose parent has changed: FREE with no parent left, else in HOLDOVER where it was ALIGNED, and ACQUIRING where it
was FREE (R194, R197). -/
def State.tckSettles (s : State) : State :=
  match s.tck.state, s.tckPort with
  | .root, _ => s
  | _, none => { s with tck := { s.tck with state := .free, depth := 0xFF, hist := [], good := 0 } }
  | .free, some _ => s.tckEnter .acquiring
  | .aligned, _ => ({ s with tck := { s.tck with state := .holdover, holdSince := s.tick } } : State).setInt pgTCK 2
  | _, _ => s

section
variable {s : State} {v : Nat} {backup : Bool} (hn : bitAt (s.tckCfg v) 10 = false) (ho : bitAt (s.reg pgTCK 0x48) 10 = false)
  (hm : tckParent v ≠ tckParent (s.reg pgTCK 0x48) ∨ ((s.tck.usingBackup = true ∨ s.tck.state = .holdover ∧
    tckParent v = tckParent (s.reg pgTCK 0x48) ∧ tckBackup v < 16) ∧ tckBackup v ≠ tckBackup (s.reg pgTCK 0x48)))
  (hb : backup = (tckParent v == tckParent (s.reg pgTCK 0x48) && decide (tckBackup v < 16)))
include hn ho hm hb

/-- A write that moves the parent: exchanges begin anew, and the state follows from the parent that is left (R194, R197). -/
theorem State.writeTckCfg_turns : s.writeTckCfg v = (s.tckTurns v backup).tckSettles := by
  obtain ⟨hparent, hbackup⟩ := s.tckCfg_ports v
  rw [← hparent, ← hbackup] at hm hb
  subst hb
  have hnew : v % 2 ^ 10 + (if s.mayStep then fld v 10 2 else fld (s.reg pgTCK 0x48) 10 2) * 2 ^ 10 = s.tckCfg v := rfl
  unfold State.writeTckCfg
  simp only [hnew, hn, ho, if_pos hm, Bool.false_eq_true, if_false]
  rfl

end

/-- A parent taken away from an ALIGNED device: HOLDOVER, with another parent to follow (R197). -/
theorem State.tckSettles_aligned {s : State} {p : Nat} (hs : s.tck.state = .aligned) (hp : s.tckPort = some p) :
    s.tckSettles.tck = { s.tck with state := .holdover, holdSince := s.tick } ∧ s.tckSettles.tick = s.tick := by
  simp [State.tckSettles, hs, hp]

theorem State.tckSettles_alone {s : State} (hs : s.tck.state ≠ .root) (hp : s.tckPort = none) :
    s.tckSettles.tck.state = .free ∧ s.tckSettles.tck.depth = 0xFF := by
  unfold State.tckSettles
  rw [hp]
  cases h : s.tck.state
  case root => exact (hs h).elim
  all_goals exact ⟨rfl, rfl⟩

theorem State.tckSettles_holdover {s : State} {p : Nat} (hs : s.tck.state = .holdover) (hp : s.tckPort = some p) : s.tckSettles = s := by
  simp [State.tckSettles, hs, hp]

/-- A write of TCK_CFG takes no time. -/
theorem State.writeTckCfg_tick (s : State) (v : Nat) : (s.writeTckCfg v).tick = s.tick := by
  unfold State.writeTckCfg
  dsimp only
  (repeat' split) <;> simp [State.tckReparent_leaves, State.tckEnter]

theorem exec_tckReparent_eq {s : State} {m : Master} {v : Word} (h : Commands s m pgTCK) :
    exec (.tckReparent m v) s = .next (s.writeTckCfg v.toNat) := congrArg Host.Outcome.next (h.lk 0x48 _)

end Sys2Proof.Machine

namespace Sys2Proof

open Machine

/-- Settles O28: by the state of the device, the job that is under way, and what the write of TCK_CFG names. -/
theorem tickStates : Obligations.TickStates := by
  unfold Obligations.TickStates
  intro s
  refine ⟨fun p hp hs => ?_, fun hs => ⟨exec_tickLost_withdraws hs, fun hj => ?_, exec_tickLost_stays hs⟩, fun m v hm => ?_⟩
  · cases hr : bitAt (s.reg pgTCK 0x48) 11
    · obtain ⟨htick, htck⟩ := s.tckStale.tckHolds_leaves p
      obtain ⟨gtick, gtck⟩ := (s.tckStale.tckHolds p).tckReparent_leaves true
      refine ⟨_, exec_tickHoldover_holds hp hs hr, ?_⟩
      split
      · rw [gtick, gtck, htick, htck]
        exact ⟨rfl, fun h => Bool.noConfusion h, fun _ => ⟨rfl, rfl, rfl, fun _ _ => ⟨rfl, rfl⟩⟩⟩
      · next hback =>
        rw [htick, htck]
        refine ⟨rfl, fun h => Bool.noConfusion h, fun _ => ⟨rfl, rfl, rfl, fun hfree hlt => (hback ?_).elim⟩⟩
        simp [hfree, hlt]
    · refine ⟨_, exec_tickHoldover_root hp hs hr, ?_, fun _ => ?_, fun h => Bool.noConfusion h⟩
      · simp [State.tckLog, State.tckStale]
      · simp [State.tckLog]
  · exact ⟨_, exec_tickLost_returns hs hj, State.lostReturns_leaves s.tckLoses_leaves.2⟩
  · have hroot := s.tckCfg_root v.toNat
    refine ⟨_, exec_tckReparent_eq hm, s.writeTckCfg_tick _, fun hstep hset => ?_, fun hstep hold hmoved => ?_,
      fun hstep hs hback hold hsame hlt hother => ?_⟩
    · have hbit : bitAt v.toNat 10 = true := (bitAt_eq_testBit _ _).trans hset
      rw [if_pos hstep, hbit] at hroot
      rw [State.writeTckCfg_root hroot]
      exact ⟨rfl, rfl, rfl⟩
    · rw [if_neg (by simp [hstep]), hold] at hroot
      have hnever : false = (tckParent v.toNat == tckParent (s.reg pgTCK 0x48) && decide (tckBackup v.toNat < 16)) := by simp [hmoved]
      obtain ⟨-, htck⟩ := s.tckTurns_leaves v.toNat false
      have hport := s.tckTurns_port v.toNat false
      simp only [Bool.false_eq_true, if_false] at hport
      rw [State.writeTckCfg_turns hroot hold (.inl hmoved) hnever]
      refine ⟨fun hp hs => ?_, fun hp hs => State.tckSettles_alone (by rw [htck]; exact hs) (hport.trans (if_neg (Nat.not_lt.mpr hp)))⟩
      rw [(State.tckSettles_aligned (by rw [htck]; exact hs) (hport.trans (if_pos hp))).1, htck]
      exact ⟨rfl, rfl, rfl⟩
    · rw [if_neg (by simp [hstep]), hold] at hroot
      have hturns : true = (tckParent v.toNat == tckParent (s.reg pgTCK 0x48) && decide (tckBackup v.toNat < 16)) := by simp [hsame, hlt]
      obtain ⟨-, htck⟩ := s.tckTurns_leaves v.toNat true
      have hport := s.tckTurns_port v.toNat true
      simp only [if_true] at hport
      rw [State.writeTckCfg_turns hroot hold (.inr ⟨.inr ⟨hs, hsame, hlt⟩, hother⟩) hturns,
        State.tckSettles_holdover (by rw [htck]; exact hs) (hport.trans (if_pos hlt)), htck]
      exact ⟨rfl, rfl⟩

end Sys2Proof
end

section
/-! PROOFS. The slots of an output port (R190, R218, R223 to R225, R241, R261, R268): when the next one is sent, what its entry takes, and
what goes out in the positions left. -/

namespace Sys2Proof.Machine

open Sys2Proof

/-! The next slot. -/

/-- The tick at which a port's next slot begins (R223). -/
def State.slotDue (s : State) (p : Nat) : Nat := max ((s.tick + 31) / 32 * 32) (s.vport p).nextSlot

/-- The state in which the slot at `t` is sent: its tick has come, the slot after it is next, and the duplicated logic is compared. -/
def State.slotBegins (s : State) (p t : Nat) : State :=
  ((elapseTo t s).setVport p { (elapseTo t s).vport p with nextSlot := t + 32 }).vdtCompare

theorem exec_slotTransmit_eq (s : State) (p : Fin 20) : exec (.slotTransmit p) s =
    .next (if !s.framingOn p (s.slotDue p) then s else (s.slotBegins p (s.slotDue p)).transmitSlot p (s.slotDue p)) := by
  have hdue : (if ceilDiv s.tick 32 * 32 < (s.vport p).nextSlot then (s.vport p).nextSlot else ceilDiv s.tick 32 * 32) = s.slotDue p := by
    unfold State.slotDue ceilDiv
    split <;> omega
  show execSlotTransmit p s = _
  simp only [execSlotTransmit, hdue, State.slotBegins]

/-! What a slot carries. -/

/-- The two halves of a slot sent, those of `again` with retransmissions. -/
def State.sendsHalves (s : State) (p t : Nat) (again : List Nat) : State := (s.transmitHalf p t again 0).transmitHalf p t again 1

/-- The slot of a port that carries no flits: framing, idle flits and retransmissions. -/
theorem State.transmitSlot_bare {s : State} {p t : Nat} (h : s.lport p = none ∨ s.carriesFlits p = false) :
    s.transmitSlot p t = s.sendsHalves p t (s.resendHalves p t 0) := by
  unfold State.transmitSlot
  rcases h with h | h
  · rw [h]; rfl
  · rw [h]; cases s.lport p <;> rfl

/-- The positions that an entry's part leaves, and that neither a flit already sent nor a retransmission takes (R230, R268). -/
def SlotRun.free (r : SlotRun) (p t : Nat) : List Nat :=
  (upTo 30).filter (fun pos => decide (r.spare ≤ pos) && !(r.s.resendHalves p t r.spare).contains (pos / 15) &&
    !(r.s.sentIn p t (pos / 15)).any (fun x => x.1 == pos % 15))

/-- What follows the part of the entry: A-class flits in the positions left, and the two halves. -/
def SlotRun.sends (r : SlotRun) (p t : Nat) : State :=
  (r.s.spareFrom p t (r.free p t)).sendsHalves p t (r.s.resendHalves p t r.spare)

theorem State.transmitSlot_full {s : State} {p t l : Nat} (hl : s.lport p = some l) (hc : s.carriesFlits p = true) :
    s.transmitSlot p t = (((s.discardA).discardLocal).slotEntryRun p l t).sends p t := by
  unfold State.transmitSlot
  rw [hl, hc]
  rfl

/-! The part of the entry (R190, R224, R225, R241). -/

section
variable {y : State} {p l t w : Nat} (hw : w = if y.isExport p then 0 else (y.slotEntry l t).getD 0)
include hw

theorem State.slotEntryRun_none (h0 : bitAt w 0 = false) : y.slotEntryRun p l t = ⟨y, 0⟩ := by
  simp only [State.slotEntryRun, ← hw, h0]
  rfl

theorem State.slotEntryRun_closed (h0 : bitAt w 0 = true) (hc : (y.ctxOf (fld w 25 10)).st ≠ .open_) : y.slotEntryRun p l t =
    ⟨if bitAt w 1 then y.setVport (y.pmap (fld w 15 5)).phys { y.vport (y.pmap (fld w 15 5)).phys with
      fifo := y.dropClosed (y.vport (y.pmap (fld w 15 5)).phys).fifo } else y, fld w 20 5⟩ := by
  simp only [State.slotEntryRun, ← hw, h0, if_pos hc]
  cases bitAt w 1 <;> rfl

theorem State.slotEntryRun_open (h0 : bitAt w 0 = true) (hc : (y.ctxOf (fld w 25 10)).st = .open_) : y.slotEntryRun p l t =
    if bitAt w 1 then y.takeThrough (fld w 20 5) p t (y.pmap (fld w 15 5)).phys (fld w 25 10) (y.slotIndex t) 0
    else y.takeLocal (fld w 20 5) p t (fld w 2 8 * 32 + fld w 10 5) (fld w 25 10) (y.slotIndex t) 0 := by
  simp only [State.slotEntryRun, ← hw, h0, if_neg (not_not.mpr hc)]
  rfl

end

/-! A local entry's flits (R224, R225). -/

section
variable (s : State) (n p t key ctx idx j : Nat)

/-- Where the record of a slot's fault of port `p` stands. -/
def slotPos (p t ctx : Nat) : Nat := p * 2 ^ 19 + t % 2048 / 32 * 2 ^ 10 + ctx

theorem State.takeLocal_empty (h : Store.get [] s.vdt.inject key = []) : s.takeLocal (n + 1) p t key ctx idx j =
    ⟨s.slotError 2 (slotPos p t ctx) idx (s.devId * 2 ^ 16), j + n + 1⟩ := by
  simp only [State.takeLocal, h, slotPos]

variable {f : Flit} {e : Nat} {rest : List (Flit × Nat)} (h : Store.get [] s.vdt.inject key = (f, e) :: rest)
include h

theorem State.takeLocal_mismatch (hc : fltCtx f.head ≠ ctx) : s.takeLocal (n + 1) p t key ctx idx j =
    ⟨s.vdtFault .sched 0xA (slotPos p t ctx) idx (vdtIds f.head) 0, j + n + 1⟩ := by
  simp only [State.takeLocal, h, if_pos hc, slotPos]

theorem State.takeLocal_aclass (hc : fltCtx f.head = ctx) (ha : fltAclass f.head = true) :
    s.takeLocal (n + 1) p t key ctx idx j = ⟨s, j⟩ := by
  simp only [State.takeLocal, h, if_neg (not_not.mpr hc), if_pos ha]

theorem State.takeLocal_sends (hc : fltCtx f.head = ctx) (ha : fltAclass f.head = false) : s.takeLocal (n + 1) p t key ctx idx j =
    ((({ s with vdt := { s.vdt with inject := Store.set [] s.vdt.inject key rest } } : State).sendFlit p t j f).colSent p e).takeLocal n p t
      key ctx idx (j + 1) := by
  simp only [State.takeLocal, h, if_neg (not_not.mpr hc), if_neg (ne_true_of_eq_false ha)]

end

/-! A through entry's flits (R225, R227). -/

section
variable {s : State} {q : Nat} {f : QFlit} {rest : List QFlit} (n p t ctx idx j : Nat) (hq : (s.vport q).fifo = f :: rest)
  (ho : s.tagOpen (fltTag f.flit.head) = true)
include hq ho

/-- The head flit of an open context is not discarded. -/
theorem State.dropClosed_open : s.dropClosed (s.vport q).fifo = f :: rest := by
  rw [hq, State.dropClosed, List.dropWhile_cons_of_neg (by simp [ho])]

theorem State.takeThrough_early (h : posTick t j < f.eligible) : s.takeThrough (n + 1) p t q ctx idx j =
    ⟨(s.setVport q (s.vport q)).slotError 2 (slotPos q t ctx) idx (vdtIds f.flit.head), j + n + 1⟩ := by
  have hsame : ({ s.vport q with fifo := f :: rest } : VPort) = s.vport q := by rw [← hq]
  simp only [State.takeThrough, State.dropClosed_open hq ho, if_pos h, hsame, slotPos]

theorem State.takeThrough_sends (h : f.eligible ≤ posTick t j) (hc : fltCtx f.flit.head = ctx) : s.takeThrough (n + 1) p t q ctx idx j =
    (((s.setVport q { s.vport q with fifo := rest, slack := min (posTick t j - f.eligible) (s.vport q).slack }).sendFlit p t j
      f.flit).cnt64 pgVDT 0x90 1).takeThrough n p t q ctx idx (j + 1) := by
  have hmin : (if posTick t j - f.eligible < (s.vport q).slack then posTick t j - f.eligible else (s.vport q).slack) =
      min (posTick t j - f.eligible) (s.vport q).slack := by split <;> omega
  simp only [State.takeThrough, State.dropClosed_open hq ho, if_neg (Nat.not_lt.mpr h), if_neg (not_not.mpr hc), hmin]

end

end Sys2Proof.Machine

namespace Sys2Proof

open Machine

/-- Settles O30: the next slot by whether its port carries flits and by its entry, then the flits that an entry takes. -/
theorem slotTransmission : Obligations.SlotTransmission := by
  unfold Obligations.SlotTransmission
  intro s p
  refine ⟨?_, fun n t key ctx idx j => ⟨s.takeLocal_empty n p t key ctx idx j, fun f e rest h =>
    ⟨s.takeLocal_mismatch n p t key ctx idx j h, s.takeLocal_aclass n p t key ctx idx j h, s.takeLocal_sends n p t key ctx idx j h⟩⟩,
    fun n t q ctx idx j f rest hq ho => ⟨State.takeThrough_early n p t ctx idx j hq ho, State.takeThrough_sends n p t ctx idx j hq ho⟩⟩
  intro t
  have hexec := exec_slotTransmit_eq s p
  refine ⟨fun hf => hexec.trans (congrArg _ (if_pos (congrArg not hf))), fun hf => ?_⟩
  intro z0 z halves
  have hoff : ¬(!s.framingOn p (s.slotDue p)) = true := ne_true_of_eq_false (congrArg not hf)
  have hbegins : exec (.slotTransmit p) s = .next (z.transmitSlot p t) := hexec.trans (congrArg _ (if_neg hoff))
  refine ⟨fun h => hbegins.trans (congrArg _ (State.transmitSlot_bare h)), fun l hl hc => ?_⟩
  intro y w q sends
  have hrun : ∀ {r}, y.slotEntryRun p l t = r → sends r := fun h =>
    hbegins.trans (congrArg _ ((State.transmitSlot_full hl hc).trans (congrArg (SlotRun.sends · p t) h)))
  refine ⟨fun h0 => hrun (State.slotEntryRun_none rfl h0), fun h0 hx h1 => ?_, fun h0 hx h1 => ?_, fun h0 hx h1 => ?_,
    fun h0 hx h1 => ?_⟩
  · exact hrun ((State.slotEntryRun_closed rfl h0 hx).trans (by rw [if_neg (ne_true_of_eq_false h1)]))
  · exact hrun ((State.slotEntryRun_closed rfl h0 hx).trans (by rw [if_pos h1]))
  · exact hrun ((State.slotEntryRun_open rfl h0 hx).trans (if_neg (ne_true_of_eq_false h1)))
  · exact hrun ((State.slotEntryRun_open rfl h0 hx).trans (if_pos h1))

end Sys2Proof
end

section
/-! PROOFS. Flits as they arrive (R218, R222, R225, R231, R233, R242, R244): what becomes of a flit at each check, in the order of R222. That
the class of the returned credit comes with the flit is log 38. -/

namespace Sys2Proof.Machine

open Sys2Proof

/-! The comparison of the duplicated logic (R242, R245). -/

theorem State.vdtCompare_same {s : State} (h : Store.find s.slips pgVDT = none) : s.vdtCompare = s := by
  simp only [State.vdtCompare, State.takeSlip_none h]

@[simp] theorem State.vdtFault_tick (s : State) (cls : FClass) (cause pos l1 l2 ctx : Nat) :
    (s.vdtFault cls cause pos l1 l2 ctx).tick = s.tick := by
  simp [State.vdtFault]

/-- The comparison takes no time. -/
@[simp] theorem State.vdtCompare_tick (s : State) : s.vdtCompare.tick = s.tick := by
  unfold State.vdtCompare
  split
  · rfl
  · next hslip =>
    have htick := congrArg State.tick (State.takeSlip_eq hslip)
    split <;> simpa using htick

/-! Credits and A-class buffers (R231, R233). -/

@[simp] theorem State.freeCredit_vdt (s : State) (p vc cls : Nat) : (s.freeCredit p vc cls).vdt = s.vdt := by
  simp [State.freeCredit]

theorem State.bufferA_leaves (s : State) (f : AFlit) :
    (s.bufferA f).vdt.abuf = s.vdt.abuf ++ [f] ∧ (s.bufferA f).vdt.reorder = s.vdt.reorder := ⟨rfl, rfl⟩

theorem State.gapCheck_leaves (s : State) (key : Nat) (moved : Bool) :
    (s.gapCheck key moved).vdt.abuf = s.vdt.abuf ∧ (s.gapCheck key moved).vdt.reorder = s.vdt.reorder := ⟨rfl, rfl⟩

/-! A flit of a context that is not OPEN (R222 step 3, R406). -/

theorem State.ctxOf_congr {s z : State} (h : z.ctx = s.ctx) (id : Nat) : z.ctxOf id = s.ctxOf id := by
  rw [State.ctxOf, State.ctxOf, h]

theorem State.ctxOf_setCtx_same (s : State) {id : Nat} (x : Ctx) (h : id ≠ 0) : (s.setCtx id x).ctxOf id = x := by
  simp [State.ctxOf, State.setCtx, h]

theorem State.noBuffer_ctxOf (s : State) (p cls h id : Nat) : (s.noBuffer p cls h).ctxOf id = s.ctxOf id := by
  refine State.ctxOf_congr ?_ id
  unfold State.noBuffer
  split
  · exact (State.setOport_keeps _ _ _).2.2.2.2.2.2.2.1
  · rfl

theorem State.dropCtx_counts {s : State} {h : Nat} (hc : (s.ctxOf (fltCtx h)).st ≠ .closing) : s.dropCtx h = s.cnt pgVDT 0xA8 1 := by
  simp only [State.dropCtx, if_neg hc]

/-- A flit of a context that ends counts in what its teardown reports. -/
theorem State.dropCtx_reports {s : State} {h : Nat} (hc : (s.ctxOf (fltCtx h)).st = .closing) :
    ((s.dropCtx h).ctxOf (fltCtx h)).tdFlits = satAt max32 ((s.ctxOf (fltCtx h)).tdFlits + 1) := by
  have hid : fltCtx h ≠ 0 := fun h0 => by simp [State.ctxOf, h0] at hc
  simp only [State.dropCtx, if_pos hc, State.ctxOf_setCtx_same _ _ hid]

/-! A flit of context 0 for a device engine (R222 step 4, R332). -/

section
variable (s : State) {p : Nat} {f : Flit}

theorem State.engineTake_close (h : fltCore f.head = 0xFB) : s.engineTake p f = s.takeCloseFlit p f.body := by
  simp only [State.engineTake, h]

theorem State.engineTake_seep (h : fltCore f.head = 0xFC) : s.engineTake p f =
    if p = (s.pmap (16 + fld (s.reg pgSEEP 0x40) 4 2)).phys then s.takeSeepFlit (f.body.take (fltLen f.head)) else s.cnt pgVDT 0xB0 1 := by
  simp only [State.engineTake, h]

theorem State.engineTake_buddy (h : fltCore f.head = 0xFD) :
    s.engineTake p f = s.takeBuddyFlit p (fltOffset f.head) (f.body.take (fltLen f.head)) := by
  simp only [State.engineTake, h]

theorem State.engineTake_state (h : fltCore f.head = 0xFE) : s.engineTake p f =
    s.takeStateFlit p (fltSrcId f.head) (fltOffset f.head) (fltLast f.head) (f.body.take (fltLen f.head)) := by
  simp only [State.engineTake, h]

theorem State.engineTake_seal (h : fltCore f.head = 0xFF) : s.engineTake p f = s.takeSealFlit p f.body := by
  simp only [State.engineTake, h]

theorem State.engineTake_core (h : fltCore f.head < 0xFB) : s.engineTake p f = s.cnt pgVDT 0xB0 1 := by
  unfold State.engineTake
  dsimp only
  split
  case h_6 => rfl
  all_goals omega

end

/-! A flit of another context for a core (R222 step 4). -/

section
variable {s : State} {p : Nat} {f : Flit} (ho : s.tagOpen (fltTag f.head) = true)
include ho

theorem State.deliver_absent (h : s.corePresent (fltCore f.head) = false ∨ (s.core (fltCore f.head)).inReset = true) :
    s.deliver p f = s.cnt pgVDT 0xB0 1 := by
  have habsent : (!s.corePresent (fltCore f.head) || (s.core (fltCore f.head)).inReset) = true := by rcases h with h | h <;> simp [h]
  simp [State.deliver, ho, habsent]

variable (hp : s.corePresent (fltCore f.head) = true) (hr : (s.core (fltCore f.head)).inReset = false)
include hp hr

theorem State.deliver_outside (h : s.cmIn (fltOffset f.head) (fltLen f.head) = false) :
    s.deliver p f = s.vdtFault .ctx 9 (s.vdtPos p f.head) 0 (vdtIds f.head) (fltCtx f.head) := by
  simp [State.deliver, ho, hp, hr, h]

theorem State.deliver_lands (h : s.cmIn (fltOffset f.head) (fltLen f.head) = true) : s.deliver p f =
    (let z := (s.cnt64 pgVDT (if fltAclass f.head then 0x98 else 0x90) 1).cmPut (fltCore f.head) (fltOffset f.head)
      (f.body.take (fltLen f.head))
     let x : State := { z with vdt := { z.vdt with runs := z.colRuns f.head } }
     if fltLast f.head && fltKeyEn f.head then x.delivered p f.head (z.colRun f.head) else x) := by
  simp [State.deliver, ho, hp, hr, h]

end

/-! An A-class flit of another context (R222 step 4, R233). -/

/-- How far a flit lies ahead of the one that its source and VC are expected to bring. -/
def State.seqAhead (s : State) (h : Nat) : Nat := (fltSeq h + 2 ^ 16 - Store.get 0 s.vdt.expect (flowKey h)) % 2 ^ 16

section
variable {s : State} (p cls : Nat) {f : Flit}

theorem State.arriveA_stranger (h : s.rxEntry (fltSrcId f.head) = false) :
    s.arriveA p cls f = (s.freeCredit p (fltVc f.head) cls).cnt pgVDT 0xB0 1 := by
  simp [State.arriveA, h]

variable (h : s.rxEntry (fltSrcId f.head) = true)
include h

/-- A flit of an accepted source: the one that is expected, or one to hold, or one to leave in a buffer. -/
theorem State.arriveA_accepted : s.arriveA p cls f =
    if s.seqAhead f.head = 0 then
      ((s.freeCredit p (fltVc f.head) cls).deliverA (s.vdt.reorder.length + s.vdt.abuf.length) p f).gapCheck (flowKey f.head) true
    else if s.seqAhead f.head ≤ 255 ∧ s.vdt.reorder.length < 4096 then
      let z := s.freeCredit p (fltVc f.head) cls
      State.gapCheck { z with vdt := { z.vdt with reorder := z.vdt.reorder ++ [(p, f)] } } (flowKey f.head) false
    else (s.bufferA ⟨f, p, cls, s.tick⟩).gapCheck (flowKey f.head) false := by
  simp only [State.arriveA, h, Bool.not_true, Bool.false_eq_true, if_false]
  rfl

theorem State.arriveA_expected (hd : s.seqAhead f.head = 0) : s.arriveA p cls f =
    ((s.freeCredit p (fltVc f.head) cls).deliverA (s.vdt.reorder.length + s.vdt.abuf.length) p f).gapCheck (flowKey f.head) true :=
  (State.arriveA_accepted p cls h).trans (if_pos hd)

variable (h0 : 0 < s.seqAhead f.head)
include h0

theorem State.arriveA_held (hd : s.seqAhead f.head ≤ 255) (hr : s.vdt.reorder.length < 4096) :
    (s.arriveA p cls f).vdt.reorder = s.vdt.reorder ++ [(p, f)] ∧ (s.arriveA p cls f).vdt.abuf = s.vdt.abuf := by
  rw [State.arriveA_accepted p cls h, if_neg (Nat.ne_of_gt h0), if_pos ⟨hd, hr⟩]
  simp [State.gapCheck_leaves]

theorem State.arriveA_buffered (hd : 255 < s.seqAhead f.head ∨ 4096 ≤ s.vdt.reorder.length) :
    (s.arriveA p cls f).vdt.reorder = s.vdt.reorder ∧ (s.arriveA p cls f).vdt.abuf = s.vdt.abuf ++ [⟨f, p, cls, s.tick⟩] := by
  rw [State.arriveA_accepted p cls h, if_neg (Nat.ne_of_gt h0), if_neg (by omega)]
  simp only [State.gapCheck_leaves, State.bufferA_leaves, and_self]

end

/-! An S-class flit for another device (R222 step 5, R223, R225). -/

theorem mem_fifoInsert (q : QFlit) (l : List QFlit) : q ∈ fifoInsert q l := by
  induction l with
  | nil => simp [fifoInsert]
  | cons x l ih =>
    rw [fifoInsert]
    split
    · exact List.mem_cons_self
    · exact List.mem_cons_of_mem x ih

theorem length_fifoInsert (q : QFlit) (l : List QFlit) : (fifoInsert q l).length = l.length + 1 := by
  induction l with
  | nil => rfl
  | cons x l ih =>
    rw [fifoInsert]
    split
    · rfl
    · simp [ih]

section
variable {s : State} {p : Nat} (came arr : Nat) (f : Flit)

theorem State.enqueueS_overrun (h : 128 ≤ (s.vport p).fifo.length) :
    s.enqueueS p came arr f = s.slotError 3 (s.vdtPos p f.head) 0 (vdtIds f.head) := if_pos h

theorem State.enqueueS_waits (h : (s.vport p).fifo.length < 128) :
    ((s.enqueueS p came arr f).vport p).fifo = fifoInsert ⟨f, arr + 50, came⟩ (s.vport p).fifo := by
  simp [State.enqueueS, Nat.not_le.mpr h]

end

/-! The checks in order (R218, R222, R244). -/

/-- Whether a port takes a flit: it is not retired, and in partition, or an EXPORT port whose traffic the flit belongs to. -/
def State.portTakes (s : State) (p h : Nat) : Prop :=
  (s.vport p).retire = false ∧ (s.inPart p = true ∨ s.isExport p = true ∧ fltCtx h = 0 ∧ fltAclass h = true ∧
    (fltCore h = 0xFC ∨ fltCore h = 0xFE))

/-- Whether a flit's epoch is the device's, outside a rewind. -/
def State.epochTakes (s : State) (h : Nat) : Prop := s.sch.job ≠ .rewinding ∧ fltEpoch h = s.vdt.epoch

theorem State.portTakes_iff (s : State) (p h : Nat) :
    s.portTakes p h ↔ ((s.vport p).retire || !(s.inPart p || (s.isExport p && exportFlit h))) = false := by
  simp [State.portTakes, exportFlit, and_assoc, Classical.or_iff_not_imp_left]

theorem State.epochTakes_iff (s : State) (h : Nat) :
    s.epochTakes h ↔ (s.sch.job == .rewinding || fltEpoch h != s.vdt.epoch) = false := by
  simp [State.epochTakes]

/-- The flit of a header, its body padded to 240 bytes. -/
def flitOf (h : Nat) (body : List Byte) : Flit := ⟨h, (body ++ List.replicate 240 0#8).take 240⟩

section
variable {s : State} {p h : Nat} (came arr cls : Nat) (body : List Byte)

theorem State.takeFlit_empty (hl : fltLen h = 0) : s.takeFlit p came arr h cls body = s := by
  simp only [State.takeFlit, if_pos hl]

variable (hl : fltLen h ≠ 0)
include hl

theorem State.takeFlit_port (hp : ¬s.portTakes p h) : s.takeFlit p came arr h cls body = s.cnt pgVDT 0xA0 1 := by
  simp only [State.takeFlit, if_neg hl, if_pos (Bool.eq_true_of_not_eq_false ((not_congr (s.portTakes_iff p h)).mp hp))]

variable (hp : s.portTakes p h)
include hp

theorem State.takeFlit_epoch (he : ¬s.epochTakes h) : s.takeFlit p came arr h cls body = s.cnt pgVDT 0xA4 1 := by
  have hport := ne_true_of_eq_false ((s.portTakes_iff p h).mp hp)
  simp only [State.takeFlit, if_neg hl, if_neg hport, if_pos (Bool.eq_true_of_not_eq_false ((not_congr (s.epochTakes_iff h)).mp he))]

variable (he : s.epochTakes h)
include he

/-- A flit that has passed the checks of its port and epoch. -/
theorem State.takeFlit_passed : s.takeFlit p came arr h cls body =
    if !s.tagOpen (fltTag h) then (s.noBuffer p cls h).dropCtx h
    else if fltDest h = s.devId then
      if fltCtx h = 0 then (s.noBuffer p cls h).engineTake p (flitOf h body)
      else if fltAclass h then s.arriveA p cls (flitOf h body)
      else s.deliver p (flitOf h body)
    else if fltAclass h then s.bufferA ⟨flitOf h body, p, cls, arr + 50⟩
    else s.enqueueS p came arr (flitOf h body) := by
  have hport := ne_true_of_eq_false ((s.portTakes_iff p h).mp hp)
  have hepoch := ne_true_of_eq_false ((s.epochTakes_iff h).mp he)
  simp only [State.takeFlit, if_neg hl, if_neg hport, if_neg hepoch]
  rfl

theorem State.takeFlit_closed (ho : s.tagOpen (fltTag h) = false) :
    s.takeFlit p came arr h cls body = (s.noBuffer p cls h).dropCtx h := by
  simp [State.takeFlit_passed came arr cls body hl hp he, ho]

variable (ho : s.tagOpen (fltTag h) = true)
include ho

theorem State.takeFlit_engine (hd : fltDest h = s.devId) (hc : fltCtx h = 0) :
    s.takeFlit p came arr h cls body = (s.noBuffer p cls h).engineTake p (flitOf h body) := by
  simp [State.takeFlit_passed came arr cls body hl hp he, ho, hd, hc]

theorem State.takeFlit_scheduled (hd : fltDest h = s.devId) (hc : fltCtx h ≠ 0) (ha : fltAclass h = false) :
    s.takeFlit p came arr h cls body = s.deliver p (flitOf h body) := by
  simp [State.takeFlit_passed came arr cls body hl hp he, ho, hd, hc, ha]

theorem State.takeFlit_ordered (hd : fltDest h = s.devId) (hc : fltCtx h ≠ 0) (ha : fltAclass h = true) :
    s.takeFlit p came arr h cls body = s.arriveA p cls (flitOf h body) := by
  simp [State.takeFlit_passed came arr cls body hl hp he, ho, hd, hc, ha]

theorem State.takeFlit_through (hd : fltDest h ≠ s.devId) (ha : fltAclass h = false) :
    s.takeFlit p came arr h cls body = s.enqueueS p came arr (flitOf h body) := by
  simp [State.takeFlit_passed came arr cls body hl hp he, ho, hd, ha]

theorem State.takeFlit_passing (hd : fltDest h ≠ s.devId) (ha : fltAclass h = true) :
    s.takeFlit p came arr h cls body = s.bufferA ⟨flitOf h body, p, cls, arr + 50⟩ := by
  simp [State.takeFlit_passed came arr cls body hl hp he, ho, hd, ha]

end

end Sys2Proof.Machine

namespace Sys2Proof

open Machine

/-- Settles O29: the checks of R222 in their order, then by where the flit is bound and by its class. -/
theorem flitArrivals : Obligations.FlitArrivals := by
  unfold Obligations.FlitArrivals
  intro s0 p head body s h cls f gives port epoch y
  have htick : s0.tick = s.tick := s0.vdtCompare_tick.symm
  have hgives : ∀ {u}, s.takeFlit p s0.tick s0.tick h cls body = u → gives u := fun e => congrArg Host.Outcome.next e
  refine ⟨State.vdtCompare_same, fun hl => hgives (State.takeFlit_empty _ _ _ _ hl), fun hl hp => hgives (State.takeFlit_port _ _ _ _ hl hp),
    fun hl hp he => hgives (State.takeFlit_epoch _ _ _ _ hl hp he), fun hl hp he ho hc => ?_, fun hl hp he ho hc => ?_,
    fun hl hp he ho => ⟨fun hd hc => ?_, fun hd hc ha => ?_, fun hd hc ha => ?_, fun hd ha => ?_, fun hd ha => ?_⟩⟩
  · rw [← s.noBuffer_ctxOf p cls h] at hc
    exact hgives ((State.takeFlit_closed _ _ _ _ hl hp he ho).trans (State.dropCtx_counts hc))
  · rw [← s.noBuffer_ctxOf p cls h] at hc ⊢
    exact ⟨_, hgives (State.takeFlit_closed _ _ _ _ hl hp he ho), State.dropCtx_reports hc⟩
  · have hengine : ∀ {u}, y.engineTake p f = u → gives u := fun e =>
      hgives ((State.takeFlit_engine _ _ _ _ hl hp he ho hd hc).trans e)
    exact ⟨fun hk => hengine (y.engineTake_close hk), fun hk hq => hengine ((y.engineTake_seep hk).trans (if_pos hq)),
      fun hk hq => hengine ((y.engineTake_seep hk).trans (if_neg hq)), fun hk => hengine (y.engineTake_buddy hk),
      fun hk => hengine (y.engineTake_state hk), fun hk => hengine (y.engineTake_seal hk), fun hk => hengine (y.engineTake_core hk)⟩
  · have hdeliver : ∀ {u}, s.deliver p f = u → gives u := fun e =>
      hgives ((State.takeFlit_scheduled _ _ _ _ hl hp he ho hd hc ha).trans e)
    refine ⟨fun h => hdeliver (State.deliver_absent ho h), fun hp hr h => hdeliver (State.deliver_outside ho hp hr h), fun hp hr h => ?_⟩
    have hlands := State.deliver_lands (p := p) (f := f) ho hp hr h
    have hclass : fltAclass f.head = false := ha
    rw [hclass] at hlands
    simpa using hdeliver hlands
  · have harrives : ∀ {u}, s.arriveA p cls f = u → gives u := fun e =>
      hgives ((State.takeFlit_ordered _ _ _ _ hl hp he ho hd hc ha).trans e)
    have hy : y = s.freeCredit p (fltVc h) cls := if_pos ha
    intro key gap
    rw [hy]
    exact ⟨fun hx => harrives (State.arriveA_stranger _ _ hx), fun hx hg => harrives (State.arriveA_expected _ _ hx hg),
      fun hx h0 hg hr => ⟨_, harrives rfl, State.arriveA_held _ _ hx h0 hg hr⟩,
      fun hx h0 hg => ⟨_, harrives rfl, State.arriveA_buffered _ _ hx h0 hg⟩⟩
  · have hthrough : ∀ {u}, s.enqueueS p s0.tick s0.tick f = u → gives u := fun e =>
      hgives ((State.takeFlit_through _ _ _ _ hl hp he ho hd ha).trans e)
    refine ⟨fun hfull => hthrough (State.enqueueS_overrun _ _ _ hfull), fun hroom => ⟨_, hthrough rfl, ?_⟩⟩
    rw [State.enqueueS_waits _ _ _ hroom, htick]
    exact ⟨mem_fifoInsert _ _, length_fifoInsert _ _⟩
  · refine ⟨_, hgives (State.takeFlit_passing _ _ _ _ hl hp he ho hd ha), ?_⟩
    rw [htick]
    exact (s.bufferA_leaves _).1

end Sys2Proof
end

section
/-! PROOFS. Alarm words (R234, R235, R484, R485): a flood traces its word, and where the trace buffer is full the record that is lost raises
an interrupt, whose message goes out with the flood. -/

namespace Sys2Proof.Machine

open Sys2Proof

/-! A trace record that finds the buffer full (R484). -/

/-- A record of the trace dropped: counted, and TRC's interrupt for it set. -/
def State.recordLost (s : State) : State :=
  (State.cnt { s with trace := { s.trace with
      dropped := satAt max32 (s.trace.dropped + 1)
      firstDrop := if s.trace.dropped = 0 then s.tick else s.trace.firstDrop } } pgTRC 0x80 1).setInt pgTRC 0

theorem State.trc_full {s : State} {ty src : Nat} {c : Option Nat} (b : List Byte) (ht : s.traces ty src c = true)
    (hf : traceRoom ≤ s.trace.buf.length) : s.trc ty src c b = s.recordLost.logRaw pgTRC (1 * 2 ^ 24) 0 0 := by
  simp only [State.trc, if_pos ht, State.trcPut, if_neg (Nat.not_lt.mpr hf), State.recordLost]

/-- A word remembered by the Viaduct (R235). -/
def State.remembers (s : State) (w : Nat) : State :=
  { s with vdt := { s.vdt with alarms := (⟨w, s.tick⟩ :: s.vdt.alarms).take 16 } }

/-- What the loss of a flood's trace record sends is sent with the flood. -/
theorem State.floodAlarm_lost {s : State} {w : Nat} (skip : Option Nat) (ht : (s.remembers w).traces 9 (traceSource pgVDT) none = true)
    (hf : traceRoom ≤ s.trace.buf.length) {o : Out} (ho : o ∈ (s.remembers w).recordLost.out) : o ∈ (s.floodAlarm w skip).out := by
  have htraced : o ∈ ((s.remembers w).trc 9 (traceSource pgVDT) none (leBytes 8 w)).out := by
    rw [State.trc_full _ ht hf]
    exact (State.logRaw_sent _ _ _ _ _).subset ho
  exact mem_sendAlarms w _ _ (.inl htraced)

/-! The flood that sends more than alarm words. -/

/-- A device whose port 0 is in partition, which traces alarm words into a full buffer, and whose interrupt for a lost record has vector 0,
not masked. -/
def tracedToTheFull : State :=
  { sch := { job := .running, place := .span, seq := 1 }
    regs := [(0xA04C, 0x02020202#32), (0x13014, 1#32), (0x13040, 1#32), (0x13044, 0x200#32)]
    vdt := { ports := [(0, { peerLport := 2 })] }
    opt := { ports := [(0, { st := .up, aligned := true })] }
    host := { vmap := [(0x1C, 0)], msix := [(0, { ctl := 0 })] }
    trace := { buf := List.replicate traceRoom [] } }

/-- Both copies of the STOP word of device 0, good. -/
def stopCopies : AlarmCopies := ⟨3#64, BitVec.ofNat 8 (crc8 (leBytes 8 3)), 3#64, BitVec.ofNat 8 (crc8 (leBytes 8 3))⟩

theorem stopCopies_good : goodCopy stopCopies = some 3 := by decide +kernel

/-- The device at the moment at which the STOP word is flooded. -/
def floodsStop : State := (tracedToTheFull.cnt pgVDT 0xAC 1).setInt pgVDT 1

/-- The flood is one that ALARM_RECEIVE makes: the word is new, and comes on a port in partition. -/
theorem exec_alarmReceive_floodsStop : exec (.alarmReceive 0 stopCopies) tracedToTheFull =
    .next ((floodsStop.floodAlarm 3 (some 0)).takeAlarm 3) := by
  have htaken : ¬(!tracedToTheFull.inPart 0 || fld 3 0 4 == 0 || decide (4 ≤ fld 3 0 4) || tracedToTheFull.knowsAlarm 3) = true := by decide
  show execAlarmReceive 0 stopCopies tracedToTheFull = _
  rw [execAlarmReceive, stopCopies_good]
  exact congrArg Host.Outcome.next (if_neg htaken)

theorem floodsStop_silent : floodsStop.out = [] := by decide

theorem floodsStop_lost : (floodsStop.remembers 3).traces 9 (traceSource pgVDT) none = true ∧
    .msix 0 0 0 ∈ (floodsStop.remembers 3).recordLost.out := by decide

theorem floodsStop_full : floodsStop.trace.buf.length = traceRoom := by
  have hkept : floodsStop.trace = tracedToTheFull.trace := by simp [floodsStop]
  rw [hkept]
  exact List.length_replicate ..

end Sys2Proof.Machine

namespace Sys2Proof

open Machine

/-- Refutes O31: a flood sends more than alarm words. It traces its word (R485), the record finds the trace buffer full (R484), and the
interrupt for that sends its MSI-X message. -/
theorem not_alarmsAndGaps : ¬ Obligations.AlarmsAndGaps := by
  unfold Obligations.AlarmsAndGaps
  intro h
  obtain ⟨-, -, -, hword⟩ := (h tracedToTheFull).1 0 stopCopies
  obtain ⟨-, -, -, honly, -⟩ := hword 3 stopCopies_good
  obtain ⟨htraces, hsent⟩ := floodsStop_lost
  have hout : .msix 0 0 0 ∈ (floodsStop.floodAlarm 3 (some 0)).out := State.floodAlarm_lost _ htraces (Nat.le_of_eq floodsStop_full.symm) hsent
  rcases honly _ hout with hbefore | ⟨_, _, _, _, halarm⟩
  · have hnone : Out.msix 0 0 0 ∈ floodsStop.out := hbefore
    rw [floodsStop_silent] at hnone
    cases hnone
  · cases halarm

end Sys2Proof
end

section
/-! PROOFS. Patches of the fabric (R236 to R238, R384): the staged patch, its check, and what each record writes. -/

namespace Sys2Proof.Machine

open Sys2Proof

/-! The commands (R237). -/

/-- A staged patch handed to its check. -/
def State.checks (s : State) : State :=
  { s with vdt := { s.vdt with
      checking := some (s.reg64 pgVDT 0x58, s.reg64 pgVDT 0x60), patchState := 1, patchRec := 0, patchCheck := 0 } }

/-- A waiting patch taken back. -/
def State.aborted (s : State) : State := { s with vdt := { s.vdt with patch := none, patchState := 5 } }

section
variable {s : State} {m : Master} (h : Commands s m pgVDT)
include h

theorem exec_patchApply_eq : exec (.patchApply m) s = .next (if s.vdt.checking.isSome then s else s.checks) :=
  congrArg Host.Outcome.next (h.lk 0x54 _)

theorem exec_patchAbort_eq : exec (.patchAbort m) s = .next (if s.vdt.patch.isSome then s.aborted else s) :=
  congrArg Host.Outcome.next (h.lk 0x54 _)

end

/-! The end of a check (R237, R238, R384). -/

/-- The state once its check has ended. -/
def State.checkEnds (s : State) : State := { s with vdt := { s.vdt with checking := none } }

theorem exec_patchChecked_none {s : State} (h : s.vdt.checking = none) : exec .patchChecked s = .next s := by
  show execPatchChecked s = _
  simp only [execPatchChecked, h]

section
variable {s : State} {addr seq : Nat} (h : s.vdt.checking = some (addr, seq))
include h

theorem exec_patchChecked_refused {code i : Nat} (hc : s.checkEnds.patchCheck addr seq = some (code, i)) : exec .patchChecked s =
    .next (State.setInt { s.checkEnds with vdt := { s.checkEnds.vdt with patchState := 4, patchRec := i, patchCheck := code } } pgVDT 2) := by
  show execPatchChecked s = _
  unfold State.checkEnds at hc ⊢
  simp only [execPatchChecked, h, hc]

theorem exec_patchChecked_passed (hc : s.checkEnds.patchCheck addr seq = none) : exec .patchChecked s =
    .next (if seq = 0 ∧ (s.sch.job = .idle ∨ s.sch.job = .loaded ∨ s.sch.job = .parked) then
      s.checkEnds.patchEffect (s.checkEnds.patchRecords addr)
    else { s.checkEnds with vdt := { s.checkEnds.vdt with patch := some ⟨s.checkEnds.patchRecords addr, seq⟩, patchState := 2 } }) := by
  show execPatchChecked s = _
  unfold State.checkEnds at hc ⊢
  simp only [execPatchChecked, h, hc]

end

/-! Records (R236). -/

/-- An element of a list changed within it. -/
theorem getElem?_modAt {α : Type} (f : α → α) (l : List α) (i : Nat) : (modAt f l i)[i]? = l[i]?.map f := by
  induction l generalizing i with
  | nil => simp [modAt]
  | cons a l ih =>
    cases i with
    | zero => rfl
    | succ i => simp [modAt, ih]

section
variable (s : State) {r : Nat}

theorem State.patchRecord_pmap (h : prKind r = 1) : (s.patchRecord r).pmap (prPort r) = pmapOf (prValue r) := by
  simp [State.patchRecord, h, State.pmap, Store.find_insert]

theorem State.patchRecord_pcfg (h : prKind r = 2) : (s.patchRecord r).vport (prPort r) =
    { s.vport (prPort r) with retire := bitAt (prValue r) 16, nbr := prValue r % 2 ^ 16 } := by
  simp [State.patchRecord, h]

theorem State.patchRecord_slot (h : prKind r = 3) : Store.get [] (s.patchRecord r).vdt.slots (prPort r) =
    modAt (fun _ => prValue r) (Store.get [] s.vdt.slots (prPort r)) (prEntry r) := by
  simp [State.patchRecord, h, Store.get_insert]

theorem State.patchRecord_route (h : prKind r = 4) : Store.find (s.patchRecord r).vdt.routes (prValue r % 2 ^ 16) =
    if bitAt (prValue r) 40 then some (prValue r) else none := by
  simp only [State.patchRecord, h]
  split
  · exact (Store.find_insert _ _ _ _).trans (if_pos rfl)
  · exact (Store.find_erase _ _ _).trans (if_pos rfl)

end

end Sys2Proof.Machine

namespace Sys2Proof

open Machine

/-- Settles O33: the two commands, the outcomes of a check, and a record of each kind. A parked device takes a patch for no pier at once as
an idle one does (R384). -/
theorem patches : Obligations.Patches := by
  unfold Obligations.Patches
  intro s
  refine ⟨fun m hm => ⟨fun h => ?_, fun h => ?_, fun h => ?_, fun h => ?_⟩, fun addr seq h => ⟨fun code i hc => ?_, fun hc => ⟨fun h0 hj => ?_,
    fun h0 => ?_⟩⟩, exec_patchChecked_none, fun r => ⟨s.patchRecord_pmap, fun hk => ?_, fun hk l hl hlt => ?_, s.patchRecord_route⟩⟩
  · exact (exec_patchApply_eq hm).trans (congrArg _ (if_neg (by simp [h])))
  · exact (exec_patchApply_eq hm).trans (congrArg _ (if_pos (Option.isSome_iff_ne_none.mpr h)))
  · exact (exec_patchAbort_eq hm).trans (congrArg _ (if_pos (Option.isSome_iff_ne_none.mpr h)))
  · exact (exec_patchAbort_eq hm).trans (congrArg _ (if_neg (by simp [h])))
  · exact ⟨_, exec_patchChecked_refused h hc, by simp [State.checkEnds]⟩
  · exact (exec_patchChecked_passed h hc).trans (congrArg _ (if_pos ⟨h0, hj⟩))
  · exact (exec_patchChecked_passed h hc).trans (congrArg _ (if_neg (fun hnow => h0 hnow.1)))
  · simp [s.patchRecord_pcfg hk]
  · rw [s.patchRecord_slot hk, getElem?_modAt, hl, List.getElem?_eq_getElem hlt, Option.map_some]

end Sys2Proof
end

section
/-! PROOFS. Optical ports (R269 to R274, R281): what a port reads after each operation that the ports share, and what such an operation
leaves of the combs and of the tick. -/

namespace Sys2Proof.Machine

open Sys2Proof

/-! Reads of a port. -/

theorem State.oport_congr {s z : State} (h : z.opt = s.opt) (p : Nat) : z.oport p = s.oport p :=
  congrArg (fun o : OptState => Store.get ({} : OptPort) o.ports p) h

/-- The change of mode that waits. -/
def State.waitingMode (s : State) : Option Nat := s.opt.waiting

theorem State.waitingMode_congr {s z : State} (h : z.opt = s.opt) : z.waitingMode = s.waitingMode := congrArg OptState.waiting h

@[simp] theorem State.waitingMode_setOport (s : State) (p : Nat) (o : OptPort) : (s.setOport p o).waitingMode = s.waitingMode :=
  (congrArg OptState.waiting (rfl : (s.setOport p o).opt = { s.opt with ports := Store.set {} s.opt.ports p o })).trans rfl

@[simp] theorem State.waitingMode_elapseTo (t : Nat) (s : State) : (elapseTo t s).waitingMode = s.waitingMode :=
  State.waitingMode_congr (by simp)

@[simp] theorem State.trsLog_frame (s : State) (p cls cause line hseq : Nat) :
    (s.trsLog p cls cause line hseq).tick = s.tick ∧ (s.trsLog p cls cause line hseq).opt = s.opt := by
  simp [State.trsLog]

@[simp] theorem State.cmbLog_frame (s : State) (cls cause k engines : Nat) :
    (s.cmbLog cls cause k engines).tick = s.tick ∧ (s.cmbLog cls cause k engines).opt = s.opt := by
  simp [State.cmbLog]

@[simp] theorem State.oport_setInt (s : State) (page bit p : Nat) : (s.setInt page bit).oport p = s.oport p :=
  State.oport_congr (by simp) p

@[simp] theorem State.oport_elapseTo (t : Nat) (s : State) (p : Nat) : (elapseTo t s).oport p = s.oport p :=
  State.oport_congr (by simp) p

@[simp] theorem State.oport_trsLog (s : State) (q cls cause line hseq p : Nat) : (s.trsLog q cls cause line hseq).oport p = s.oport p :=
  State.oport_congr (by simp) p

@[simp] theorem State.oport_cmbLog (s : State) (cls cause k engines p : Nat) : (s.cmbLog cls cause k engines).oport p = s.oport p :=
  State.oport_congr (by simp) p

@[simp] theorem State.waitingMode_cmbLog (s : State) (cls cause k engines : Nat) :
    (s.cmbLog cls cause k engines).waitingMode = s.waitingMode :=
  State.waitingMode_congr (by simp)

/-! A port put into a state (R269). -/

theorem State.partCheck_frame (s : State) (p : Nat) (was : Bool) :
    (s.partCheck p was).tick = s.tick ∧ (s.partCheck p was).opt = s.opt := by
  unfold State.partCheck
  split <;> simp [State.refreshMask_frame]

theorem State.setPort_same {s : State} {p : Nat} {st : PortSt} (h : (s.oport p).st = st) : s.setPort p st = s := by
  unfold State.setPort
  exact if_pos h

/-- A change of state writes its port alone, and of what the port holds neither its rings nor the light it has seen. -/
theorem State.setPort_moves {s : State} {p : Nat} {st : PortSt} (h : (s.oport p).st ≠ st) :
    ∃ o : OptPort, (s.setPort p st).opt = (s.setOport p o).opt ∧ (s.setPort p st).tick = s.tick ∧
      o.st = st ∧ o.tx = (s.oport p).tx ∧ o.rx = (s.oport p).rx ∧ o.lit = (s.oport p).lit := by
  unfold State.setPort
  extract_lets o was pg s1 s2 _ _ s3
  rw [if_neg h]
  have h2 : s2.opt = s1.opt ∧ s2.tick = s1.tick := by
    simp only [s2]; split <;> simp
  have h3 : s3.opt = s2.opt ∧ s3.tick = s2.tick := by
    simp only [s3]; (repeat' split) <;> simp
  obtain ⟨htick, hopt⟩ := s3.partCheck_frame p was
  exact ⟨_, hopt.trans (h3.1.trans h2.1), htick.trans (h3.2.trans h2.2), rfl, rfl, rfl, rfl⟩

@[simp] theorem State.oport_setPort_same (s : State) (p : Nat) (st : PortSt) :
    ((s.setPort p st).oport p).st = st ∧ ((s.setPort p st).oport p).tx = (s.oport p).tx ∧
      ((s.setPort p st).oport p).rx = (s.oport p).rx ∧ ((s.setPort p st).oport p).lit = (s.oport p).lit := by
  by_cases h : (s.oport p).st = st
  · simp [State.setPort_same h, h]
  · obtain ⟨o, hopt, -, hport⟩ := State.setPort_moves h
    rw [State.oport_congr hopt p, State.oport_setOport_same]
    exact hport

theorem State.oport_setPort_other (s : State) {p q : Nat} (st : PortSt) (hq : q ≠ p) : (s.setPort p st).oport q = s.oport q := by
  by_cases h : (s.oport p).st = st
  · rw [State.setPort_same h]
  · obtain ⟨o, hopt, -⟩ := State.setPort_moves h
    rw [State.oport_congr hopt q, State.oport_setOport_other s o hq]

@[simp] theorem State.setPort_frame (s : State) (p : Nat) (st : PortSt) :
    (s.setPort p st).tick = s.tick ∧ (s.setPort p st).waitingMode = s.waitingMode := by
  by_cases h : (s.oport p).st = st
  · simp [State.setPort_same h]
  · obtain ⟨o, hopt, htick, -⟩ := State.setPort_moves h
    exact ⟨htick, (State.waitingMode_congr hopt).trans (s.waitingMode_setOport p o)⟩

/-! Banks of rings (R271). -/

@[simp] theorem OptPort.bank_setBank (o : OptPort) (rx : Bool) (b : Bank) :
    (o.setBank rx b).bank rx = b ∧ (o.setBank rx b).bank (!rx) = o.bank (!rx) := by
  cases rx <;> exact ⟨rfl, rfl⟩

@[simp] theorem OptPort.setBank_keeps (o : OptPort) (rx : Bool) (b : Bank) :
    (o.setBank rx b).st = o.st ∧ (o.setBank rx b).lit = o.lit ∧ (o.setBank rx b).hsatCnt = o.hsatCnt := by
  cases rx <;> exact ⟨rfl, rfl, rfl⟩

theorem OptPort.bank_congr {o o' : OptPort} (ht : o'.tx = o.tx) (hr : o'.rx = o.rx) (rx : Bool) : o'.bank rx = o.bank rx := by
  unfold OptPort.bank
  rw [ht, hr]

@[simp] theorem State.bank_setPort (s : State) (p : Nat) (st : PortSt) (rx : Bool) :
    ((s.setPort p st).oport p).bank rx = (s.oport p).bank rx := by
  obtain ⟨-, ht, hr, -⟩ := s.oport_setPort_same p st
  exact OptPort.bank_congr ht hr rx

theorem OptPort.bothLocked_iff (o : OptPort) (rx : Bool) :
    o.tx.locked = allRings ∧ o.rx.locked = allRings ↔ (o.bank rx).locked = allRings ∧ (o.bank !rx).locked = allRings := by
  cases rx
  · exact Iff.rfl
  · exact and_comm

@[simp] theorem State.oport_measureLines (s : State) (p : Nat) :
    ((s.measureLines p).oport p).st = (s.oport p).st ∧ ((s.measureLines p).oport p).tx = (s.oport p).tx ∧
      ((s.measureLines p).oport p).rx = (s.oport p).rx ∧ ((s.measureLines p).oport p).lit = (s.oport p).lit ∧
      ((s.measureLines p).oport p).hsatCnt = (s.oport p).hsatCnt := by
  simp [State.measureLines]

@[simp] theorem State.bank_measureLines (s : State) (p : Nat) (rx : Bool) :
    ((s.measureLines p).oport p).bank rx = (s.oport p).bank rx := by
  obtain ⟨-, ht, hr, -⟩ := s.oport_measureLines p
  exact OptPort.bank_congr ht hr rx

/-! A port restarted from LOCK (R270). -/

@[simp] theorem State.oport_restartPort (s : State) (p : Nat) :
    ((s.restartPort p).oport p).st = .lock ∧ ((s.restartPort p).oport p).tx = (s.oport p).tx.search ∧
      ((s.restartPort p).oport p).rx = (s.oport p).rx.search ∧ ((s.restartPort p).oport p).leftOff = s.tick := by
  simp [State.restartPort]

end Sys2Proof.Machine
end

section
/-! PROOFS. Half-slots (R261 to R263, R267, R268, R270, R280): what one that comes leaves, by whether its port takes it and whether it
verified, and what becomes of one that failed here or at the peer. -/

namespace Sys2Proof.Machine

open Sys2Proof

/-! What a half-slot holds (R262 to R264). -/

/-- Its words, decoded. -/
def halfDecoded (h : HalfSlot) : List (Option (BitVec 1056 × Nat)) := h.words.map bchDecode

/-- Its uncorrectable words. -/
def halfLost (h : HalfSlot) : Nat := ((halfDecoded h).filter (·.isNone)).length

/-- Its corrected words. -/
def halfFixed (h : HalfSlot) : Nat := ((halfDecoded h).filter (fun r => r.any (fun x => x.2 != 0))).length

/-- Its words decode, and its check fails. -/
abbrev halfBad (h : HalfSlot) : Prop := halfLost h = 0 ∧ halfCheck (flitsOf (halfDecoded h)) ≠ h.check.toNat

/-- Its framing word says that it is a retransmission. -/
def halfAgain (h : HalfSlot) : Bool := framingOk h.framing.toNat && h.h % 4 != 3 && bitAt h.framing.toNat 8

/-! What a port makes of it. -/

/-- The port takes half-slots. -/
def OptPort.hears (o : OptPort) : Prop := o.aligned = true ∧ (o.st = .train ∨ o.st = .ident ∨ o.st = .up)

theorem OptPort.hears_iff (o : OptPort) : o.hears ↔ (o.aligned && (o.st == .train || o.st == .ident || o.st == .up)) = true := by
  simp [OptPort.hears, or_assoc]

/-- Words, corrections, uncorrectable words and failed checks counted (R263, R280). -/
def State.halfCounted (s : State) (p : Nat) (h : HalfSlot) : State :=
  s.setOport p { s.oport p with
    cwCnt := ((s.oport p).cwCnt + 30) % 2 ^ 64, corrCnt := satAt max32 ((s.oport p).corrCnt + halfFixed h)
    uncorrCnt := satAt max32 ((s.oport p).uncorrCnt + halfLost h)
    chkCnt := if halfBad h then satAt max32 ((s.oport p).chkCnt + 1) else (s.oport p).chkCnt }

/-- The frame of a retransmission kept, for the alignment's exchanges (R267). -/
def State.halfMarked (s : State) (p : Nat) (h : HalfSlot) : State :=
  let z := s.halfCounted p h
  if halfAgain h then
    z.setOport p { z.oport p with retxFrames := (halfSent s.tick h.h / 2048 :: (z.oport p).retxFrames).take 8 }
  else z

/-- Whether its flits replace those of a half-slot that failed. -/
def State.halfRetx (s : State) (p : Nat) (h : HalfSlot) : Bool := halfAgain h && s.retryOn p

/-- Its number (R268). -/
def State.halfNumber (s : State) (p : Nat) (h : HalfSlot) : Nat :=
  if s.halfRetx p h then fld h.framing.toNat 9 9 else halfSeq (halfSent s.tick h.h)

/-- Its framing word taken, at tick `t` (R264). -/
def State.halfFramed (y : State) (p : Nat) (h : HalfSlot) (t : Nat) : State :=
  y.framingWord p h.h h.framing.toNat (halfSent t h.h / 2048) (t * 16 + h.sub + 255)

/-- A failed half-slot forgotten once its retransmission has come (R268). -/
def State.halfForgets (y : State) (p : Nat) (retx : Bool) (seq : Nat) : State :=
  if retx then y.setOport p { y.oport p with failed := (y.oport p).failed.filter (fun x => x.1 != seq) } else y

theorem State.slips_halfMarked (s : State) (p : Nat) (h : HalfSlot) : (s.halfMarked p h).slips = s.slips := by
  unfold State.halfMarked State.halfCounted
  dsimp only
  split <;> rfl

section
variable {s : State} {p : Fin 20} {h : HalfSlot}

theorem exec_halfSlotReceive_deaf (hl : ¬(s.oport p).hears) : exec (.halfSlotReceive p h) s = .next s := by
  refine congrArg Host.Outcome.next (if_pos ?_)
  rw [OptPort.hears_iff] at hl
  simpa only [Bool.not_eq_true', Bool.not_eq_true] using hl

/-- A half-slot that the port takes: `slip` is the upset of the duplicated logic that shows itself at it, and `y` the state that it shows
itself in. -/
theorem exec_halfSlotReceive_hears {slip : Option Nat} {y : State} (hl : (s.oport p).hears)
    (hs : (s.halfMarked p h).takeSlip (pgTRS (engOf p)) = (slip, y)) :
    let f := y.halfFramed p h s.tick
    let seq := s.halfNumber p h
    exec (.halfSlotReceive p h) s = .next (
      if (s.oport p).st ≠ .up then f
      else if halfBad h ∨ 0 < halfLost h ∨ slip.isSome = true then f.halfFailed p seq (if 0 < halfLost h then 1 else 2)
      else (f.halfForgets p (s.halfRetx p h) seq).vdtCompare.halfFlitsTaken p h (flitsOf (halfDecoded h))
        (if s.halfRetx p h then halfSent s.tick h.h - halfTick (halfSent s.tick h.h) seq else 0)) := by
  have hlive : ¬(!((s.oport p).aligned && ((s.oport p).st == .train || (s.oport p).st == .ident || (s.oport p).st == .up))) = true := by
    simpa only [Bool.not_eq_true', Bool.not_eq_false] using (OptPort.hears_iff _).mp hl
  intro f seq
  show execHalfSlotReceive p h s = _
  unfold execHalfSlotReceive
  extract_lets o words lost fixed flits bad s0 w sent again q s1 retx seq' slip' s2 q2 s3
  have hfixed : fixed = halfFixed h := congrArg (fun g => ((halfDecoded h).filter g).length) (by funext r; cases r <;> rfl)
  have hbad : bad = true ↔ halfBad h := by
    simp only [bad, Bool.and_eq_true, beq_iff_eq, bne_iff_ne]; exact Iff.rfl
  have h0 : s0 = s.halfCounted p h := by
    have hchk : (if bad then satAt max32 (o.chkCnt + 1) else o.chkCnt) = if halfBad h then satAt max32 (o.chkCnt + 1) else o.chkCnt :=
      if_congr hbad rfl rfl
    simp only [s0, hfixed, hchk]; rfl
  have h1 : s1 = s.halfMarked p h := by
    simp only [s1, q, h0]; rfl
  have hslip : slip' = (slip, y) := (congrArg (fun z : State => z.takeSlip (pgTRS (engOf p))) h1).trans hs
  have h2 : s2 = f := by
    simp only [s2, hslip]; rfl
  have h3 : s3 = f.halfForgets p (s.halfRetx p h) seq := by
    simp only [s3, q2, h2]; rfl
  have hfails : (bad || decide (0 < lost) || slip'.1.isSome) = true ↔ halfBad h ∨ 0 < halfLost h ∨ slip.isSome = true := by
    simp only [hslip, Bool.or_eq_true, decide_eq_true_eq, hbad, or_assoc]
    exact Iff.rfl
  refine congrArg Host.Outcome.next ((if_neg hlive).trans (if_congr Iff.rfl h2 (if_congr hfails ?_ ?_)))
  · rw [h2]; rfl
  · rw [h3]; rfl

end

/-! A half-slot that failed (R268). -/

/-- The retransmissions of a half-slot that have failed. -/
def OptPort.tries (o : OptPort) (seq : Nat) : Nat := ((o.failed.find? (fun x => x.1 == seq)).map (·.2)).getD 0

/-- The half-slots that failed, but for one. -/
def OptPort.failedBut (o : OptPort) (seq : Nat) : List (Nat × Nat) := o.failed.filter (fun x => x.1 != seq)

section
variable {s : State} {p seq : Nat} (cause : Nat)

theorem State.halfFailed_retried (hr : s.retryOn p = true) (ht : (s.oport p).tries seq < 3) : s.halfFailed p seq cause =
    s.setOport p { s.oport p with
      failed := (s.oport p).failedBut seq ++ [(seq, (s.oport p).tries seq + 1)], nackDue := (s.oport p).nackDue ++ [seq] } :=
  (if_pos hr).trans (if_neg (Nat.not_le.mpr ht))

theorem State.halfFailed_spent (hr : s.retryOn p = true) (ht : 3 ≤ (s.oport p).tries seq) : s.halfFailed p seq cause =
    (s.setOport p { s.oport p with failed := (s.oport p).failedBut seq }).trsFault p cause seq :=
  (if_pos hr).trans (if_pos ht)

theorem State.halfFailed_unretried (hr : s.retryOn p = false) :
    s.halfFailed p seq cause = if s.jobLive then s.trsFault p cause seq else s :=
  if_neg (by simp [hr])

end

/-! Alignment, and retransmission (R268, R270). -/

theorem exec_halfSlotAlignment_eq (s : State) (p : Fin 20) : exec (.halfSlotAlignment p) s =
    .next (if (s.oport p).st = .train ∧ (s.oport p).aligned = false then
      s.setOport p { s.oport p with aligned := true, alignedAt := s.tick / 2048 } else s) := rfl

/-- A NACKed half-slot is still kept, and is not to go out again yet. -/
def OptPort.keptToResend (o : OptPort) (seq : Nat) : Bool := o.sentHalf.any (fun x => x.1 == seq) && !o.resend.contains seq

theorem OptPort.keptToResend_iff (o : OptPort) (seq : Nat) :
    o.keptToResend seq = true ↔ (∃ x ∈ o.sentHalf, x.1 = seq) ∧ seq ∉ o.resend := by
  simp [OptPort.keptToResend]

section
variable {s : State} {p : Fin 20}

theorem exec_halfSlotRetransmit_idle (h : (s.oport p).nacked = [] ∨ (s.oport p).st ≠ .up ∨ s.retryOn p = false) :
    exec (.halfSlotRetransmit p) s = .next s := by
  show execHalfSlotRetransmit p s = _
  unfold execHalfSlotRetransmit
  extract_lets o
  split
  · rfl
  · next hn =>
    rcases h with h | h
    · cases hn.symm.trans h
    · exact congrArg Host.Outcome.next (if_pos h)

theorem exec_halfSlotRetransmit_next {seq : Nat} {rest : List Nat} (hn : (s.oport p).nacked = seq :: rest) (hup : (s.oport p).st = .up)
    (hr : s.retryOn p = true) : exec (.halfSlotRetransmit p) s =
      .next (s.setOport p { s.oport p with
        nacked := rest, resend := if (s.oport p).keptToResend seq then (s.oport p).resend ++ [seq] else (s.oport p).resend }) := by
  show execHalfSlotRetransmit p s = _
  simp only [execHalfSlotRetransmit, hn]
  exact congrArg Host.Outcome.next (if_neg (by simp [hup, hr]))

end

end Sys2Proof.Machine

namespace Sys2Proof

open Machine

/-- Settles O34: a half-slot by whether its port takes it, whether an upset shows itself at it, and whether it verified; one that failed by
whether retry is on and how often it has failed. -/
theorem halfSlots : Obligations.HalfSlots := by
  unfold Obligations.HalfSlots
  intro s p
  refine ⟨fun h => ⟨exec_halfSlotReceive_deaf, fun hl hnone => ?_, fun m hl hsome => ?_⟩, fun seq cause => ⟨fun hr ht => ?_,
    State.halfFailed_spent cause, fun hr hj => ?_, fun hr hj => ?_⟩, fun hst hal => ?_, fun h => ?_, exec_halfSlotRetransmit_idle,
    fun seq rest hn hup hr => ?_⟩
  · have hslip := State.takeSlip_none ((congrArg (Store.find · (pgTRS (engOf p))) (s.slips_halfMarked p h)).trans hnone)
    have hexec := exec_halfSlotReceive_hears hl hslip
    refine ⟨fun hup => ?_, fun hup hgood hlost => ?_, fun hup hfails => ?_⟩
    · exact hexec.trans (congrArg _ (if_pos hup))
    · have hnot : ¬(halfBad h ∨ 0 < halfLost h ∨ (none : Option Nat).isSome = true) :=
        not_or.mpr ⟨hgood, not_or.mpr ⟨Nat.not_lt.mpr (Nat.le_of_eq hlost), Bool.false_ne_true⟩⟩
      exact hexec.trans (congrArg _ ((if_neg (not_not.mpr hup)).trans (if_neg hnot)))
    · exact hexec.trans (congrArg _ ((if_neg (not_not.mpr hup)).trans (if_pos (hfails.imp_right .inl))))
  · have hslip := State.takeSlip_some ((congrArg (Store.find · (pgTRS (engOf p))) (s.slips_halfMarked p h)).trans hsome)
    have hexec := exec_halfSlotReceive_hears hl hslip
    refine hexec.trans (congrArg _ ?_)
    by_cases hup : (s.oport p).st = .up
    · exact ((if_neg (not_not.mpr hup)).trans (if_pos (.inr (.inr rfl)))).trans (if_pos hup).symm
    · exact (if_pos hup).trans (if_neg hup).symm
  · rw [State.halfFailed_retried cause hr ht]
    refine ⟨_, rfl, ?_⟩
    rw [State.oport_setOport_same]
    exact ⟨rfl, List.mem_append_right _ (List.mem_singleton_self _)⟩
  · exact (State.halfFailed_unretried cause hr).trans (if_pos hj)
  · exact (State.halfFailed_unretried cause hr).trans (if_neg (by simp [hj]))
  · exact ⟨_, (exec_halfSlotAlignment_eq s p).trans (congrArg _ (if_pos ⟨hst, hal⟩)), State.oport_setOport_same _ _ _⟩
  · refine (exec_halfSlotAlignment_eq s p).trans (congrArg _ (if_neg fun hready => ?_))
    exact h.elim (fun hst => hst hready.1) (fun hal => Bool.noConfusion (hal.symm.trans hready.2))
  · refine ⟨_, exec_halfSlotRetransmit_next hn hup hr, by simp, fun hk => ?_, fun hk => ?_⟩
    · rw [State.oport_setOport_same]; exact if_pos ((OptPort.keptToResend_iff _ _).mpr hk)
    · rw [State.oport_setOport_same]; exact if_neg ((OptPort.keptToResend_iff _ _).not.mpr hk)

end Sys2Proof
end

section
/-! PROOFS. How a port comes UP (R269 to R271, R278): one equation per case of each event of a port. -/

namespace Sys2Proof.Machine

open Sys2Proof

/-! Leaving OFF (R270, R281). -/

theorem State.heldOff_eq_false {s : State} {p : Nat} : s.heldOff p = false ↔ (s.oport p).pwrOff = false ∧ s.opt.feedOf (p % 4) ≠ 0 ∧
    (if s.opt.feedOf (p % 4) = 1 then s.opt.k0 else s.opt.k1) = .locked := by
  simp [State.heldOff, engOf, and_assoc]
  exact fun _ _ => Iff.rfl

theorem exec_portLeaveOff_eq (s : State) (p : Fin 20) : exec (.portLeaveOff p) s =
    .next (if (s.oport p).st = .off ∧ s.heldOff p = false then s.restartPort p else s) := rfl

/-! The rings' search (R270, R271). -/

/-- The port searches with the rings of a bank. -/
def OptPort.seeks (o : OptPort) (rx : Bool) : Prop :=
  (o.st = .lock ∨ o.st = .relock) ∧ o.recal = false ∧ (o.bank rx).locked ≠ allRings ∧ (rx = true → o.st = .lock → o.tx.locked = allRings)

theorem OptPort.seeks_iff (o : OptPort) (rx : Bool) : o.seeks rx ↔ (!(o.st == .lock || o.st == .relock) ||
    (o.bank rx).locked == allRings || o.recal || (rx && o.tx.locked != allRings && o.st == .lock)) = false := by
  unfold OptPort.seeks
  cases rx <;> simp <;> tauto

theorem exec_ringsLocked_seeks {s : State} {p : Fin 20} {rx : Bool} (h : (s.oport p).seeks rx) (found : Bool) :
    exec (.ringsLocked p rx found) s = .next (if found then s.bankLocked p rx else
      (s.setOport p { s.oport p with lit := (s.oport p).lit && !rx }).setPort p .fail) :=
  congrArg Host.Outcome.next (if_neg (Bool.not_eq_true _ ▸ (OptPort.seeks_iff _ _).mp h))

theorem exec_ringsLocked_idle {s : State} {p : Fin 20} {rx : Bool} (h : ¬(s.oport p).seeks rx) (found : Bool) :
    exec (.ringsLocked p rx found) s = .next s :=
  congrArg Host.Outcome.next (if_pos (Bool.not_eq_false _ ▸ (OptPort.seeks_iff _ _).not.mp h))

/-- A bank that has locked holds lock; the state that follows depends on the other bank and on the light seen. -/
theorem State.bankLocked_port (s : State) (p : Nat) (rx : Bool) : (((s.bankLocked p rx).oport p).bank rx).locked = allRings ∧
    ((s.bankLocked p rx).oport p).st = if ((s.oport p).bank !rx).locked = allRings then .train
      else if (s.oport p).st = .lock ∧ (s.oport p).lit = false then .dark else (s.oport p).st := by
  unfold State.bankLocked
  extract_lets o _ s0 s1 q s2
  have h0 : s0.oport p = o.setBank rx { o.bank rx with locked := allRings } := State.oport_setOport_same _ _ _
  have h1 : (s1.oport p).st = o.st ∧ (s1.oport p).lit = o.lit ∧ ((s1.oport p).bank rx).locked = allRings ∧
      (s1.oport p).bank (!rx) = o.bank !rx := by
    simp only [s1]; split <;> simp [h0]
  have h2 : s2.oport p = s1.oport p := by
    simp only [s2]; split
    · rfl
    · exact State.oport_congr (by simp) p
  obtain ⟨hst, hlit, hown, hother⟩ := h1
  have hboth : (q.tx.locked = allRings ∧ q.rx.locked = allRings) ↔ (o.bank !rx).locked = allRings := by
    rw [OptPort.bothLocked_iff q rx, hown, hother]; exact and_iff_right rfl
  have hq : q.lit = o.lit := hlit
  change _ ∧ _ = if (o.bank !rx).locked = allRings then .train else if o.st = .lock ∧ o.lit = false then .dark else o.st
  rw [hq]
  simp only [hboth]
  (repeat' split) <;> simp [h2, hst, hown]

/-! Light, alignment and training (R270). -/

theorem exec_lightFromPeer_eq (s : State) (p : Fin 20) : exec (.lightFromPeer p) s =
    .next (if (s.oport p).st = .dark then (s.setOport p { s.oport p with lit := true }).setPort p .lock
      else s.setOport p { s.oport p with lit := true }) := rfl

theorem exec_trainDone_done {s : State} {p : Fin 20} {a b c f : Nat} (hst : (s.oport p).st = .train)
    (hal : (s.oport p).aligned = true) (hr : (s.oport p).reports = [a, b, c, f]) :
    exec (.trainDone p) s = .next (((elapseTo (2048 * (f + 2)) s).reweigh p).setPort p .ident) := by
  show execTrainDone p s = _
  simp only [execTrainDone, hst, hal, hr]
  rfl

theorem exec_trainDone_waits {s : State} {p : Fin 20}
    (h : (s.oport p).st ≠ .train ∨ (s.oport p).aligned = false ∨ ∀ a b c f, (s.oport p).reports ≠ [a, b, c, f]) :
    exec (.trainDone p) s = .next s := by
  show execTrainDone p s = _
  unfold execTrainDone
  extract_lets o
  split
  · next a b c f hready hr =>
    obtain ⟨hst, hal⟩ : o.st = .train ∧ o.aligned = true := by simpa using hready
    rcases h with h | h | h
    · exact absurd hst h
    · exact absurd (hal.symm.trans h) (by decide)
    · exact absurd hr (h a b c f)
  · rfl

@[simp] theorem State.reweigh_tick (s : State) (p : Nat) : (s.reweigh p).tick = s.tick := by
  unfold State.reweigh
  dsimp only
  (repeat' split) <;> simp

/-! The limits (R269, R270, R278). -/

/-- A port in a state on its way to UP. -/
def PortSt.rising (st : PortSt) : Prop := st = .lock ∨ st = .dark ∨ st = .train ∨ st = .ident

section
variable {s : State} {p : Fin 20}

theorem exec_portFailTimeout_lost {t : Nat} (h : (s.oport p).lossAt = some t) : exec (.portFailTimeout p) s = .next (s.failLost p t) := by
  show execPortFailTimeout p s = _
  simp only [execPortFailTimeout, h]

variable (h : (s.oport p).lossAt = none)
include h

theorem exec_portFailTimeout_rising (hst : (s.oport p).st.rising) : exec (.portFailTimeout p) s = .next (s.failLate p) := by
  show execPortFailTimeout p s = _
  rcases hst with hst | hst | hst | hst <;> simp only [execPortFailTimeout, h, hst]

theorem exec_portFailTimeout_relock (hst : (s.oport p).st = .relock) : exec (.portFailTimeout p) s =
    .next (((elapseTo ((s.oport p).relockAt + 10000000) s).setOport p { s.oport p with combFrom := none }).setPort p .fail) := by
  show execPortFailTimeout p s = _
  simp only [execPortFailTimeout, h, hst, State.oport_elapseTo]

theorem exec_portFailTimeout_other (hst : (s.oport p).st = .off ∨ (s.oport p).st = .up ∨ (s.oport p).st = .fail ∨ (s.oport p).st = .cal) :
    exec (.portFailTimeout p) s = .next s := by
  show execPortFailTimeout p s = _
  rcases hst with hst | hst | hst | hst <;> simp only [execPortFailTimeout, h, hst]

end

theorem State.failLost_fails (s : State) (p t : Nat) :
    ((s.failLost p t).oport p).st = .fail ∧ (s.failLost p t).tick = (elapseTo (t + 1000000) s).tick := by
  simp [State.failLost]

theorem State.failLate_up {s : State} {p : Nat} (h : (s.oport p).wasUp = true) : s.failLate p = s := if_pos h

theorem State.failLate_fails {s : State} {p : Nat} (h : (s.oport p).wasUp = false) : ((s.failLate p).oport p).st = .fail ∧
    (s.failLate p).tick = (elapseTo ((s.oport p).leftOff + 50000000) s).tick := by
  simp [State.failLate, h]

end Sys2Proof.Machine

namespace Sys2Proof

open Machine

/-- Settles O35: by the event, and whether the port stands where the event concerns it. -/
theorem portStates : Obligations.PortStates := by
  unfold Obligations.PortStates
  intro s p
  refine ⟨fun hst hpwr hfeed hfed => ?_, fun h => ?_, fun rx => ⟨fun h => ?_, fun h => ?_, exec_ringsLocked_idle⟩, fun h => ?_, fun h => ?_,
    fun a b c f hst hal hr => ⟨_, exec_trainDone_done hst hal hr, by simp⟩, exec_trainDone_waits,
    fun t h => ⟨_, exec_portFailTimeout_lost h, s.failLost_fails p t⟩, fun h => ⟨fun hst => ⟨fun hup => ?_, fun hup => ?_⟩, fun hst => ?_,
      exec_portFailTimeout_other h⟩⟩
  · have hfree := State.heldOff_eq_false.mpr ⟨hpwr, hfeed, hfed⟩
    refine ⟨s.restartPort p, (exec_portLeaveOff_eq s p).trans (congrArg _ (if_pos ⟨hst, hfree⟩)), ?_⟩
    simp [Bank.search]
  · exact (exec_portLeaveOff_eq s p).trans (congrArg _ (if_neg fun hoff => h ⟨hoff.1, State.heldOff_eq_false.mp hoff.2⟩))
  · exact ⟨_, exec_ringsLocked_seeks h true, s.bankLocked_port p rx⟩
  · exact ⟨_, exec_ringsLocked_seeks h false, (State.oport_setPort_same _ _ _).1⟩
  · exact ⟨_, (exec_lightFromPeer_eq s p).trans (congrArg _ (if_pos h)), by simp⟩
  · exact (exec_lightFromPeer_eq s p).trans (congrArg _ (if_neg h))
  · exact ⟨_, exec_portFailTimeout_rising h hst, State.failLate_fails hup⟩
  · exact (exec_portFailTimeout_rising h hst).trans (congrArg _ (State.failLate_up hup))
  · exact ⟨_, exec_portFailTimeout_relock h hst, by simp⟩

end Sys2Proof
end

section
/-! PROOFS. Ring heaters, their matrices and calibration (R270 to R274): what a bank holds after each of their events, and what the two
commands of a TRS page do. -/

namespace Sys2Proof.Machine

open Sys2Proof

/-! Requests and drives (R271, R272). -/

/-- A store filled with the first values of a function. -/
theorem Store.get_fill {α : Type} [DecidableEq α] (d : α) (f : Nat → α) (n k : Nat) :
    Store.get d ((upTo n).foldl (fun m i => Store.set d m i (f i)) []) k = if k < n then f k else d := by
  induction n with
  | zero => rfl
  | succ n ih =>
    simp only [upTo, List.range_succ, List.foldl_append, List.foldl_cons, List.foldl_nil, Store.get_set] at ih ⊢
    rw [ih]
    by_cases hk : k = n
    · subst hk; simp
    · rw [if_neg hk]
      exact if_congr (by omega) rfl rfl

theorem Bank.drive_get (b : Bank) {i : Nat} (hi : i < 32) :
    Store.get 0 b.drive.1 i = (clampI 0 4095 (driveSum b.m b.u i)).toNat := by
  have hfill : b.drive.1 = (upTo 32).foldl (fun m i => Store.set 0 m i (clampI 0 4095 (driveSum b.m b.u i)).toNat) [] :=
    (List.foldl_hom Prod.fst (fun _ _ => rfl)).symm
  rw [hfill, Store.get_fill, if_pos hi]

/-- A bank with new requests, before they drive its heaters. -/
def Bank.request (b : Bank) (l : List Int) : Bank :=
  { b with u := (upTo 32).foldl (fun m i => Store.set 0 m i (clampI (-32768) 32767 (l.getD i 0))) [] }

/-- A bank whose heaters follow its requests. -/
def Bank.driven (b : Bank) : Bank := { b with h := b.drive.1 }

section
variable {s : State} {p : Fin 20} {rx : Bool}

theorem exec_ringLoopUpdate_eq (l : List Int) : exec (.ringLoopUpdate p rx l) s =
    .next (if (s.oport p).st = .off ∨ (s.oport p).st = .fail ∨ ((s.oport p).bank rx).frozen = true then s
      else
        let b := ((s.oport p).bank rx).request l
        let z := s.setOport p { (s.oport p).setBank rx b.driven with hsatCnt := satAt max32 ((s.oport p).hsatCnt + b.drive.2) }
        if rx then z.measureLines p else z) := rfl

/-- A loop update that acts leaves the bank driven by its new requests, with their clamps counted. -/
theorem exec_ringLoopUpdate_acts {l : List Int}
    (h : ¬((s.oport p).st = .off ∨ (s.oport p).st = .fail ∨ ((s.oport p).bank rx).frozen = true)) :
    ∃ u, exec (.ringLoopUpdate p rx l) s = .next u ∧ (u.oport p).bank rx = (((s.oport p).bank rx).request l).driven ∧
      (u.oport p).hsatCnt = satAt max32 ((s.oport p).hsatCnt + (((s.oport p).bank rx).request l).drive.2) := by
  refine ⟨_, (exec_ringLoopUpdate_eq l).trans (congrArg _ (if_neg h)), ?_⟩
  cases rx <;> exact ⟨by simp [OptPort.bank, OptPort.setBank], by simp⟩

/-! Lost locks (R271). -/

theorem exec_ringLockLost_eq (ring : Fin 32) : exec (.ringLockLost p rx ring) s =
    .next (if !bitAt ((s.oport p).bank rx).locked ring then s
      else
        let b := (s.oport p).bank rx
        let z := (s.setOport p ((s.oport p).setBank rx { b with locked := clrBit b.locked ring })).trsLog p 0 3 ring 0
        if (s.oport p).st = .up ∨ (s.oport p).st = .ident ∨ (s.oport p).st = .train then z.setPort p .relock else z) := rfl

theorem exec_ringLockLost_held {ring : Fin 32} (h : bitAt ((s.oport p).bank rx).locked ring = true) :
    ∃ u, exec (.ringLockLost p rx ring) s = .next u ∧
      (u.oport p).st = (if (s.oport p).st = .up ∨ (s.oport p).st = .ident ∨ (s.oport p).st = .train then .relock else (s.oport p).st) ∧
      ((u.oport p).bank rx).locked = clrBit ((s.oport p).bank rx).locked ring := by
  refine ⟨_, (exec_ringLockLost_eq ring).trans (congrArg _ (if_neg (by simp [h]))), ?_⟩
  dsimp only
  split <;> simp

/-! Calibration (R273, R274). -/

/-- A bank with the matrices of a calibration. -/
def Bank.calibrated (b : Bank) (l : List Int) : Bank :=
  { b with k := calMatrix l, m := matrixOf (calMatrix l), frozen := false, parityAt := none }

theorem exec_calDone_eq (kt kr : List Int) : exec (.calDone p kt kr) s =
    .next (if (s.oport p).st ≠ .cal ∧ ((s.oport p).recal = false ∨ (s.oport p).st = .off) then s
      else ((s.setOport p { s.oport p with
        tx := (s.oport p).tx.calibrated kt, rx := (s.oport p).rx.calibrated kr, recal := false }).restartPort p).setInt
          (pgTRS (engOf p)) 1) := rfl

/-! Parity errors (R274). -/

/-- The port once its parity error is reported. -/
def State.parityReported (s : State) (p : Nat) : State := (s.trsLog p 0 4 0 0).setInt (pgTRS (engOf p)) 0

theorem State.oport_parityReported (s : State) (p : Nat) : (s.parityReported p).oport p = s.oport p := by
  simp [State.parityReported]

/-- A bank whose last parity error in M is less than 100 μs old. -/
def Bank.parityRecent (b : Bank) (now : Nat) : Prop := ∃ t, b.parityAt = some t ∧ now ≤ t + 100000

theorem exec_matrixParity_first (h : ¬((s.oport p).bank rx).parityRecent s.tick) : exec (.matrixParity p rx false) s =
    .next ((s.parityReported p).setOport p
      ((s.oport p).setBank rx { (s.oport p).bank rx with frozen := true, parityAt := some s.tick })) := by
  refine congrArg Host.Outcome.next (if_neg ?_)
  cases hat : ((s.oport p).bank rx).parityAt with
  | none => simp
  | some t => simpa using fun hle => h ⟨t, hat, hle⟩

theorem exec_matrixParity_again {inK : Bool} (h : inK = true ∨ ((s.oport p).bank rx).parityRecent s.tick) :
    let z := if (s.oport p).st = .off then s.parityReported p else (s.parityReported p).setPort p .relock
    exec (.matrixParity p rx inK) s = .next (z.setOport p { z.oport p with recal := true }) := by
  refine congrArg Host.Outcome.next (if_pos ?_)
  rcases h with rfl | ⟨t, hat, hle⟩
  · rfl
  · simp [hat, hle]

theorem exec_matrixRecomputed_eq : exec (.matrixRecomputed p rx) s =
    .next (if ((s.oport p).bank rx).frozen then
      s.setOport p ((s.oport p).setBank rx { (s.oport p).bank rx with m := matrixOf ((s.oport p).bank rx).k, frozen := false })
    else s) := rfl

end

/-! Commands of a TRS page (R270, R273). -/

section
variable {s : State} {m : Master} {e : Fin 4} (hm : Commands s m (pgTRS e))
include hm

theorem exec_trsCommands_none (h : s.trsPort e = none) : exec (.trsRelock m e) s = .next s ∧ exec (.trsCal m e) s = .next s := by
  constructor <;> exact congrArg Host.Outcome.next ((hm.lk 0x48 _).trans (by simp only [h]))

variable {q : Nat} (h : s.trsPort e = some q)
include h

theorem exec_trsRelock_eq : exec (.trsRelock m e) s = .next (if (s.oport q).st = .off then s else s.restartPort q) :=
  congrArg Host.Outcome.next ((hm.lk 0x48 _).trans (by simp only [h]))

theorem exec_trsCal_eq : exec (.trsCal m e) s =
    .next (if (s.oport q).st = .ident ∨ (s.oport q).st = .up then s.trsLog q 0 6 0 0
      else if (s.oport q).st = .off ∧ s.heldOff q = true then s else s.setPort q .cal) :=
  congrArg Host.Outcome.next ((hm.lk 0x48 _).trans (by simp only [h]))

end

end Sys2Proof.Machine

namespace Sys2Proof

open Machine

/-- Settles O36: each clause is the equation of its event or command, and what the bank that it changes then holds. -/
theorem ringControl : Obligations.RingControl := by
  unfold Obligations.RingControl
  intro s p rx
  refine ⟨fun l hoff hfail hfrozen => ?_, fun l h => (exec_ringLoopUpdate_eq l).trans (congrArg _ (if_pos h)), fun ring => exec_ringLockLost_held,
    fun ring h => (exec_ringLockLost_eq ring).trans (congrArg _ (if_pos (by simp [h]))), fun m e hm => exec_trsCommands_none hm,
    fun m e hm q hq => ⟨fun h => ?_, fun h => ?_, fun h => ?_, fun h hheld => ?_, fun hident hup hoff => ?_⟩, fun kt kr h => ?_,
    fun kt kr hst hre => (exec_calDone_eq kt kr).trans (congrArg _ (if_pos ⟨hst, hre⟩)),
    ⟨fun h => ⟨_, exec_matrixParity_first h, by simp⟩, fun inK h => ?_⟩, fun h => ?_, fun h => ?_⟩
  · obtain ⟨u, hu, hbank, hcnt⟩ := exec_ringLoopUpdate_acts (s := s) (p := p) (rx := rx) (l := l) (by simp [hoff, hfail, hfrozen])
    refine ⟨u, hu, fun i hi => ?_⟩
    rw [hbank, hcnt]
    exact ⟨(Store.get_fill _ _ _ _).trans (if_pos hi), Bank.drive_get _ hi, rfl⟩
  · exact (exec_trsRelock_eq hm hq).trans (congrArg _ (if_neg h))
  · exact (exec_trsRelock_eq hm hq).trans (congrArg _ (if_pos h))
  · exact (exec_trsCal_eq hm hq).trans (congrArg _ (if_pos h))
  · exact (exec_trsCal_eq hm hq).trans (congrArg _ ((if_neg (by simp [h])).trans (if_pos ⟨h, hheld⟩)))
  · exact ⟨_, (exec_trsCal_eq hm hq).trans (congrArg _ ((if_neg (not_or.mpr ⟨hident, hup⟩)).trans (if_neg hoff))),
      (State.oport_setPort_same _ _ _).1⟩
  · have hact : ¬((s.oport p).st ≠ .cal ∧ ((s.oport p).recal = false ∨ (s.oport p).st = .off)) := by
      rcases h with h | ⟨hre, hoff⟩
      · simp [h]
      · simp [hre, hoff]
    exact ⟨_, (exec_calDone_eq kt kr).trans (congrArg _ (if_neg hact)), by simp [Bank.search, Bank.calibrated]⟩
  · refine ⟨_, exec_matrixParity_again h, ?_⟩
    rw [State.oport_setOport_same]
    refine ⟨rfl, ?_⟩
    dsimp only
    split
    · next hoff => rw [s.oport_parityReported, hoff]
    · exact (State.oport_setPort_same _ _ _).1
  · exact ⟨_, exec_matrixRecomputed_eq.trans (congrArg _ (if_pos h)), by simp⟩
  · exact exec_matrixRecomputed_eq.trans (congrArg _ (if_neg (by simp [h])))

end Sys2Proof
end

section
/-! PROOFS. Fields of a number: what replacing one leaves of it. -/

namespace Sys2Proof.Machine

open Sys2Proof

theorem testBit_fld (v lo n i : Nat) : (fld v lo n).testBit i = (decide (i < n) && v.testBit (lo + i)) := by
  rw [fld, Nat.testBit_mod_two_pow, Nat.testBit_div_two_pow, Nat.add_comm i lo]

/-- The bits above the field, the field's new ones, and those below it. -/
theorem setFld_eq (v lo n x : Nat) : setFld v lo n x = 2 ^ lo * (2 ^ n * (v / 2 ^ lo / 2 ^ n) + x % 2 ^ n) + v % 2 ^ lo := by
  have hv : 2 ^ lo * (v / 2 ^ lo) + v % 2 ^ lo = v := Nat.div_add_mod v _
  have hq : 2 ^ n * (v / 2 ^ lo / 2 ^ n) + v / 2 ^ lo % 2 ^ n = v / 2 ^ lo := Nat.div_add_mod _ _
  have hsplit : 2 ^ lo * (2 ^ n * (v / 2 ^ lo / 2 ^ n)) + v / 2 ^ lo % 2 ^ n * 2 ^ lo + v % 2 ^ lo = v := by
    rw [Nat.mul_comm (v / 2 ^ lo % 2 ^ n), ← Nat.mul_add, hq, hv]
  rw [setFld, fld, Nat.mul_add, Nat.mul_comm (x % 2 ^ n)]
  omega

theorem testBit_setFld (v lo n x i : Nat) : (setFld v lo n x).testBit i =
    if lo ≤ i ∧ i < lo + n then x.testBit (i - lo) else v.testBit i := by
  rw [setFld_eq, Nat.testBit_two_pow_mul_add _ (Nat.mod_lt _ (Nat.two_pow_pos lo)),
    Nat.testBit_two_pow_mul_add _ (Nat.mod_lt _ (Nat.two_pow_pos n))]
  by_cases hlo : i < lo
  · simp [hlo, Nat.not_le.mpr hlo]
  · by_cases hn : i - lo < n
    · simp [hlo, hn, show lo ≤ i ∧ i < lo + n by omega]
    · simp [hlo, hn, show ¬i < lo + n by omega, Nat.testBit_div_two_pow, show i - lo - n + n + lo = i by omega]

theorem fld_setFld_same (v lo n x : Nat) : fld (setFld v lo n x) lo n = x % 2 ^ n := by
  refine Nat.eq_of_testBit_eq fun i => ?_
  rw [testBit_fld, testBit_setFld, Nat.testBit_mod_two_pow]
  by_cases hi : i < n <;> simp [hi]

theorem fld_setFld_apart (v x : Nat) {lo n lo' n' : Nat} (h : lo' + n' ≤ lo ∨ lo + n ≤ lo') :
    fld (setFld v lo n x) lo' n' = fld v lo' n' := by
  refine Nat.eq_of_testBit_eq fun i => ?_
  rw [testBit_fld, testBit_fld, testBit_setFld]
  by_cases hi : i < n'
  · rw [if_neg (by omega)]
  · simp [hi]

end Sys2Proof.Machine
end

section
/-! PROOFS. The combs (R277 to R279, R282, R350): the feeds of the engines, a comb that locks or is lost, and the start and the end of a
failover or a change of mode. -/

namespace Sys2Proof.Machine

open Sys2Proof

/-! Feeds (R277). -/

theorem OptState.feedOf_takeFeeds (o : OptState) (es : List Nat) (feeds e : Nat) :
    (o.takeFeeds es feeds).feedOf e = if e ∈ es then fld feeds (2 * e) 2 else o.feedOf e := by
  induction es generalizing o with
  | nil => rfl
  | cons x es ih =>
    have hrest : (o.takeFeeds (x :: es) feeds).feedOf e =
        (({ o with feed := setFld o.feed (2 * x) 2 (fld feeds (2 * x) 2) } : OptState).takeFeeds es feeds).feedOf e := rfl
    rw [hrest, ih]
    by_cases hes : e ∈ es
    · rw [if_pos hes, if_pos (List.mem_cons_of_mem x hes)]
    · rw [if_neg hes]
      by_cases hx : e = x
      · subst hx
        rw [if_pos List.mem_cons_self]
        refine (fld_setFld_same _ _ _ _).trans ?_
        rw [fld, Nat.mod_mod]
      · rw [if_neg (by simp [hx, hes])]
        exact fld_setFld_apart _ _ (by omega)

theorem OptState.mem_engines (o : OptState) (v e : Nat) : e ∈ o.engines v ↔ e < 4 ∧ o.feedOf e = v := by
  simp [OptState.engines, upTo]

/-- An engine that has a feed keeps it. -/
theorem OptState.feedDark_fed {o : OptState} {e : Nat} (h : o.feedOf e ≠ 0) : o.feedDark.feedOf e = o.feedOf e := by
  unfold OptState.feedDark
  rw [OptState.feedOf_takeFeeds, if_neg]
  simp [OptState.mem_engines, h]

/-- An engine with none takes the one it is to have, from a comb that is locked. -/
theorem OptState.feedDark_dark {o : OptState} {e k : Nat} (he : e < 4) (h : o.feedOf e = 0) (hdue : fld o.dueFeeds (2 * e) 2 = k + 1)
    (hk : o.comb k = .locked) : o.feedDark.feedOf e = k + 1 := by
  unfold OptState.feedDark
  rw [OptState.feedOf_takeFeeds, if_pos, hdue]
  simp [OptState.mem_engines, he, h, hdue, hk]

/-! Combs. -/

theorem OptState.comb_setComb (o : OptState) (k : Nat) (c : CombSt) : (o.setComb k c).comb k = c := by
  unfold OptState.comb OptState.setComb
  by_cases hk : k = 0 <;> simp [hk]

theorem OptState.setComb_keeps (o : OptState) (k : Nat) (c : CombSt) : (o.setComb k c).feed = o.feed ∧
    (o.setComb k c).waiting = o.waiting ∧ (o.setComb k c).failover = o.failover ∧ (o.setComb k c).mode = o.mode := by
  unfold OptState.setComb
  split <;> exact ⟨rfl, rfl, rfl, rfl⟩

/-- A comb that has locked, before it feeds an engine. -/
def OptState.combLocks (o : OptState) (k : Nat) : OptState := { o.setComb k .locked with lost := clrBit o.lost k }

theorem OptState.feedOf_combLocks (o : OptState) (k e : Nat) : (o.combLocks k).feedOf e = o.feedOf e :=
  congrArg (fun f => fld f (2 * e) 2) (o.setComb_keeps k .locked).1

theorem OptState.dueFeeds_combLocks (o : OptState) (k : Nat) : (o.combLocks k).dueFeeds = o.dueFeeds := by
  unfold OptState.combLocks OptState.setComb
  split <;> rfl

theorem OptState.comb_combLocks (o : OptState) (k : Nat) : (o.combLocks k).comb k = .locked := o.comb_setComb k .locked

/-- The comb may lock: it is not locked or FAILED, and an engine is to have it. -/
def OptState.mayLock (o : OptState) (k : Nat) : Prop := (o.comb k = .off ∨ o.comb k = .warming) ∧ feedsUse o.dueFeeds k = true

theorem OptState.not_mayLock_iff (o : OptState) (k : Nat) :
    ¬o.mayLock k ↔ (o.comb k ≠ .off ∧ o.comb k ≠ .warming) ∨ feedsUse o.dueFeeds k = false := by
  rw [OptState.mayLock, not_and_or, not_or, Bool.not_eq_true]

theorem exec_combLocked_locks {s : State} {k : Fin 2} (h : s.opt.mayLock k) : exec (.combLocked k) s =
    .next (({ s with opt := (s.opt.combLocks k).feedDark } : State).measureComb k).changeReady :=
  congrArg Host.Outcome.next (if_neg fun hno => (OptState.not_mayLock_iff _ _).mpr hno h)

theorem exec_combLocked_idle {s : State} {k : Fin 2} (h : ¬s.opt.mayLock k) : exec (.combLocked k) s = .next s :=
  congrArg Host.Outcome.next (if_pos ((OptState.not_mayLock_iff _ _).mp h))

/-! A comb lost (R278, R279, R350). -/

/-- The comb is out of use. -/
def State.combGone (s : State) (k : Nat) (failed : Bool) : State :=
  let o := s.opt.setComb k (if failed then CombSt.failed else CombSt.off)
  ({ s with opt := { o with lost := setBit o.lost k } } : State).measureComb k

/-- The loss of a comb in use, reported. -/
def State.combReported (s : State) (k : Nat) (failed : Bool) : State :=
  (((s.combGone k failed).cnt pgCMB 0x58 1).setInt pgCMB 0).cmbLog (if s.sch.job = .running then 1 else 0) (if failed then 2 else 1) k
    (engMask (s.opt.engines (k + 1)))

/-- No comb is left to feed the engines of the one lost: a failover runs, or the other one is out of use too. -/
def OptState.noneLeft (o : OptState) (other : Nat) : Prop :=
  (∃ f, o.failover = some f ∧ f.loss = true) ∨ o.comb other = .failed ∨ bitAt o.lost other = true

/-- The other comb takes the engines over. -/
def State.takesOver (z : State) (other : Nat) : Prop := bitAt (z.reg pgCMB 0x40) 0 = true ∧ z.opt.comb other = .locked

theorem OptState.noneLeft_iff (o : OptState) (other : Nat) : o.noneLeft other ↔
    ((o.failover.map (·.loss)).getD false || o.comb other == .failed || bitAt o.lost other) = true := by
  unfold OptState.noneLeft
  cases o.failover <;> simp [or_assoc]

theorem State.takesOver_iff (z : State) (other : Nat) : z.takesOver other ↔
    (bitAt (z.reg pgCMB 0x40) 0 && z.opt.comb other == .locked) = true := by
  simp [State.takesOver]

section
variable {s : State} {k : Fin 2} {failed : Bool}

theorem exec_combLoss_spare (h : s.opt.engines (k + 1) = []) :
    exec (.combLoss k failed) s = .next (if failed then s.combGone k failed else s) :=
  congrArg Host.Outcome.next (if_pos (by rw [h]; rfl))

variable (h : s.opt.engines (k + 1) ≠ [])
include h

theorem exec_combLoss_both (hb : s.opt.noneLeft (1 - k.val)) : exec (.combLoss k failed) s =
    .next (((s.combReported k failed).noComb k (engMask (s.opt.engines (k + 1)))).raiseHw) :=
  congrArg Host.Outcome.next ((if_neg (by simpa using h)).trans (if_pos ((OptState.noneLeft_iff _ _).mp hb)))

theorem exec_combLoss_moves (hb : ¬s.opt.noneLeft (1 - k.val)) (hm : (s.combReported k failed).takesOver (1 - k.val)) :
    exec (.combLoss k failed) s = .next (((s.combReported k failed).failoverTo (1 - k.val) (s.opt.engines (k + 1))).raiseWith
      { tick := s.tick, second := true }) :=
  congrArg Host.Outcome.next ((if_neg (by simpa using h)).trans ((if_neg ((OptState.noneLeft_iff _ _).not.mp hb)).trans
    (if_pos ((State.takesOver_iff _ _).mp hm))))

theorem exec_combLoss_dark (hb : ¬s.opt.noneLeft (1 - k.val)) (hm : ¬(s.combReported k failed).takesOver (1 - k.val)) :
    exec (.combLoss k failed) s = .next (((s.combReported k failed).darkEngines (s.opt.engines (k + 1))).raiseHw) :=
  congrArg Host.Outcome.next ((if_neg (by simpa using h)).trans ((if_neg ((OptState.noneLeft_iff _ _).not.mp hb)).trans
    (if_neg ((State.takesOver_iff _ _).not.mp hm))))

end

/-! The end of a failover or a change of mode (R278, R279). -/

@[simp] theorem State.waitingMode_setInt (s : State) (page bit : Nat) : (s.setInt page bit).waitingMode = s.waitingMode :=
  State.waitingMode_congr (by simp)

@[simp] theorem State.waitingMode_cnt (s : State) (page o n : Nat) : (s.cnt page o n).waitingMode = s.waitingMode :=
  State.waitingMode_congr (by simp)

theorem State.setMode_frame (s : State) (m : Nat) : (s.setMode m).tick = s.tick ∧ (s.setMode m).opt = { s.opt with mode := m } := by
  unfold State.setMode
  split
  · next h => exact ⟨rfl, by rw [← h]⟩
  · simp

theorem State.endFailover_ends (s : State) (f : Failover) : (s.endFailover f).tick = s.tick ∧ (s.endFailover f).opt.failover = none ∧
    (s.endFailover f).opt.mode = f.mode ∧ (s.endFailover f).waitingMode = s.waitingMode := by
  unfold State.endFailover
  extract_lets _ o rest o1
  have hrest : ∀ (a : OptState) (k : Nat), (rest a k).failover = a.failover ∧ (rest a k).waiting = a.waiting := by
    intro a k
    obtain ⟨-, hw, hf, -⟩ := a.setComb_keeps k .off
    simp only [rest]
    split
    · exact ⟨rfl, rfl⟩
    · exact ⟨hf, hw⟩
  have h1 : o1.failover = none ∧ o1.waiting = s.opt.waiting := by
    simp only [o1]
    split
    · exact ⟨rfl, rfl⟩
    · simp only [hrest]; exact ⟨rfl, rfl⟩
  obtain ⟨htick, hopt⟩ := State.setMode_frame { s with opt := o1 } f.mode
  exact ⟨htick, (congrArg OptState.failover hopt).trans h1.1, congrArg OptState.mode hopt, (congrArg OptState.waiting hopt).trans h1.2⟩

@[simp] theorem State.measureComb_frame (s : State) (k : Nat) : (s.measureComb k).tick = s.tick ∧
    (s.measureComb k).opt.failover = s.opt.failover ∧ (s.measureComb k).opt.mode = s.opt.mode ∧
    (s.measureComb k).waitingMode = s.waitingMode := by
  unfold State.measureComb State.waitingMode
  dsimp only
  split <;> simp

theorem State.changeReady_stays {s : State} (h : s.opt.waiting = none ∨ s.opt.failover ≠ none) : s.changeReady = s := by
  unfold State.changeReady
  split
  · next hw hf =>
    rcases h with h | h
    · cases hw.symm.trans h
    · exact (h hf).elim
  · rfl

theorem State.changeReady_unasked {s : State} (h : s.waitingMode = none) : s.changeReady = s := State.changeReady_stays (.inl h)

theorem State.feedSettled_frame (s : State) (p : Nat) : (s.feedSettled p).tick = s.tick ∧ (s.feedSettled p).waitingMode = s.waitingMode := by
  unfold State.feedSettled
  dsimp only
  (repeat' split) <;> simp

/-- A failover that is done is over, in its mode, 16,000 ticks after it began. -/
theorem exec_failoverDone_ends {s : State} {f : Failover} (hf : s.opt.failover = some f) (hw : s.opt.waiting = none) :
    ∃ u, exec .failoverDone s = .next u ∧ u.opt.failover = none ∧ u.opt.mode = f.mode ∧ u.tick = (elapseTo (f.since + 16000) s).tick := by
  have hexec : exec .failoverDone s = execFailoverDone s := rfl
  rw [hexec]
  simp only [execFailoverDone, hf]
  refine ⟨_, rfl, ?_⟩
  generalize hx : ((engList f.engines).flatMap portsOf).foldl (fun a p => a.feedSettled p) (elapseTo (f.since + 16000) s) = x
  have hxt : x.tick = (elapseTo (f.since + 16000) s).tick := by
    rw [← hx]; exact foldl_tick _ (fun a p => (a.feedSettled_frame p).1) _ _
  have hxw : x.waitingMode = s.waitingMode := by
    rw [← hx, foldl_keeps State.waitingMode _ (fun a p => (a.feedSettled_frame p).2), State.waitingMode_elapseTo]
  obtain ⟨htick, hnone, hmode, hwait⟩ := x.endFailover_ends f
  have hidle : (x.endFailover f).waitingMode = none := hwait.trans (hxw.trans hw)
  rw [State.changeReady_unasked (by split <;> simp [hidle])]
  split <;> simp [htick, hnone, hmode, hxt]

theorem exec_failoverDone_none {s : State} (h : s.opt.failover = none) : exec .failoverDone s = .next s := by
  show execFailoverDone s = _
  simp only [execFailoverDone, h]

/-! The limit of a comb loss (R278). -/

/-- The ports that a comb loss took from UP have failed. -/
def State.portsLost (s : State) : State := s.lostPorts.foldl (fun a x => a.failLost x.1 x.2) s

theorem State.failLost_other (s : State) {p q : Nat} (t : Nat) (h : q ≠ p) : (s.failLost p t).oport q = s.oport q := by
  unfold State.failLost
  dsimp only
  rw [State.oport_cmbLog, State.oport_setPort_other _ _ h, State.oport_setOport_other _ _ h, State.oport_elapseTo]

theorem State.waitingMode_failLost (s : State) (p t : Nat) : (s.failLost p t).waitingMode = s.waitingMode := by
  simp [State.failLost]

theorem State.waitingMode_portsLost (s : State) : s.portsLost.waitingMode = s.waitingMode :=
  foldl_keeps State.waitingMode (fun (a : State) (x : Nat × Nat) => a.failLost x.1 x.2) (fun a x => a.waitingMode_failLost x.1 x.2) _ _

theorem State.portsLost_fail {s : State} {p : Nat} (hp : p < 20) (h : (s.oport p).lossAt ≠ none) : (s.portsLost.oport p).st = .fail := by
  obtain ⟨t, ht⟩ := Option.ne_none_iff_exists'.mp h
  have hmem : (p, t) ∈ s.lostPorts := List.mem_filterMap.mpr ⟨p, by simpa [upTo] using hp, by rw [ht]; rfl⟩
  refine foldl_of_mem (P := fun a : State => (a.oport p).st = .fail) (fun a x ha => ?_) hmem (fun a => (a.failLost_fails p t).1) s
  by_cases hx : p = x.1
  · rw [hx]; exact (a.failLost_fails x.1 x.2).1
  · rw [a.failLost_other x.2 hx]; exact ha

theorem exec_failoverTimeout_none {s : State} (h : s.opt.failover = none) : exec .failoverTimeout s = .next s.portsLost := by
  show execFailoverTimeout s = _
  simp only [execFailoverTimeout, h]
  rfl

theorem exec_failoverTimeout_runs {s : State} {f : Failover} (h : s.opt.failover = some f) : exec .failoverTimeout s =
    .next (if f.loss = true then ((elapseTo (f.since + 1000000) s.portsLost).endFailover f).changeReady else s.portsLost) := by
  show execFailoverTimeout s = _
  simp only [execFailoverTimeout, h]
  rfl

/-- A failover that has run for 1 ms is over, in its mode. -/
theorem exec_failoverTimeout_ends {s : State} {f : Failover} (hf : s.opt.failover = some f) (hw : s.opt.waiting = none)
    (hloss : f.loss = true) : ∃ u, exec .failoverTimeout s = .next u ∧ u.opt.failover = none ∧ u.opt.mode = f.mode := by
  obtain ⟨-, hnone, hmode, hwait⟩ := State.endFailover_ends (elapseTo (f.since + 1000000) s.portsLost) f
  refine ⟨_, (exec_failoverTimeout_runs hf).trans (congrArg _ (if_pos hloss)), ?_⟩
  have hidle := hwait.trans (((State.waitingMode_elapseTo _ _).trans s.waitingMode_portsLost).trans hw)
  rw [State.changeReady_unasked hidle]
  exact ⟨hnone, hmode⟩

/-! Changes of mode (R279). -/

section
variable {s : State} {m : Master} (hm : Commands s m pgCMB)
include hm

theorem exec_cmbPaired_eq : exec (.cmbPaired m) s = .next (s.cmbChange 0) := congrArg Host.Outcome.next (hm.lk 0x44 _)

theorem exec_cmbSingleK0_eq : exec (.cmbSingleK0 m) s = .next (s.cmbChange 1) := congrArg Host.Outcome.next (hm.lk 0x44 _)

theorem exec_cmbSingleK1_eq : exec (.cmbSingleK1 m) s = .next (s.cmbChange 2) := congrArg Host.Outcome.next (hm.lk 0x44 _)

end

/-- A mode change taken: it waits for its combs, which are turned on. -/
def State.modeEnters (s : State) (mode : Nat) : State :=
  ((({ s with opt := { s.opt with waiting := some mode } } : State).warmComb (modeFeeds mode) 0).warmComb (modeFeeds mode) 1).changeReady

theorem State.cmbChange_eq (s : State) (mode : Nat) : s.cmbChange mode =
    if ¬(s.sch.job = .idle ∨ s.sch.job = .loaded ∨ s.sch.job = .parked) then s.cmbLog 0 5 0 0 else s.modeEnters mode := rfl

section
variable {s : State} {mode : Nat} (hw : s.opt.waiting = some mode) (hf : s.opt.failover = none)
include hw hf

theorem State.changeReady_eq : s.changeReady =
    if (s.opt.otherFeeds (modeFeeds mode)).isEmpty then
      State.endFailover { s with opt := { s.opt with waiting := none } } ⟨modeFeeds mode, 0, s.tick, mode, false⟩
    else if s.opt.feedsReady (s.opt.otherFeeds (modeFeeds mode)) (modeFeeds mode) then
      State.moveFeeds { s with opt := { s.opt with waiting := none } } (s.opt.otherFeeds (modeFeeds mode))
        ⟨modeFeeds mode, engMask (s.opt.otherFeeds (modeFeeds mode)), s.tick, mode, false⟩
    else s := by
  simp only [State.changeReady, hw, hf]

/-- With no engine to move, the mode is in effect. -/
theorem State.changeReady_unmoved (he : s.opt.otherFeeds (modeFeeds mode) = []) : s.changeReady.opt.mode = mode ∧
    s.changeReady.opt.failover = none ∧ s.changeReady.opt.waiting = none := by
  rw [State.changeReady_eq hw hf, if_pos (by rw [he]; rfl)]
  obtain ⟨-, hnone, hmode, hwait⟩ := State.endFailover_ends { s with opt := { s.opt with waiting := none } }
    ⟨modeFeeds mode, 0, s.tick, mode, false⟩
  exact ⟨hmode, hnone, hwait⟩

end

end Sys2Proof.Machine

namespace Sys2Proof

open Machine

/-- Settles O37: each clause is the equation of its event or command, and what the end of a failover leaves of the combs. -/
theorem combs : Obligations.Combs := by
  unfold Obligations.Combs
  intro s enters
  refine ⟨fun k => ⟨exec_combLocked_locks, exec_combLocked_idle, fun e he => ⟨fun hfed => ?_, fun hdark hdue => ?_⟩⟩,
    fun k failed => ⟨fun h hfailed => ?_, fun h hfailed => ?_,
      fun h => ⟨exec_combLoss_both h, exec_combLoss_moves h, exec_combLoss_dark h⟩⟩,
    fun f hf hw => ⟨exec_failoverDone_ends hf hw, exec_failoverTimeout_ends hf hw⟩,
    ⟨fun p => State.portsLost_fail p.isLt, fun f => exec_failoverTimeout_runs,
      fun hf => ⟨exec_failoverTimeout_none hf, exec_failoverDone_none hf⟩⟩,
    fun m hm => ⟨fun hbusy => ?_, fun hfree => ?_⟩,
    fun mode hw hf => ⟨State.changeReady_unmoved hw hf, fun he hready => ?_, fun he hready => ?_⟩, State.changeReady_stays⟩
  · have hfed' : (s.opt.combLocks k).feedOf e ≠ 0 := by rwa [OptState.feedOf_combLocks]
    exact (OptState.feedDark_fed hfed').trans (s.opt.feedOf_combLocks k e)
  · exact OptState.feedDark_dark he ((s.opt.feedOf_combLocks k e).trans hdark)
      ((congrArg (fun d => fld d (2 * e) 2) (s.opt.dueFeeds_combLocks k)).trans hdue) (s.opt.comb_combLocks k)
  · exact (exec_combLoss_spare h).trans (congrArg _ (if_neg (by simp [hfailed])))
  · exact (exec_combLoss_spare h).trans (congrArg _ (if_pos hfailed))
  · rw [exec_cmbPaired_eq hm, exec_cmbSingleK0_eq hm, exec_cmbSingleK1_eq hm]
    simp only [State.cmbChange_eq, if_pos hbusy, and_self]
  · rw [exec_cmbPaired_eq hm, exec_cmbSingleK0_eq hm, exec_cmbSingleK1_eq hm]
    simp only [State.cmbChange_eq, if_neg (not_not.mpr hfree)]
    exact ⟨rfl, rfl, rfl⟩
  · exact (State.changeReady_eq hw hf).trans ((if_neg (by simpa using he)).trans (if_pos hready))
  · exact (State.changeReady_eq hw hf).trans ((if_neg (by simpa using he)).trans (if_neg (by simp [hready])))

end Sys2Proof
end
